-- ==== Sys2Proof/Word.lean ====
section
/-! DEFINITION. The words of the device: a course of 12 bits (R55), a byte, the scalar, predicate and vector
registers of a Chisel core (R200), and a tick (R24). -/

namespace Sys2Proof

/-- One course, bit 11 the most significant (R55). -/
abbrev Course := BitVec 12

/-- One byte of an interface or a medium (R56). -/
abbrev Byte := BitVec 8

/-- One scalar register of five courses, course 0 in bits 59:48 (R200). -/
abbrev Scalar := BitVec 60

/-- One predicate register, bit 0 the least significant (R200). -/
abbrev Pred := BitVec 64

/-- One vector register of 64 lanes, lane 0 the most significant course (R200, R218). -/
abbrev Vec := BitVec 768

/-- A count of ticks of 40 ns (R24). -/
abbrev Tick := Nat

/-- The size of the wrap of device time (R24). -/
def tickModulus : Nat := 2 ^ 60

/-- One second in ticks (R27). -/
def second : Nat := 25000000

end Sys2Proof
end

