-- ==== Sys2Proof/Syntax.lean ====
section
/-! DEFINITION. The commands of the block: one constructor of `Instr` for each row of spec/opcode_table.json,
with the operands its rule takes from outside. -/

namespace Sys2Proof

/-- The core that executes a Chisel row: a stone by bay and physical slot (R8, R9), or one of the two lockstep
Quoin pairs, whose two cores retire the same instructions (R16). -/
inductive CoreId where
  | stone (bay slot : Nat)
  | quoin (pair : Nat)
deriving DecidableEq, Repr

/-- The work a token belongs to: an item by its ingress sequence number, or a B-class run (R82, R172). -/
inductive WorkRef where
  | item (seq : Nat)
  | run (num : Nat)
deriving DecidableEq, Repr

/-- The header fields of a command capsule that its meaning uses (R445). -/
structure CmdHdr where
  fence : Bool
  pid : Nat
  gen : Nat
  cid : Nat
  qid : Nat
  descs : List Nat
deriving DecidableEq, Repr

/-- The address of an object with the arch path of the access (R465, R470). -/
structure ObjAddr where
  index : Nat
  sub : Nat
  path : List Nat
deriving DecidableEq, Repr

/-- How an object access came in: by capsule, or over CAN FD on the node's path (R477, R484). -/
inductive ObjSrc where
  | capsule (h : CmdHdr)
  | canfd
deriving DecidableEq, Repr

/-- What a read of a medium reports (R298, R301, R318). -/
inductive ReadObs where
  | clean
  | corrected
  | uncorrectable
deriving DecidableEq, Repr

/-- What a memory access of a core meets on its way: nothing, a corrected or uncorrectable error of the medium
(R301), or a parity error of the line it reads in L1D or the eviction buffer, or in L2 (R298, R299). -/
inductive MemObs where
  | clean
  | corrected
  | uncorrectable
  | l1Parity
  | l2Parity
deriving DecidableEq, Repr

/-- Whose transfer is replayed (R494): a core's, for its firing or the firmware; a ledger record's on its way to the write
buffer; or, in the recording path (R509), an error record's: of a ring by number, on its way from a stone of the bay of that
ring when `stone` says so, and of the place `held` when it lies in the ring already. -/
inductive Transfer494 where
  | core (u : CoreId)
  | ledgerRecord (seq : Nat)
  | errorRecord (ring : Nat) (stone : Option Nat) (held : Option Nat)
deriving DecidableEq, Repr

/-- What starts a Buttress save (R518, R550). -/
inductive SagCause where
  | powerFail
  | input12V
  | coreRail
deriving DecidableEq, Repr

/-- What a power-up step reports (R284, R327, R390, R519, R524, R527, R532). -/
structure StepObs where
  /-- courses of DRAM found, 0 when empty; `none` when the population breaks R284 -/
  dram : Option Nat
  /-- the DIMMs of each channel, 1 or 2, and their rate in MT/s (R284) -/
  dimms : Nat
  dramRate : Nat
  /-- ONFI channels in service, their slowest rate in MT/s and the raw ledger bytes of R391 -/
  onfi : Nat
  nandRate : Nat
  ledgerBytes : Nat
  tsBlocks : Nat
  /-- holdup capacitor: millivolts and microfarads of R519 -/
  vholdMv : Nat
  capUf : Nat
  /-- whether the save area's CRC matched (R524) -/
  saveCrcOk : Bool
deriving DecidableEq, Repr

/-- A parity error found in one copy, or in both, of an answer-table entry (0), flow-table entry (1) or Mortar
tag (2) of an item (R495). -/
structure ParityObs where
  table : Nat
  seq : Nat
  both : Bool
deriving DecidableEq, Repr

/-- The rows of spec/opcode_table.json. -/
inductive Instr where
  -- time (02)
  | deviceTimeTick (badCopies : Nat)
  | refclkLost
  | refclkRestored
  | ppsInEdge
  | ppsEdgeMissed
  | timeMarkWrite
  | syncReqSend (port frac : Nat)
  | syncReqReceive (port frac : Nat) (msg : List Byte)
  | syncRespReceive (port frac : Nat) (msg : List Byte)
  -- items, flows, operators (05, 07, 17)
  | itemSubmit (h : CmdHdr) (port : Nat) (param data : List Byte)
  | itemIngressRelease (seq : Nat)
  | flowQueueLeave (bay : Nat)
  | firingDispatch (bay slot : Nat) (l1iParity : Bool)
  | itemIn (w : WorkRef) (op : Nat)
  | scan (w : WorkRef) (op : Nat)
  | filter (w : WorkRef) (op : Nat)
  | map (w : WorkRef) (op : Nat)
  | decode (w : WorkRef) (op : Nat)
  | encode (w : WorkRef) (op : Nat)
  | keyLookup (w : WorkRef) (op : Nat)
  | keyJoin (w : WorkRef) (op : Nat)
  | hashBuild (w : WorkRef) (op : Nat)
  | hashProbe (w : WorkRef) (op : Nat)
  | mergeJoin (w : WorkRef) (op : Nat)
  | sort (w : WorkRef) (op : Nat)
  | topK (w : WorkRef) (op : Nat)
  | groupAgg (w : WorkRef) (op : Nat)
  | windowAgg (w : WorkRef) (op : Nat)
  | stateGet (w : WorkRef) (op : Nat)
  | stateGetReadDone (seq : Nat)
  | statePut (w : WorkRef) (op : Nat)
  | union (w : WorkRef) (op : Nat)
  | route (w : WorkRef) (op : Nat)
  | digest (w : WorkRef) (op : Nat)
  | verdictOut (w : WorkRef) (op : Nat)
  | resultOut (w : WorkRef) (op : Nat)
  | ledgerAppend (w : WorkRef) (op : Nat)
  | tableAppend (w : WorkRef) (op : Nat)
  | cycleBoundCutoff (u : CoreId)
  -- the arbiter and answers (02, 14)
  | arbiterResultArrival (seq : Nat)
  | arbiterTick (parity : List ParityObs)
  | firingEndConfirm (seq : Nat)
  | statePutAck (seq : Nat)
  | replicaStateAck (seq : Nat)
  | answerMirrorAck (seq : Nat)
  | itemReplay (seq : Nat)
  | inputHashReady (seq : Nat)
  | ledgerRecordEnter
  | answerEgress (slice aq : Nat)
  -- thermal (02, 10)
  | throttleStepChange (bay : Nat) (temp : Int)
  | thermalFloorExit
  | thermalTrip (bay : Nat) (temp : Int)
  | bayReoffer (bay : Nat) (temp : Int) (selfTest : Bool)
  -- Mason (07, 19)
  | bucketLoadMove (bucket dst srcLoad dstLoad : Nat)
  | bucketMoveHandover (bucket : Nat)
  | bayLost (bay : Nat)
  | stoneFault (bay slot : Nat)
  | stoneHangTimeout (bay slot : Nat)
  | heatPeriodHalving
  | ashlarTierMove (slice table col idx tier : Nat)
  | migration (slice va dstFrame : Nat)
  | pinRequest (src : ObjSrc) (table pin : Nat)
  -- Keystone events (10)
  | ksSearchResult (id : Nat) (bad : List Nat)
  | ksUpdateHead (slice table : Nat)
  | ksMove (slice table bank : Nat) (bad : Bool)
  | ksCommit (slice table : Nat)
  | ksFrameStart (bay : Nat)
  | ksParityRewrite (slice table bank pos : Nat)
  | ksCopyRebuild (slice table bank : Nat)
  | ksJournalFold (slice table : Nat)
  | ksLoadSwitch (slice table : Nat)
  -- caches, memory, walks (11, 12)
  | cacheFillSector (bay line : Nat) (obs : ReadObs)
  | evictionWriteback (bay slot : Nat) (parityBad : Bool)
  | l2VictimAck (bay line : Nat)
  | memoryStoreAck (u : CoreId)
  | patrolRead (line : Nat) (obs : ReadObs)
  | pchFailed (pch : Nat)
  | boundPairRebuild (frame newFrame : Nat)
  | dramChannelLost (ch : Nat)
  | rangeSetVisit (bay : Nat)
  | rangeZeroWrite (bay : Nat)
  | rangeOpDone (bay : Nat)
  | walkReadDone (u : CoreId) (obs : ReadObs)
  | invalidateEffect (bay : Nat)
  -- Hod (13)
  | hodCopy (bay ch : Nat)
  | hodFill (bay ch : Nat)
  | hodCompare (bay ch : Nat)
  | hodPack (bay ch : Nat)
  | hodUnpack (bay ch : Nat)
  | hodDisable (bay ch : Nat)
  | hodLineDone (bay ch : Nat) (fault : Option Nat)
  | settVerifyHandoff (bay ch other : Nat) (pass : Bool)
  -- digest lanes, ledger, store (14)
  | digestLaneStart (bay lane : Nat)
  | digestBlockDone (bay lane : Nat)
  | ledgerNandProgram
  | segmentCloseSecond
  | sealMake
  | sealWrite
  | nandPageRefresh (page errors : Nat)
  | tsBlockProgrammed (slice block : Nat)
  | eraseUnitDone (partition : Nat) (thousandths : Nat)
  | sliceResetDrained (slice : Nat)
  -- Gyine and groups (16)
  | flitSend (port : Nat)
  | flitReceivePayload (port : Nat) (flit : List Byte)
  | idleFlitReceive (port : Nat) (flit : List Byte)
  | retryReqReceive (port : Nat) (flit : List Byte)
  | retryReqResend (port : Nat)
  | initReceive (port : Nat) (flit : List Byte)
  | idleKeepaliveSend (port : Nat)
  | keepaliveMiss (port : Nat)
  | laneFault (port lane : Nat)
  | signalDetect (port : Nat)
  | portTrained (port : Nat)
  | portStateTimeout (port : Nat)
  | portTrainingRetry (port : Nat)
  | hello (port : Nat) (msg : List Byte)
  | attestReportReceive (port : Nat) (report : List Byte)
  | memberLossReport (node : Nat)
  | probeTimeout (node : Nat)
  | routeEpochUpdate (epoch : Nat) (routes : List (Nat × Nat))
  | minorityDetected
  | memberJoin (node : Nat) (serial : List Byte) (count : Nat)
  | memberLeave (src : ObjSrc) (node : Nat)
  | leaveDrainComplete (node : Nat)
  -- host commands (17)
  | nop (h : CmdHdr)
  | queueCreate (h : CmdHdr) (qid kind pair depth : Nat)
  | queueDelete (h : CmdHdr) (qid : Nat)
  | queueReset (h : CmdHdr) (qid : Nat)
  | objRead (h : CmdHdr) (a : ObjAddr)
  | objWrite (h : CmdHdr) (a : ObjAddr) (value : List Byte)
  | pipelineLoad (h : CmdHdr) (image : List Byte)
  | pipelineUnload (h : CmdHdr) (ctx : Nat)
  | contextRun (h : CmdHdr) (ctx batchCount : Nat) (data : List Byte)
  | tableCreate (h : CmdHdr) (table columns factor : Nat) (types : List Byte)
  | tableDrop (h : CmdHdr) (table : Nat)
  | ksCreate (h : CmdHdr) (param : List Byte)
  | ksDrop (h : CmdHdr) (table : Nat)
  | ksInsert (h : CmdHdr) (table position : Nat) (entry : List Byte)
  | ksDelete (h : CmdHdr) (table position : Nat)
  | ksLoad (h : CmdHdr) (table count : Nat) (entries : List Byte)
  | ksRead (h : CmdHdr) (table first last : Nat)
  | dgKeyLoad (h : CmdHdr) (slot alg : Nat) (wrapped : List Byte)
  | dgKeyClear (h : CmdHdr) (slot : Nat)
  | ledgerRead (h : CmdHdr) (kind count firstLeaf seqNo : Nat)
  | ledgerProof (h : CmdHdr) (itemId answerTick : Nat)
  | ledgerSealNow (h : CmdHdr)
  | tsWrite (h : CmdHdr) (first count : Nat) (data : List Byte)
  | tsRead (h : CmdHdr) (first count : Nat)
  | tsTrim (h : CmdHdr) (first count : Nat)
  | storeStatus (h : CmdHdr)
  | sanitise (h : CmdHdr) (partition scope mode sealSeq : Nat)
  | format (h : CmdHdr) (partition : Nat)
  | sliceCreate (h : CmdHdr) (slice levels : Nat)
  | sliceReset (h : CmdHdr) (slice : Nat)
  | sliceRemove (h : CmdHdr) (slice : Nat)
  | sliceBind (h : CmdHdr) (pid slice role : Nat)
  | sliceUnbind (h : CmdHdr) (pid : Nat)
  | stateClear (h : CmdHdr) (space : Nat)
  | attest (h : CmdHdr) (nonce : List Byte)
  | fwStage (h : CmdHdr) (offset : Nat) (final : Bool) (data : List Byte)
  | fwActivate (h : CmdHdr)
  -- trust events (21)
  | identityCertIssue
  | fwStateCopyDone
  | fwTrialExpiry
  | trialPairFailure
  | fwStageData (src : ObjSrc) (value : List Byte)
  | svnCommit (src : ObjSrc) (svn : Nat)
  | vendorKeyRevoke (src : ObjSrc) (value : Nat)
  | sliceKek (src : ObjSrc) (slice : Nat) (delivery : List Byte)
  | canfdKeyOperator (src : ObjSrc) (delivery : List Byte)
  | canfdKeyCustodian (src : ObjSrc) (delivery : List Byte)
  | custodianBind (src : ObjSrc) (value : Nat)
  | hssTreeGenerate
  | attestTokenGain
  | debugUnlock (src : ObjSrc) (token : List Byte)
  | debugScrubDone
  -- objects with rows of their own (02, 15, 18)
  | epochSecond (src : ObjSrc) (value : Nat)
  | allotmentWrite (src : ObjSrc) (slice sub value : Nat)
  | overflowClear (src : ObjSrc) (slice ctx : Nat)
  | store (src : ObjSrc) (value : Nat)
  | storeMramDone (ok : Bool)
  | restore (src : ObjSrc) (value : Nat)
  -- CAN FD requests (18)
  | read (frame : List Byte)
  | write (frame : List Byte)
  | segRead (frame : List Byte)
  | segWrite (frame : List Byte)
  | segData (frame : List Byte)
  | segAck (frame : List Byte)
  | abort (frame : List Byte)
  | path (frame : List Byte)
  | sessionOpen (frame : List Byte)
  | sessionProve (frame : List Byte)
  | sessionClose (frame : List Byte)
  | segmentTimeout
  | sessionProofTimeout
  | sessionIdleTimeout
  | sessionLockoutEnd
  | heartbeat
  -- error records and faults (19)
  | coalesceEntryClose (ring : Nat)
  | ringAck (src : ObjSrc) (a : ObjAddr) (n : Nat)
  | ringOverflowClear (src : ObjSrc) (a : ObjAddr) (v : Nat)
  | firstClear (src : ObjSrc) (a : ObjAddr) (v : Nat)
  | transferReplay (x : Transfer494) (attempt : Nat)
  | digestLaneFault (bay lane : Nat)
  | quoinMismatch (pair : Nat)
  | onfiChannelLost (ch : Nat)
  -- power (20)
  | bayIdleTimeout (bay : Nat)
  | bayWakeRequest (bay : Nat)
  | bayWakeDone (bay : Nat)
  | hubIdleTimeout
  | hubWake
  | hbmSelfRefreshEntry (dram : Bool)
  | hbmSelfRefreshExit (dram : Bool)
  | vholdMeasure (mv : Nat)
  | sagDetect (cause : SagCause)
  | saveSetWritten
  | heldTickWrite
  | vholdExhausted
  | supplyReturnInHold
  -- rails, straps, power-up (20, 22)
  | vauxValid (canNode medium : Nat) (testEn : Bool)
  | pgoodRise (k : Nat)
  | pgoodTimeout (k : Nat)
  | pgoodFall (k : Nat)
  | resetN
  | powerUpStepDone (obs : StepObs)
  | registerWrite (ca : Nat) (value : List Course)
  -- Chisel scalar (08, R213)
  | add (u : CoreId) (g : Fin 8) (rd ra rb : Fin 32)
  | sub (u : CoreId) (g : Fin 8) (rd ra rb : Fin 32)
  | adds (u : CoreId) (g : Fin 8) (rd ra rb : Fin 32)
  | subs (u : CoreId) (g : Fin 8) (rd ra rb : Fin 32)
  | mul (u : CoreId) (g : Fin 8) (rd ra rb : Fin 32)
  | mulh (u : CoreId) (g : Fin 8) (rd ra rb : Fin 32)
  | mulhu (u : CoreId) (g : Fin 8) (rd ra rb : Fin 32)
  | and (u : CoreId) (g : Fin 8) (rd ra rb : Fin 32)
  | or (u : CoreId) (g : Fin 8) (rd ra rb : Fin 32)
  | xor (u : CoreId) (g : Fin 8) (rd ra rb : Fin 32)
  | andn (u : CoreId) (g : Fin 8) (rd ra rb : Fin 32)
  | shl (u : CoreId) (g : Fin 8) (rd ra rb : Fin 32)
  | shr (u : CoreId) (g : Fin 8) (rd ra rb : Fin 32)
  | sar (u : CoreId) (g : Fin 8) (rd ra rb : Fin 32)
  | min (u : CoreId) (g : Fin 8) (rd ra rb : Fin 32)
  | max (u : CoreId) (g : Fin 8) (rd ra rb : Fin 32)
  | minu (u : CoreId) (g : Fin 8) (rd ra rb : Fin 32)
  | maxu (u : CoreId) (g : Fin 8) (rd ra rb : Fin 32)
  | popc (u : CoreId) (g : Fin 8) (rd ra : Fin 32)
  | clz (u : CoreId) (g : Fin 8) (rd ra : Fin 32)
  | sext (u : CoreId) (g : Fin 8) (n : Nat) (rd ra : Fin 32)
  | zext (u : CoreId) (g : Fin 8) (n : Nat) (rd ra : Fin 32)
  -- immediates, compares, predicates (R214)
  | addi (u : CoreId) (g : Fin 8) (rd ra : Fin 32) (imm : BitVec 17)
  | andi (u : CoreId) (g : Fin 8) (rd ra : Fin 32) (imm : BitVec 17)
  | ori (u : CoreId) (g : Fin 8) (rd ra : Fin 32) (imm : BitVec 17)
  | xori (u : CoreId) (g : Fin 8) (rd ra : Fin 32) (imm : BitVec 17)
  | shli (u : CoreId) (g : Fin 8) (rd ra : Fin 32) (amount : BitVec 6)
  | shri (u : CoreId) (g : Fin 8) (rd ra : Fin 32) (amount : BitVec 6)
  | sari (u : CoreId) (g : Fin 8) (rd ra : Fin 32) (amount : BitVec 6)
  | li (u : CoreId) (g : Fin 8) (rd : Fin 32) (imm : BitVec 22)
  | lih (u : CoreId) (g : Fin 8) (rd : Fin 32) (imm : BitVec 20)
  | cmp (u : CoreId) (g : Fin 8) (cc : Nat) (pd : Fin 8) (ra rb : Fin 32)
  | cmpi (u : CoreId) (g : Fin 8) (cc : Nat) (pd : Fin 8) (ra : Fin 32) (imm : BitVec 14)
  | pand (u : CoreId) (g : Fin 8) (pd pa pb : Fin 8)
  | por (u : CoreId) (g : Fin 8) (pd pa pb : Fin 8)
  | pxor (u : CoreId) (g : Fin 8) (pd pa pb : Fin 8)
  | pandn (u : CoreId) (g : Fin 8) (pd pa pb : Fin 8)
  | pnot (u : CoreId) (g : Fin 8) (pd pa : Fin 8)
  | pmov (u : CoreId) (g : Fin 8) (pd : Fin 8) (ra : Fin 32)
  | pget (u : CoreId) (g : Fin 8) (rd : Fin 32) (pa : Fin 8)
  | ppop (u : CoreId) (g : Fin 8) (rd : Fin 32) (pa : Fin 8)
  | pfirst (u : CoreId) (g : Fin 8) (rd : Fin 32) (pa : Fin 8)
  -- decimal (R215, R216)
  | dadd (u : CoreId) (g : Fin 8) (rd ra rb : Fin 32)
  | dsub (u : CoreId) (g : Fin 8) (rd ra rb : Fin 32)
  | daddC (u : CoreId) (g : Fin 8) (rd ra rb : Fin 32)
  | dmul (u : CoreId) (g : Fin 8) (rd ra rb : Fin 32)
  | dmulW (u : CoreId) (g : Fin 8) (rd ra rb : Fin 32)
  | dabs (u : CoreId) (g : Fin 8) (rd ra : Fin 32)
  | dneg (u : CoreId) (g : Fin 8) (rd ra : Fin 32)
  | dcmpEq (u : CoreId) (g : Fin 8) (pd : Fin 8) (ra rb : Fin 32)
  | dcmpNe (u : CoreId) (g : Fin 8) (pd : Fin 8) (ra rb : Fin 32)
  | dcmpLt (u : CoreId) (g : Fin 8) (pd : Fin 8) (ra rb : Fin 32)
  | dcmpGe (u : CoreId) (g : Fin 8) (pd : Fin 8) (ra rb : Fin 32)
  | dext (u : CoreId) (g : Fin 8) (n : Nat) (rd ra : Fin 32)
  | dpack (u : CoreId) (g : Fin 8) (n : Nat) (rd ra : Fin 32)
  | dcvtD (u : CoreId) (g : Fin 8) (rd ra : Fin 32)
  | dcvtI (u : CoreId) (g : Fin 8) (n : Nat) (rd ra : Fin 32)
  | dcvtU (u : CoreId) (g : Fin 8) (n : Nat) (rd ra : Fin 32)
  | dfit (u : CoreId) (g : Fin 8) (rd ra : Fin 32) (wide : Bool) (k n : Nat)
  | dsl (u : CoreId) (g : Fin 8) (rd ra : Fin 32) (k : Nat)
  -- vector (R218-R220); e is the field E, 0 to 3
  | vadd (u : CoreId) (g : Fin 8) (e : Fin 4) (vd va vb : Fin 16)
  | vsub (u : CoreId) (g : Fin 8) (e : Fin 4) (vd va vb : Fin 16)
  | vmin (u : CoreId) (g : Fin 8) (e : Fin 4) (vd va vb : Fin 16)
  | vmax (u : CoreId) (g : Fin 8) (e : Fin 4) (vd va vb : Fin 16)
  | vminu (u : CoreId) (g : Fin 8) (e : Fin 4) (vd va vb : Fin 16)
  | vmaxu (u : CoreId) (g : Fin 8) (e : Fin 4) (vd va vb : Fin 16)
  | vand (u : CoreId) (g : Fin 8) (e : Fin 4) (vd va vb : Fin 16)
  | vor (u : CoreId) (g : Fin 8) (e : Fin 4) (vd va vb : Fin 16)
  | vxor (u : CoreId) (g : Fin 8) (e : Fin 4) (vd va vb : Fin 16)
  | vsel (u : CoreId) (g : Fin 8) (pm : Fin 8) (e : Fin 4) (vd va vb : Fin 16)
  | vshl (u : CoreId) (g : Fin 8) (e : Fin 4) (vd va : Fin 16) (rb : Fin 32)
  | vshr (u : CoreId) (g : Fin 8) (e : Fin 4) (vd va : Fin 16) (rb : Fin 32)
  | vsar (u : CoreId) (g : Fin 8) (e : Fin 4) (vd va : Fin 16) (rb : Fin 32)
  | vbc (u : CoreId) (g : Fin 8) (e : Fin 4) (vd : Fin 16) (ra : Fin 32)
  | vext (u : CoreId) (g : Fin 8) (e : Fin 4) (rd : Fin 32) (va : Fin 16) (rb : Fin 32)
  | vredadd (u : CoreId) (g : Fin 8) (e : Fin 4) (rd : Fin 32) (va : Fin 16)
  | vhash (u : CoreId) (g : Fin 8) (e : Fin 4) (vd va : Fin 16)
  | vcmp (u : CoreId) (g : Fin 8) (cc : Nat) (e : Fin 4) (pd : Fin 8) (va vb : Fin 16)
  | vgath (u : CoreId) (g : Fin 8) (inp : Bool) (e : Fin 4) (vd : Fin 16) (ra : Fin 32) (vb : Fin 16) (bad : Bool)
  | vdict (u : CoreId) (g : Fin 8) (inp : Bool) (e : Fin 4) (vd : Fin 16) (ra : Fin 32) (vb : Fin 16) (bad : Bool)
  | vunpk (u : CoreId) (g : Fin 8) (inp : Bool) (w : Nat) (signed : Bool) (e : Fin 4) (vd : Fin 16) (ra rb : Fin 32) (bad : Bool)
  | vpack (u : CoreId) (g : Fin 8) (w : Nat) (e : Fin 4) (va : Fin 16) (ra rb : Fin 32)
  -- loads and stores (R221); `bad` marks a parity error of the scratch read (R298)
  | ls (u : CoreId) (g : Fin 8) (n : Nat) (x : Bool) (rd ra : Fin 32) (off : BitVec 13) (bad : Bool)
  | ss (u : CoreId) (g : Fin 8) (n : Nat) (rd ra : Fin 32) (off : BitVec 13)
  | lt (u : CoreId) (g : Fin 8) (n : Nat) (x : Bool) (rd ra : Fin 32) (off : BitVec 13) (bad : Bool)
  | lm (u : CoreId) (g : Fin 8) (n : Nat) (x : Bool) (rd ra : Fin 32) (off : BitVec 13) (obs : MemObs)
  | sm (u : CoreId) (g : Fin 8) (n : Nat) (rd ra : Fin 32) (off : BitVec 13) (obs : MemObs)
  | vls (u : CoreId) (g : Fin 8) (e : Fin 4) (vd : Fin 16) (ra : Fin 32) (off : BitVec 13) (bad : Bool)
  | vss (u : CoreId) (g : Fin 8) (e : Fin 4) (vd : Fin 16) (ra : Fin 32) (off : BitVec 13)
  | vlt (u : CoreId) (g : Fin 8) (e : Fin 4) (vd : Fin 16) (ra : Fin 32) (off : BitVec 13) (bad : Bool)
  | vlm (u : CoreId) (g : Fin 8) (e : Fin 4) (vd : Fin 16) (ra : Fin 32) (off : BitVec 13) (obs : MemObs)
  | vsm (u : CoreId) (g : Fin 8) (e : Fin 4) (vd : Fin 16) (ra : Fin 32) (off : BitVec 13) (obs : MemObs)
  -- engines (R226-R229)
  | ksFind (u : CoreId) (g : Fin 8) (rd ra : Fin 32) (loc : BitVec 8)
  | ksIns (u : CoreId) (g : Fin 8) (ra rb : Fin 32) (loc : BitVec 8)
  | ksDel (u : CoreId) (g : Fin 8) (rb : Fin 32) (loc : BitVec 8)
  | emit (u : CoreId) (g : Fin 8) (port : Fin 8) (ra rb : Fin 32)
  | dgSub (u : CoreId) (g : Fin 8) (ra : Fin 32)
  | dgWait (u : CoreId) (g : Fin 8)
  | tlock (u : CoreId) (g : Fin 8) (rd ra : Fin 32)
  | tunlock (u : CoreId) (g : Fin 8) (ra : Fin 32)
  -- control (R230-R232)
  | br (u : CoreId) (g : Fin 8) (cc : Nat) (annul : Bool) (ra rb : Fin 32) (off : BitVec 13)
  | j (u : CoreId) (g : Fin 8) (off : BitVec 26)
  | call (u : CoreId) (g : Fin 8) (off : BitVec 26)
  | jr (u : CoreId) (g : Fin 8) (ra : Fin 32)
  | callr (u : CoreId) (g : Fin 8) (ra : Fin 32)
  | ret (u : CoreId) (g : Fin 8) (ra : Fin 32)
  | nopInstruction (u : CoreId) (g : Fin 8)
  | endFiring (u : CoreId) (g : Fin 8)
  | fence (u : CoreId) (g : Fin 8)
  | rdctl (u : CoreId) (g : Fin 8) (rd : Fin 32) (num : BitVec 8)
  | wrctl (u : CoreId) (g : Fin 8) (ra : Fin 32) (num : BitVec 8)
  -- supervisor (R234-R236)
  | tinvA (u : CoreId) (g : Fin 8) (ra rb : Fin 32)
  | tinvT (u : CoreId) (g : Fin 8) (rb : Fin 32)
  | tinvAll (u : CoreId) (g : Fin 8)
  | tsync (u : CoreId) (g : Fin 8) (ra : Fin 32)
  | crangeClean (u : CoreId) (g : Fin 8) (rd ra rb : Fin 32)
  | crangeInv (u : CoreId) (g : Fin 8) (rd ra rb : Fin 32)
  | crangeCinv (u : CoreId) (g : Fin 8) (rd ra rb : Fin 32)
  | crangeZero (u : CoreId) (g : Fin 8) (rd ra rb : Fin 32)
  | lease (u : CoreId) (g : Fin 8) (rd ra rb : Fin 32)
  | scrub (u : CoreId) (g : Fin 8) (ra : Fin 32)
  | borrow (u : CoreId) (g : Fin 8)
  | sret (u : CoreId) (g : Fin 8)
  -- the table's last rows
  | canfdBusError (transmit : Bool) (weight : Nat)
  | canfdBusOffRecovery
  | railSequenceRetry
  | standbyPairReady
deriving DecidableEq, Repr

end Sys2Proof
end

