-- ==== Sys2Proof/Decode.lean ====
section
/-! DEFINITION. The decoder of table words. No row of spec/opcode_table.json gives bits (its rows carry neither
fixed bits nor fields), so no word spells a command. -/

namespace Sys2Proof

/-- The command a word spells by the table's bits, over the rows that give bits: there are none. -/
def decodeTableWord (_nbits _w : Nat) : Option Instr := none

end Sys2Proof
end

