-- ==== Sys2Proof/Config.lean ====
section
/-! DEFINITION. What the manual leaves open or only names: free values, the standards it names without restating
(hashes, ciphers, signatures), and what is fixed in one part at manufacture. Every constant here is opaque: it has
no body, so nothing can be proved of its value. -/

namespace Sys2Proof.Config

/-- The free values, one for each count of `State.free` (assumption 4: DESIGN CHOICE). -/
opaque freeValue : Nat → Nat

/-- Random bits of the device (R293, R427, R488, R546), one for each count of `State.free` (assumption 5: DESIGN CHOICE). -/
opaque random : Nat → Nat

/-- The hash of an algorithm number of R358 under a key (empty when unkeyed), with the tag length (R144, R362). -/
opaque digestTag : Nat → List Byte → List Byte → Nat → List Byte

/-- The chaining state of an algorithm number under a key after whole blocks of a message (R369). -/
opaque digestState : Nat → List Byte → List Byte → List Byte

/-- SHA-384 of FIPS 180-4, as the ledger and the identity chapters name it (R371, R375, R533). -/
opaque sha384 : List Byte → List Byte

/-- AES key wrap with padding, unwrapping direction: key, wrapped (R359, R542). -/
opaque kwpUnwrap : List Byte → List Byte → Option (List Byte)

/-- The wrapping key of a delivery: current measurement, header bytes (R542). -/
opaque deliveryKey : List Byte → List Byte → List Byte

/-- ECDSA P-384 verification: public key, message, signature (R105, R532, R546). -/
opaque ecdsaVerify : List Byte → List Byte → List Byte → Bool

/-- HSS verification: public key, message, signature (R532). -/
opaque hssVerify : List Byte → List Byte → List Byte → Bool

/-- ECDSA signature of the key derived from a measurement: measurement, message (R536, R377, R540). -/
opaque ecdsaSign : List Byte → List Byte → List Byte

/-- HSS signature under a leaf index: index, message (R538). -/
opaque hssSign : Nat → List Byte → List Byte

/-- The identity and transport public keys derived from a measurement, 97 bytes each (R536). -/
opaque identityKeys : List Byte → List Byte

/-- The first 16 bytes of HMAC-SHA-384 under a key (R488). -/
opaque sessionProof : List Byte → List Byte → List Byte

/-- Whether both signatures of a DEVICE_CERT verify under the vendor set it names (R428, R537, R541). -/
opaque vendorSigned : List Byte → Bool

/-- The token stream the compressor codes for transformed courses (R353). -/
opaque settCode : List Course → List Course

/-- The serial number of this part, 16 bytes (R490). -/
opaque serial : List Byte

/-- ROM_VERSION and the ROM's measurement (R490, R533). -/
opaque romVersion : Nat
opaque romMeasurement : List Byte

/-- The device certificate of manufacture (R537). -/
opaque deviceCert : List Byte

/-- OTP hashes of vendor key set k: ECDSA then HSS (R530). -/
opaque vendorHash : Nat → List Byte

/-- HANDOVER formats the running stage 1 accepts (R543). -/
opaque handoverOk : Nat → Nat → Bool

/-- The seed of a bay's random register at power-up (R293). -/
opaque lfsrSeed : Nat → Nat

/-- The page of a slice space at which the device maps the CONSTANTS data of a context, ctl.cbase, by context number (R202)
(assumption 18: DESIGN CHOICE). -/
opaque constPage : Nat → BitVec 30

/-- The data a host buffer holds for an inbound transfer, by byte address (R346). -/
opaque hostByte : Nat → Byte

/-- The hash of an instruction index and the last four indirect targets that indexes the indirect-target table (R250). -/
opaque targetHash : Nat → List Nat → Nat

/-- Lines of the longest bucket chain of a hash table, from the key hashes of its rows in build order and the courses of
a row image (R132). -/
opaque chainLines : List Nat → Nat → Nat

/-- Milliwatts drawn, as the plinth averages them (R528), by tick. -/
opaque power : Nat → Nat

/-- Junction temperature, in °C, of a bay that has reported none yet (R528). -/
opaque bayTemp : Nat → Int

/-- The state byte of STORE_STATUS for what a partition is doing: 0 nothing, 1 a sanitise, 2 a format (R460). -/
opaque storeState : Nat → Byte

/-- Corrected errors of a page at which it is rewritten (R391). -/
opaque nandLimit : Nat

end Sys2Proof.Config
end

