-- ==== Sys2Proof/Machine/State.lean ====
section
/-! DEFINITION. The state of the device as plain data, its reset value, and the closed lists of faults and
refusals. Tables are lists of key and value pairs; a key that is not listed reads the default its accessor in
Sys2Proof/Machine/Ops.lean names. -/

namespace Sys2Proof.Machine

/-! ### Objects (18) -/

/-- The key of an object's value: index, subindex, the arch path of the unit that holds it, and the slice it
counts for (0 for the device itself) (R465, R471, R474). -/
structure ObjKey where
  index : Nat
  sub : Nat
  path : List Nat
  slice : Nat
deriving DecidableEq, Repr

/-- The value of an object: a number, or an octet string (R466). -/
inductive ObjVal where
  | num (n : Nat)
  | bytes (b : List Byte)
deriving DecidableEq, Repr

/-! ### Time (02) -/

/-- One TIME_MARK slot in MRAM (R28). -/
structure Mark where
  tick : Tick
  valid : Bool
deriving DecidableEq, Repr

/-- Plumb and the time objects (R24-R29). -/
structure TimeSt where
  count : Tick
  slew : Int
  ppsState : Nat
  ppsMisses : Nat
  ppsSeen : Bool
  /-- the tick of the latest valid edge -/
  ppsLast : Tick
  aligned : Bool
  epochArmed : Bool
  epochTick : Tick
  refState : Nat
  marks : List Mark
  markNext : Nat
  heldTick : Tick
  ppsOutSince : Option Tick
deriving DecidableEq, Repr

/-- Throttle steps and the thermal floor (R46-R49, R272, R273, R499). -/
structure ThermSt where
  temps : List (Nat × Int)
  steps : List (Nat × Nat)
  /-- since when a bay's temperature is at least 3 °C below the threshold of a step: bay × 4 + step, tick (R273) -/
  coolSince : List (Nat × Tick)
  floor : Bool
  /-- the step that caused the condition of R46, and since when every bay has met the first part of R49 -/
  floorStep : Nat
  floorCool : Option Tick
  bSuspended : Bool
  shedding : Bool
  atRisk : List Nat
  /-- bays off by the 110 °C trip, with the tick since which they are below 95 °C -/
  tripped : List (Nat × Option Tick)
deriving DecidableEq, Repr

/-! ### Slices, queues and capsules (15, 17) -/

/-- A generation raise in progress (R400-R404): the command that asked for it and the slice of its binding, whether it
removes the slice, and whether the generation has risen. -/
structure Raise where
  h : CmdHdr
  home : Nat
  remove : Bool
  raised : Bool
deriving DecidableEq, Repr

/-- One slice (R398-R400, R411). -/
structure SliceSt where
  state : Nat
  gen : Nat
  levels : Nat
  root : Nat
  kek : Option (List Byte)
  pendingMask : Nat
  /-- the reset or removal in progress -/
  resetting : Option Raise
deriving DecidableEq, Repr

/-- A binding of the binding table; roles are 0 Tenant, 1 Operator, 2 Custodian (R395). -/
structure Binding where
  pid : Nat
  slice : Nat
  role : Nat
deriving DecidableEq, Repr

/-- One queue (R442, R443). -/
structure Queue where
  slice : Nat
  qid : Nat
  kind : Nat
  pair : Nat
  depth : Nat
  accepted : Nat
  outstanding : List Nat
deriving DecidableEq, Repr

/-- One completion as posted (R451). -/
structure Completion where
  queue : Nat
  slice : Nat
  cid : Nat
  status : Nat
  gen : Nat
  qid : Nat
  sqHead : Nat
  resultLen : Nat
  detail : Nat
  result : List Byte
  check : Nat
  /-- the Gyine port of its command, and whether it has been handed to a port -/
  port : Nat
  tx : Bool
deriving DecidableEq, Repr

/-- One answer capsule (R458). -/
structure AnswerOut where
  aq : Nat
  slice : Nat
  ctx : Nat
  gen : Nat
  itemId : Nat
  arrival : Tick
  tick : Tick
  flags : Course
  status : Nat
  answer : List Course
  /-- the Gyine port of its item, and whether it has been handed to a port -/
  port : Nat
  tx : Bool
deriving DecidableEq, Repr

/-- One result capsule (R459); `last` marks END. -/
structure ResultOut where
  last : Bool
  rq : Nat
  slice : Nat
  ctx : Nat
  gen : Nat
  run : Nat
  seq : Nat
  rows : List (List Course)
  rowCourses : Nat
  status : Nat
  total : Nat
  /-- it has been handed to a port -/
  tx : Bool
deriving DecidableEq, Repr

/-- A command that waits for its condition (R453). -/
inductive Waiting where
  | unload (h : CmdHdr) (slice ctx : Nat)
  | run (h : CmdHdr) (slice num : Nat)
  /-- a KS_INSERT or KS_DELETE that a full update queue holds (R267) -/
  | ksEnter (h : CmdHdr) (slice table kind pos : Nat) (images : List (List Course))
  | ksUpdate (h : CmdHdr) (slice table id : Nat)
  | ksLoad (h : CmdHdr) (slice id : Nat)
  | ksDrop (h : CmdHdr) (slice table : Nat)
  | proof (h : CmdHdr) (slice itemId tick : Nat)
  | sealNow (h : CmdHdr) (slice tick : Nat)
  | tsWrite (h : CmdHdr) (slice first count : Nat)
  | tsRead (h : CmdHdr) (slice first count : Nat)
  | tsTrim (h : CmdHdr) (slice first count : Nat)
  | erase (h : CmdHdr) (partition : Nat)
  | attest (h : CmdHdr) (nonce : List Byte)
  | activate (h : CmdHdr)
  | store (h : CmdHdr)
deriving DecidableEq, Repr

/-- An accepted capsule that has not started (R448, R450), with the binding that sent it (R396), and its command once that
has come and waits to start (R446, R398, R15). -/
structure Accepted where
  pid : Nat
  role : Nat
  slice : Nat
  qid : Nat
  cid : Nat
  opcode : Nat
  port : Nat
  row : Option Instr
deriving DecidableEq, Repr

/-- The host side of the device (R442-R464). -/
structure HostSt where
  queues : List Queue
  accepted : List Accepted
  waiting : List Waiting
  completions : List Completion
  answers : List AnswerOut
  results : List ResultOut
  /-- credits of the LEDGER_RATE bucket of each slice, in bytes (R408) -/
  bucket : List (Nat × Nat)
  /-- the ports of the commands that are outstanding: slice, QID, CID (R440) -/
  cmdPort : List ((Nat × Nat × Nat) × Nat)
deriving DecidableEq, Repr

/-! ### Images, rows and tokens (03, 04, 05, 06) -/

/-- A type descriptor (R63). -/
structure TypeDesc where
  kind : Nat
  n : Nat
  param : Nat
deriving DecidableEq, Repr

/-- The layout of a port: a list of field types, or a fixed layout by CODE and ARG (R111-R114). -/
inductive Layout where
  | fields (ts : List TypeDesc)
  | fixed (code arg : Nat)
deriving DecidableEq, Repr

/-- One row (R110): the courses of each field, its validity bits and its overflow mark. -/
structure Row where
  fields : List (List Course)
  valid : List Bool
  ovf : Bool
  /-- the record bytes of an ITEM row, which stay outside the row (R113, R457) -/
  record : List Byte := []
deriving DecidableEq, Repr

/-- One token (R111): its rows, the state area of a STATE token, and the rows of a BUILD token. -/
structure Token where
  layout : Layout
  rows : List Row
  area : List Course
  build : List Row
  /-- the batch of a run it serves (R172); `none` in an item and for a token that serves the whole run -/
  batch : Option Nat
deriving DecidableEq, Repr

/-- A template field record (R153). -/
structure TField where
  kind : Nat
  charset : Nat
  pform : Nat
  plen : Nat
  required : Bool
  bit : Nat
  maxLen : Nat
  conv : Nat
  recScale : Nat
  outType : TypeDesc
  tag : List Byte
deriving DecidableEq, Repr

/-- A template (R152). -/
structure Template where
  rowCourses : Nat
  maxRecord : Nat
  trail : Bool
  fields : List TField
deriving DecidableEq, Repr

/-- An operator record with the image course offset of its first parameter (R92). -/
structure Operator where
  code : Nat
  nin : Nat
  nout : Nat
  params : List Course
  at_ : Nat
deriving DecidableEq, Repr

/-- An edge record (R92). -/
structure Edge where
  src : Nat
  sport : Nat
  dst : Nat
  dport : Nat
deriving DecidableEq, Repr

/-- A kernel record (R96). -/
structure Kernel where
  code : List Nat
  budget : Nat
  cycleBound : Nat
  scratch : Nat
  predict : Bool
  at_ : Nat
deriving DecidableEq, Repr

/-- A Keystone declaration (R100). -/
structure KsDecl where
  loc : Nat
  mode : Nat
  key : Nat
  table : Nat
  write : Bool
  at_ : Nat
deriving DecidableEq, Repr

/-- The declared bounds (R101). -/
structure Bounds where
  rate : Nat
  burst : Nat
  flowBurst : Nat
  stoneCycles : Nat
  keySearches : Nat
  hbmLines : Nat
  quarryBytes : Nat
  digestBytes : Nat
  ledgerBytes : Nat
  service : Nat
deriving DecidableEq, Repr

/-- A copy entry of the fallback record (R103). -/
structure CopyEntry where
  src : Nat
  len : Nat
  dst : Nat
deriving DecidableEq, Repr

/-- A loaded image (R86-R105). -/
structure Image where
  cls : Nat
  pipelineId : Nat
  version : Nat
  deadline : Nat
  flowSrc : Nat
  flowBytes : Nat
  flowOffset : Nat
  ops : List Operator
  edges : List Edge
  kernels : List Kernel
  constants : List Course
  templates : List Template
  decls : List KsDecl
  bounds : Bounds
  fallback : List Course
  copies : List CopyEntry
deriving DecidableEq, Repr

/-- One pipeline context (R83, R199). `cls` is the class it runs in; `state` is the STATE of its record. -/
structure Context where
  num : Nat
  slice : Nat
  image : Image
  cls : Nat
  state : Nat
  overflow : Bool
  dAdm : Nat
  w : Nat
  g : Nat
  credits : Nat
  order : Nat
  nItems : Nat
  nFallbacks : Nat
  nDemoted : Nat
  nMatchesDropped : Nat
  nCaps : Nat
deriving DecidableEq, Repr

/-- The token waiting on an input port of an operator (R172). -/
structure PortTok where
  op : Nat
  port : Nat
  toks : List Token
  /-- the stream's end mark has arrived (R116) -/
  ended : Bool
deriving DecidableEq, Repr

/-- What an item or batch has been charged (R109). -/
structure Charges where
  stoneCycles : Nat
  keySearches : Nat
  hbmLines : Nat
  digestBytes : Nat
  ledgerBytes : Nat
deriving DecidableEq, Repr

/-- The tokens of one item or run in its graph, the operators that have fired, and its charges. -/
structure Work where
  toks : List PortTok
  fired : List Nat
  /-- of an item, or of what a run is charged outside its batches (R109, R565) -/
  charges : Charges
  /-- of each batch of a run -/
  batchCharges : List (Nat × Charges)
  /-- rows held by an operator between its own steps: a Keystone operator's results, a stream operator's input -/
  held : List (Nat × List Row)
deriving DecidableEq, Repr

/-- Where an item stands on its journey (R18). -/
inductive Stage where
  | heldAnswer
  | heldFlow
  | queued
  | inService
  | done
deriving DecidableEq, Repr

/-- One answered item: what the arbiter released (R37, R41). -/
structure Answer where
  tick : Tick
  flags : Course
  answer : List Course
deriving DecidableEq, Repr

/-- One item: its answer-table entry, its ingress copy and its journey (R18-R23). -/
structure Item where
  seq : Nat
  slice : Nat
  gen : Nat
  ctx : Nat
  itemId : Nat
  iq : Nat
  port : Nat
  arrival : Tick
  deadline : Tick
  override_ : Bool
  record : List Byte
  flowKey : List Byte
  cls : Nat
  demoted : Bool
  /-- class and deadline inherited from waiters (R179) -/
  inhCls : Nat
  inhDeadline : Tick
  stage : Stage
  bay : Nat
  work : Work
  /-- the item row and the course ranges of it that are decoded (R165) -/
  rowCourses : List Course
  rowKnown : List (Nat × Nat)
  cause : Nat
  verdict : Option (List Course)
  verdictTick : Option Tick
  /-- the G-class verdict waits for the replica (R20) -/
  answer : Option Answer
  /-- 0 none, 1 emitted, 2 written through and acknowledged, 3 cancelled (R21, R38) -/
  putStage : Nat
  putArea : List Course
  putSpace : Nat
  replicaAcked : Bool
  windowPuts : List (Nat × List Course)
  appends : List (Nat × List Row)
  stateReadDone : Bool
  stateRead : List Course
  stateNew : Bool
  mortar : Nat
  /-- the context whose reservation its Mortar entries are drawn on; `none` for the unreserved entries (R174) -/
  drawn : Option Nat
  lockHeld : Bool
  ended : Bool
  hashReady : Bool
  extension : List Course
  recorded : Bool
  /-- its record's append is acknowledged (R373, R519) -/
  acked : Bool
  mirrored : Bool
  sent : Bool
  replays : Nat
  /-- it has been through a load move of its bucket (R182) -/
  moved : Bool
  /-- a fault ended its firing and no replay has been decided yet (R43) -/
  faulted : Bool
deriving DecidableEq, Repr

/-- A published hash table (R132). -/
structure HashTab where
  slice : Nat
  id : Nat
  rows : List Row
  layout : List TypeDesc
  keyField : Nat
  keyCount : Nat
  chain : Nat
deriving DecidableEq, Repr

/-- An ashlar of a column: its courses, its heat and its tier: 0 HBM, 1 DRAM, 2 store, 3 poisoned with the DRAM it lay in (R71, R193,
R303). -/
structure Ashlar where
  courses : List Course
  heat : Nat
  coldPeriods : Nat
  tier : Nat
deriving DecidableEq, Repr

/-- A dictionary of DICT ashlars, by identifier and version (R80). -/
structure Dict where
  id : Nat
  version : Nat
  ashlars : List (List Course)
deriving DecidableEq, Repr

/-- A column table (R462, R195, R196). -/
structure Table where
  slice : Nat
  id : Nat
  cols : List TypeDesc
  factor : Nat
  columns : List (List Ashlar)
  pin : Nat
  pinOrder : Nat
deriving DecidableEq, Repr

/-- One B-class run (R116). -/
structure Run where
  num : Nat
  slice : Nat
  gen : Nat
  ctx : Nat
  start : Tick
  batches : List (List Byte)
  work : Work
  /-- the scanned tables and the probed hash tables as they stood when the run started (R125, R133) -/
  scans : List Table
  probes : List HashTab
  scanAt : List (Nat × Nat)
  appends : List (Nat × List Row)
  publishes : List HashTab
  /-- the batches that were granted Mortar entries, each with its bay (R173) -/
  granted : List (Nat × Nat)
  /-- its RESULT_OUT operators, the capsules numbered and the rows delivered so far (R459) -/
  results : List Nat
  outSeq : Nat
  outRows : Nat
  status : Option Nat
  finished : Bool
deriving DecidableEq, Repr

/-- A firing that is ready (R167). -/
structure Ready where
  w : WorkRef
  op : Nat
  kernel : Nat
deriving DecidableEq, Repr

/-- Flow state of one key of a state space (R141). -/
structure FlowState where
  slice : Nat
  space : Nat
  key : List Byte
  area : List Course
deriving DecidableEq, Repr

/-- Window state of one key of a window space (R140). -/
structure WindowState where
  slice : Nat
  window : Nat
  key : List Byte
  courses : List Course
deriving DecidableEq, Repr

/-- The appends of an answered item to one table, which become visible in order of answer tick and then of item arrival
(R148). -/
structure AppendTurn where
  seq : Nat
  slice : Nat
  table : Nat
  tick : Tick
  arrival : Tick
  rows : List Row
deriving DecidableEq, Repr

/-- Mason (07). -/
structure MasonSt where
  buckets : List (Nat × Nat)
  moves : List (Nat × Nat × Tick)
  /-- stone (bay, physical slot), slice, start tick -/
  leases : List ((Nat × Nat) × Nat × Tick)
  /-- logical positions held by another slot than their own: (bay, logical), physical -/
  slots : List ((Nat × Nat) × Nat)
  fencedStones : List (Nat × Nat)
  lostBays : List Nat
  fencedLanes : List (Nat × Nat)
  warm : List Nat
  g : List (Nat × Nat)
  ready : List Ready
  bUse : Nat
  bWindow : Tick
  nextOrder : Nat
  /-- the last halving of the ashlar heat counters, and whether demotion from HBM is under way (R193) -/
  heatAt : Tick
  demoting : Bool
  /-- the tick of the latest stone failure of each bay (R497) -/
  stoneFaults : List (Nat × Tick)
  /-- appends of answered items that wait for their turn -/
  turns : List AppendTurn
deriving DecidableEq, Repr

/-! ### Chisel cores (08, 09) -/

/-- The names of a schedule: scalar, vector and predicate registers, and the work area (R239). -/
inductive RegName where
  | s (i : Nat)
  | v (i : Nat)
  | p (i : Nat)
  | ctl (num : Nat)
  | work
deriving DecidableEq, Repr

/-- The metered schedule of a firing (R239-R245). -/
structure Sched where
  /-- earliest cycle of the next issue, and of the issue after a delay slot (R244) -/
  next : Nat
  after : Nat
  /-- issue cycle of the last instruction -/
  last : Nat
  sFree : Nat
  vFree : Nat
  ready : List (RegName × Nat)
  ackAt : Nat
  tagAt : Nat
  /-- the last instruction may pair with the next one: its pipe is S, and what it reads and writes (R240) -/
  pair : Option (Bool × List RegName × List RegName)
deriving DecidableEq, Repr

/-- An outstanding digest of a firing: where its tag goes and its tag (R228, R362). -/
structure DgPend where
  tagAddr : Nat
  tag : List Byte
  area : List (Nat × Nat)
  spoiled : Bool
deriving DecidableEq, Repr

/-- One firing on a stone (R206-R211). -/
structure Firing where
  /-- the tick in which it started -/
  start : Tick
  w : WorkRef
  op : Nat
  slice : Nat
  gen : Nat
  ctx : Nat
  cls : Nat
  nout : Nat
  codeLen : Nat
  /-- the cycles it may take: CYCLE_BOUND, or what is left of STONE_CYCLES, with the detail of the cap (R109, R151) -/
  cycleBound : Nat
  boundDetail : Nat
  scratch : Nat
  predict : Bool
  outLayouts : List Layout
  /-- the tokens it took, by input port -/
  inputs : List Token
  workArea : List (Nat × Course)
  input : List Course
  emitted : List (Nat × Token)
  digests : List DgPend
deriving DecidableEq, Repr

/-- A TLB entry: space tag (slice and generation, or the firmware space), level, virtual page, frame, type,
permissions, write permission ready (D set) (R322). -/
structure TlbEntry where
  firmware : Bool
  slice : Nat
  gen : Nat
  level : Nat
  vpage : Nat
  frame : Nat
  mtype : Nat
  u : Bool
  w : Bool
  x : Bool
  d : Bool
  glb : Bool
  lk : Bool
deriving DecidableEq, Repr

/-- A cache line: its way, line address, courses, dirty mark, and the owner context of R299 (4096 for firmware). -/
structure Line where
  way : Nat
  addr : Nat
  data : List Course
  dirty : Bool
  owner : Nat
deriving DecidableEq, Repr

/-- A memory access of a core that waits on a walk or a fill (R210, R318). -/
structure Access where
  isStore : Bool
  isVec : Bool
  lock : Bool
  reg : Nat
  n : Nat
  signed : Bool
  va : Nat
  data : List Course
  mask : List Bool
  borrowed : Bool
  epc : Nat
  level : Nat
  table : Nat
  /-- an invalidate that matches took effect while the walk was in flight (R327) -/
  noInstall : Bool
  /-- the tick in which it was issued, for R246 -/
  since : Tick
deriving DecidableEq, Repr

/-- The predictor of a core (R250). -/
structure Predictor where
  counters : List (Nat × Nat)
  history : Nat
  indirect : List (Nat × Nat)
  lastTargets : List Nat
  stack : List Nat
deriving DecidableEq, Repr

/-- One Chisel core (R200-R203). -/
structure Core where
  s : List Scalar
  v : List Vec
  p : List Pred
  mode : Course
  budget : Nat
  ovf : Course
  dcarry : Course
  cbase : Scalar
  arrival : Scalar
  deadline : Scalar
  item : Nat
  ctx : Nat
  epc : Scalar
  cause : Nat
  vector : Scalar
  space : Nat
  borrow : Bool
  pc : Nat
  /-- in a delay slot: the transfer's index and, when it is taken, its target (R232) -/
  slot : Option (Nat × Option Nat)
  /-- the next instruction retires as a no-op (R232) -/
  annul : Bool
  firing : Option Firing
  sched : Sched
  pred : Predictor
  tlb : List (Option TlbEntry)
  locked : List TlbEntry
  l1i : List Line
  l1d : List Line
  ptrI : List (Nat × Nat)
  ptrD : List (Nat × Nat)
  /-- eviction buffer, oldest first (R296) -/
  evict : List Line
  access : Option Access
  storesOut : Nat
  /-- the tick from which a full update queue holds the instruction at issue (R267) -/
  heldSince : Option Tick
deriving DecidableEq, Repr

/-! ### Keystone (10) -/

/-- One copy of a table in a bank: the positions invalid for parity (R275), and the moves of the update at the head
done in this copy (R264, R265). What the copy holds follows from these and the committed state. -/
structure KsCopy where
  bank : Nat
  bad : List Nat
  moved : Nat
deriving DecidableEq, Repr

/-- One request in a table's queue (R267, R268): kind 0 an insert, 1 a delete, 2 a load; its position, its image or
images, who asked, and its place in the order of requests. -/
structure KsUpd where
  kind : Nat
  pos : Nat
  images : List (List Course)
  id : Nat
  host : Bool
  ctx : Nat
  core : Option CoreId
deriving DecidableEq, Repr

/-- One Keystone table (R257). -/
structure KsTab where
  slice : Nat
  id : Nat
  mode : Nat
  key : Nat
  capacity : Nat
  /-- COPIES as created; more are held while a G context binds the table (R258) -/
  copies : Nat
  committed : List (List Course)
  /-- the shadow (R274): the committed image, and the records of the update journal since it, oldest first -/
  image : List (List Course)
  journal : List KsUpd
  held : List KsCopy
  queue : List KsUpd
  /-- the head has passed its checks; its commit is done, with moves to follow -/
  started : Bool
  committedHead : Bool
deriving DecidableEq, Repr

/-- A search that has been issued (R226, R130, R262). -/
structure KsSearch where
  id : Nat
  slice : Nat
  table : Nat
  key : List Course
  bay : Nat
  /-- a core and its destination register, or a row of an operator -/
  core : Option (CoreId × Nat)
  w : Option (WorkRef × Nat × Nat)
  /-- the tick in which it was issued, for R246 -/
  since : Tick
  /-- the bank of the copy it was sent to (R262, R275) -/
  bank : Option Nat
deriving DecidableEq, Repr

/-- One bank (R256, R270, R276): its frame, the slots used in it, the reserved slots left by slice, the shared slots used by
slice, its spare rows. -/
structure KsBank where
  frameStart : Tick
  slots : Nat
  used : Nat
  reserved : List (Nat × Nat)
  sharedUsed : List (Nat × Nat)
  rebuildUsed : Nat
  spare : Nat
  /-- errors of physical rows: slice, table, position, tick -/
  errors : List (Nat × Nat × Nat × Tick)
  fenced : Nat
deriving DecidableEq, Repr

/-- The key banks of a slice with admitted G contexts and its reserved slots in each (R258, R271). -/
structure KsPlan where
  slice : Nat
  banks : List Nat
  slots : Nat
deriving DecidableEq, Repr

structure KsSt where
  tables : List KsTab
  banks : List (Nat × KsBank)
  searches : List KsSearch
  plan : List KsPlan
  nextId : Nat
deriving DecidableEq, Repr

/-! ### Memory (11, 12) -/

/-- An outstanding fill of a line in a bay's L2, with the sectors still to come in order (R295, R307). -/
structure Fill where
  bay : Nat
  line : Nat
  sectors : List Nat
  prefetch : Bool
  slice : Nat
  data : List Course
  /-- the range operation that covers it, if any (R307) -/
  covered : Option Nat
  /-- it may use the operations reserved for G and D class (R304) -/
  gd : Bool
deriving DecidableEq, Repr

/-- A range operation queued on a bay (R305-R307). -/
structure RangeOp where
  op : Nat
  start : Nat
  count : Nat
  /-- next visit; lines of a small range, sets of a large one -/
  at_ : Nat
  id : Nat
deriving DecidableEq, Repr

/-- The range engine of one bay (R309). -/
structure RangeEng where
  queue : List RangeOp
  error : Bool
  lastOp : Nat
deriving DecidableEq, Repr

/-- A queued invalidate: kind (0 address, 1 tag, 2 all), tag, address, and the bays it has not reached (R327). -/
structure Inval where
  kind : Nat
  tag : Nat
  va : Nat
  bays : List Nat
deriving DecidableEq, Repr

/-- A walk cache entry (R323). -/
structure WalkEntry where
  firmware : Bool
  slice : Nat
  gen : Nat
  level : Nat
  vprefix : Nat
  entry : List Course
deriving DecidableEq, Repr

/-- Everything of the memory system beside the bytes of HBM and DRAM. -/
structure MemSt where
  poison : List Nat
  pch : List Nat
  /-- bound pairs: frame, second frame (R302) -/
  bound : List (Nat × Nat)
  dramCap : Nat
  dramRate : Nat
  dramState : Nat
  l2 : List (Nat × List Line)
  lfsr : List (Nat × Nat)
  fills : List Fill
  victims : List (Nat × Nat)
  range : List (Nat × RangeEng)
  /-- ZERO operations whose memory range the hub has written (R306) -/
  zeroDone : List Nat
  nextRange : Nat
  walkCache : List (Nat × List WalkEntry)
  boundEntries : List (Nat × List TlbEntry)
  invals : List Inval
  peak : Nat
  /-- frame types of mapped frames (R288) -/
  ftype : List (Nat × Nat)
deriving DecidableEq, Repr

/-! ### Hod and Sett (13) -/

/-- One Hod channel (R333-R335). -/
structure HodCh where
  src : Nat
  dst : Nat
  cnt : Nat
  mode : Nat
  en : Bool
  status : Nat
  space : Nat
  err : Nat
  result : Nat
  pattern : List Course
  /-- HOD_CNT and HOD_RESULT at the last GO -/
  total : Nat
  srcTr : Option TlbEntry
  dstTr : Option TlbEntry
deriving DecidableEq, Repr

structure HodSt where
  ch : List ((Nat × Nat) × HodCh)
  /-- bytes the channels have written to host memory (R346) -/
  hostMem : List (Nat × Byte)
  /-- compressor failures by bay since its last power-up, and the compressors fenced (R355) -/
  settFails : List (Nat × Nat)
  settFenced : List Nat
deriving DecidableEq, Repr

/-! ### Digest, ledger, store (14) -/

/-- A key slot (R359). -/
structure KeySlot where
  slice : Nat
  slot : Nat
  alg : Nat
  key : List Byte
deriving DecidableEq, Repr

/-- A digest message: its class order, who asked, and its progress in blocks (R365-R369). -/
structure DgMsg where
  id : Nat
  cls : Nat
  deadline : Tick
  requested : Tick
  slice : Nat
  ctx : Nat
  alg : Nat
  key : List Byte
  msg : List Byte
  tagLen : Nat
  blocks : Nat
  done : Nat
  sinceStart : Nat
  hasRecord : Bool
  core : Option (CoreId × Nat)
  w : Option (WorkRef × Nat × Nat)
  /-- the device's number of its key slot, the address of its descriptor, and the byte lengths of its fragments (R369) -/
  keySlot : Nat := 0xFFF
  desc : Nat := 0
  frags : List Nat := []
  /-- its save record while it is displaced: 156 courses (R369) -/
  saved : List Course := []
deriving DecidableEq, Repr

structure DgSt where
  slots : List KeySlot
  lanes : List ((Nat × Nat) × DgMsg)
  waiting : List (Nat × DgMsg)
  nextId : Nat
deriving DecidableEq, Repr

/-- A ledger segment (R375, R376). -/
structure Segment where
  slice : Nat
  gen : Nat
  seq : Nat
  records : List (List Byte)
  firstTick : Tick
  lastTick : Tick
  closedAt : Option Tick
deriving DecidableEq, Repr

/-- A seal: its body, whether its signatures are made, and the segments it covers (R377). -/
structure Seal where
  seq : Nat
  tick : Tick
  body : List Byte
  bytes : List Byte
  segs : List Segment
  written : Bool
deriving DecidableEq, Repr

/-- The Lesal ledger (R371-R382). -/
structure LedSt where
  /-- records in the write buffer, oldest first -/
  buffer : List (List Byte)
  /-- bytes programmed since manufacture -/
  written : Nat
  /-- table-store programs pause (R374) -/
  paused : Bool
  opened : List Segment
  closed : List Segment
  segSeq : List (Nat × Nat)
  /-- segments below this number of a slice are released -/
  relSegs : List (Nat × Nat)
  seals : List Seal
  nextSeal : Nat
  /-- LEDGER_SEAL_SEQ: the last seal written, if any -/
  sealSeq : Option Nat
  /-- body of the last seal made, and its tick -/
  head : List Byte
  sealTick : Tick
  restart : Bool
  leaderChange : Bool
  released : Nat
  /-- raw bytes divided by bits per cell, and the LEDGER_SHARE in force since FORMAT -/
  raw : Nat
  share : Nat
  capacity : Nat
  free : Nat
  media : Bool
  /-- EPOCH_SECOND and EPOCH_TICK at the last whole second (R377) -/
  epoch : Nat × Nat
deriving DecidableEq, Repr

/-- A store or ledger erase in progress (R387-R389). -/
structure Erase where
  partition : Nat
  format : Bool
  scope : Nat
  mode : Nat
  sealSeq : Nat
  progress : Nat
deriving DecidableEq, Repr

/-- A block of a TS_WRITE that is not programmed yet (R383, R384). -/
structure TsWr where
  slice : Nat
  gen : Nat
  block : Nat
  qid : Nat
  cid : Nat
  data : List Byte
deriving DecidableEq, Repr

/-- The table store and its NAND (R383-R391). -/
structure StoreSt where
  blocks : List ((Nat × Nat) × List Byte)
  writes : List TsWr
  capacity : Nat
  free : Nat
  erase : List Erase
  sanitise : Nat
  format : Nat
  media : Bool
  channels : Nat
  lostChannels : List Nat
  nandRate : Nat
  wear : Nat
  refreshed : List (Nat × Tick)
deriving DecidableEq, Repr

/-! ### Gyine and groups (16) -/

/-- What a PAYLOAD flit carries (R418): its virtual channel, its marks, its pairs, its destination, and its valid bytes. -/
structure TxFlit where
  vc : Nat
  sop : Bool
  eop : Bool
  dest : Nat
  bytes : List Byte
deriving DecidableEq, Repr

/-- One Gyine port (R417-R441). -/
structure Port where
  /-- PORT_STATE, the tick it was entered, and a port that is DARK until PORT_ENABLE is rewritten (R426) -/
  state : Nat
  since : Tick
  held : Bool
  /-- PORT_ROLE, and the partner's serial number, node identifier, nonce and CAPS from its HELLO (R427) -/
  role : Nat
  partner : List Byte
  partnerNode : Nat
  partnerNonce : List Byte
  partnerCaps : Nat
  /-- lanes in service, and lanes found faulty since the last training (R417) -/
  lanes : List Nat
  faulty : List Nat
  /-- of a training: the PMD is trained, the partner's INIT has come, and it is a retraining that keeps its state (R423) -/
  trained : Bool
  initSeen : Bool
  retrain : Option Nat
  /-- sequence and retry (R422): the next number to send, the number expected, the flits not acknowledged, those to resend -/
  txSeq : Nat
  rxExp : Nat
  replay : List (Nat × TxFlit)
  resend : List Nat
  /-- the tick of the RETRY_REQ that waits for its flit; the last RETRY_REQ received and how often it came -/
  retrySent : Option Tick
  retryAck : Nat
  retryCount : Nat
  /-- credits held, and credits to return, by virtual channel (R420) -/
  credits : List (Nat × Nat)
  toReturn : List (Nat × Nat)
  /-- flits that wait to be sent, by virtual channel, and the place in the round (R421) -/
  txq : List (Nat × List TxFlit)
  wrr : Nat
  /-- capsules on their way in, those being discarded, and those on their way through to another member (R425, R448) -/
  asm : List (Nat × List Byte)
  discard : List Nat
  transit : List (Nat × List TxFlit)
  /-- keep-alive (R424) -/
  misses : Nat
  lastTx : Tick
  goodInInterval : Bool
  intervalStart : Tick
  /-- discovery (R426-R428): the partner's HELLO has come, our nonce, and the partner is verified -/
  nonce : List Byte
  attested : Bool
  /-- time exchanges (R437): the number and the sending of the latest SYNC_REQ, and LINK_LATENCY -/
  syncSeq : Nat
  syncAt : Option Tick
  syncT1 : Option Nat
  latency : Nat
  /-- flits held while the hub is asleep (R515) -/
  heldFlits : List (List Byte)
  /-- every flit sent, oldest first -/
  out : List (List Byte)
  /-- the ARCH_PATH of the partner's HELLO (R427) -/
  partnerPath : List Nat := []
deriving DecidableEq, Repr

/-- One member of the group; states as CHILD_STATE of R13. -/
structure Member where
  node : Nat
  serial : List Byte
  state : Nat
  priority : Nat
  eligible : Bool
  /-- the nested groups that hold it, from the top group down (R10, R12) -/
  path : List Nat := []
deriving DecidableEq, Repr

/-- An item of another primary that this device can finish (R50, R51): its answer and its ledger record once they are
mirrored, and whether a seal covers that record (R52). -/
structure Mirror where
  node : Nat
  item : Item
  released : Option AnswerOut
  record : List Byte := []
  covered : Bool := false
deriving DecidableEq, Repr

/-- What one member of a group tells another. -/
inductive MemberMsg where
  /-- an item registered on the replica of its flow (R50, R51) -/
  | item (i : Item)
  /-- a mirrored STATE_PUT of an item: its state space and area (R20), and its acknowledgement -/
  | put (seq space : Nat) (area : List Course)
  | putAck (seq : Nat)
  /-- a mirrored answer of an item with its cause and its ledger record (R50, R52), and its acknowledgement -/
  | answer (seq cause : Nat) (a : AnswerOut) (record : List Byte)
  | answerAck (seq : Nat)
  /-- the release watermark of the sender (R50) -/
  | watermark (n : Nat)
  /-- the segments closed by a tick, and a seal (R377) -/
  | closures (t : Tick) (segs : List Segment)
  | sealed (x : Seal)
  /-- a command or write that every member carries out, and its outcome there (R84, R359, R401, R471) -/
  | command (i : Instr)
  | applied (slice qid cid status detail : Nat)
  /-- an invalidate (R327) -/
  | invalidate (i : Inval)
  /-- a port that faces a member is down (R431) -/
  | portDown (node : Nat)
deriving DecidableEq, Repr

/-- A command whose completion waits for members: its slice, QID and CID, and the members still to answer. Where they carry it
out one at a time (R543), the command, and whether the first of them has started. -/
structure Fan where
  slice : Nat
  qid : Nat
  cid : Nat
  left : List Nat
  serial : Option Instr
  started : Bool
deriving DecidableEq, Repr

/-- The group, as this member holds it (R429-R436). -/
structure GroupSt where
  grouped : Bool
  /-- it has had the 16 members of a group (R10) -/
  formed : Bool
  node : Nat
  leader : Nat
  deputy : Nat
  epoch : Nat
  /-- the port toward each node identifier -/
  routes : List (Nat × Nat)
  members : List Member
  mirrors : List Mirror
  /-- this member's own release watermark, and the last one received from each other member (R50) -/
  watermark : Nat
  watermarks : List (Nat × Nat)
  minority : Bool
  leaving : List Nat
  /-- capsules held for a lost route (R431) -/
  heldTx : List TxFlit
  /-- λ of R186, as the leader gives it (R430) -/
  lambda_ : Nat
  /-- messages for other members that have not left yet, with their destinations -/
  outbox : List (Nat × MemberMsg)
  /-- commands from other members, with their sources, that wait to be carried out here -/
  inbox : List (Nat × Instr)
  fans : List Fan
  /-- route sequence numbers: the next for each destination, and those accepted from each source (R425) -/
  sentSeq : List (Nat × Nat)
  seen : List (Nat × Nat)
  /-- the last closures each other member has reported: tick and segments (R377) -/
  closures : List (Nat × Tick × List Segment)
deriving DecidableEq, Repr

/-! ### CAN FD (18) -/

/-- An open segmented transfer (R486). -/
structure Transfer where
  writing : Bool
  addr : ObjAddr
  total : Nat
  data : List Byte
  nextSeq : Nat
  acked : Nat
  last : Tick
deriving DecidableEq, Repr

structure CanSt where
  node : Nat
  path : List Nat
  transfer : Option Transfer
  role : Nat
  lastRequest : Tick
  challenge : Option (Nat × Nat × Tick)
  fails : Nat
  lockedUntil : Option Tick
  keyOperator : List Byte
  keyCustodian : List Byte
  tec : Nat
  rec_ : Nat
  busState : Nat
  recovery : Nat
  out : List (List Byte)
  lastHeartbeat : Tick
  /-- the WRITE of STORE whose answer waits for STORE_STATUS (R479) -/
  storeWait : Bool
deriving DecidableEq, Repr

/-- A stored set in MRAM: the objects, the slices and the bindings (R480, R481). -/
structure StoredSet where
  objs : List (ObjKey × ObjVal)
  slices : List (Nat × SliceSt)
  bindings : List Binding
deriving DecidableEq, Repr

structure StoreCfg where
  sets : List (Option StoredSet)
  current : Nat
  snapshot : Option StoredSet
  status : Nat
  restoreStatus : Nat
deriving DecidableEq, Repr

/-! ### Error records (19) -/

/-- A UNIT of an error record (R502): `cls` is course 0 (NODE in bits 11:6, CLASS in bits 5:0) and `index` course 1. -/
structure UnitId where
  cls : Nat
  index : Nat
deriving DecidableEq, Repr

/-- An error record (R501); a translation fault carries its virtual address, which is its continuation (R504). -/
structure Rec where
  time : Tick
  unit : UnitId
  code : Nat
  repeat_ : Nat
  info : Nat
  cont : Option Nat
deriving DecidableEq, Repr

/-- A coalescing entry (R505); `kept` says that its record is in the ring. -/
structure Coal where
  time : Tick
  unit : UnitId
  code : Nat
  kept : Bool
deriving DecidableEq, Repr

structure Ring where
  recs : List Rec
  coal : List Coal
  first : Option Rec
  overflow : Bool
  lost : Nat
  sticky : Nat
deriving DecidableEq, Repr

/-- The rings: 0 the hub, 1 the plinth, 2 + b bay b, 32 + n slice n (R501), and the health state (R510). -/
structure ErrSt where
  rings : List (Nat × Ring)
  exposed : Nat
  lastFault : Tick
  doubleFault : Bool
  /-- failed transfers by path: core, ticks (R494) -/
  transfers : List (CoreId × List Tick)
deriving DecidableEq, Repr

/-! ### Power, Buttress, rails (20, 22) -/

/-- One bay's power state (R513). -/
structure BayPower where
  state : Nat
  idleSince : Tick
  wakeDue : Option Tick
deriving DecidableEq, Repr

/-- A save in progress (R520): T0, T_f, cause; whether the set is written; the hold has ended. -/
structure Save where
  t0 : Tick
  tf : Tick
  cause : SagCause
  vhold : Nat
  written : Bool
  supply : Bool
deriving DecidableEq, Repr

/-- The save set in MRAM (R523). -/
structure SaveSet where
  save : Save
  led : LedSt
  hssReserved : Nat
  hssTree : Nat
  erase : List Erase
  rings : List (Nat × Ring)
deriving DecidableEq, Repr

structure PowerSt where
  bays : List (Nat × BayPower)
  hubAsleep : Bool
  hubIdle : Tick
  hbmSr : Bool
  dramSr : Bool
  memIdle : Tick
  /-- POWER_PEAK, the highest POWER_NOW since power-up (R528) -/
  peak : Nat
  vholdMv : Nat
  capUf : Nat
  buttress : Nat
  save : Option Save
  saveSet : Option SaveSet
  saveStarted : Bool
  restored : Nat
  lastSave : Nat
  frozen : Bool
  step : Nat
  ready : Bool
  railEn : Nat
  pgood : Nat
  railRetry : Option Tick
  /-- the tick of the latest enable (R552), and the PGOOD whose return restarts an aborted power-up (R553) -/
  railAt : Tick
  railWait : Option Nat
  canStrap : Nat
  mediumStrap : Nat
  testEn : Bool
deriving DecidableEq, Repr

/-! ### Trust (21) -/

/-- A firmware bank in flash: the bytes written since its last erase (R531, R543). -/
structure Bank where
  bytes : List Byte
deriving DecidableEq, Repr

/-- Firmware that runs or may run: its versions and measurements (R531, R533). -/
structure FwRun where
  /-- the vendor sets that verified stage 0 and the stages 1 and 2 -/
  keySet0 : Nat
  keySet : Nat
  svn : Nat
  fwVersion : Nat
  handover : Nat
  stageMeas : List (List Byte)
  measurement : List Byte
deriving DecidableEq, Repr

/-- Boot, identity and attestation (R530-R547). -/
structure TrustSt where
  revoked : Nat
  otpSvn : Nat
  mramSvn : Nat
  /-- what the active pair runs; what a staged image would run; what ran before the trial -/
  run : FwRun
  next : FwRun
  prev : FwRun
  fallback : Bool
  banks : List Bank
  bootBank : Nat
  /-- FW_STAGE_STATE, the path that owns a staging (1 FW_STAGE, 2 FW_STAGE_DATA), and its next offset -/
  stageState : Nat
  stageOwner : Nat
  stageAt : Nat
  /-- MRAM's record that the inactive bank holds a verified image that is not yet the boot bank -/
  stagedMark : Bool
  /-- the tick of the switch of an activation -/
  switchAt : Tick
  plinthPending : Bool
  certs : List (List Byte × List Byte)
  issueSeq : Nat
  hssNext : Nat
  hssReserved : Nat
  hssTree : Nat
  hssPending : Bool
  tokens : Nat
  lastToken : Tick
  reportSeq : Nat
  debug : Nat
  challenge : List Byte
  gated : Bool
deriving DecidableEq, Repr

/-- The two Quoin pairs (R13-R16), the tick at which a pause of the management plane ends, and what it holds in order of
arrival (R15). -/
structure QuoinSt where
  active : Nat
  standby : Bool
  fenced : List Nat
  pausedUntil : Option Tick
  held : List Instr
deriving DecidableEq, Repr

/-! ### The state -/

/-- The whole device. -/
structure State where
  /-- the commands that are waiting, first in first out -/
  pending : List Instr
  /-- the model's own count of free values taken (assumption 4: DESIGN CHOICE) -/
  free : Nat
  time : TimeSt
  therm : ThermSt
  objs : List (ObjKey × ObjVal)
  stored : StoreCfg
  slices : List (Nat × SliceSt)
  bindings : List Binding
  host : HostSt
  ctxs : List Context
  items : List Item
  nextSeq : Nat
  runs : List Run
  nextRun : Nat
  flowState : List FlowState
  windows : List WindowState
  hashTables : List HashTab
  tables : List Table
  dicts : List Dict
  mason : MasonSt
  cores : List (CoreId × Core)
  ks : KsSt
  mem : List Host.Cell
  memx : MemSt
  hod : HodSt
  dg : DgSt
  led : LedSt
  st : StoreSt
  ports : List (Nat × Port)
  group : GroupSt
  can : CanSt
  err : ErrSt
  power : PowerSt
  trust : TrustSt
  quoin : QuoinSt
deriving DecidableEq, Repr

/-- Why a step stops with a fault. -/
inductive Fault where
  /-- A Chisel row whose encoding R204 leaves undefined is aimed at a stone. R97 refuses every such encoding at load,
  so no stone executes one; raised by the shared execution of Chisel rows. Safe. -/
  | undefinedEncoding
deriving DecidableEq, Repr

/-- Why a step refuses. -/
inductive Refusal where
  /-- A row with no meaning in the model; raised by an arm of exec that names its mnemonic, and by nothing else. Safe. -/
  | notModelled (mnemonic : String)
deriving DecidableEq, Repr

/-- The outcome of a command. -/
abbrev Out := Host.Outcome State Fault Refusal

/-! ### Reset -/

/-- Slice 0 is the management slice and reads SLICE_STATE 1 (R394, R411). -/
def sliceZero : SliceSt :=
  { state := 1, gen := 0, levels := 0, root := 0, kek := none, pendingMask := 0, resetting := none }

/-- No firmware runs. -/
def fwNone : FwRun :=
  { keySet0 := 0, keySet := 0, svn := 0, fwVersion := 0, handover := 0, stageMeas := [], measurement := [] }

/-- The device as it leaves manufacture, before VAUX is valid for the first time: no save set and no stored set, READY 0,
device time 0 (R28), every table empty, every object at its default. The values the spec does not give are those of assumption 6. -/
def State.reset : State where
  pending := []
  free := 0
  time := { count := 0, slew := 0, ppsState := 0, ppsMisses := 0, ppsSeen := false, ppsLast := 0, aligned := false,
            epochArmed := false, epochTick := 0, refState := 0,
            marks := [⟨0, false⟩, ⟨0, false⟩], markNext := 0, heldTick := 0, ppsOutSince := none }
  therm := { temps := [], steps := [], coolSince := [], floor := false, floorStep := 0, floorCool := none, bSuspended := false,
             shedding := false, atRisk := [], tripped := [] }
  objs := []
  stored := { sets := [none, none], current := 0, snapshot := none, status := 0, restoreStatus := 0 }
  slices := [(0, sliceZero)]
  bindings := []
  host := { queues := [], accepted := [], waiting := [], completions := [], answers := [], results := [],
            bucket := [], cmdPort := [] }
  ctxs := []
  items := []
  nextSeq := 1
  runs := []
  nextRun := 0
  flowState := []
  windows := []
  hashTables := []
  tables := []
  dicts := []
  mason := { buckets := [], moves := [], leases := [], slots := [], fencedStones := [], lostBays := [],
             fencedLanes := [], warm := [], g := [], ready := [], bUse := 0, bWindow := 0, nextOrder := 0,
             heatAt := 0, demoting := false, stoneFaults := [], turns := [] }
  cores := []
  ks := { tables := [], banks := [], searches := [], plan := [], nextId := 0 }
  mem := []
  memx := { poison := [], pch := [], bound := [], dramCap := 0, dramRate := 0,
            dramState := 0, l2 := [], lfsr := [], fills := [], victims := [], range := [], zeroDone := [],
            nextRange := 0, walkCache := [], boundEntries := [], invals := [], peak := 0,
            ftype := [] }
  hod := { ch := [], hostMem := [], settFails := [], settFenced := [] }
  dg := { slots := [], lanes := [], waiting := [], nextId := 0 }
  led := { buffer := [], written := 0, paused := false, opened := [], closed := [], segSeq := [], relSegs := [], seals := [],
           nextSeal := 0, sealSeq := none, head := [], sealTick := 0, restart := false, leaderChange := false, released := 0,
           raw := 0, share := 50, capacity := 0, free := 0, media := true, epoch := (0, 0) }
  st := { blocks := [], writes := [], capacity := 0, free := 0, erase := [], sanitise := 1000, format := 1000,
          media := true, channels := 8, lostChannels := [], nandRate := 0, wear := 0, refreshed := [] }
  ports := []
  group := { grouped := false, formed := false, node := 0, leader := 0, deputy := 0, epoch := 0, routes := [], members := [], mirrors := [],
             watermark := 0, watermarks := [], minority := false, leaving := [], heldTx := [], lambda_ := 0, outbox := [], inbox := [],
             fans := [], sentSeq := [], seen := [], closures := [] }
  can := { node := 0, path := [], transfer := none, role := 0, lastRequest := 0, challenge := none, fails := 0,
           lockedUntil := none, keyOperator := [], keyCustodian := [], tec := 0, rec_ := 0, busState := 0,
           recovery := 0, out := [], lastHeartbeat := 0, storeWait := false }
  err := { rings := [], exposed := 0, lastFault := 0, doubleFault := false, transfers := [] }
  power := { bays := [], hubAsleep := false, hubIdle := 0, hbmSr := false, dramSr := false, memIdle := 0,
             peak := 0, vholdMv := 0, capUf := 0, buttress := 0, save := none, saveSet := none, saveStarted := false,
             restored := 0, lastSave := 0, frozen := false, step := 0, ready := false, railEn := 0, pgood := 0,
             railRetry := none, railAt := 0, railWait := none, canStrap := 0, mediumStrap := 0, testEn := false }
  trust := { revoked := 0, otpSvn := 0, mramSvn := 0, run := fwNone, next := fwNone, prev := fwNone, fallback := false,
             banks := [⟨[]⟩, ⟨[]⟩], bootBank := 0, stageState := 0, stageOwner := 0, stageAt := 0, stagedMark := false,
             switchAt := 0, plinthPending := false, certs := [], issueSeq := 0, hssNext := 0, hssReserved := 0,
             hssTree := 0, hssPending := false, tokens := 64, lastToken := 0, reportSeq := 0, debug := 0,
             challenge := [], gated := false }
  quoin := { active := 0, standby := false, fenced := [], pausedUntil := none, held := [] }

end Sys2Proof.Machine
end

