-- ==== Sys2Proof/Machine/Ops.lean ====
section
/-! DEFINITION. The named operations every family uses: tables by key, bits, bytes and courses (R56, R57), the two
check codes (R74, R419), memory in its canonical form (R58), free values, objects (R465), completions (R450-R452),
and error records (R501-R506). -/

namespace Sys2Proof.Machine

/-! ### Tables -/

/-- The value of a key in a table. -/
def tget {α β : Type} [DecidableEq α] (k : α) : List (α × β) → Option β
  | [] => none
  | (k', v) :: t => if k' = k then some v else tget k t

/-- The value of a key, with what an unlisted key reads as. -/
def tgetD {α β : Type} [DecidableEq α] (k : α) (d : β) (t : List (α × β)) : β := (tget k t).getD d

/-- Set the value of a key. -/
def tset {α β : Type} [DecidableEq α] (k : α) (v : β) : List (α × β) → List (α × β)
  | [] => [(k, v)]
  | (k', v') :: t => if k' = k then (k, v) :: t else (k', v') :: tset k v t

/-- Remove a key. -/
def tdel {α β : Type} [DecidableEq α] (k : α) (t : List (α × β)) : List (α × β) := t.filter fun e => e.1 ≠ k

/-- Change the value of a key, reading `d` where it is not listed. -/
def tupd {α β : Type} [DecidableEq α] (k : α) (d : β) (f : β → β) (t : List (α × β)) : List (α × β) :=
  tset k (f (tgetD k d t)) t

/-- Apply `f` to the elements that satisfy `p`. -/
def mapIf {α : Type} (p : α → Bool) (f : α → α) (l : List α) : List α := l.map fun x => if p x then f x else x

/-- The element at a position, or `d`. -/
def nth {α : Type} (l : List α) (i : Nat) (d : α) : α := (l[i]?).getD d

/-- `ceil (a / b)`. -/
def ceilDiv (a b : Nat) : Nat := if b = 0 then 0 else (a + b - 1) / b

/-- Insert into a list that is in order by `le`, after every element it does not precede. -/
def insertBy {α : Type} (lt : α → α → Bool) (x : α) : List α → List α
  | [] => [x]
  | y :: t => if lt x y then x :: y :: t else y :: insertBy lt x t

/-- A stable sort by insertion. -/
def sortBy {α : Type} (lt : α → α → Bool) (l : List α) : List α := l.foldl (fun acc x => insertBy lt x acc) []

/-! ### Bits -/

/-- Bits `hi` down to `lo` of a number. -/
def fieldOf (n hi lo : Nat) : Nat := n / 2 ^ lo % 2 ^ (hi - lo + 1)

/-- A number with bit `k` set. -/
def withBit (n k : Nat) : Nat := n ||| 2 ^ k

/-- A number with the bits of `m` cleared. -/
def withoutBits (n m : Nat) : Nat := n - (n &&& m)

/-- A number with bit `k` made `b`. -/
def putBit (n k : Nat) (b : Bool) : Nat := if b then withBit n k else withoutBits n (2 ^ k)

/-- The low `w` bits of `n` as a two's complement number. -/
def signedOf (w n : Nat) : Int :=
  let m := n % 2 ^ w
  if m < 2 ^ (w - 1) then (m : Int) else (m : Int) - (2 ^ w : Nat)

/-- The low `w` bits of an integer. -/
def wrapTo (w : Nat) (i : Int) : Nat := (i % ((2 ^ w : Nat) : Int)).toNat

/-! ### Bytes and courses (R56, R57) -/

/-- The unsigned number of big-endian bytes. -/
def beNat (bs : List Byte) : Nat := bs.foldl (fun a b => a * 256 + b.toNat) 0

/-- `k` big-endian bytes of a number. -/
def natBytes : Nat → Nat → List Byte
  | 0, _ => []
  | k + 1, n => natBytes k (n / 256) ++ [BitVec.ofNat 8 n]

/-- The unsigned number of courses, the first the most significant. -/
def crsNat (cs : List Course) : Nat := cs.foldl (fun a c => a * 4096 + c.toNat) 0

/-- `k` courses of a number, the first the most significant. -/
def natCrs : Nat → Nat → List Course
  | 0, _ => []
  | k + 1, n => natCrs k (n / 4096) ++ [BitVec.ofNat 12 n]

/-- The three bytes of two courses (R56). -/
def pairBytes (a b : Course) : List Byte :=
  [BitVec.ofNat 8 (a.toNat / 16), BitVec.ofNat 8 (a.toNat % 16 * 16 + b.toNat / 256), BitVec.ofNat 8 b.toNat]

/-- The byte image of a course sequence (R56, R57). -/
def packBytes : List Course → List Byte
  | [] => []
  | [a] => pairBytes a 0
  | a :: b :: t => pairBytes a b ++ packBytes t

/-- The two courses of three bytes (R56). -/
def bytesPair (b0 b1 b2 : Byte) : List Course :=
  [BitVec.ofNat 12 (b0.toNat * 16 + b1.toNat / 16), BitVec.ofNat 12 (b1.toNat % 16 * 256 + b2.toNat)]

/-- The courses of a byte string, completed with zero bytes (R56, R57). -/
def unpackBytes : List Byte → List Course
  | [] => []
  | [a] => bytesPair a 0 0
  | [a, b] => bytesPair a b 0
  | a :: b :: c :: t => bytesPair a b c ++ unpackBytes t

/-- A list made `n` long with `d`. -/
def fitList {α : Type} (n : Nat) (d : α) (l : List α) : List α := (l.take n) ++ List.replicate (n - l.length) d

/-- `n` elements from position `i`. -/
def slice {α : Type} (l : List α) (i n : Nat) : List α := (l.drop i).take n

/-! ### Check codes (R74, R419) -/

/-- One bit of the reflected CRC-32C. -/
def crc32Bit (c : Nat) : Nat := if c % 2 = 1 then (c / 2) ^^^ 0x82F63B78 else c / 2

/-- One byte of CRC-32C. -/
def crc32Byte (c : Nat) (b : Byte) : Nat :=
  crc32Bit (crc32Bit (crc32Bit (crc32Bit (crc32Bit (crc32Bit (crc32Bit (crc32Bit (c ^^^ b.toNat))))))))

/-- CRC-32C: reflected, initial value and final exclusive or all ones (R74). -/
def crc32c (bs : List Byte) : Nat := bs.foldl crc32Byte 0xFFFFFFFF ^^^ 0xFFFFFFFF

/-- One bit of CRC-64 ECMA-182. -/
def crc64Bit (c : Nat) : Nat :=
  if c / 2 ^ 63 % 2 = 1 then (c * 2 % 2 ^ 64) ^^^ 0x42F0E1EBA9EA3693 else c * 2 % 2 ^ 64

/-- One byte of CRC-64 ECMA-182. -/
def crc64Byte (c : Nat) (b : Byte) : Nat :=
  crc64Bit (crc64Bit (crc64Bit (crc64Bit (crc64Bit (crc64Bit (crc64Bit (crc64Bit (c ^^^ (b.toNat * 2 ^ 56)))))))))

/-- CRC-64 ECMA-182 (R419). -/
def crc64 (bs : List Byte) : Nat := bs.foldl crc64Byte 0

/-! ### Memory (R58, R280, R281) -/

/-- The memory of HBM and DRAM by medium byte address. -/
abbrev Memory := List Host.Cell

/-- One byte; an address that is not listed reads 0 (assumption 1: DESIGN CHOICE). -/
def Memory.get (a : Nat) : Memory → Byte
  | [] => 0
  | (k, v) :: t => if k = a then v else Memory.get a t

/-- Write one byte and keep the canonical form: rising addresses, no entry equal to 0. -/
def Memory.put (a : Nat) (b : Byte) : Memory → Memory
  | [] => if b = 0 then [] else [(a, b)]
  | (k, v) :: t =>
    if a < k then (if b = 0 then (k, v) :: t else (a, b) :: (k, v) :: t)
    else if k = a then (if b = 0 then t else (k, b) :: t)
    else (k, v) :: Memory.put a b t

/-- The canonical form: rising addresses, no entry equal to what an unlisted address reads as. -/
def Memory.wf : Memory → Bool
  | [] => true
  | (k, v) :: t => (v != 0) && (t.all fun e => k < e.1) && Memory.wf t

/-- Write bytes from an address on. -/
def Memory.putBytes (a : Nat) : List Byte → Memory → Memory
  | [], m => m
  | b :: t, m => Memory.putBytes (a + 1) t (Memory.put a b m)

/-- The course at a course address: pair k occupies medium bytes 3k to 3k + 2 (R58). -/
def Memory.course (m : Memory) (ca : Nat) : Course :=
  let b := ca / 2 * 3
  if ca % 2 = 0 then BitVec.ofNat 12 ((Memory.get b m).toNat * 16 + (Memory.get (b + 1) m).toNat / 16)
  else BitVec.ofNat 12 ((Memory.get (b + 1) m).toNat % 16 * 256 + (Memory.get (b + 2) m).toNat)

/-- Write a pair of courses at an even course address as one unit (R58). -/
def Memory.putPair (ca : Nat) (c0 c1 : Course) (m : Memory) : Memory := Memory.putBytes (ca / 2 * 3) (pairBytes c0 c1) m

/-- Write one course: its pair is committed as one unit (R58). -/
def Memory.putCourse (ca : Nat) (c : Course) (m : Memory) : Memory :=
  if ca % 2 = 0 then Memory.putPair ca c (Memory.course m (ca + 1)) m
  else Memory.putPair (ca - 1) (Memory.course m (ca - 1)) c m

/-- `n` courses from a course address on. -/
def Memory.courses (m : Memory) (ca n : Nat) : List Course := (List.range n).map fun i => Memory.course m (ca + i)

/-- Write courses from a course address on. -/
def Memory.putCourses (ca : Nat) : List Course → Memory → Memory
  | [], m => m
  | c :: t, m => Memory.putCourses (ca + 1) t (Memory.putCourse ca c m)

/-! ### Free values -/

/-- Take one free value (assumption 4: DESIGN CHOICE): the state with its count advanced. -/
def State.advanceFree (s : State) : State := { s with free := s.free + 1 }

/-- The free value the state stands at, of `w` bits. -/
def State.freeBits (s : State) (w : Nat) : Nat := Config.freeValue s.free % 2 ^ w

/-- `k` random bytes for the count the state stands at (assumption 5: DESIGN CHOICE). -/
def State.randomBytes (s : State) (k : Nat) : List Byte := natBytes k (Config.random s.free)

/-! ### Objects (R465, R466) -/

/-- The number of an object's value. -/
def ObjVal.toNat : ObjVal → Nat
  | .num n => n
  | .bytes b => beNat b

/-- The octets of an object's value. -/
def ObjVal.toBytes : ObjVal → List Byte
  | .num _ => []
  | .bytes b => b

/-- The number held for an object, or its default. -/
def State.objNum (s : State) (index sub : Nat) (path : List Nat) (slice d : Nat) : Nat :=
  match tget (⟨index, sub, path, slice⟩ : ObjKey) s.objs with
  | some v => v.toNat
  | none => d

/-- The octets held for an object, or none. -/
def State.objBytes (s : State) (index sub : Nat) (path : List Nat) (slice : Nat) : List Byte :=
  match tget (⟨index, sub, path, slice⟩ : ObjKey) s.objs with
  | some v => v.toBytes
  | none => []

/-- Hold a value for an object. -/
def State.setObj (s : State) (index sub : Nat) (path : List Nat) (slice : Nat) (v : ObjVal) : State :=
  { s with objs := tset ⟨index, sub, path, slice⟩ v s.objs }

/-- The limit of a U64 counter. -/
def u64Max : Nat := 2 ^ 64 - 1

/-- The limit of a U32 counter. -/
def u32Max : Nat := 2 ^ 32 - 1

/-- A counter raised by `n`, saturating at `lim`. -/
def State.bumpBy (s : State) (index sub : Nat) (path : List Nat) (slice lim n : Nat) : State :=
  { s with objs := tset ⟨index, sub, path, slice⟩ (.num (min lim (s.objNum index sub path slice 0 + n))) s.objs }

/-- A U64 counter of the device raised by one, counted for a slice. -/
def State.bump (s : State) (index sub : Nat) (path : List Nat) (slice : Nat) : State :=
  s.bumpBy index sub path slice u64Max 1

/-! ### Time (R24, R37) -/

/-- The present tick. -/
def State.now (s : State) : Tick := s.time.count

/-! ### Slices, bindings, queues -/

/-- A slice that was never created (R398). -/
def sliceAbsent : SliceSt :=
  { state := 0, gen := 0, levels := 0, root := 0, kek := none, pendingMask := 0, resetting := none }

/-- A slice by number. -/
def State.sliceOf (s : State) (n : Nat) : SliceSt := tgetD n sliceAbsent s.slices

/-- A slice's generation. -/
def State.genOf (s : State) (n : Nat) : Nat := (s.sliceOf n).gen

/-- Change a slice. -/
def State.updSlice (s : State) (n : Nat) (f : SliceSt → SliceSt) : State :=
  { s with slices := tupd n sliceAbsent f s.slices }

/-- The binding of a process identifier (R395). -/
def State.bindingOf (s : State) (pid : Nat) : Option Binding := s.bindings.find? fun b => b.pid == pid

/-- QID 0 of a slice, its admin queue (R443). -/
def adminQueue (slice : Nat) : Queue :=
  { slice := slice, qid := 0, kind := 0, pair := 0, depth := 4096, accepted := 0, outstanding := [] }

/-- A queue by slice and identifier; QID 0 always exists while the slice is not absent (R443). -/
def State.queueOf (s : State) (slice qid : Nat) : Option Queue :=
  match s.host.queues.find? fun q => q.slice == slice && q.qid == qid with
  | some q => some q
  | none => if qid = 0 ∧ (s.sliceOf slice).state ≠ 0 then some (adminQueue slice) else none

/-- Put a queue in place of the one with its slice and identifier. -/
def putQueue (q : Queue) (qs : List Queue) : List Queue :=
  if qs.any fun r => r.slice == q.slice && r.qid == q.qid then
    mapIf (fun r => r.slice == q.slice && r.qid == q.qid) (fun _ => q) qs
  else qs ++ [q]

/-! ### Completions and refusals (R447, R450-R452) -/

/-- The bytes of a result buffer (R447). -/
def bufferBytes (descs : List Nat) : Nat :=
  (descs.map fun d => if d = 0 then 0 else (d % 4096 + 1) * 4096).foldl (· + ·) 0

/-- The first 28 bytes of a completion (R451). -/
def completionBytes (cid status gen qid head len detail : Nat) : List Byte :=
  natBytes 2 1 ++ natBytes 2 cid ++ natBytes 2 status ++ natBytes 2 gen ++ natBytes 2 qid ++ natBytes 2 head ++
    natBytes 4 len ++ natBytes 8 detail ++ natBytes 4 0

/-- A completion with its check (R451). -/
def mkCompletion (queue slice cid status gen qid head len detail : Nat) (result : List Byte) (port : Nat) : Completion :=
  { queue := queue, slice := slice, cid := cid, status := status, gen := gen, qid := qid, sqHead := head,
    resultLen := len, detail := detail, result := result,
    check := crc32c (completionBytes cid status gen qid head len detail), port := port, tx := false }

/-- Post the completion of a command (R450, R451, R447, R385) with the generation `gen`: it leaves its queue's outstanding
list; a result larger than the buffer is truncated with RESULT_TRUNCATED. -/
def State.postAs (s : State) (slice : Nat) (h : CmdHdr) (gen status detail : Nat) (result : List Byte) : State :=
  let q := (s.queueOf slice h.qid).getD (adminQueue slice)
  let q' := { q with outstanding := q.outstanding.erase h.cid }
  let cap := bufferBytes h.descs
  let st := if status = 0 ∧ cap < result.length then 0x0824 else status
  let dest := if q.qid = 0 then 0 else q.pair
  let key := (slice, h.qid, h.cid)
  let c := mkCompletion dest slice h.cid st gen h.qid (q.accepted % 65536) result.length detail (result.take cap)
    (tgetD key 0 s.host.cmdPort)
  { s with host := { s.host with
      queues := putQueue q' s.host.queues
      cmdPort := tdel key s.host.cmdPort
      completions := s.host.completions ++ [c] } }

/-- Complete a command; a completion whose generation has been retired is discarded (R402, R450). -/
def State.finish (s : State) (slice : Nat) (h : CmdHdr) (status detail : Nat) (result : List Byte) : State :=
  if h.gen = s.genOf slice then s.postAs slice h h.gen status detail result else s

/-- Complete with success, no detail and no result. -/
def State.done (s : State) (slice : Nat) (h : CmdHdr) : State := s.finish slice h 0 0 []

/-- Complete with a status code. -/
def State.fail (s : State) (slice : Nat) (h : CmdHdr) (status : Nat) : State := s.finish slice h status 0 []

/-- Post a refusal under R448 where R452 says. -/
def State.refuse (s : State) (h : CmdHdr) (status detail : Nat) : State :=
  let b := s.bindingOf h.pid
  let sl := (b.map (·.slice)).getD 0
  let stale := b.isNone || (h.gen != s.genOf sl)
  let q := if stale then none else s.queueOf sl h.qid
  let (dest, gen) :=
    if stale then (0xFFFF, if b.isNone then 0 else s.genOf sl)
    else match q with
      | some q => if q.kind = 0 then (if q.qid = 0 then 0 else q.pair, h.gen)
                  else if q.kind = 2 then (q.pair, h.gen) else (0xFFFF, h.gen)
      | none => (0xFFFF, h.gen)
  let head := ((q.map (·.accepted)).getD 0) % 65536
  let s1 := s.bump 0x1120 2 [] sl
  { s1 with host := { s1.host with
      completions := s1.host.completions ++ [mkCompletion dest sl h.cid status gen h.qid head 0 detail [] 0] } }

/-! ### Command admission (R397, R398, R446, R448) -/

/-- The result of the checks of a command. -/
inductive Admit where
  /-- refused, or ended at once -/
  | stop (s : State)
  /-- accepted, and held until it may start -/
  | hold (s : State)
  /-- it starts: the state with the command outstanding, and the binding that sent it -/
  | start (s : State) (b : Binding)

/-- An accepted entry of a command. -/
def Accepted.is (a : Accepted) (slice : Nat) (h : CmdHdr) (op : Nat) : Bool :=
  a.slice == slice && a.pid == h.pid && a.qid == h.qid && a.cid == h.cid && a.opcode == op

/-- The binding that sent a capsule accepted before (R448, R396), whose command is still to come. -/
def State.acceptedFrom (s : State) (h : CmdHdr) (op : Nat) : Option Binding :=
  (s.host.accepted.find? fun a => a.is a.slice h op && a.row.isNone).map fun a => ⟨a.pid, a.slice, a.role⟩

/-- The command of an accepted capsule waits to start. -/
def State.keepRow (s : State) (i : Instr) (h : CmdHdr) (op : Nat) : State :=
  { s with host := { s.host with
    accepted := mapIf (fun a => a.is a.slice h op && a.row.isNone) (fun a => { a with row := some i }) s.host.accepted } }

/-- Whether a command may start now (R446): no earlier command of its SQ waits to start, and with FENCE none is
outstanding. `earlier` are the accepted entries before it, `out` the outstanding CIDs before it. -/
def mayStart (h : CmdHdr) (earlier : List Accepted) (slice : Nat) (out : List Nat) : Bool :=
  !(earlier.any fun a => a.slice == slice && a.qid == h.qid) && (!h.fence || out.isEmpty)

/-- Start an outstanding command, or hold it. A command of a slice that is resetting is held; of a slice in any other
state but active it fails (R398). OBJ_READ (0x0010) starts while its slice resets, and from an Operator or a Custodian
while it is being removed. -/
def State.startOrHold (s : State) (b : Binding) (h : CmdHdr) (op : Nat) : Admit :=
  let q := (s.queueOf b.slice h.qid).getD (adminQueue b.slice)
  let here := fun (a : Accepted) => a.is b.slice h op
  let earlier := s.host.accepted.takeWhile fun a => !(here a)
  let out := q.outstanding.takeWhile fun c => c != h.cid
  let st := (s.sliceOf b.slice).state
  let s1 := { s with host := { s.host with accepted := s.host.accepted.filter fun a => !(here a) } }
  if !(mayStart h earlier b.slice out) || (st == 2 && op != 0x0010) then .hold s
  else if st == 1 || (op == 0x0010 && (st == 2 || (st == 3 && b.role != 0))) then .start s1 b
  else .stop (s1.fail b.slice h 0x0905)

/-- A hub asleep is woken by a capsule, and by an access that the mirror does not serve (R476, R515). -/
def State.awake (s : State) : State := { s with power := { s.power with hubAsleep := false, hubIdle := s.time.count } }

/-- Checks 3 to 7 of R448 on a command capsule: refused, or accepted with the binding that sent it. A capsule that
FLIT_RECEIVE_PAYLOAD accepted is not checked again. `roles` are the roles of the command in R460. From the freeze of a save
on nothing is accepted (R520). -/
def State.acceptCmd (s0 : State) (h : CmdHdr) (op : Nat) (roles : List Nat) : State × Option Binding :=
  let s := s0.awake
  if s.power.frozen then (s0, none)
  else match s.acceptedFrom h op, s.bindingOf h.pid with
  | some b, _ => (s, some b)
  | none, none => (s.refuse h 0x0901 4, none)
  | none, some b =>
    if h.gen ≠ s.genOf b.slice then (s.refuse h 0x0902 6, none)
    else if !(roles.contains b.role) then (s.refuse h 0x0904 0, none)
    else match s.queueOf b.slice h.qid with
      | none => (s.refuse h 0x0106 10, none)
      | some q =>
        if q.kind ≠ 0 then (s.refuse h 0x0107 10, none)
        else if q.outstanding.contains h.cid then (s.refuse h 0x0108 8, none)
        else if q.depth ≤ q.outstanding.length + 1 then (s.refuse h 0x0109 10, none)
        else
          let q' := { q with outstanding := q.outstanding ++ [h.cid], accepted := q.accepted + 1 }
          let s1 := s.bump 0x1120 1 [] b.slice
          ({ s1 with host := { s1.host with
            queues := putQueue q' s1.host.queues
            accepted := s1.host.accepted ++ [(⟨h.pid, b.role, b.slice, h.qid, h.cid, op, 0, none⟩ : Accepted)] } }, some b)

/-- The checks of a command, then its start. -/
def State.admitCmd (s : State) (h : CmdHdr) (op : Nat) (roles : List Nat) : Admit :=
  match s.acceptCmd h op roles with
  | (t, none) => .stop t
  | (t, some b) => t.startOrHold b h op

/-- Run the body of the command `i` after its checks, now or once it may start (R446). -/
def State.command (s : State) (i : Instr) (h : CmdHdr) (op : Nat) (roles : List Nat) (body : State → Binding → State) : State :=
  match s.admitCmd h op roles with
  | .stop t => t
  | .hold t => t.keepRow i h op
  | .start t b => body t b

/-- The management plane is paused (R15). -/
def State.paused (s : State) : Bool := s.quoin.pausedUntil.isSome

/-- A pause of the management plane begins: its length, at most 800 ticks, is a free value (R15, assumption 12: DESIGN
CHOICE). -/
def State.startPause (s : State) : State :=
  ({ s with quoin := { s.quoin with pausedUntil := some (s.now + Config.freeValue s.free % 801) } } : State).advanceFree

/-- Hold a command or an access until the pause ends (R15). -/
def State.hold (s : State) (i : Instr) : State := { s with quoin := { s.quoin with held := s.quoin.held ++ [i] } }

/-- A command that arrives in a pause is accepted, and held. -/
def State.holdCommand (s : State) (i : Instr) (h : CmdHdr) (op : Nat) (roles : List Nat) : State :=
  match s.acceptCmd h op roles with
  | (t, none) => t
  | (t, some _) => (t.keepRow i h op).hold i

/-! ### Members of a group (R50, R84, R359, R401, R425, R471) -/

/-- The other members that run, in member order (R13). -/
def State.others (s : State) : List Nat :=
  if s.group.grouped then (s.group.members.filter fun m => m.state == 1 && m.node != s.group.node).map (·.node) else []

/-- A message for a member. -/
def State.tell (s : State) (node : Nat) (m : MemberMsg) : State :=
  { s with group := { s.group with outbox := s.group.outbox ++ [(node, m)] } }

/-- A message for every other member. -/
def State.tellAll (s : State) (m : MemberMsg) : State :=
  { s with group := { s.group with outbox := s.group.outbox ++ s.others.map fun n => (n, m) } }

/-- A command that every member of a group carries out: loads (R84), tables, Keystone tables and state spaces, key slots
(R359), queues, slices and bindings (R394, R401), and the writes at group level (R471). Those of which the spec says only
that the host sees one device are the model's choice (assumption 99: DESIGN CHOICE). -/
def groupOp (i : Instr) (op : Nat) : Bool :=
  match i with
  | .objWrite _ a _ => a.path.isEmpty
  | .ringAck _ a _ => a.path.isEmpty
  | .ringOverflowClear _ a _ => a.path.isEmpty
  | .firstClear _ a _ => a.path.isEmpty
  | _ => [0x0002, 0x0003, 0x0011, 0x0020, 0x0021, 0x0023, 0x0024, 0x0030, 0x0031, 0x0032, 0x0033, 0x0034, 0x0040, 0x0041, 0x0060,
      0x0063, 0x0064, 0x0065, 0x0071].contains op

/-- The port of a command that came from member `n`: 64 + n. -/
def memberPort (n : Nat) : Nat := 64 + n

/-- A command that has passed its checks here goes to every other member, and its completion waits for them; one that has
failed here has failed for the group (R84, R359, R471). -/
def State.fanOut (before : State) (i : Instr) (h : CmdHdr) (op : Nat) (b : Binding) (after : State) : State :=
  let failed := (after.host.completions.drop before.host.completions.length).any fun c =>
    c.slice == b.slice && c.qid == h.qid && c.cid == h.cid && c.status != 0
  let remote := decide (64 ≤ tgetD (b.slice, h.qid, h.cid) 0 before.host.cmdPort)
  if before.others.isEmpty || !(groupOp i op) || remote || failed then after
  else
    let t := after.tellAll (.command i)
    { t with group := { t.group with fans := t.group.fans ++ [⟨b.slice, h.qid, h.cid, before.others, none, false⟩] } }

/-- FW_ACTIVATE goes through the members one at a time in node order (R543), and a raise of a generation with the leader last
(R401), this one among them. -/
def State.oneByOne (s : State) (h : CmdHdr) (op : Nat) (b : Binding) : Bool :=
  let here := fun (f : Fan) => f.slice == b.slice && f.qid == h.qid && f.cid == h.cid
  [0x0004, 0x0061, 0x0062, 0x0072].contains op && !s.others.isEmpty &&
    decide (tgetD (b.slice, h.qid, h.cid) 0 s.host.cmdPort < 64) && !(s.group.fans.any here)

/-- A command that goes through the members one at a time waits for its turn at each. -/
def State.takeTurn (s : State) (i : Instr) (h : CmdHdr) (op : Nat) (b : Binding) : State :=
  let all := sortBy (fun (x y : Nat) => decide (x < y)) (s.group.node :: s.others)
  let nodes := if op = 0x0072 then all else all.filter (· != s.group.leader) ++ all.filter (· == s.group.leader)
  { s with group := { s.group with fans := s.group.fans ++ [⟨b.slice, h.qid, h.cid, nodes, some i, false⟩] } }

/-- Run the body of a command that the management plane serves (R15). -/
def State.managed (s : State) (i : Instr) (h : CmdHdr) (op : Nat) (roles : List Nat) (body : State → Binding → State) : State :=
  if s.paused then s.holdCommand i h op roles
  else s.command i h op roles fun t b => if t.oneByOne h op b then t.takeTurn i h op b else State.fanOut t i h op b (body t b)

/-- The roles of R460. -/
def anyRole : List Nat := [0, 1, 2]
def tenantRole : List Nat := [0]
def operatorRole : List Nat := [1]
def custodianRole : List Nat := [2]

/-- Let a command wait for its condition (R453). -/
def State.wait (s : State) (w : Waiting) : State :=
  { s with host := { s.host with waiting := s.host.waiting ++ [w] } }

/-! ### Error records (R501-R510) -/

def ringEmpty : Ring := { recs := [], coal := [], first := none, overflow := false, lost := 0, sticky := 0 }

/-- Records a ring holds; a translation fault holds two (R504). -/
def Rec.count (r : Rec) : Nat := if r.cont.isSome then 2 else 1

def Ring.count (r : Ring) : Nat := (r.recs.map Rec.count).foldl (· + ·) 0

/-- The sticky bit of a code (R508). -/
def stickyOf (code : Nat) : Nat :=
  if code = 0x0685 then 1
  else if code = 0x0686 then 2
  else if code = 0x0601 ∨ code = 0x0602 ∨ code = 0x0603 then 4
  else if code = 0x0690 ∨ code = 0x0694 ∨ code = 0x0695 ∨ code = 0x0696 ∨ code = 0x0697 ∨ code = 0x0699
    ∨ code = 0x069A then 8
  else if code = 0x0688 then 16
  else if code = 0x0698 then 40
  else if code = 0x0691 ∨ code = 0x0692 ∨ code = 0x0693 then 64
  else if code = 0x0687 then 128
  else 0

/-- Whether a coalescing entry is open for this unit and code at this tick (R505). -/
def Coal.open_ (c : Coal) (u : UnitId) (code : Nat) (now : Tick) : Bool :=
  c.unit == u && c.code == code && now < c.time + 25

/-- One occurrence in one ring (R505). -/
def Ring.occur (r : Ring) (x : Rec) : Ring :=
  let r1 :=
    match r.coal.find? fun c => c.open_ x.unit x.code x.time with
    | some c =>
      if c.kept then
        { r with recs := mapIf (fun y => y.unit == x.unit && y.code == x.code && y.time == c.time)
                   (fun y => { y with repeat_ := min 4095 (y.repeat_ + 1) }) r.recs }
      else r
    | none =>
      let kept := decide (r.count + x.count ≤ 64)
      let others := r.coal.filter fun (c : Coal) => !(c.unit == x.unit && c.code == x.code)
      let co : List Coal := others ++ [(⟨x.time, x.unit, x.code, kept⟩ : Coal)]
      { r with
        recs := if kept then r.recs ++ [x] else r.recs
        overflow := r.overflow || !kept
        lost := if kept then r.lost else min u32Max (r.lost + x.count)
        coal := co.drop (co.length - 4) }
  { r1 with first := if r1.first.isSome then r1.first else some { x with repeat_ := 1 } }

/-- A ring by number: 0 hub, 1 plinth, 2 + b bay b, 32 + n slice n. -/
def State.ringOf (s : State) (n : Nat) : Ring := tgetD n ringEmpty s.err.rings

/-- The 12 courses of a record (R501). -/
def Rec.courses (r : Rec) : List Course :=
  natCrs 5 r.time ++ natCrs 1 r.unit.cls ++ natCrs 1 r.unit.index ++ natCrs 1 (r.code % 4096) ++
    natCrs 1 r.repeat_ ++ natCrs 3 r.info

/-- The bytes of a record as read, with its continuation (R504). -/
def Rec.bytes (r : Rec) : List Byte :=
  packBytes r.courses ++
    match r.cont with
    | some va => packBytes (natCrs 5 va ++ List.replicate 7 0)
    | none => []

/-- UNIT of a unit of this device (R502). -/
def State.unitOf (s : State) (cls index : Nat) : UnitId := ⟨s.group.node % 64 * 64 + cls, index⟩

/-- An occurrence enters one ring; the hub's first capture goes out as an EMERGENCY frame (R505, R483). -/
def State.occurAt (s : State) (ring : Nat) (x : Rec) : State :=
  let r := s.ringOf ring
  let r1 := r.occur x
  let r2 := { r1 with sticky := if ring < 32 then r1.sticky ||| stickyOf x.code else 0 }
  let frame := packBytes x.courses ++ [0, 0]
  { s with
    err := { s.err with rings := tset ring r2 s.err.rings }
    can := if ring = 0 ∧ r.first.isNone ∧ s.can.busState ≠ 2 then { s.can with out := s.can.out ++ [natBytes 2 (0x80 + s.can.node) ++ frame] }
           else s.can }

/-- An error in a unit, entered in the ring of the unit (R506). -/
def State.record (s : State) (ring cls index code info : Nat) : State :=
  s.occurAt ring ⟨s.now, s.unitOf cls index, code, 1, info, none⟩

/-- An error that concerns a context of a slice, entered in the slice's ring (R502, R506). -/
def State.recordSlice (s : State) (slice ctx code info : Nat) (cont : Option Nat) : State :=
  s.occurAt (32 + slice) ⟨s.now, ⟨10, ctx⟩, code, 1, info, cont⟩

/-- The ring of a bay (R501). -/
def bayRing (b : Nat) : Nat := 2 + b

/-- Milliwatts drawn at a tick, never above the design maximum of 540 W (R1, R528). -/
def powerNow (t : Tick) : Nat := min 540000 (Config.power t)

/-- A set bit of a sticky register without a record (R508). -/
def State.stick (s : State) (ring bit : Nat) : State :=
  { s with err := { s.err with
      rings := tupd ring ringEmpty (fun r => { r with sticky := withBit r.sticky bit }) s.err.rings } }

/-- The arch that a unit lies in, for what a bay answers itself (R7, R471): a stone or engine of a bay lies in the bay. -/
def unitPath (ring : Nat) : List Nat := if 2 ≤ ring ∧ ring < 32 then [ring - 2] else []

/-- A recovery of R497: its record, FAULTS_RECOVERED, its exposure bit and the tick of the latest fault. -/
def State.recovery (s : State) (row ring cls index code detail : Nat) (exposed : Bool) : State :=
  let at_ := unitPath ring
  let s0 := (s.record ring cls index code (detail * 2 ^ 24)).bump 0x5000 2 at_ 0
  let s1 := if at_.isEmpty then s0 else s0.setObj 0x5000 4 at_ 0 (.num s0.now)
  { s1 with err := { s1.err with
      exposed := if exposed then withBit s1.err.exposed row else s1.err.exposed
      lastFault := s1.now } }

/-- A recovery of R497 that writes no record, because R511 gives it no code. -/
def State.recoveryQuiet (s : State) (row : Nat) : State :=
  let s1 := s.bump 0x5000 2 [] 0
  { s1 with err := { s1.err with exposed := withBit s1.err.exposed row, lastFault := s1.now } }

/-! ### Bays and stones -/

/-- A bay is in service: not lost, and not off by the thermal trip (R182, R499). -/
def State.bayLive (s : State) (b : Nat) : Bool :=
  decide (b < 16) && !(s.mason.lostBays.contains b)

/-- A live bay is running: its stones issue and its engines work (R513); work for another waits for its wake (R45). -/
def State.bayRuns (s : State) (b : Nat) : Bool :=
  s.bayLive b && decide ((tgetD b (⟨0, 0, none⟩ : BayPower) s.power.bays).state = 0)

/-- A live bay is awake: running or clock-gated (R513). -/
def State.bayAwake (s : State) (b : Nat) : Bool :=
  s.bayLive b && decide ((tgetD b (⟨0, 0, none⟩ : BayPower) s.power.bays).state ≤ 1)

/-- The live bays in order. -/
def State.liveBays (s : State) : List Nat := (List.range 16).filter s.bayLive

/-- Physical slot of a logical stone (R9). -/
def State.physSlot (s : State) (b l : Nat) : Nat := tgetD (b, l) l s.mason.slots

/-- A stone in service. -/
def State.stoneLive (s : State) (b slot : Nat) : Bool :=
  s.bayLive b && decide (slot < 17) && !(s.mason.fencedStones.contains (b, slot))

/-- The live stones of a bay that hold a logical position, by physical slot. -/
def State.activeStones (s : State) (b : Nat) : List Nat :=
  ((List.range 16).map (s.physSlot b)).filter (s.stoneLive b)

/-- A bay's power state. -/
def State.bayPower (s : State) (b : Nat) : BayPower := tgetD b ⟨0, 0, none⟩ s.power.bays

def State.setBayPower (s : State) (b : Nat) (p : BayPower) : State :=
  { s with power := { s.power with bays := tset b p s.power.bays } }

/-- The wake time of a bay state (R513). -/
def wakeTicks : Nat → Nat
  | 1 => 15
  | 2 => 225
  | _ => 8750

/-- A live bay that is not running starts its wake (R513). -/
def State.wakeBay (s : State) (b : Nat) : State :=
  let p := s.bayPower b
  if !(s.bayLive b) ∨ p.state = 0 ∨ p.wakeDue.isSome then s
  else s.setBayPower b { p with wakeDue := some (s.now + wakeTicks p.state) }

/-! ### Cores -/

def schedReset : Sched :=
  { next := 3, after := 0, last := 0, sFree := 0, vFree := 0, ready := [], ackAt := 0, tagAt := 0, pair := none }

def predReset : Predictor := { counters := [], history := 0, indirect := [], lastTargets := [], stack := [] }

/-- A core before anything has run on it: registers 0, p0 all ones, the mode of R203. -/
def coreReset (u : CoreId) : Core where
  s := List.replicate 32 0
  v := List.replicate 16 0
  p := (BitVec.allOnes 64) :: List.replicate 7 0
  mode := match u with
    | .stone _ _ => 0
    | .quoin _ => 0xC00
  budget := 0
  ovf := 0
  dcarry := 0
  cbase := 0
  arrival := 0
  deadline := 0
  item := 0
  ctx := 0
  epc := 0
  cause := 0
  vector := 0
  space := 0
  borrow := false
  pc := 0
  slot := none
  annul := false
  firing := none
  sched := schedReset
  pred := predReset
  tlb := List.replicate 64 none
  locked := []
  l1i := []
  l1d := []
  ptrI := []
  ptrD := []
  evict := []
  access := none
  storesOut := 0
  heldSince := none

/-- A core by its identifier. -/
def State.coreOf (s : State) (u : CoreId) : Core := tgetD u (coreReset u) s.cores

/-- Put a core. -/
def State.setCore (s : State) (u : CoreId) (c : Core) : State := { s with cores := tset u c s.cores }

/-- The bay of a core; a Quoin core is in the hub. -/
def coreBay : CoreId → Option Nat
  | .stone b _ => some b
  | .quoin _ => none

/-! ### Contexts, items, runs -/

/-- A loaded context by number. -/
def State.ctxOf (s : State) (n : Nat) : Option Context := s.ctxs.find? fun c => c.num == n

/-- Change a context. -/
def State.updCtx (s : State) (n : Nat) (f : Context → Context) : State :=
  { s with ctxs := mapIf (fun c => c.num == n) f s.ctxs }

/-- An item by its ingress sequence number. -/
def State.itemOf (s : State) (seq : Nat) : Option Item := s.items.find? fun i => i.seq == seq

/-- Change an item. -/
def State.updItem (s : State) (seq : Nat) (f : Item → Item) : State :=
  { s with items := mapIf (fun i => i.seq == seq) f s.items }

/-- A run by its number. -/
def State.runOf (s : State) (n : Nat) : Option Run := s.runs.find? fun r => r.num == n

/-- Change a run. -/
def State.updRun (s : State) (n : Nat) (f : Run → Run) : State :=
  { s with runs := mapIf (fun r => r.num == n) f s.runs }

/-- The work of a reference. -/
def State.workOf (s : State) : WorkRef → Option Work
  | .item q => (s.itemOf q).map (·.work)
  | .run n => (s.runOf n).map (·.work)

/-- Change the work of a reference. -/
def State.updWork (s : State) (w : WorkRef) (f : Work → Work) : State :=
  match w with
  | .item q => s.updItem q fun i => { i with work := f i.work }
  | .run n => s.updRun n fun r => { r with work := f r.work }

/-- The context number of a work. -/
def State.ctxOfWork (s : State) : WorkRef → Option Nat
  | .item q => (s.itemOf q).map (·.ctx)
  | .run n => (s.runOf n).map (·.ctx)

/-- A port that is DARK. -/
def portReset : Port where
  state := 0
  since := 0
  held := false
  role := 0
  partner := []
  partnerNode := 0
  partnerNonce := []
  partnerCaps := 0
  lanes := []
  faulty := []
  trained := false
  initSeen := false
  retrain := none
  txSeq := 0
  rxExp := 0
  replay := []
  resend := []
  retrySent := none
  retryAck := 0
  retryCount := 0
  credits := []
  toReturn := []
  txq := []
  wrr := 0
  asm := []
  discard := []
  transit := []
  misses := 0
  lastTx := 0
  goodInInterval := false
  intervalStart := 0
  nonce := []
  attested := false
  syncSeq := 0
  syncAt := none
  syncT1 := none
  latency := 0
  heldFlits := []
  out := []

/-- A Gyine port. -/
def State.portOf (s : State) (p : Nat) : Port := tgetD p portReset s.ports

/-- Change a Gyine port. -/
def State.updPort (s : State) (p : Nat) (f : Port → Port) : State := { s with ports := tupd p portReset f s.ports }

/-- Keystone tables. -/
def State.ksTab (s : State) (slice id : Nat) : Option KsTab := s.ks.tables.find? fun t => t.slice == slice && t.id == id

/-- Change a Keystone table. -/
def State.updKs (s : State) (slice id : Nat) (f : KsTab → KsTab) : State :=
  { s with ks := { s.ks with tables := mapIf (fun t => t.slice == slice && t.id == id) f s.ks.tables } }

/-- Whether the command of a header is the one that waits. -/
def Waiting.hdr : Waiting → CmdHdr
  | .unload h _ _ => h
  | .run h _ _ => h
  | .ksEnter h _ _ _ _ _ => h
  | .ksUpdate h _ _ _ => h
  | .ksLoad h _ _ => h
  | .ksDrop h _ _ => h
  | .proof h _ _ _ => h
  | .sealNow h _ _ => h
  | .tsWrite h _ _ _ => h
  | .tsRead h _ _ _ => h
  | .tsTrim h _ _ _ => h
  | .erase h _ => h
  | .attest h _ => h
  | .activate h => h
  | .store h => h

end Sys2Proof.Machine
end

