-- ==== Sys2Proof/Machine/Values.lean ====
section
/-! DEFINITION. Value types (03): sizes, decimal limbs, rounding and saturation, comparison, rows and their images. -/

namespace Sys2Proof.Machine

/-! ### Type descriptors (R59, R63) -/

/-- A type descriptor from its two courses (R63): `none` when it is invalid. -/
def typeOf (c0 c1 : Course) : Option TypeDesc :=
  let n24 := c0.toNat * 4096 + c1.toNat
  let kind := fieldOf n24 23 20
  let n := fieldOf n24 19 16
  let param := fieldOf n24 11 0
  if fieldOf n24 15 12 ≠ 0 then none
  else
    let ok :=
      match kind with
      | 0 => decide (1 ≤ n ∧ n ≤ 8 ∧ param = 0)
      | 1 => decide (1 ≤ n ∧ n ≤ 8 ∧ param = 0)
      | 2 => decide (1 ≤ n ∧ n ≤ 8 ∧ param ≤ 18 ∧ param ≤ 3 * n)
      | 3 => decide ((n = 2 ∨ n = 4) ∧ param < 12 * n)
      | 4 => decide (n = 1 ∧ param = 0)
      | 5 => decide (n = 0 ∧ 1 ≤ param)
      | 6 => decide (n = 5 ∧ param = 0)
      | 7 => decide (n = 1 ∧ param = 0)
      | _ => false
    if ok then some ⟨kind, n, param⟩ else none

/-- The two courses of a type descriptor (R63). -/
def TypeDesc.courses (t : TypeDesc) : List Course := natCrs 2 (t.kind * 2 ^ 20 + t.n * 2 ^ 16 + t.param)

/-- The size of a type in courses (R59). -/
def TypeDesc.size (t : TypeDesc) : Nat := if t.kind = 5 then 1 + 2 * ceilDiv t.param 3 else t.n

def tUint (n : Nat) : TypeDesc := ⟨1, n, 0⟩
def tInt (n : Nat) : TypeDesc := ⟨0, n, 0⟩
def tCode : TypeDesc := ⟨4, 1, 0⟩
def tBool : TypeDesc := ⟨7, 1, 0⟩
def tBytes (m : Nat) : TypeDesc := ⟨5, 0, m⟩
def tTicks : TypeDesc := ⟨6, 5, 0⟩

/-! ### Decimal limbs (R64-R67) -/

/-- The magnitude and sign of DEC courses; `none` for a non-limb (R64, R65). -/
def decOf (cs : List Course) : Option Int :=
  match cs with
  | [] => some 0
  | c0 :: t =>
    let bad := decide (1000 ≤ c0.toNat % 1024) || c0.toNat / 1024 % 2 == 1 || t.any fun c => 1000 ≤ c.toNat
    if bad then none
    else
      let m := t.foldl (fun a c => a * 1000 + c.toNat) (c0.toNat % 1024)
      some (if 2048 ≤ c0.toNat then -(m : Int) else (m : Int))

/-- `n` limbs of a magnitude. -/
def limbs : Nat → Nat → List Course
  | 0, _ => []
  | k + 1, m => limbs k (m / 1000) ++ [BitVec.ofNat 12 (m % 1000)]

/-- The DEC courses of an integer of `n` limbs; a zero magnitude has sign 0 (R64, R66). -/
def decCourses (n : Nat) (v : Int) : List Course :=
  match limbs n v.natAbs with
  | [] => []
  | c0 :: t => (if v < 0 then c0 ||| 0x800 else c0) :: t

/-- Saturate to a magnitude limit, keeping the sign (R67); the flag says that it saturated. -/
def satMag (lim : Nat) (v : Int) : Int × Bool :=
  if v.natAbs ≤ lim then (v, false) else (if v < 0 then -(lim : Int) else (lim : Int), true)

/-- Drop `k` decimal digits of a magnitude by round half even (R67). -/
def roundMag (k m : Nat) : Nat :=
  let p := 10 ^ k
  let q := m / p
  let r := m % p
  if 2 * r > p ∨ (2 * r = p ∧ q % 2 = 1) then q + 1 else q

/-- Drop `k` decimal digits of a value by round half even, on the magnitude (R67). -/
def roundDec (k : Nat) (v : Int) : Int := if v < 0 then -(roundMag k v.natAbs : Int) else (roundMag k v.natAbs : Int)

/-- Bring a value of scale `from_` to scale `to_` (R67 step 1). -/
def rescale (from_ to_ : Nat) (v : Int) : Int :=
  if to_ < from_ then roundDec (from_ - to_) v else v * (10 ^ (to_ - from_) : Nat)

/-- Fit a value of scale `from_` to DEC(n, s) (R67). -/
def fitDec (from_ n s : Nat) (v : Int) : Int × Bool := satMag (1000 ^ n - 1) (rescale from_ s v)

/-- Drop `k` binary digits of an integer by round half even on the magnitude (R70). -/
def roundBin (k : Nat) (v : Int) : Int :=
  let m := v.natAbs
  let p := 2 ^ k
  let q := m / p
  let r := m % p
  let q' := if 2 * r > p ∨ (2 * r = p ∧ q % 2 = 1) then q + 1 else q
  if v < 0 then -(q' : Int) else (q' : Int)

/-- Saturate to a signed range of `w` bits. -/
def satInt (w : Nat) (v : Int) : Int × Bool :=
  let hi : Int := (2 ^ (w - 1) : Nat) - 1
  let lo : Int := -((2 ^ (w - 1) : Nat) : Int)
  if hi < v then (hi, true) else if v < lo then (lo, true) else (v, false)

/-- Saturate to an unsigned range of `w` bits. -/
def satUint (w : Nat) (v : Int) : Int × Bool :=
  let hi : Int := (2 ^ w : Nat) - 1
  if hi < v then (hi, true) else if v < 0 then (0, true) else (v, false)

/-! ### Values of fields -/

/-- The number a field holds for arithmetic and comparison (R59, R62, R79); `none` for a non-limb. -/
def numOf (t : TypeDesc) (cs : List Course) : Option Int :=
  match t.kind with
  | 0 => some (signedOf (12 * t.n) (crsNat cs))
  | 2 => decOf cs
  | 3 => some (signedOf (12 * t.n) (crsNat cs))
  | 7 => some (if crsNat cs = 0 then 0 else 1)
  | _ => some (crsNat cs)

/-- The bytes of a BYTES field; `none` when its length course is above m (R60). -/
def bytesOf (t : TypeDesc) (cs : List Course) : Option (List Byte) :=
  match cs with
  | [] => some []
  | l :: rest => if t.param < l.toNat then none else some ((packBytes rest).take l.toNat)

/-- The courses of a BYTES value; bytes beyond the length are zero (R60). -/
def bytesCourses (m : Nat) (bs : List Byte) : List Course :=
  BitVec.ofNat 12 bs.length :: fitList (2 * ceilDiv m 3) 0 (unpackBytes bs)

/-- Compare two byte strings: a proper prefix orders first (R62). -/
def cmpBytes : List Byte → List Byte → Ordering
  | [], [] => .eq
  | [], _ :: _ => .lt
  | _ :: _, [] => .gt
  | a :: s, b :: t => if a.toNat < b.toNat then .lt else if b.toNat < a.toNat then .gt else cmpBytes s t

/-- A comparison of two fields of one type (R62), or the code that reading one raises. -/
def cmpField (t : TypeDesc) (a b : List Course) : Except Nat Ordering :=
  if t.kind = 5 then
    match bytesOf t a, bytesOf t b with
    | some x, some y => .ok (cmpBytes x y)
    | _, _ => .error 0x0382
  else
    match numOf t a, numOf t b with
    | some x, some y => .ok (compare x y)
    | _, _ => .error 0x0383

/-- A field as the device writes it: a BOOL is 0 or 1, and the bytes of a BYTES value beyond its length are zero (R60,
R61). A length course above m is left as it stands. -/
def canonField (t : TypeDesc) (cs : List Course) : List Course :=
  if t.kind = 7 then [if crsNat cs = 0 then 0 else 1]
  else match (if t.kind = 5 then bytesOf t cs else none) with
    | some b => bytesCourses t.param b
    | none => fitList t.size 0 cs

/-- The bytes a field contributes to a hash or a digest (R144): a BYTES field its first length bytes, any other
field its byte image. -/
def fieldBytes (t : TypeDesc) (cs : List Course) : Except Nat (List Byte) :=
  if t.kind = 5 then
    match bytesOf t cs with
    | some b => .ok b
    | none => .error 0x0382
  else .ok (packBytes cs)

/-! ### Rows (R110, R207) -/

/-- The courses of a row's fields. -/
def rowSize (ts : List TypeDesc) : Nat := (ts.map TypeDesc.size).foldl (· + ·) 0

/-- The courses of a row image: fields, validity, flags, and one zero course to an even total (R207). -/
def imageSize (ts : List TypeDesc) : Nat :=
  let n := rowSize ts + ceilDiv ts.length 12 + 1
  n + n % 2

/-- Bits packed most significant first into courses (R77). -/
def bitsCourses (bs : List Bool) : List Course :=
  (List.range (ceilDiv bs.length 12)).map fun i =>
    BitVec.ofNat 12 ((List.range 12).foldl (fun a k => a * 2 + (if nth bs (i * 12 + k) false then 1 else 0)) 0)

/-- The row image of R207; the courses of a null field are zero (R110). -/
def rowImage (ts : List TypeDesc) (r : Row) : List Course :=
  let fs := (List.range ts.length).flatMap fun k =>
    let z := (nth ts k tCode).size
    if nth r.valid k false then canonField (nth ts k tCode) (nth r.fields k []) else List.replicate z 0
  let body := fs ++ bitsCourses (fitList ts.length false r.valid) ++ [if r.ovf then (0x800 : Course) else 0]
  if body.length % 2 = 1 then body ++ [0] else body

/-- Split courses into fields by their types. -/
def splitFields : List TypeDesc → List Course → List (List Course)
  | [], _ => []
  | t :: ts, cs => cs.take t.size :: splitFields ts (cs.drop t.size)

/-- Stream bit `k` of a payload (R77). -/
def streamBit (cs : List Course) (k : Nat) : Bool := (nth cs (k / 12) 0).getLsbD (11 - k % 12)

/-- The `w` bits from stream bit `k` on (R77). -/
def streamBits (cs : List Course) (k w : Nat) : Nat :=
  (List.range w).foldl (fun a i => a * 2 + (if streamBit cs (k + i) then 1 else 0)) 0

/-- A row from its image; the courses of a null field read zero (R207, R227). -/
def rowOfImage (ts : List TypeDesc) (cs : List Course) : Row :=
  let n := rowSize ts
  let vs := cs.drop n
  let valid := (List.range ts.length).map fun k => streamBit vs k
  let fields := splitFields ts cs
  { fields := (List.range ts.length).map fun k =>
      if nth valid k false then nth fields k [] else List.replicate (nth ts k tCode).size 0
    valid := valid
    ovf := (nth cs (n + ceilDiv ts.length 12) 0).getLsbD 11 }

/-- The value of a field of a row; `none` when it is null. -/
def Row.get (r : Row) (k : Nat) : Option (List Course) := if nth r.valid k false then some (nth r.fields k []) else none

/-- A row of present fields. -/
def rowOf (fs : List (List Course)) : Row := { fields := fs, valid := fs.map fun _ => true, ovf := false }

/-- A row with one more field. -/
def Row.push (r : Row) (v : Option (List Course)) (size : Nat) : Row :=
  { r with fields := r.fields ++ [v.getD (List.replicate size 0)], valid := r.valid ++ [v.isSome] }

/-! ### Layouts (R112-R114) -/

/-- The one field of an ANSWER: ANSWER_LEN courses, each a CODE (R113). -/
def tAnswer (arg : Nat) : TypeDesc := ⟨4, 2 * arg, 0⟩

/-- The field types of a layout. A STATE row holds NEW and ADDR (R206); a BUILD row holds ROWS. -/
def Layout.types : Layout → List TypeDesc
  | .fields ts => ts
  | .fixed code arg =>
    match code with
    | 0 => [tUint 6, tTicks, tTicks, tUint 2, tUint 2]
    | 1 => [tUint 2, tUint 4, tUint 4, tUint 4]
    | 2 => [tAnswer arg]
    | 3 => [tCode, tCode, tUint 2]
    | 4 => [tBool, tUint 2]
    | 5 => [tBool, tUint 2, tUint 4]
    | 6 => [tBytes 4095]
    | 7 => [tUint 5]
    | _ => []

/-- The courses of a row image of a layout (R207). -/
def Layout.imageSize (l : Layout) : Nat := Machine.imageSize l.types

/-- The row image of a row of a layout. -/
def Layout.image (l : Layout) (r : Row) : List Course := rowImage l.types r

/-- A row of a layout from its image. -/
def Layout.row (l : Layout) (cs : List Course) : Row := rowOfImage l.types cs

/-- A token of rows. -/
def tokenOf (l : Layout) (rows : List Row) : Token := { layout := l, rows := rows, area := [], build := [], batch := none }

end Sys2Proof.Machine
end

