-- ==== Sys2Proof/WellFormed.lean ====
section
/-! DEFINITION. The operands an encoding admits: pairs and quads (R200), field ranges of the Chisel formats (R204,
R213-R221, R226-R234), and unit numbers. -/

namespace Sys2Proof

/-! ### Register operands -/

/-- A pair is named by its even register s2 to s30 (R200). -/
def pairOk (r : Fin 32) : Bool := decide (r.val % 2 = 0 ∧ 2 ≤ r.val)

/-- A quad is named by s4, s8, ... s28 (R200). -/
def quadOk (r : Fin 32) : Bool := decide (r.val % 4 = 0 ∧ 4 ≤ r.val)

/-- A count within bounds. -/
def inRange (lo hi n : Nat) : Bool := decide (lo ≤ n ∧ n ≤ hi)

/-- The field W of vunpk and vpack: 1 to min(96, 12e) (R220). -/
def widthOk (e : Fin 4) (w : Nat) : Bool := inRange 1 (min 96 (12 * 2 ^ e.val)) w

/-- An immediate shift amount of 6 bits is always admitted; K and N of dfit (R216). -/
def dfitOk (rd ra : Fin 32) (wide : Bool) (k n : Nat) : Bool :=
  pairOk rd && (if wide then quadOk ra && decide (k ≤ 59) else pairOk ra && decide (k ≤ 29)) && inRange 1 10 n

/-- The destination of dcvt.i.N and dcvt.u.N: a scalar up to N = 5, else a pair (R215). -/
def dcvtOk (n : Nat) (rd ra : Fin 32) : Bool := inRange 1 8 n && pairOk ra && (decide (n ≤ 5) || pairOk rd)

/-- User control registers that may be read (R202). -/
def ctlReadable (quoin : Bool) (num : Nat) : Bool := decide (num ≤ 8) || (quoin && inRange 0x20 0x25 num)

/-- Control registers that may be written: user ctl.ovf and ctl.dcarry; a Quoin core also its RW registers (R202). -/
def ctlWritable (quoin : Bool) (num : Nat) : Bool :=
  num == 2 || num == 3 || (quoin && (num == 0 || inRange 0x20 0x22 num || num == 0x24))

/-- A core is a Quoin core. -/
def CoreId.isQuoin : CoreId → Bool
  | .stone _ _ => false
  | .quoin _ => true

/-- A core that exists: 16 bays of 17 stones, and two pairs (R1, R9, R16). -/
def CoreId.ok : CoreId → Bool
  | .stone b k => decide (b < 16 ∧ k < 17)
  | .quoin p => decide (p < 2)

/-! ### Commands -/

/-- The encoding of a Chisel row is defined on its core (R204). Every other row is of a host, a pin or a unit, and names
units that exist. -/
def Instr.wellFormed : Instr → Bool
  | .sext u _ n _ _ | .zext u _ n _ _ => u.ok && inRange 1 4 n
  | .cmp u _ cc _ _ _ | .cmpi u _ cc _ _ _ | .br u _ cc _ _ _ _ => u.ok && decide (cc ≤ 5)
  | .dadd u _ rd ra rb | .dsub u _ rd ra rb | .daddC u _ rd ra rb | .dmul u _ rd ra rb =>
    u.ok && pairOk rd && pairOk ra && pairOk rb
  | .dmulW u _ rd ra rb => u.ok && quadOk rd && pairOk ra && pairOk rb
  | .dabs u _ rd ra | .dneg u _ rd ra => u.ok && pairOk rd && pairOk ra
  | .dcmpEq u _ _ ra rb | .dcmpNe u _ _ ra rb | .dcmpLt u _ _ ra rb | .dcmpGe u _ _ ra rb =>
    u.ok && pairOk ra && pairOk rb
  | .dext u _ n rd ra | .dpack u _ n rd ra => u.ok && inRange 1 8 n && pairOk rd && pairOk ra
  | .dcvtD u _ rd _ => u.ok && pairOk rd
  | .dcvtI u _ n rd ra | .dcvtU u _ n rd ra => u.ok && dcvtOk n rd ra
  | .dfit u _ rd ra wide k n => u.ok && dfitOk rd ra wide k n
  | .dsl u _ rd ra k => u.ok && pairOk rd && pairOk ra && decide (k ≤ 29)
  | .vhash u _ e _ _ => u.ok && decide (2 ≤ e.val)
  | .vcmp u _ cc _ _ _ _ => u.ok && decide (cc ≤ 9)
  | .vunpk u _ _ w _ e _ _ _ _ => u.ok && widthOk e w
  | .vpack u _ w e _ _ _ => u.ok && widthOk e w
  | .ls u _ n _ _ _ _ _ | .lt u _ n _ _ _ _ _ | .lm u _ n _ _ _ _ _ => u.ok && inRange 1 5 n
  | .ss u _ n _ _ _ | .sm u _ n _ _ _ _ => u.ok && inRange 1 5 n
  | .ksFind u _ rd _ _ => u.ok && inRange 1 30 rd.val
  | .ret u _ ra => u.ok && ra == 31
  | .rdctl u _ _ num => u.ok && ctlReadable u.isQuoin num.toNat
  | .wrctl u _ _ num => u.ok && ctlWritable u.isQuoin num.toNat
  | .tinvA u _ _ _ | .tinvT u _ _ | .tinvAll u _ | .tsync u _ _ | .crangeClean u _ _ _ _ | .crangeInv u _ _ _ _
  | .crangeCinv u _ _ _ _ | .crangeZero u _ _ _ _ | .lease u _ _ _ _ | .scrub u _ _ | .borrow u _ | .sret u _ =>
    u.ok && u.isQuoin
  | .add u _ _ _ _ | .sub u _ _ _ _ | .adds u _ _ _ _ | .subs u _ _ _ _ | .mul u _ _ _ _ | .mulh u _ _ _ _
  | .mulhu u _ _ _ _ | .and u _ _ _ _ | .or u _ _ _ _ | .xor u _ _ _ _ | .andn u _ _ _ _ | .shl u _ _ _ _
  | .shr u _ _ _ _ | .sar u _ _ _ _ | .min u _ _ _ _ | .max u _ _ _ _ | .minu u _ _ _ _ | .maxu u _ _ _ _ => u.ok
  | .hodCopy b c | .hodFill b c | .hodCompare b c | .hodPack b c | .hodUnpack b c | .hodDisable b c
  | .hodLineDone b c _ => decide (b < 16 ∧ c < 32)
  | .firingDispatch b k _ | .stoneFault b k | .stoneHangTimeout b k | .evictionWriteback b k _ =>
    decide (b < 16 ∧ k < 17)
  | .pchFailed p => decide (p < 192)
  | .dramChannelLost c | .onfiChannelLost c => decide (c < 8)
  | _ => true

end Sys2Proof
end

