-- ==== Sys2Proof/Machine/Operands.lean ====
section
/-! DEFINITION. The operands of Chisel instructions (08): scalar, predicate and vector registers, pairs and quads, vector
elements, guards, control registers, and the work and input areas of a firing. -/

namespace Sys2Proof.Machine

/-! ### Registers (R200) -/

/-- A scalar register by number; s0 reads 0. -/
def Core.sr (c : Core) (i : Nat) : Scalar := if i = 0 then 0 else nth c.s i 0

/-- Write a scalar register; a write to s0 is discarded. -/
def Core.setS (c : Core) (i : Nat) (v : Scalar) : Core := { c with s := if i = 0 then c.s else c.s.set i v }

/-- A predicate register; p0 reads all ones. -/
def Core.pr (c : Core) (i : Nat) : Pred := if i = 0 then BitVec.allOnes 64 else nth c.p i 0

/-- Write a predicate register; a write to p0 is discarded. -/
def Core.setP (c : Core) (i : Nat) (v : Pred) : Core := { c with p := if i = 0 then c.p else c.p.set i v }

/-- A vector register. -/
def Core.vr (c : Core) (i : Nat) : Vec := nth c.v i 0

/-- Write a vector register. -/
def Core.setV (c : Core) (i : Nat) (x : Vec) : Core := { c with v := c.v.set i x }

/-- The predicate a condition writes: all ones or zero (R214). -/
def maskOf (b : Bool) : Pred := if b then BitVec.allOnes 64 else 0

/-- The five courses of a scalar. -/
def scalarCourses (x : Scalar) : List Course := natCrs 5 x.toNat

/-- A scalar of a number, modulo 2^60. -/
def scalarOf (n : Nat) : Scalar := BitVec.ofNat 60 n

/-! ### Pairs and quads (R200, R215) -/

/-- The 5k courses of k registers from register `i` on. -/
def Core.group (c : Core) (i k : Nat) : List Course := (List.range k).flatMap fun j => scalarCourses (c.sr (i + j))

/-- Write the courses of k registers from register `i` on. -/
def Core.setGroup (c : Core) (i k : Nat) (cs : List Course) : Core :=
  (List.range k).foldl (fun (d : Core) j => d.setS (i + j) (scalarOf (crsNat (slice cs (5 * j) 5)))) c

/-- The decimal value of a pair; `none` for a non-limb (R65, R215). -/
def Core.pairDec (c : Core) (i : Nat) : Option Int := decOf (c.group i 2)

/-- The decimal value of a quad. -/
def Core.quadDec (c : Core) (i : Nat) : Option Int := decOf (c.group i 4)

/-- Write a decimal value of ten limbs to a pair. -/
def Core.setPairDec (c : Core) (i : Nat) (v : Int) : Core := c.setGroup i 2 (decCourses 10 v)

/-! ### Conditions (R214) -/

/-- A condition on two scalars by its code. -/
def ccHolds (cc : Nat) (a b : Scalar) : Bool :=
  match cc with
  | 0 => a == b
  | 1 => a != b
  | 2 => a.slt b
  | 3 => !(a.slt b)
  | 4 => a.ult b
  | _ => !(a.ult b)

/-! ### Vector elements (R218) -/

/-- The courses of an element. -/
def elemSize (e : Fin 4) : Nat := 2 ^ e.val

/-- The elements of a register. -/
def elemCount (e : Fin 4) : Nat := 64 / elemSize e

/-- The lanes of a vector register, lane 0 first. -/
def vecCourses (x : Vec) : List Course := natCrs 64 x.toNat

/-- A vector register of lanes. -/
def vecOf (cs : List Course) : Vec := BitVec.ofNat 768 (crsNat cs)

/-- The elements of a vector register as unsigned numbers. -/
def elems (e : Fin 4) (x : Vec) : List Nat :=
  (List.range (elemCount e)).map fun i => crsNat (slice (vecCourses x) (elemSize e * i) (elemSize e))

/-- A vector register of element values, each modulo its size. -/
def ofElems (e : Fin 4) (xs : List Nat) : Vec :=
  vecOf ((List.range (elemCount e)).flatMap fun i => natCrs (elemSize e) (nth xs i 0))

/-- Element `i` is enabled by a guard (R205). -/
def Core.elemOn (c : Core) (g : Fin 8) (i : Nat) : Bool := (c.pr g.val).getLsbD i

/-- Write the enabled elements of a vector register and keep the others (R205). -/
def Core.setElems (c : Core) (g : Fin 8) (e : Fin 4) (vd : Nat) (f : Nat → Nat) : Core :=
  let old := elems e (c.vr vd)
  c.setV vd (ofElems e ((List.range (elemCount e)).map fun i => if c.elemOn g i then f i else nth old i 0))

/-- No element of a size is enabled (R205, R223). -/
def Core.noElem (c : Core) (g : Fin 8) (e : Fin 4) : Bool := !((List.range (elemCount e)).any (c.elemOn g))

/-! ### Areas (R206, R221) -/

/-- The courses of the work area. -/
def Core.workSize (c : Core) : Nat := match c.firing with
  | some f => f.scratch * 128
  | none => 0

/-- The courses of the input area. -/
def Core.inputSize (c : Core) : Nat := match c.firing with
  | some f => f.input.length
  | none => 0

/-- Courses of the work area; it reads zero where nothing was written (R206). -/
def Core.workRead (c : Core) (a n : Nat) : List Course :=
  match c.firing with
  | some f => (List.range n).map fun k => tgetD (a + k) 0 f.workArea
  | none => []

/-- Courses of the input area. -/
def Core.inputRead (c : Core) (a n : Nat) : List Course :=
  match c.firing with
  | some f => (List.range n).map fun k => nth f.input (a + k) 0
  | none => []

/-- A digest whose fragments or tag area a write touches has an undefined tag (R364). -/
def DgPend.touch (d : DgPend) (a n : Nat) : DgPend :=
  { d with spoiled := d.spoiled || d.area.any fun r => decide (a < r.1 + r.2 ∧ r.1 < a + n) }

/-- Write courses of the work area; `none` leaves a course. -/
def Core.workWrite (c : Core) (a : Nat) (ws : List (Option Course)) : Core :=
  match c.firing with
  | some f =>
    let wa := (List.range ws.length).foldl (fun m k =>
      match nth ws k none with
      | some x => tset (a + k) x m
      | none => m) f.workArea
    { c with firing := some { f with workArea := wa, digests := f.digests.map fun d => d.touch a ws.length } }
  | none => c

/-! ### Control registers (R202, R203) -/

/-- The value of a control register for rdctl; `tick` is device time. -/
def Core.ctlRead (c : Core) (quoin : Bool) (tick num : Nat) : Scalar :=
  match num with
  | 0x00 => scalarOf c.mode.toNat
  | 0x01 => if quoin then 0 else scalarOf c.budget
  | 0x02 => scalarOf (c.ovf.toNat % 4)
  | 0x03 => scalarOf (c.dcarry.toNat % 2)
  | 0x04 => if quoin then 0 else c.cbase
  | 0x05 => if quoin then 0 else c.arrival
  | 0x06 => if quoin then 0 else c.deadline
  | 0x07 => if quoin then 0 else scalarOf c.item
  | 0x08 => if quoin then 0 else scalarOf c.ctx
  | 0x20 => c.epc
  | 0x21 => scalarOf c.cause
  | 0x22 => c.vector
  | 0x23 => scalarOf tick
  | 0x24 => scalarOf c.space
  | _ => if c.borrow then 1 else 0

/-- wrctl: the low bits of a scalar to a control register (R202). Of ctl.mode PREDICT and TRAP are writable (R203). -/
def Core.ctlWrite (c : Core) (num : Nat) (x : Scalar) : Core :=
  match num with
  | 0x00 => { c with mode := (x.setWidth 12 &&& 0xA00) ||| (c.mode &&& 0x400) }
  | 0x02 => { c with ovf := x.setWidth 12 &&& 0x003 }
  | 0x03 => { c with dcarry := x.setWidth 12 &&& 0x001 }
  | 0x20 => { c with epc := x }
  | 0x21 => { c with cause := x.toNat % 2 ^ 24 }
  | 0x22 => { c with vector := x }
  | 0x24 => { c with space := x.toNat % 2 ^ 24 }
  | _ => c

/-- TRAP of ctl.mode (R203). -/
def Core.trapped (c : Core) : Bool := c.mode.getLsbD 9

/-- PREDICT of ctl.mode (R203). -/
def Core.predicts (c : Core) : Bool := c.mode.getLsbD 11

end Sys2Proof.Machine
end

