-- ==== Sys2Proof/Machine/Flags.lean ====
section
/-! DEFINITION. The flags Chisel instructions compute: the overflow bits of ctl.ovf (R217) and the decimal carry (R215). -/

namespace Sys2Proof.Machine

/-- A saturation sets ROW and CTX of ctl.ovf (R217). -/
def Core.saturated (c : Core) (sat : Bool) : Core := if sat then { c with ovf := c.ovf ||| 0x003 } else c

/-- The bit CTX of ctl.ovf: the context's OVERFLOW is due when the firing ends (R217). -/
def Core.ctxOvf (c : Core) : Bool := c.ovf.getLsbD 0

/-- The bit ROW of ctl.ovf, which marks an emitted row (R217). -/
def Core.rowOvf (c : Core) : Bool := c.ovf.getLsbD 1

/-- ROW is cleared after each emit (R217). -/
def Core.clearRow (c : Core) : Core := { c with ovf := c.ovf &&& 0xFFD }

/-- The decimal carry in (R215). -/
def Core.carryIn (c : Core) : Nat := if c.dcarry.getLsbD 0 then 1 else 0

/-- The decimal carry out (R215). -/
def Core.carryOut (c : Core) (k : Bool) : Core := { c with dcarry := if k then 1 else 0 }

/-- The signed range of a scalar: −2^59 to 2^59 − 1, and whether a value left it (R213). -/
def satScalar (v : Int) : Scalar × Bool :=
  let r := satInt 60 v
  (BitVec.ofInt 60 r.1, r.2)

/-- The largest magnitude of a pair, 10^30 − 1 (R215). -/
def pairMax : Nat := 10 ^ 30 - 1

end Sys2Proof.Machine
end

