-- ==== Sys2Proof/Machine/Sett.lean ====
section
/-! DEFINITION. Sett blocks (13): the transform, the token stream and its checks, the decoder of a block, and the blocks
PACK writes. The coding a compressor chooses is not published: `Config.settCode` (assumption 5: DESIGN CHOICE). -/

namespace Sys2Proof.Machine

/-- The transform of R349: 1 DELTA, 2 XOR, each against the course `k` back. -/
def settForward (xf k : Nat) (u : List Course) : List Course :=
  (List.range u.length).map fun i =>
    if xf = 0 ∨ i < k then nth u i 0
    else if xf = 1 then nth u i 0 - nth u (i - k) 0
    else nth u i 0 ^^^ nth u (i - k) 0

/-- The inverse transform, course by course (R349). -/
def settInverse (xf k : Nat) (t : List Course) : List Course :=
  t.foldl (fun u c =>
    let i := u.length
    let v := if xf = 0 ∨ i < k then c
      else if xf = 1 then c + nth u (i - k) 0
      else c ^^^ nth u (i - k) 0
    u ++ [v]) []

/-- The courses a token takes, from its first course (R351). -/
def tokenNeed (h : Course) : Nat :=
  match h.toNat / 1024 with
  | 0 => 2 + h.toNat % 1024
  | 1 => 2
  | 2 => 3
  | _ => 2

/-- `n` courses copied one at a time from `dist` back (R351). -/
def copyBack : Nat → Nat → List Course → List Course
  | 0, _, t => t
  | n + 1, dist, t => copyBack n dist (t ++ [nth t (t.length - dist) 0])

/-- A match token: its length and distance, or `none` when it is illegal (R351). -/
def matchOf (tok : List Course) : Option (Nat × Nat) :=
  let n := crsNat tok
  if tok.length = 2 then
    (if fieldOf n 14 0 = 0 then none else some (fieldOf n 21 15 + 3, fieldOf n 14 0))
  else if fieldOf n 33 26 ≠ 0 ∨ 1024 < fieldOf n 25 15 ∨ fieldOf n 14 0 = 0 then none
  else some (fieldOf n 25 15 + 3, fieldOf n 14 0)

/-- Decode a token stream to `ulen` courses with the checks of R352 in their order. `fuel` bounds the tokens. -/
def settTokens : Nat → Nat → List Course → List Course → Except Nat (List Course)
  | 0, ulen, _, t => if t.length < ulen then .error 0x0713 else .ok t
  | fuel + 1, ulen, pay, t =>
    match pay with
    | [] => if t.length < ulen then .error 0x0713 else .ok t
    | h :: _ =>
      let need := tokenNeed h
      if pay.length < need then .error 0x0713
      else
        let tok := pay.take need
        let ty := h.toNat / 1024
        if ty = 1 ∨ ty = 2 then
          match matchOf tok with
          | none => .error 0x0710
          | some (len, dist) =>
            if t.length < dist ∨ 16384 < dist then .error 0x0711
            else if ulen < t.length + len then .error 0x0712
            else settTokens fuel ulen (pay.drop need) (copyBack len dist t)
        else
          let out := if ty = 0 then tok.drop 1 else List.replicate (h.toNat % 1024 + 1) (nth tok 1 0)
          if ulen < t.length + out.length then .error 0x0712
          else settTokens fuel ulen (pay.drop need) (t ++ out)

/-- The header of a block (R348). -/
structure SettHdr where
  raw : Bool
  xform : Nat
  stride : Nat
  ulen : Nat
  clen : Nat
  check : Nat

/-- The length of a block in courses: header, payload, pad (R347). -/
def SettHdr.size (h : SettHdr) : Nat := 8 + h.clen + h.clen % 2

/-- The header of a block with the checks of R350, over `avail` source courses that start with it. -/
def settHeader (cs : List Course) (avail : Nat) : Except Nat SettHdr :=
  let fl := (nth cs 1 0).toNat
  let f := crsNat (slice cs 2 6)
  let h : SettHdr := { raw := fieldOf fl 11 11 = 1, xform := fieldOf fl 10 9, stride := fieldOf fl 8 3,
                       ulen := fieldOf f 71 54, clen := fieldOf f 53 36, check := fieldOf f 31 0 }
  if avail < 8 ∨ nth cs 0 0 ≠ 0x5E7 ∨ fieldOf fl 2 0 ≠ 0 ∨ fieldOf f 35 32 ≠ 0 ∨ h.xform = 3
      ∨ (h.xform = 0 ∧ h.stride ≠ 0) ∨ (h.xform ≠ 0 ∧ h.stride = 0)
      ∨ (h.raw = true ∧ (h.xform ≠ 0 ∨ h.stride ≠ 0 ∨ h.clen ≠ h.ulen))
      ∨ (h.raw = false ∧ (h.clen = 0 ∨ h.ulen ≤ h.clen))
      ∨ h.ulen = 0 ∨ 65536 < h.ulen ∨ avail < h.size
      ∨ (h.clen % 2 = 1 ∧ nth cs (8 + h.clen) 0 ≠ 0) then .error 0x0715
  else .ok h

/-- The uncompressed courses of a block (R350, R352). -/
def settDecode (h : SettHdr) (cs : List Course) : Except Nat (List Course) :=
  let pay := slice cs 8 h.clen
  let t := if h.raw then .ok pay else settTokens (h.clen + 1) h.ulen pay []
  match t with
  | .error e => .error e
  | .ok t =>
    let u := settInverse h.xform h.stride t
    if crc32c (packBytes u) = h.check then .ok u else .error 0x0714

/-- The courses of a block (R347, R348). -/
def settBlock (raw : Bool) (xf k : Nat) (u pay : List Course) : List Course :=
  let f := u.length * 2 ^ 54 + pay.length * 2 ^ 36 + crc32c (packBytes u)
  [(0x5E7 : Course), BitVec.ofNat 12 ((if raw then 2048 else 0) + xf * 512 + k * 8)] ++ natCrs 6 f ++ pay ++
    (if pay.length % 2 = 1 then [0] else [])

/-- The block the compressor writes for courses `u`: coded, or RAW where the coding is not smaller (R353). A coding
that would not decode to its input is never written (R355). -/
def settPack (xf k : Nat) (u : List Course) : List Course :=
  let pay := Config.settCode (settForward xf k u)
  let good := match settTokens (pay.length + 1) u.length pay [] with
    | .ok t => settInverse xf k t == u
    | .error _ => false
  if pay.length < u.length ∧ pay ≠ [] ∧ good = true then settBlock false xf k u pay else settBlock true 0 0 u u

/-- Pack a course sequence into blocks of `blk` courses (R353). -/
def settPackAll (xf k blk : Nat) : Nat → List Course → List Course
  | 0, _ => []
  | n + 1, cs => if cs.isEmpty then [] else settPack xf k (cs.take blk) ++ settPackAll xf k blk n (cs.drop blk)

end Sys2Proof.Machine
end

