-- ==== Sys2Proof/Machine/Ashlars.lean ====
section
/-! DEFINITION. Ashlars (03): the PLAIN ashlar the device writes (assumption 15: DESIGN CHOICE), the checks of every read, and the
decoding of every encoding. -/

namespace Sys2Proof.Machine

/-- The 342 courses of a bitmap (R76). -/
def bitmap (bs : List Bool) : List Course := fitList 342 0 (bitsCourses bs)

/-- Append the pad and the check to the courses of an ashlar (R71, R74). -/
def ashlarSeal (body : List Course) : List Course :=
  let b := if body.length % 2 = 1 then body ++ [0] else body
  b ++ natCrs 4 (crc32c (packBytes b))

/-- The payload of a PLAIN ashlar (R78, R81). -/
def plainPayload (t : TypeDesc) (vals : List (Option (List Course))) : List Course :=
  if t.kind = 7 then bitmap (vals.map fun v => decide (crsNat (v.getD []) ≠ 0))
  else vals.flatMap fun v => match v with
    | some cs => canonField t cs
    | none => List.replicate t.size 0

/-- A PLAIN ashlar of a column's values (R71, R72, R78). -/
def ashlarPlain (t : TypeDesc) (vals : List (Option (List Course))) (ovf : Bool) : List Course :=
  let pay := plainPayload t vals
  let hdr := [(0xA51 : Course), if ovf then 0x080 else 0] ++ t.courses ++
    [BitVec.ofNat 12 (vals.length - 1), 0] ++ natCrs 2 pay.length
  ashlarSeal (hdr ++ pay ++ bitmap (vals.map Option.isSome))

/-- Whether an encoding is permitted for a type (R81). -/
def encPermitted (enc kind : Nat) : Bool :=
  match enc with
  | 0 => true
  | 1 => decide (kind ≠ 5 ∧ kind ≠ 7)
  | 2 => decide (kind ≠ 7)
  | 3 => true
  | 4 => decide (kind ≠ 4 ∧ kind ≠ 5 ∧ kind ≠ 7)
  | _ => false

/-- A number as a field of a type, or ASHLAR_FORMAT when it is outside the type's range (R79). -/
def ashlarNum (t : TypeDesc) (v : Int) : Except Nat (List Course) :=
  let w := 12 * t.n
  if t.kind = 2 then (if v.natAbs ≤ 1000 ^ t.n - 1 then .ok (decCourses t.n v) else .error 0x0683)
  else if t.kind = 0 ∨ t.kind = 3 then
    (if (satInt w v).2 then .error 0x0683 else .ok (natCrs t.n (wrapTo w v)))
  else if (satUint w v).2 then .error 0x0683 else .ok (natCrs t.n v.toNat)

/-- The rows of an RLE payload, or `none` when its runs do not sum to the row count (R78, R79). -/
def rleRows (z : Nat) : Nat → List Course → Nat → Option (List (List Course))
  | 0, _, r => if r = 0 then some [] else none
  | _ + 1, [], r => if r = 0 then some [] else none
  | k + 1, c :: t, r =>
    let n := c.toNat + 1
    if r < n ∨ t.length < z then none else (rleRows z k (t.drop z) (r - n)).map fun rest => List.replicate n (t.take z) ++ rest

/-- The running values of a DELTA payload from the first (R78, R79), in 96-bit two's complement. -/
def deltaRows (w : Nat) (pay : List Course) : Nat → Nat → Int → List Int
  | 0, _, _ => []
  | k + 1, i, x => x :: deltaRows w pay k (i + 1) (signedOf 96 (wrapTo 96 (x + signedOf w (streamBits pay (i * w) w))))

/-- The values of a PLAIN payload. -/
def plainRows (t : TypeDesc) (rows : Nat) (pay : List Course) : List (List Course) :=
  if t.kind = 7 then (List.range rows).map fun r => [if streamBit pay r then (1 : Course) else 0]
  else (List.range rows).map fun r => slice pay (r * t.size) t.size

/-- The result of reading an ashlar: its type, its values (null where the validity bit is 0) and its overflow bit. -/
structure AshlarRead where
  type_ : TypeDesc
  vals : List (Option (List Course))
  ovf : Bool

/-- A list of results, or the first error. -/
def exceptAll {α : Type} : List (Except Nat α) → Except Nat (List α)
  | [] => .ok []
  | .error e :: _ => .error e
  | .ok a :: t =>
    match exceptAll t with
    | .ok l => .ok (a :: l)
    | .error e => .error e

/-- Whether a payload length agrees with the encoding, the type and the row count (R72). The runs of an RLE payload are
whole, and from one to a run for every row (assumption 95: DEDUCED). -/
def lengthAgrees (enc rows w l : Nat) (t : TypeDesc) : Bool :=
  match enc with
  | 0 => l == (if t.kind = 7 then 342 else rows * t.size)
  | 1 => l == ceilDiv (rows * w) 12
  | 2 => l == ceilDiv (rows * w) 12
  | 3 => l % (1 + t.size) == 0 && decide (1 + t.size ≤ l ∧ l ≤ rows * (1 + t.size))
  | _ => l == ceilDiv ((rows - 1) * w) 12

/-- A bit of a payload is set from stream bit `n` on (R76, R77). -/
def setFrom (pay : List Course) (n : Nat) : Bool :=
  (List.range (12 * pay.length - n)).any fun k => streamBit pay (n + k)

/-- What an encoding requires of null rows is broken: their stored value is zero under PLAIN, field 0 under BITPACK and
delta 0 under DELTA (R76, R79). -/
def nullBroken (enc rows w : Nat) (t : TypeDesc) (pay bm : List Course) : Bool :=
  (List.range rows).any fun r => !(streamBit bm r) &&
    (match enc with
     | 0 => if t.kind = 7 then streamBit pay r else (slice pay (r * t.size) t.size).any fun c => c != 0
     | 1 => streamBits pay (r * w) w != 0
     | 4 => decide (0 < r) && streamBits pay ((r - 1) * w) w != 0
     | _ => false)

/-- Payload bits that must be zero are set: those after the last field, and those of a bitmap beyond its rows. -/
def tailBroken (enc rows w : Nat) (t : TypeDesc) (pay : List Course) : Bool :=
  match enc with
  | 0 => t.kind == 7 && setFrom pay rows
  | 1 => setFrom pay (rows * w)
  | 2 => setFrom pay (rows * w)
  | 4 => setFrom pay ((rows - 1) * w)
  | _ => false

/-- The width of a BITPACK, DICT or DELTA field is outside R78. The spec names no code for it: ASHLAR_FORMAT here
(assumption 93: DESIGN CHOICE). -/
def widthBroken (enc w : Nat) : Bool :=
  match enc with
  | 1 => w == 0 || decide (96 < w)
  | 2 => w == 0 || decide (12 < w)
  | 4 => w == 0 || decide (96 < w)
  | _ => false

/-- Read an ashlar with every check of R73 to R81; `entries` gives the entries of a dictionary of a type, by identifier and
version. -/
def ashlarReadWith (entries : TypeDesc → Nat → Nat → Except Nat (List (Option (List Course)))) (cs : List Course) :
    Except Nat AshlarRead :=
  let c1 := (nth cs 1 0).toNat
  let enc := fieldOf c1 11 8
  let rows := (nth cs 4 0).toNat + 1
  let p := (nth cs 5 0).toNat
  let l := crsNat (slice cs 6 2)
  match typeOf (nth cs 2 0) (nth cs 3 0) with
  | none => .error 0x0681
  | some t =>
    let par := slice cs 8 p
    let pay := slice cs (8 + p) l
    let bm := slice cs (8 + p + l) 342
    let n := 8 + p + l + 342
    let padded := n + n % 2
    let w := (nth par 0 0).toNat
    let wantP := match enc with
      | 1 => 9
      | 2 => 5
      | 4 => 9
      | _ => 0
    if nth cs 0 0 ≠ 0xA51 ∨ 4 < enc ∨ fieldOf c1 6 0 ≠ 0 ∨ !(encPermitted enc t.kind) ∨ p ≠ wantP ∨ !(lengthAgrees enc rows w l t)
        ∨ cs.length ≠ padded + 4 ∨ (n % 2 = 1 ∧ nth cs n 0 ≠ 0) then .error 0x0681
    else if crsNat (slice cs padded 4) ≠ crc32c (packBytes (cs.take padded)) then .error 0x0682
    else if setFrom bm rows ∨ widthBroken enc w ∨ tailBroken enc rows w t pay ∨ nullBroken enc rows w t pay bm then .error 0x0683
    else
      let base := signedOf 96 (crsNat (slice par 1 8))
      let vals : Except Nat (List (Option (List Course))) :=
        match enc with
        | 0 => .ok ((plainRows t rows pay).map some)
        | 1 =>
          (exceptAll ((List.range rows).map fun r =>
            ashlarNum t (signedOf 96 (wrapTo 96 (base + streamBits pay (r * w) w))))).map fun vs => vs.map some
        | 2 =>
          match entries t (crsNat (slice par 1 2)) (crsNat (slice par 3 2)) with
          | .error e => .error e
          | .ok ds => exceptAll ((List.range rows).map fun r =>
              match ds[streamBits pay (r * w) w]? with
              | some v => .ok v
              | none => .error 0x0684)
        | 3 =>
          match rleRows t.size l pay rows with
          | some vs => .ok (vs.map fun v => some (canonField t v))
          | none => .error 0x0683
        | _ => (exceptAll ((deltaRows w pay rows 0 base).map (ashlarNum t))).map fun vs => vs.map some
      match vals with
      | .error e => .error e
      | .ok vs =>
        let out := (List.range rows).map fun r => if streamBit bm r then nth vs r none else none
        if t.kind = 5 ∧ out.any (fun v => match v with
            | some x => (bytesOf t x).isNone
            | none => false) then .error 0x0683
        else .ok ⟨t, out, decide (fieldOf c1 7 7 = 1)⟩

/-- The entries of a dictionary: the rows of its ashlars, each read with every check (R75, R80). A dictionary that is absent
at the version, or whose ashlars are not PLAIN ashlars of the column's type, raises DICT_CODE_RANGE; a code whose entry is
null reads as null (assumption 95: DEDUCED). -/
def dictEntries (dicts : List Dict) (t : TypeDesc) (id version : Nat) : Except Nat (List (Option (List Course))) :=
  match dicts.find? fun d => d.id == id && d.version == version with
  | none => .error 0x0684
  | some d =>
    (exceptAll (d.ashlars.map fun a =>
      match ashlarReadWith (fun _ _ _ => .error 0x0684) a with
      | .error e => .error e
      | .ok r => if r.type_ = t ∧ fieldOf (nth a 1 0).toNat 11 8 = 0 then .ok r.vals else .error 0x0684)).map List.flatten

/-- Read an ashlar with every check of R73 to R81. -/
def ashlarRead (dicts : List Dict) (cs : List Course) : Except Nat AshlarRead := ashlarReadWith (dictEntries dicts) cs

/-- Courses of memory an ashlar takes: it starts on a line boundary (R71). -/
def Ashlar.room (a : Ashlar) : Nat := ceilDiv a.courses.length 128 * 128

/-- The rows a column's ashlars hold. -/
def columnRows (as : List Ashlar) : Nat := (as.map fun a => (nth a.courses 4 0).toNat + 1).foldl (· + ·) 0

/-- A value to store, null or present, and whether its row carries the overflow mark. -/
abbrev Marked := Option (List Course) × Bool

/-- Split values into ashlars of up to 4,096 rows, written PLAIN in HBM; OVF of each says whether one of its own rows carries
the mark (R72). -/
def ashlarsOf (t : TypeDesc) : Nat → List Marked → List Ashlar
  | 0, _ => []
  | _, [] => []
  | k + 1, vs =>
    { courses := ashlarPlain t ((vs.take 4096).map (·.1)) ((vs.take 4096).any (·.2)), heat := 0, coldPeriods := 0, tier := 0 } ::
      ashlarsOf t k (vs.drop 4096)

/-- Append values to a column: a partial last ashlar is replaced whole by a new one (R75). Which of its rows carry the mark is
not stored, so the new one keeps the mark as a whole. The spec gives no outcome for a partial ashlar that fails its checks:
it stays as it is, and the rows go into new ashlars after it (assumption 93: DESIGN CHOICE). -/
def appendColumn (dicts : List Dict) (t : TypeDesc) (as : List Ashlar) (vs : List Marked) : List Ashlar :=
  match as.getLast? with
  | none => ashlarsOf t (vs.length + 1) vs
  | some a =>
    let rows := (nth a.courses 4 0).toNat + 1
    if vs.isEmpty ∨ rows = 4096 then as ++ ashlarsOf t (vs.length + 1) vs
    else match ashlarRead dicts a.courses with
      | .ok r => as.dropLast ++ ashlarsOf t (vs.length + rows) ((r.vals.map fun v => (v, r.ovf)) ++ vs)
      | .error _ => as ++ ashlarsOf t (vs.length + 1) vs

/-- Append rows to a table, all columns together (R148). -/
def appendRows (dicts : List Dict) (tb : Table) (rows : List Row) : Table :=
  let col := fun k => appendColumn dicts (nth tb.cols k tCode) (nth tb.columns k []) (rows.map fun r => (r.get k, r.ovf))
  { tb with columns := (List.range tb.cols.length).map col }

/-- What is wrong with a present field that is to be stored: a length course above m, or a non-limb (R60, R65). -/
def fieldFault (t : TypeDesc) (cs : List Course) : Option Nat :=
  if t.kind = 5 ∧ (bytesOf t cs).isNone then some 0x0382
  else if t.kind = 2 ∧ (decOf cs).isNone then some 0x0383
  else none

/-- The first fault of the rows of a table layout, by row, then by field (R65, R148). -/
def rowsFault (ts : List TypeDesc) (rows : List Row) : Option Nat :=
  rows.findSome? fun r => (List.range ts.length).findSome? fun k => (r.get k).bind fun cs => fieldFault (nth ts k tCode) cs

end Sys2Proof.Machine
end

