-- ==== Sys2Proof/Machine/Caches.lean ====
section
/-! DEFINITION. The memory behind the caches and the caches (11): populated windows, poison, L2 with its way masks,
L1D and the eviction buffer of a stone, fills, prefetches and victims. -/

namespace Sys2Proof.Machine

/-! ### Addresses (R280-R283) -/

/-- DEVICE of a course address (R280). -/
def caDevice (ca : Nat) : Nat := ca / 2 ^ 42 % 64

/-- The local address of a course address (R280). -/
def caLocal (ca : Nat) : Nat := ca % 2 ^ 42

/-- HBM courses of a device (R281). -/
def hbmSize : Nat := 144 * 2 ^ 30

/-- The base of the DRAM window (R281). -/
def dramBase : Nat := 0x004000000000

/-- The base of the register region (R281). -/
def regBase : Nat := 0x03C000000000

/-- A local address lies in a populated part of HBM or DRAM (R281). -/
def State.populated (s : State) (la : Nat) : Bool :=
  decide (la < hbmSize) ||
  (decide (dramBase ≤ la ∧ la < dramBase + s.memx.dramCap) && (s.memx.dramState == 1 || s.memx.dramState == 3))

/-- The address names this device (R280). -/
def State.isLocal (s : State) (ca : Nat) : Bool := caDevice ca == (if s.group.grouped then s.group.node else 0)

/-- The address names another member of the group (R280, R282). -/
def State.isMember (s : State) (ca : Nat) : Bool :=
  s.group.grouped && s.group.members.any fun m => m.node == caDevice ca

/-- The first course of the line of an address. -/
def lineOf (ca : Nat) : Nat := ca / 128 * 128

/-! ### The medium (R300-R302) -/

/-- The other frames a store to a frame also writes: the partner of a bound pair (R302). -/
def State.partners (s : State) (frame : Nat) : List Nat :=
  ((s.memx.bound.filter fun p => p.1 == frame).map (·.2)) ++ ((s.memx.bound.filter fun p => p.2 == frame).map (·.1))

/-- Write courses to the memory, both frames of a bound pair (R302). -/
def State.memPut (s : State) (ca : Nat) (cs : List Course) : State :=
  let la := caLocal ca
  let own := Memory.putCourses la cs s.mem
  { s with mem := (s.partners (la / 4096)).foldl (fun m f => Memory.putCourses (f * 4096 + la % 4096) cs m) own }

/-- Write courses to the memory; a Hod write, a ZERO or a migration of the whole line clears its poison (R300). -/
def State.memStore (s : State) (ca : Nat) (cs : List Course) : State :=
  let la := caLocal ca
  let t := s.memPut ca cs
  { t with memx := { t.memx with
      poison := if la % 128 = 0 ∧ 128 ≤ cs.length then t.memx.poison.erase la else t.memx.poison } }

/-- The pseudo-channel of a frame of HBM (R283). -/
def pchOf (frame : Nat) : Nat := frame % 192

/-- Courses of the memory. A frame of a failed pseudo-channel is served by its surviving partner, which holds the same
courses, since a store writes both (R302). -/
def State.memLoad (s : State) (ca n : Nat) : List Course :=
  let la := caLocal ca
  let live := fun (f : Nat) => !(s.memx.pch.contains (pchOf f))
  let f := la / 4096
  let at_ := if live f ∨ hbmSize ≤ la then la
    else match (s.partners f).find? live with
      | some g => g * 4096 + la % 4096
      | none => la
  Memory.courses s.mem at_ n

/-- A frame of a failed pseudo-channel with no surviving partner: it is withdrawn, and reads as poisoned (R302). -/
def State.frameLost (s : State) (frame : Nat) : Bool :=
  decide (frame * 4096 < hbmSize) && s.memx.pch.contains (pchOf frame) &&
    !((s.partners frame).any fun f => !(s.memx.pch.contains (pchOf f)))

/-- A poisoned line (R300), one of a lost frame (R302), or one of a withdrawn warm tier (R303). -/
def State.poisoned (s : State) (ca : Nat) : Bool :=
  s.memx.poison.contains (lineOf (caLocal ca)) || s.frameLost (caLocal ca / 4096) ||
    (s.memx.dramState == 3 && decide (dramBase ≤ caLocal ca ∧ caLocal ca < regBase))

/-- Poison a line (R300). -/
def State.setPoison (s : State) (ca : Nat) : State :=
  { s with memx := { s.memx with
      poison := if s.poisoned ca then s.memx.poison else lineOf (caLocal ca) :: s.memx.poison } }

/-! ### Way masks (R293, R409) -/

/-- Ways taken exclusively by the slices below a number (assumption 20: DESIGN CHOICE). -/
def State.waysBelow (s : State) (sl : Nat) : Nat :=
  ((s.slices.filter fun e => e.1 < sl && e.1 != 0).map fun e => s.objNum (0x4000 + e.1) 8 [] 0 0).foldl (· + ·) 0

/-- The ways of a slice: its exclusive ways, or the shared ones; firmware (slice 0) holds way 15 (R409). -/
def State.wayMask (s : State) (sl : Nat) : List Nat :=
  if sl = 0 then [15]
  else
    let k := s.objNum (0x4000 + sl) 8 [] 0 0
    if k = 0 then (List.range 15).filter fun w => s.waysBelow 1024 ≤ w
    else (List.range 15).filter fun w => s.waysBelow sl ≤ w && w < s.waysBelow sl + k

/-- One step of the 16-bit random register, x^16 + x^14 + x^13 + x^11 + 1 (R293). -/
def lfsrStep (r : Nat) : Nat :=
  let b := (r ^^^ (r / 4) ^^^ (r / 8) ^^^ (r / 32)) % 2
  r / 2 + b * 32768

/-- `n` steps of the random register. -/
def lfsrSteps : Nat → Nat → Nat
  | 0, r => r
  | k + 1, r => lfsrSteps k (lfsrStep r)

/-- The random register of a bay (R293). -/
def State.lfsrOf (s : State) (b : Nat) : Nat := tgetD b (Config.lfsrSeed b % 65535 + 1) s.memx.lfsr

/-- The first way of a mask at or above `w`, counting around (R293). -/
def wayFrom (mask : List Nat) (w : Nat) : Nat :=
  match (List.range 16).find? fun k => mask.contains ((w + k) % 16) with
  | some k => (w + k) % 16
  | none => w

/-! ### L2 (R291-R297) -/

def l2Set (la : Nat) : Nat := la / 128 % 4096
def l1dSet (la : Nat) : Nat := la / 128 % 128
def l1iSet (la : Nat) : Nat := la / 128 % 64

/-- The lines of a bay's L2. -/
def State.l2Lines (s : State) (b : Nat) : List Line := tgetD b [] s.memx.l2

/-- A line of a bay's L2. -/
def State.l2Find (s : State) (b la : Nat) : Option Line := (s.l2Lines b).find? fun l => l.addr == la

/-- Replace the lines of a bay's L2. -/
def State.setL2 (s : State) (b : Nat) (ls : List Line) : State :=
  { s with memx := { s.memx with l2 := tset b ls s.memx.l2 } }

/-- Change a line of a bay's L2. -/
def State.updL2 (s : State) (b la : Nat) (f : Line → Line) : State :=
  s.setL2 b (mapIf (fun l => l.addr == la) f (s.l2Lines b))

/-- The way a fill takes: the lowest invalid way of the mask, or the random victim (R292, R293). -/
def State.l2Way (s : State) (b la : Nat) (mask : List Nat) : Nat :=
  let used := ((s.l2Lines b).filter fun l => l2Set l.addr == l2Set la).map (·.way)
  match mask.find? fun w => !(used.contains w) with
  | some w => w
  | none => wayFrom mask (s.lfsrOf b % 16)

/-- Put a line into L2; a dirty victim goes straight to memory, whose poison it does not clear (R300), and waits for its
acknowledgement (R297). -/
def State.l2Install (s : State) (b la : Nat) (data : List Course) (dirty : Bool) (owner : Nat) (mask : List Nat) :
    State :=
  let w := s.l2Way b la mask
  let victim := (s.l2Lines b).find? fun l => l.way == w && l2Set l.addr == l2Set la
  let rest := (s.l2Lines b).filter fun l => !(l.way == w && l2Set l.addr == l2Set la)
  let s1 := s.setL2 b (rest ++ [{ way := w, addr := la, data := data, dirty := dirty, owner := owner }])
  match victim with
  | some v =>
    if v.dirty then
      let s2 := s1.memPut v.addr v.data
      { s2 with memx := { s2.memx with victims := s2.memx.victims ++ [(b, v.addr)] } }
    else s1
  | none => s1

/-- The operations outstanding in a bay that the model counts: fills and victim writes (R304). -/
def State.outstanding (s : State) (b : Nat) : Nat :=
  (s.memx.fills.filter fun f => f.bay == b).length + (s.memx.victims.filter fun v => v.1 == b).length

/-- Operations of a bay beyond the 256 reserved for firings of G and D class: they share the other 768 (R304). -/
def State.sharedOps (s : State) (b : Nat) : Nat :=
  s.outstanding b - min 256 (s.memx.fills.filter fun f => f.bay == b && f.gd).length

/-- A bay has no operation left for a request: none at all, or, for one that is not of a G- or D-class firing, none of the
shared ones (R304). -/
def State.poolFull (s : State) (b : Nat) (gd : Bool) : Bool :=
  decide (768 ≤ s.sharedOps b) && (!gd || decide (1024 ≤ s.outstanding b))

/-- The owner of an access is a context of G or D class. -/
def State.ownerGd (s : State) (owner : Nat) : Bool := (s.ctxOf owner).any fun c => decide (c.cls < 2)

/-- Record the peak of outstanding operations (R310). -/
def State.notePeak (s : State) (b : Nat) : State :=
  { s with memx := { s.memx with peak := max s.memx.peak (s.outstanding b) } }

/-- The sectors of a line that the bytes of `n` courses from course `c` lie in (R295). -/
def sectorsNeeded (c n : Nat) : List Nat :=
  (List.range 3).filter fun k => (c * 3 / 2) / 64 ≤ k && k ≤ ((c + n - 1) * 3 / 2 + 1) / 64

/-- The sectors in delivery order, from the one of the first byte of the first course (R295). -/
def sectorOrder (c : Nat) : List Nat :=
  let k := (c * 3 / 2) / 64
  [k % 3, (k + 1) % 3, (k + 2) % 3]

/-- The sectors still to come once every needed one has arrived (R295). -/
def sectorsLeft (c n : Nat) : List Nat :=
  let need := sectorsNeeded c n
  let ord := sectorOrder c
  let last := (need.map fun k => (ord.findIdx? fun x => x == k).getD 0).foldl max 0
  ord.drop (last + 1)

/-- Read a line from memory: a poisoned line is refused and counted; an observed error is corrected and counted,
or poisons the line (R300, R301). -/
def State.mediumRead (s : State) (sl la : Nat) (obs : MemObs) : Except (State × Nat) State :=
  if s.poisoned la then .error (s.bump 0x6001 4 [] sl, 0x0602)
  else
    match obs with
    | .corrected => .ok ((s.bump 0x6001 5 [] 0).stick 0 0)
    | .uncorrectable => .error (((s.bump 0x6001 6 [] 0).setPoison la).stick 0 2, 0x0603)
    | _ => .ok s

/-- Request the stream prefetches of a demand miss: up to 4 following lines of the same page (R290). -/
def State.prefetch (s : State) (b la pageEnd sl : Nat) : State :=
  (List.range 4).foldl (fun (t : State) k =>
    let a := la + 128 * (k + 1)
    if pageEnd ≤ a ∨ (t.l2Find b a).isSome ∨ t.memx.fills.any (fun f => f.bay == b && f.line == a) then t
    else if 576 < t.sharedOps b then t.bump 0x6001 7 [] 0
    else
      let f : Fill := ⟨b, a, [0, 1, 2], true, sl, [], none, false⟩
      ({ t with memx := { t.memx with fills := t.memx.fills ++ [f] } } : State).notePeak b) s

/-- A line of a bay's L2 for a demand of `n` courses from course `c`: a hit, an outstanding fill, or a fill from memory
of which the needed sectors arrive now and the rest stay outstanding (R292-R297). `parity` is a parity error found in
the line. -/
def State.l2Read (s : State) (b sl owner la c n : Nat) (stream : Option Nat) (obs : MemObs) :
    Except (State × Nat) (State × List Course) :=
  let miss := fun (s : State) (obs : MemObs) =>
    if !(s.populated (caLocal la)) then .error (s, 0x0604)
    else
      match s.mediumRead sl la obs with
      | .error e => .error e
      | .ok t =>
        let data := t.memLoad la 128
        let t1 := t.l2Install b la data false owner (t.wayMask sl)
        let left := sectorsLeft c n
        let t2 : State :=
          if left.isEmpty then t1
          else { t1 with memx := { t1.memx with
                  fills := t1.memx.fills ++ [(⟨b, la, left, false, sl, data, none, t.ownerGd owner⟩ : Fill)] } }
        let t3 := t2.notePeak b
        let t4 := match stream with
          | some e => t3.prefetch b la e sl
          | none => t3
        .ok (t4, data)
  match s.l2Find b la with
  | some l =>
    if obs = .l2Parity then
      if l.dirty then
        -- R299: the line is lost and its memory line poisoned
        let t := (s.setL2 b ((s.l2Lines b).filter fun x => x.addr != la)).setPoison la
        .error ((t.bump 0x6001 3 [] sl), 0x0601)
      else
        let t := (s.setL2 b ((s.l2Lines b).filter fun x => x.addr != la)).bump 0x6001 2 [b] 0
        miss (t.record (bayRing b) 2 b 0x0685 (l2Set la * 2 ^ 24 + l.way * 4096)) .clean
    else .ok (s, l.data)
  | none =>
    match s.memx.fills.find? fun f => f.bay == b && f.line == la with
    | some f =>
      -- a prefetch still outstanding: the access is served from it as it arrives (R295)
      let t : State := { s with memx := { s.memx with
        fills := s.memx.fills.filter fun x => !(x.bay == b && x.line == la) } }
      match t.mediumRead sl la obs with
      | .error e => .error e
      | .ok t1 =>
        let data := t1.memLoad la 128
        match f.covered with
        | some _ => .ok (t1, data)
        | none => .ok (t1.l2Install b la data false owner (t1.wayMask sl), data)
    | none => miss s obs

/-! ### L1D and the eviction buffer of a core (R291, R292, R296) -/

/-- Write a line back into the bay's L2 (R296). -/
def State.l2WriteBack (s : State) (b sl : Nat) (l : Line) : State :=
  match s.l2Find b l.addr with
  | some _ => s.updL2 b l.addr fun x => { x with data := l.data, dirty := true, owner := l.owner }
  | none => s.l2Install b l.addr l.data true l.owner (s.wayMask sl)

/-- The slice of an owner context; firmware owns with 4096 (R299). -/
def State.ownerSlice (s : State) (owner : Nat) : Nat :=
  match s.ctxOf owner with
  | some c => c.slice
  | none => 0

/-- Write the head of an eviction buffer back to L2 (R296). -/
def State.evictHead (s : State) (u : CoreId) (b : Nat) : State :=
  let c := s.coreOf u
  match c.evict with
  | [] => s
  | l :: t => (s.setCore u { c with evict := t }).l2WriteBack b (s.ownerSlice l.owner) l

/-- Put a line into L1D; a dirty victim enters the eviction buffer, whose head is written back when it is full
(R292, R296). -/
def State.l1Install (s : State) (u : CoreId) (b : Nat) (l : Line) : State :=
  let c := s.coreOf u
  let set := l1dSet l.addr
  let used := (c.l1d.filter fun x => l1dSet x.addr == set).map (·.way)
  let ptr := tgetD set 0 c.ptrD
  let w := ((List.range 4).find? fun k => !(used.contains k)).getD (ptr % 4)
  let victim := c.l1d.find? fun x => x.way == w && l1dSet x.addr == set
  let rest := c.l1d.filter fun x => !(x.way == w && l1dSet x.addr == set)
  let c1 := { c with l1d := rest ++ [{ l with way := w }], ptrD := tset set ((ptr + 1) % 4) c.ptrD }
  match victim with
  | some v =>
    if v.dirty then
      let s1 := (s.setCore u c1)
      let s2 := if 8 ≤ c1.evict.length then s1.evictHead u b else s1
      let c2 := s2.coreOf u
      s2.setCore u { c2 with evict := c2.evict ++ [v] }
    else s.setCore u c1
  | none => s.setCore u c1

/-- A line for a Normal access of a core: L1D, the eviction buffer, then L2 (R286, R292, R296). -/
def State.l1Read (s : State) (u : CoreId) (b sl owner la c n : Nat) (obs : MemObs) :
    Except (State × Nat) (State × List Course) :=
  let k := s.coreOf u
  let fill := fun (s : State) (obs : MemObs) =>
    match s.l2Read b sl owner la c n none obs with
    | .error e => .error e
    | .ok (t, data) => .ok (t.l1Install u b ⟨0, la, data, false, owner⟩, data)
  let lost := fun (s : State) => Except.error (((s.setPoison la).bump 0x6001 3 [] sl), 0x0601)
  match k.l1d.find? fun l => l.addr == la with
  | some l =>
    if obs = .l1Parity then
      let t := s.setCore u { k with l1d := k.l1d.filter fun x => x.addr != la }
      if l.dirty then lost t
      else fill ((t.bump 0x6001 1 [b] 0).record (bayRing b) 2 b 0x0685 (l1dSet la * 2 ^ 24 + l.way * 4096)) .clean
    else .ok (s, l.data)
  | none =>
    match k.evict.find? fun l => l.addr == la with
    | some l =>
      -- a write-back not done is cancelled, and the line is reinstalled dirty
      let t := s.setCore u { k with evict := k.evict.filter fun x => x.addr != la }
      if obs = .l1Parity then lost t
      else .ok (t.l1Install u b l, l.data)
    | none => fill s obs

/-- Courses written into a line. -/
def lineWith (data : List Course) (off : Nat) (ws : List (Option Course)) : List Course :=
  (List.range data.length).map fun k =>
    if off ≤ k ∧ k < off + ws.length then (nth ws (k - off) none).getD (nth data k 0) else nth data k 0

/-! ### Cleaning (R294, R305) -/

/-- Write every dirty line of a core's L1D and eviction buffer that satisfies `p` back to L2, and keep it clean. -/
def State.cleanL1 (s : State) (u : CoreId) (b : Nat) (p : Line → Bool) : State :=
  let c := s.coreOf u
  let dirty := (c.evict.filter p) ++ (c.l1d.filter fun l => l.dirty && p l)
  let s1 := s.setCore u { c with
    l1d := mapIf p (fun l => { l with dirty := false }) c.l1d
    evict := c.evict.filter fun l => !(p l) }
  dirty.foldl (fun (t : State) l => t.l2WriteBack b (t.ownerSlice l.owner) l) s1

/-- The stones of a bay that have state. -/
def State.coresOfBay (s : State) (b : Nat) : List CoreId :=
  (s.cores.map (·.1)).filter fun u => coreBay u == some b

/-- The memory of a local line address is not in self-refresh; requests wait for its exit (R516). -/
def State.memUp (s : State) (la : Nat) : Bool := if caLocal la < hbmSize then !s.power.hbmSr else !s.power.dramSr

/-- Write every dirty line of a bay's L2 that satisfies `p` to memory, and keep it clean. -/
def State.cleanL2 (s : State) (b : Nat) (p : Line → Bool) : State :=
  let dirty := (s.l2Lines b).filter fun l => l.dirty && p l
  let s1 := s.setL2 b (mapIf p (fun l => { l with dirty := false }) (s.l2Lines b))
  dirty.foldl (fun (t : State) l => t.memPut l.addr l.data) s1

/-- Clean a bay: L1D through L2 to memory (R305). -/
def State.cleanBay (s : State) (b : Nat) (p : Line → Bool) : State :=
  ((s.coresOfBay b).foldl (fun (t : State) u => t.cleanL1 u b p) s).cleanL2 b p

/-- Discard the lines of a bay that satisfy `p` (R305). -/
def State.discardBay (s : State) (b : Nat) (p : Line → Bool) : State :=
  let drop := fun (e : CoreId × Core) =>
    if coreBay e.1 = some b then
      (e.1, { e.2 with l1d := e.2.l1d.filter fun l => !(p l), l1i := e.2.l1i.filter fun l => !(p l),
                       evict := e.2.evict.filter fun l => !(p l) })
    else e
  ({ s with cores := s.cores.map drop } : State).setL2 b ((s.l2Lines b).filter fun l => !(p l))

/-- A line holds an address of a range. -/
def Line.inRange (start n : Nat) (l : Line) : Bool := decide (l.addr < start + n ∧ start < l.addr + 128)

/-- Every bay. -/
def allBays : List Nat := List.range 16

/-- Clean a range on every bay, as before a Hod transfer (R294). -/
def State.cleanRange (s : State) (start n : Nat) : State :=
  allBays.foldl (fun (t : State) b => t.cleanBay b (Line.inRange start n)) s

/-- Invalidate a range on every bay, as before a Hod transfer completes (R294). A line only partly in the range is
cleaned first. -/
def State.invalidateRange (s : State) (start n : Nat) : State :=
  let part := fun (l : Line) => l.inRange start n && !(start ≤ l.addr && l.addr + 128 ≤ start + n)
  allBays.foldl (fun (t : State) b => (t.cleanBay b part).discardBay b (Line.inRange start n)) s

/-- Clean every line a context's firings dirtied, as a run does before it commits (R294). -/
def State.cleanOwner (s : State) (ctx : Nat) : State :=
  allBays.foldl (fun (t : State) b => t.cleanBay b fun l => l.owner == ctx) s

end Sys2Proof.Machine
end

