-- ==== Sys2Proof/Machine/Quarry.lean ====
section
/-! DEFINITION. Quarry (06): decoding of byte records by a template into rows with reject causes (R158-R165), and
encoding (R166). -/

namespace Sys2Proof.Machine

/-! ### Characters and digits (R155, R161) -/

/-- Bytes of `k` units of a character set. -/
def unitBytes (charset k : Nat) : Nat := if charset = 3 then ceilDiv k 2 else k

/-- The value of a decimal character in ASCII (1) or EBCDIC (2). -/
def digitOf (charset : Nat) (b : Byte) : Option Nat :=
  let base := if charset = 2 then 0xF0 else 0x30
  if base ≤ b.toNat ∧ b.toNat ≤ base + 9 then some (b.toNat - base) else none

/-- The value of a hexadecimal character. -/
def hexOf (charset : Nat) (b : Byte) : Option Nat :=
  let n := b.toNat
  let up := if charset = 2 then 0xC1 else 0x41
  let low := if charset = 2 then 0x81 else 0x61
  match digitOf charset b with
  | some d => some d
  | none =>
    if up ≤ n ∧ n ≤ up + 5 then some (n - up + 10)
    else if low ≤ n ∧ n ≤ low + 5 then some (n - low + 10)
    else none

/-- The character of a hexadecimal digit, upper case (assumption 94: DESIGN CHOICE). -/
def hexChar (charset d : Nat) : Byte :=
  BitVec.ofNat 8 (if d < 10 then (if charset = 2 then 0xF0 else 0x30) + d else (if charset = 2 then 0xC1 else 0x41) + d - 10)

/-- The sign of DEC_CD: C positive, D negative. -/
def signOf (charset : Nat) (b : Byte) : Option Bool :=
  let c := if charset = 2 then 0xC3 else 0x43
  if b.toNat = c then some false else if b.toNat = c + 1 then some true else none

/-- The nibbles of bytes with the byte each lies in. -/
def nibbles (bs : List Byte) : List (Nat × Nat) :=
  (List.range (2 * bs.length)).map fun j =>
    let b := (nth bs (j / 2) 0).toNat
    (if j % 2 = 0 then b / 16 else b % 16, j / 2)

/-- The number digits spell, or the index of the first bad byte. -/
def digitsNum (charset units : Nat) (bs : List Byte) : Except Nat Nat :=
  if charset = 3 then
    let ns := nibbles bs
    let pad := ns.length - units
    (List.range ns.length).foldl (fun acc j => match acc with
      | .error e => .error e
      | .ok v =>
        let x := nth ns j (0, 0)
        if j < pad then (if x.1 ≠ 0 then .error x.2 else .ok v)
        else if 9 < x.1 then .error x.2 else .ok (v * 10 + x.1)) (.ok 0)
  else
    (List.range bs.length).foldl (fun acc j => match acc with
      | .error e => .error e
      | .ok v => match digitOf charset (nth bs j 0) with
        | some d => .ok (v * 10 + d)
        | none => .error j) (.ok 0)

/-! ### Decoding -/

/-- A reject: CAUSE, FIELD and OFFSET of the REJECT row (R164). -/
structure Rej where
  cause : Nat
  field : Nat
  offset : Nat
deriving DecidableEq, Repr

/-- Decoding so far: the position, the bitmap, and for each record what was decoded: nothing yet, null, or courses. -/
structure DecSt where
  pos : Nat
  bitmap : List Byte
  out : List (Option (Option (List Course)))
  ovf : Bool

/-- A step of decoding: the state, or the state it fails in. -/
abbrev DecRes := Except (DecSt × Rej) DecSt

/-- Record `k` decoded to a value or null. -/
def DecSt.put (d : DecSt) (k : Nat) (v : Option (List Course)) : DecSt := { d with out := d.out.set k (some v) }

/-- Bit p of the bitmap (R158). -/
def bitmapBit (bm : List Byte) (p : Nat) : Bool := (nth bm ((p - 1) / 8) 0).getLsbD (7 - (p - 1) % 8)

/-- A record's conversion of its content bytes (R156, R161); the error is the index of the bad byte. A sign with no digits
after it is zero (assumption 94: DESIGN CHOICE). -/
def convert (r : TField) (units : Nat) (bs : List Byte) : Except Nat (Option (List Course) × Bool) :=
  match r.conv with
  | 6 => .ok (none, false)
  | 0 => .ok (some (bytesCourses r.outType.param bs), false)
  | 2 =>
    match bs with
    | [] => .ok (none, false)
    | c :: t => match signOf r.charset c with
      | none => .error 0
      | some neg => match digitsNum r.charset (units - 1) t with
        | .error j => .error (j + 1)
        | .ok v =>
          let f := fitDec r.recScale r.outType.n r.outType.param (if neg then -(v : Int) else (v : Int))
          .ok (some (decCourses r.outType.n f.1), f.2)
  | cv =>
    if bs.isEmpty then .ok (none, false)
    else match digitsNum r.charset units bs with
      | .error j => .error j
      | .ok v =>
        if cv = 1 then
          let f := fitDec r.recScale r.outType.n r.outType.param (v : Int)
          .ok (some (decCourses r.outType.n f.1), f.2)
        else .ok (some (natCrs r.outType.size v), false)

/-- Convert the content of record `k`, which starts at `base`, and hold it. -/
def DecSt.convertAt (d : DecSt) (r : TField) (k units base : Nat) (bs : List Byte) : DecRes :=
  match convert r units bs with
  | .error j => .error (d, ⟨0x02, k, base + j⟩)
  | .ok (v, o) => .ok { d.put k v with ovf := d.ovf || o }

/-- A length prefix: its value and its bytes (R159). -/
def prefixAt (r : TField) (rec : List Byte) (pos k : Nat) : Except Rej (Nat × Nat) :=
  let nb := if r.pform = 2 then ceilDiv r.plen 2 else r.plen
  if rec.length < pos + nb then .error ⟨0x04, k, rec.length⟩
  else if r.pform = 3 then .ok (beNat (slice rec pos nb), nb)
  else match digitsNum (if r.pform = 0 then 1 else if r.pform = 1 then 2 else 3) r.plen (slice rec pos nb) with
    | .error j => .error ⟨0x02, k, pos + j⟩
    | .ok v => .ok (v, nb)

/-! ### Bitmaps (R155, R162) -/

/-- A bitmap position the template describes (R162). -/
def described (fs : List TField) (p : Nat) : Bool :=
  let has := fun (lo : Nat) => fs.any fun r => r.kind != 4 && decide (lo ≤ r.bit)
  if p = 1 then has 66 else if p = 65 then has 130 else fs.any fun r => r.kind != 4 && r.bit == p

/-- One bitmap of 8 bytes, or the index of the bad character. -/
def bitmapChunk (charset : Nat) (bs : List Byte) : Except Nat (List Byte) :=
  if charset = 0 ∨ charset = 3 then .ok bs
  else
    match (List.range 16).find? fun j => (hexOf charset (nth bs j 0)).isNone with
    | some j => .error j
    | none => .ok ((List.range 8).map fun j =>
        BitVec.ofNat 8 (((hexOf charset (nth bs (2 * j) 0)).getD 0) * 16 + (hexOf charset (nth bs (2 * j + 1) 0)).getD 0))

/-- Read the bitmaps from level `lv` on: an extension is read when its announcing bit is set and described. -/
def bitmapRead (fs : List TField) (r : TField) (rec : List Byte) (k : Nat) :
    Nat → Nat → Nat → List Byte → Except Rej (Nat × List Byte)
  | 0, _, pos, bm => .ok (pos, bm)
  | n + 1, lv, pos, bm =>
    if 0 < lv ∧ !(bitmapBit bm (64 * lv - 63) && described fs (64 * lv - 63)) then .ok (pos, bm)
    else
      let per := if r.charset = 0 ∨ r.charset = 3 then 8 else 16
      if rec.length < pos + per then .error ⟨0x04, k, rec.length⟩
      else match bitmapChunk r.charset (slice rec pos per) with
        | .error j => .error ⟨0x02, k, pos + j⟩
        | .ok bs => bitmapRead fs r rec k n (lv + 1) (pos + per) (bm ++ bs)

/-- Decode the BITMAP record; the lowest undescribed set bit is the failure (R162). -/
def DecSt.bitmapAt (d : DecSt) (fs : List TField) (r : TField) (rec : List Byte) (k : Nat) : DecRes :=
  match bitmapRead fs r rec k 3 0 d.pos [] with
  | .error e => .error (d, e)
  | .ok (pos, bm0) =>
    let bm := fitList 24 0 bm0
    match ((List.range 192).map (· + 1)).find? fun p => bitmapBit bm p && !(described fs p) with
    | some p =>
      let at_ := if r.charset = 0 ∨ r.charset = 3 then (p - 1) / 8 else (p - 1) / 4
      .error (d, ⟨0x03, k, d.pos + at_⟩)
    | none =>
      let v := if r.conv = 0 then some (bytesCourses r.outType.param bm) else none
      .ok { d.put k v with pos := pos, bitmap := bm }

/-! ### BER-TLV (R160) -/

/-- A data object: its tag, where it and its value begin, its value's length, and the object it lies directly inside. -/
structure BerObj where
  tag : List Byte
  at_ : Nat
  val : Nat
  len : Nat
  cons : Bool
  parent : Option Nat

/-- The bytes of a tag from a position: the first, and each further byte while the one before continues. `none` when
it leaves the object; more than 3 bytes is the caller's error. -/
def berTag (rec : List Byte) (stop p : Nat) : Option (List Byte) :=
  let b0 := nth rec p 0
  if b0.toNat % 32 ≠ 31 then some [b0]
  else if stop ≤ p + 1 then none
  else
    let b1 := nth rec (p + 1) 0
    if b1.toNat < 128 then some [b0, b1]
    else if stop ≤ p + 2 then none
    else
      let b2 := nth rec (p + 2) 0
      if b2.toNat < 128 then some [b0, b1, b2] else some [b0, b1, b2, 0]

/-- Parse consecutive objects, descending into constructed ones; the error is its cause. -/
def berParse (rec : List Byte) : Nat → Nat → Nat → Nat → Option Nat → List BerObj → Except Nat (List BerObj)
  | 0, _, _, _, _, acc => .ok acc
  | fuel + 1, p, stop, depth, parent, acc =>
    if stop ≤ p then .ok acc
    else match berTag rec stop p with
      | none => .error 0x01
      | some tag =>
        if 3 < tag.length then .error 0x06
        else
          let q := p + tag.length
          if stop ≤ q then .error 0x01
          else
            let lb := (nth rec q 0).toNat
            if lb = 0x80 ∨ 0x82 < lb then .error 0x06
            else
              let nl := if lb < 128 then 0 else lb - 128
              if stop < q + 1 + nl then .error 0x01
              else
                let len := if lb < 128 then lb else beNat (slice rec (q + 1) nl)
                let v := q + 1 + nl
                if stop < v + len then .error 0x01
                else
                  let cons := (nth tag 0 0).getLsbD 5
                  let me : BerObj := ⟨tag, p, v, len, cons, parent⟩
                  if cons ∧ 4 < depth then .error 0x06
                  else
                    let inner := if cons then berParse rec fuel v (v + len) (depth + 1) (some acc.length) (acc ++ [me])
                      else .ok (acc ++ [me])
                    match inner with
                    | .error e => .error e
                    | .ok acc' => berParse rec fuel (v + len) stop depth parent acc'

/-- The TLV record at the root of a TLV_TAG record. -/
def tagRoot (fs : List TField) : Nat → Nat → Nat
  | 0, k => k
  | n + 1, k => match fs[k]? with
    | some r => if r.kind = 4 then tagRoot fs n r.bit else k
    | none => k

/-- The units of a TLV_TAG value of `n` bytes: a BCD value holds no pad beyond MAX_LEN digits (assumption 94: DESIGN
CHOICE). -/
def tagUnits (r : TField) (n : Nat) : Nat :=
  if r.charset ≠ 3 then n else if unitBytes 3 r.maxLen < n then 2 * n else min (2 * n) r.maxLen

/-- A length check that comes after the character checks of its element (R164; assumption 96: DEDUCED). -/
def DecRes.within (fits : Bool) (d : DecSt) (k at_ : Nat) (x : DecRes) : DecRes :=
  match x with
  | .error e => .error e
  | .ok d1 => if fits then .ok d1 else .error (d, ⟨0x01, k, at_⟩)

/-- Decode the TLV_TAG records of TLV record `k`, in template order (R160, R162). `objs` is `none` when the record is
absent; `found` holds the object each TLV_TAG record matched. -/
def tagsAt (fs : List TField) (rec : List Byte) (k content : Nat) (objs : Option (List BerObj)) :
    List Nat → List (Nat × Nat) → DecSt → DecRes
  | [], _, d => .ok d
  | j :: t, found, d =>
    match fs[j]? with
    | none => .ok d
    | some r =>
      let os := objs.getD []
      let inside : Option (Option Nat) :=
        if r.bit = k then some none else (tget r.bit found).map some
      let hit := inside.bind fun par => os.findIdx? fun o => o.parent == par && o.tag == r.tag
      match hit with
      | none =>
        if r.required ∧ objs.isSome then .error (d, ⟨0x03, j, content⟩)
        else tagsAt fs rec k content objs t found (d.put j none)
      | some x =>
        match os[x]? with
        | none => .ok d
        | some o =>
          let fits := decide (o.len ≤ unitBytes r.charset r.maxLen) || (o.cons && r.conv == 6)
          match DecRes.within fits d j o.at_ (d.convertAt r j (tagUnits r o.len) o.val (slice rec o.val o.len)) with
          | .error e => .error e
          | .ok d1 => tagsAt fs rec k content objs t (found ++ [(j, x)]) d1

/-- The TLV_TAG records below TLV record `k`. -/
def tagsOf (fs : List TField) (k : Nat) : List Nat :=
  (List.range fs.length).filter fun j => match fs[j]? with
    | some r => r.kind == 4 && tagRoot fs 5 j == k
    | none => false

/-! ### Records -/

/-- Decode one record other than a TLV_TAG (R158-R162). -/
def DecSt.record (d : DecSt) (fs : List TField) (rec : List Byte) (k : Nat) (r : TField) : DecRes :=
  if r.bit ≠ 0 ∧ !(bitmapBit d.bitmap r.bit) then
    (if r.required then .error (d, ⟨0x03, k, d.pos⟩)
    else
      let d1 := d.put k none
      if r.kind = 3 then tagsAt fs rec k d.pos none (tagsOf fs k) [] d1 else .ok d1)
  else if r.kind = 2 then d.bitmapAt fs r rec k
  else if r.kind = 0 then
    let nb := unitBytes r.charset r.maxLen
    if rec.length < d.pos + nb then .error (d, ⟨0x04, k, rec.length⟩)
    else match d.convertAt r k r.maxLen d.pos (slice rec d.pos nb) with
      | .error e => .error e
      | .ok d1 => .ok { d1 with pos := d.pos + nb }
  else
    match prefixAt r rec d.pos k with
    | .error e => .error (d, e)
    | .ok (n, pb) =>
      let c := d.pos + pb
      let nb := unitBytes r.charset n
      if rec.length < c + nb ∨ (r.kind = 3 ∧ r.maxLen < n) then .error (d, ⟨0x01, k, d.pos⟩)
      else if r.kind = 3 then
        match berParse rec (nb + 1) c (c + nb) 1 none [] with
        | .error cause => .error (d, ⟨cause, k, d.pos⟩)
        | .ok os =>
          match d.convertAt r k n c (slice rec c nb) with
          | .error e => .error e
          | .ok d1 => tagsAt fs rec k c (some os) (tagsOf fs k) [] { d1 with pos := c + nb }
      else match DecRes.within (decide (n ≤ r.maxLen)) d k d.pos (d.convertAt r k n c (slice rec c nb)) with
        | .error e => .error e
        | .ok d1 => .ok { d1 with pos := c + nb }

/-- Decode the records from number `k` on. -/
def decodeFrom (fs : List TField) (rec : List Byte) (trail : Bool) : Nat → List TField → DecSt → DecRes
  | _, [], d => if d.pos < rec.length ∧ !trail then .error (d, ⟨0x05, 0xFFF, d.pos⟩) else .ok d
  | k, r :: t, d =>
    if r.kind = 4 then decodeFrom fs rec trail (k + 1) t d
    else match d.record fs rec k r with
      | .error e => .error e
      | .ok d1 => decodeFrom fs rec trail (k + 1) t d1

/-- The item row a template gives. -/
structure Decoded where
  row : Row
  /-- course ranges of the row that are decoded: offset and length (R165) -/
  known : List (Nat × Nat)
  reject : Option Rej

/-- The output fields' types of a template. -/
def Template.types (t : Template) : List TypeDesc := (t.fields.filter fun r => r.conv != 6).map (·.outType)

/-- The records of a template that have an output field. -/
def Template.outRecs (t : Template) : List Nat :=
  (List.range t.fields.length).filter fun k => match t.fields[k]? with
    | some r => r.conv != 6
    | none => false

/-- The row and known ranges of what was decoded. After a reject only the fields of records before the failing one count
(R165). -/
def DecSt.finish (d : DecSt) (t : Template) (rej : Option Rej) : Decoded :=
  let stop := (rej.map (·.field)).getD 0xFFF
  let vals := t.outRecs.map fun k => if k < stop then nth d.out k none else none
  let ts := t.types
  let off := fun (i : Nat) => rowSize (ts.take i)
  { row := { fields := (List.range ts.length).map fun i =>
               ((nth vals i none).getD none).getD (List.replicate (nth ts i tCode).size 0)
             valid := vals.map fun v => (v.getD none).isSome
             ovf := d.ovf }
    known := ((List.range ts.length).filter fun i => (nth vals i none).isSome).map fun i => (off i, (nth ts i tCode).size)
    reject := rej }

/-- Decode a record by a template (R158). `quarryBytes` is the context's bound. A record beyond both limits is reported at
MAX_RECORD (assumption 94: DESIGN CHOICE). -/
def quarryDecode (t : Template) (quarryBytes : Nat) (rec : List Byte) : Decoded :=
  let d0 : DecSt := ⟨0, List.replicate 24 0, t.fields.map fun _ => none, false⟩
  if t.maxRecord < rec.length then d0.finish t (some ⟨0x05, 0xFFF, t.maxRecord⟩)
  else if quarryBytes < rec.length then d0.finish t (some ⟨0x05, 0xFFF, quarryBytes⟩)
  else match decodeFrom t.fields rec t.trail 0 t.fields d0 with
    | .ok d => d.finish t none
    | .error (d, rej) => d.finish t (some rej)

/-! ### Encoding (R166) -/

/-- The decimal digits of a number, most significant first; zero is one digit. -/
def decDigits (n : Nat) : List Nat := (Nat.toDigits 10 n).map fun c => c.toNat - 48

/-- Digits as characters or BCD bytes, a leading pad nibble when odd (R155). -/
def digitBytes (charset : Nat) (ds : List Nat) : List Byte :=
  if charset = 3 then
    let e := if ds.length % 2 = 1 then 0 :: ds else ds
    (List.range (e.length / 2)).map fun i => BitVec.ofNat 8 (nth e (2 * i) 0 * 16 + nth e (2 * i + 1) 0)
  else ds.map fun d => hexChar charset d

/-- The fill of a FIXED record (R166); a CONV NONE record has the fill of RAW (assumption 94: DESIGN CHOICE). -/
def fillBytes (r : TField) : List Byte :=
  if r.conv = 0 ∨ r.conv = 6 then
    List.replicate (unitBytes r.charset r.maxLen) (if r.charset = 1 then 0x20 else if r.charset = 2 then 0x40 else 0)
  else digitBytes r.charset (List.replicate r.maxLen 0)

/-- A length prefix of `n` units; `none` when its form cannot hold it. -/
def encodePrefix (r : TField) (n : Nat) : Option (List Byte) :=
  if r.pform = 3 then (if n < 256 ^ r.plen then some (natBytes r.plen n) else none)
  else if 10 ^ r.plen ≤ n then none
  else
    let ds := decDigits n
    some (digitBytes (if r.pform = 0 then 1 else if r.pform = 1 then 2 else 3) (List.replicate (r.plen - ds.length) 0 ++ ds))

/-- The signed number a digit field is written from, at REC_SCALE (R166). -/
def encodeNum (r : TField) (cs : List Course) : Except Nat Int :=
  match numOf r.outType cs with
  | none => .error 0x0383
  | some v =>
    let w := if r.conv = 1 ∨ r.conv = 2 then rescale r.outType.param r.recScale v else v
    if w < 0 ∧ r.conv ≠ 2 then .error 0x0B10 else .ok w

/-- The content of a record with its units, before any prefix; FIXED contents are justified or filled. The prefix of a BCD
RAW field counts two digits a byte, up to MAX_LEN (assumption 94: DESIGN CHOICE). -/
def encodeContent (r : TField) (cs : List Course) : Except Nat (List Byte × Nat) :=
  if r.conv = 0 then
    match bytesOf r.outType cs with
    | none => .error 0x0382
    | some bs =>
      let nb := unitBytes r.charset r.maxLen
      if nb < bs.length then .error 0x0B11
      else if r.kind = 0 then .ok (bs ++ (fillBytes r).drop bs.length, r.maxLen)
      else .ok (bs, if r.charset = 3 then min (2 * bs.length) r.maxLen else bs.length)
  else
    match encodeNum r cs with
    | .error e => .error e
    | .ok v =>
      let ds := decDigits v.natAbs
      let sign : List Byte := if r.conv = 2 then
          [BitVec.ofNat 8 ((if r.charset = 2 then 0xC3 else 0x43) + (if v < 0 then 1 else 0))] else []
      let room := r.maxLen - sign.length
      if room < ds.length then .error 0x0B10
      else
        let ds' := if r.kind = 0 then List.replicate (room - ds.length) 0 ++ ds else ds
        .ok (sign ++ digitBytes r.charset ds', sign.length + ds'.length)

/-- Bits present: the BITs of records whose field is non-null. -/
def presentBits (t : Template) (vals : List (Option (List Course))) : List Nat :=
  (List.range t.outRecs.length).filterMap fun i =>
    match t.fields[nth t.outRecs i 0]? with
    | some r => if r.kind ≠ 4 ∧ r.bit ≠ 0 ∧ (nth vals i none).isSome then some r.bit else none
    | none => none

/-- The bitmap record written (R166). -/
def encodeBitmap (r : TField) (bits : List Nat) : List Byte :=
  let two := bits.any fun p => 66 ≤ p
  let three := bits.any fun p => 130 ≤ p
  let all := bits ++ (if two then [1] else []) ++ (if three then [65] else [])
  let maps := if three then 3 else if two then 2 else 1
  let bytes := (List.range (8 * maps)).map fun b =>
    (BitVec.ofNat 8 ((List.range 8).foldl (fun a k => a * 2 + (if all.contains (8 * b + k + 1) then 1 else 0)) 0) : Byte)
  if r.charset = 0 ∨ r.charset = 3 then bytes
  else bytes.flatMap fun b => [hexChar r.charset (b.toNat / 16), hexChar r.charset (b.toNat % 16)]

/-- One record written; `v` is its field, `none` for a null or absent field. A length that its prefix form cannot hold has
the error of its conversion (assumption 94: DESIGN CHOICE). -/
def encodeRecord (bits : List Nat) (r : TField) (v : Option (List Course)) : Except Nat (List Byte) :=
  if r.kind = 4 then .ok []
  else if r.kind = 2 then .ok (encodeBitmap r bits)
  else match v with
    | none =>
      if r.bit ≠ 0 ∧ r.conv ≠ 6 then .ok []
      else if r.kind = 0 then .ok (fillBytes r)
      else .ok ((encodePrefix r 0).getD [])
    | some cs =>
      match encodeContent r cs with
      | .error e => .error e
      | .ok (bs, units) =>
        if r.kind = 0 then .ok bs
        else match encodePrefix r units with
          | some p => .ok (p ++ bs)
          | none => .error (if r.conv = 0 then 0x0B11 else 0x0B10)

/-- Encode the records from number `k` on. -/
def encodeFrom (t : Template) (bits : List Nat) (vals : List (Option (List Course))) :
    Nat → List TField → Except Nat (List Byte)
  | _, [] => .ok []
  | k, r :: rest =>
    let v := match t.outRecs.findIdx? fun x => x == k with
      | some i => nth vals i none
      | none => none
    match encodeRecord bits r v with
    | .error e => .error e
    | .ok bs => match encodeFrom t bits vals (k + 1) rest with
      | .error e => .error e
      | .ok more => .ok (bs ++ more)

/-- ENCODE of a row (R166). -/
def quarryEncode (t : Template) (row : Row) : Except Nat (List Byte) :=
  let vals := (List.range t.types.length).map row.get
  match encodeFrom t (presentBits t vals) vals 0 t.fields with
  | .error e => .error e
  | .ok bs => if 4095 < bs.length then .error 0x0B12 else .ok bs

end Sys2Proof.Machine
end

