-- ==== Sys2Proof/Machine/Layouts.lean ====
section
/-! DEFINITION. Layout references (R112, R113) and the parameter courses of operators (R92). -/

namespace Sys2Proof.Machine

/-! ### Layout references (R112) -/

/-- The type descriptors of a LIST of `n` fields. -/
def typesFrom : Nat → List Course → Option (List TypeDesc)
  | 0, _ => some []
  | n + 1, cs => do
    let t ← typeOf (nth cs 0 0) (nth cs 1 0)
    let ts ← typesFrom n (cs.drop 2)
    return t :: ts

/-- The layout a reference names, with the code that rejects it (R112, R113). A declared list of more than 4,096 courses,
which R110 forbids, is GRAPH_PARAM (assumption 97: DESIGN CHOICE). -/
def Image.layoutRef (im : Image) (c0 c1 : Course) : Except Nat Layout :=
  let n := c0.toNat * 4096 + c1.toNat
  let place := fieldOf n 19 0
  match fieldOf n 23 20 with
  | 0 =>
    if fieldOf n 19 6 ≠ 0 then .error 0x0305
    else match im.templates[fieldOf n 5 0]? with
      | some t => .ok (.fields t.types)
      | none => .error 0x0331
  | 1 =>
    let cnt := (nth im.constants place 0).toNat
    if place % 2 = 1 ∨ im.constants.length < place + 2 ∨ cnt = 0 ∨ 255 < cnt
        ∨ im.constants.length < place + 2 + 2 * cnt then .error 0x0316
    else if nth im.constants (place + 1) 0 ≠ 0 then .error 0x0305
    else match typesFrom cnt (im.constants.drop (place + 2)) with
      | some ts => if 4096 < rowSize ts then .error 0x0316 else .ok (.fields ts)
      | none => .error 0x0309
  | 2 =>
    let code := fieldOf n 7 0
    let arg := fieldOf n 15 8
    if fieldOf n 19 16 ≠ 0 then .error 0x0305
    else if 8 ≤ code then .error 0x0316
    else if (code = 2 ∧ (arg = 0 ∨ 128 < arg)) ∨ (code = 4 ∧ (arg = 0 ∨ 4 < arg)) ∨ (code ≠ 2 ∧ code ≠ 4 ∧ arg ≠ 0) then
      .error 0x0316
    else .ok (.fixed code arg)
  | _ => .error 0x0316

/-! ### Operator parameters -/

/-- Parameter course `k` as a number. -/
def Operator.par (o : Operator) (k : Nat) : Nat := (nth o.params k 0).toNat

/-- Two parameter courses as a number. -/
def Operator.par2 (o : Operator) (k : Nat) : Nat := o.par k * 4096 + o.par (k + 1)

/-- A list of `n` numbers from parameter course `k` on. -/
def Operator.pars (o : Operator) (k n : Nat) : List Nat := (List.range n).map fun i => o.par (k + i)

/-- `n` rounded up to an even number. -/
def evenUp (n : Nat) : Nat := n + n % 2

end Sys2Proof.Machine
end

