-- ==== Sys2Proof/Machine/Items.lean ====
section
/-! DEFINITION. The shared operations of items and runs: deciding a cause (R39, R118), releasing an answer (R36-R41),
retiring an item (R21-R23), charging a cap (R109), ending a run (R116, R118). -/

namespace Sys2Proof.Machine

/-! ### Empty work -/

def chargesZero : Charges := { stoneCycles := 0, keySearches := 0, hbmLines := 0, digestBytes := 0, ledgerBytes := 0 }

def workEmpty : Work := { toks := [], fired := [], charges := chargesZero, batchCharges := [], held := [] }

/-! ### Flows (R176, R177) -/

/-- An item counts in its flow while it waits in the flow's queue or is in service (R177). -/
def Item.inFlow (i : Item) : Bool := i.stage == .queued || i.stage == .inService

/-- Two items of one flow: the slice and the full flow key (R176). -/
def Item.sameFlow (i : Item) (slice : Nat) (key : List Byte) : Bool := i.slice == slice && i.flowKey == key

/-- The items a flow holds (R177). -/
def State.flowItems (s : State) (slice : Nat) (key : List Byte) : List Item :=
  s.items.filter fun i => i.inFlow && i.sameFlow slice key

/-- The flow keys of the active flows of a slice (R177). -/
def State.sliceFlows (s : State) (slice : Nat) : List (List Byte) :=
  ((s.items.filter fun i => i.inFlow && i.slice == slice).map (·.flowKey)).eraseDups

/-- All active flows, FLOWS_ACTIVE of R198. -/
def State.activeFlows (s : State) : List (Nat × List Byte) :=
  ((s.items.filter Item.inFlow).map fun i => (i.slice, i.flowKey)).eraseDups

/-- The flow hash (R176): CRC-32C over the byte image of the packed flow key. -/
def flowHash (key : List Byte) : Nat := crc32c (packBytes (unpackBytes key))

/-- The flow bucket: bits 11:0 of the hash (R176). -/
def flowBucket (key : List Byte) : Nat := flowHash key % 4096

/-- The home bay of a bucket (R180): its entry in the map; a bucket with no entry is homed by assumption 9. -/
def State.bucketHome (s : State) (b : Nat) : Nat :=
  match tget b s.mason.buckets with
  | some h => h
  | none =>
    let bays := if s.mason.warm.isEmpty then s.liveBays else s.mason.warm
    if bays.isEmpty then b % 16 else nth bays (b % bays.length) 0

/-- A member that takes part: running, joining or leaving. -/
def Member.present (m : Member) : Bool := m.state != 0

/-- The devices of a bucket: its primary, which is the one its items enter, and its replica, the buckets spread evenly over
the other members (R180, R190; assumption 64: DESIGN CHOICE); `none` on one device. -/
def State.bucketReplica (s : State) (b : Nat) : Option Nat :=
  let others := (s.group.members.filter fun m => m.present && m.node != s.group.node).map (·.node)
  if s.group.grouped then others[b % others.length]? else none

/-- Tell the replica of a flow (R50, R51); one device has none. -/
def State.tellReplica (s : State) (key : List Byte) (m : MemberMsg) : State :=
  match s.bucketReplica (flowBucket key) with
  | some n => s.tell n m
  | none => s

/-! ### Answer-table entries (R19, R187) -/

/-- An item holds an answer-table entry from step 4 to its retirement. -/
def Item.hasEntry (i : Item) : Bool := i.stage != .heldAnswer && i.stage != .done

def State.entriesUsed (s : State) : Nat := (s.items.filter Item.hasEntry).length

def State.sliceEntriesUsed (s : State) (slice : Nat) : Nat :=
  (s.items.filter fun i => i.hasEntry && i.slice == slice).length

/-- The answer-table entries of G items of a context in use. -/
def State.ctxEntriesUsed (s : State) (ctx : Nat) : Nat :=
  (s.items.filter fun i => i.hasEntry && i.ctx == ctx && i.cls == 0).length

/-! ### Memory a slice holds (R194, R411): bound data twice (R302) -/

def sumNat (l : List Nat) : Nat := l.foldl (· + ·) 0

/-- Courses of HBM that a context's kernels and constants take, once: the constants as whole pages (R98; assumption 97:
DESIGN CHOICE). -/
def imageCourses (im : Image) : Nat :=
  3 * sumNat (im.kernels.map fun k => k.code.length) + ceilDiv im.constants.length 4096 * 4096

/-- The 16 save records of 156 courses that each context's save area holds (R366, R369). -/
def saveArea : Nat := 16 * 156

/-- Courses of HBM a context takes: its kernels and constants twice, and its save area (R302, R366). -/
def contextCourses (im : Image) : Nat := 2 * imageCourses im + saveArea

/-- An image of G or D class probes a published hash table (R133, R194). -/
def Image.bindsHash (im : Image) (id : Nat) : Bool := im.cls != 2 && im.ops.any fun o => o.code == 0x0A && o.par2 2 == id

/-- A loaded G or D context of the slice probes the hash table (R194). -/
def State.hashBound (s : State) (t : HashTab) : Bool :=
  s.ctxs.any fun c => c.slice == t.slice && c.image.bindsHash t.id

/-- Courses of a hash table, once. -/
def HashTab.courses (t : HashTab) : Nat := t.rows.length * imageSize t.layout

/-- The area of a flow that an item's STATE_PUT is about to write for the first time (R142). -/
def State.newArea (s : State) (i : Item) : Nat :=
  if (i.putStage = 1 ∨ i.putStage = 2) ∧ !(s.flowState.any fun f => f.slice == i.slice && f.space == i.putSpace && f.key == i.flowKey)
  then i.putArea.length else 0

/-- The courses of an entry image (R260). -/
def ksImageLen (mode key : Nat) : Nat := if mode = 0 then key + 4 else 2 * key + 4

/-- Courses of the shadow of a Keystone table, once: its whole capacity (R274; assumption 18: DESIGN CHOICE). -/
def KsTab.shadowCourses (t : KsTab) : Nat := t.capacity * ksImageLen t.mode t.key

/-- A context of G or D class with this image binds the Keystone table. -/
def Image.bindsKs (im : Image) (id : Nat) : Bool := im.cls != 2 && im.decls.any fun d => d.table == id

/-- A loaded G or D context of the slice binds the Keystone table, whose shadow is then bound data (R194). -/
def State.ksDeclared (s : State) (t : KsTab) : Bool := s.ctxs.any fun c => c.slice == t.slice && c.image.bindsKs t.id

/-- Courses of HBM a slice holds. -/
def State.hbmUsed (s : State) (sl : Nat) : Nat :=
  sumNat ((s.ctxs.filter fun c => c.slice == sl).map fun c => contextCourses c.image) +
  2 * sumNat ((s.flowState.filter fun f => f.slice == sl).map fun f => f.area.length) +
  2 * sumNat ((s.items.filter fun i => i.slice == sl).map s.newArea) +
  2 * sumNat ((s.windows.filter fun w => w.slice == sl).map fun w => w.courses.length) +
  sumNat ((s.tables.filter fun t => t.slice == sl).map fun t =>
    sumNat (t.columns.flatMap fun c => (c.filter fun a => a.tier == 0).map Ashlar.room)) +
  sumNat ((s.hashTables.filter fun t => t.slice == sl).map fun t => t.courses * (if s.hashBound t then 2 else 1)) +
  sumNat ((s.runs.filter fun r => r.slice == sl).flatMap fun r => r.publishes.map fun t =>
    t.courses * (if s.hashBound t then 2 else 1)) +
  2 * sumNat ((s.ks.tables.filter fun t => t.slice == sl && s.ksDeclared t).map KsTab.shadowCourses)

/-- Bound data of the slices with a loaded G or D context, each course once (R194). -/
def State.boundOnce (s : State) (sl : Nat) : Nat :=
  sumNat ((s.ctxs.filter fun c => c.slice == sl && decide (c.cls < 2)).map fun c => imageCourses c.image) +
  sumNat ((s.flowState.filter fun f => f.slice == sl).map fun f => f.area.length) +
  sumNat ((s.windows.filter fun w => w.slice == sl).map fun w => w.courses.length) +
  sumNat ((s.hashTables.filter fun t => t.slice == sl && s.hashBound t).map HashTab.courses) +
  sumNat ((s.ks.tables.filter fun t => t.slice == sl && s.ksDeclared t).map KsTab.shadowCourses)

/-- Bound entries a bay needs for bound data of `n` courses, mapped with pages of 4 Mi courses (R323; assumption 18: DESIGN
CHOICE). -/
def boundPages (n : Nat) : Nat := ceilDiv n (2 ^ 22)

/-- Bound entries held on each bay for the slices other than `sl` that have loaded G or D contexts (R323). -/
def State.boundEntriesBut (s : State) (sl : Option Nat) : Nat :=
  sumNat ((((s.ctxs.filter fun c => decide (c.cls < 2)).map (·.slice)).eraseDups.filter fun x => sl != some x).map fun x =>
    boundPages (s.boundOnce x))

/-- Whether a slice's HBM quota takes `n` more courses. -/
def State.hbmFits (s : State) (sl n : Nat) : Bool :=
  decide (s.hbmUsed sl + n ≤ s.objNum (0x4000 + sl) 9 [] 0 0)

/-! ### Causes and errors (R39, R118) -/

/-- The fallback cause of a code that ends an item: a cap, a Quarry reject, or anything else, the errors of ENCODE among
it (R118, R166). -/
def causeOfCode (code : Nat) : Nat := if code = 0x0381 then 3 else if code / 16 = 0xB0 then 2 else 4

/-- The INFO of a code that ends work: the item tag and the detail (R503). -/
def endInfo (tag detail : Nat) : Nat := tag % 2 ^ 24 * 4096 + detail % 4096

/-- Decide a cause for an item, if none is decided and it is unanswered (R39). -/
def Item.decide (c : Nat) (i : Item) : Item :=
  if i.cause = 0 ∧ i.answer.isNone then { i with cause := c } else i

/-- The firings of a work leave their stones; registers keep their contents until the next firing (R206, R209). -/
def Core.dropFiring (c : Core) : Core :=
  { c with firing := none, slot := none, annul := false, access := none, storesOut := 0 }

/-- Whether a core runs a firing of a work. -/
def Core.runs (w : WorkRef) (c : Core) : Bool :=
  match c.firing with
  | some f => f.w == w
  | none => false

/-- The engine operations of a core are abandoned: its searches and its digests (R209). -/
def State.abandon (s : State) (u : CoreId) : State :=
  { s with
    ks := { s.ks with searches := s.ks.searches.filter fun x => (x.core.map (·.1)) != some u }
    dg := { s.dg with
      lanes := s.dg.lanes.filter fun x => (x.2.core.map (·.1)) != some u
      waiting := s.dg.waiting.filter fun x => (x.2.core.map (·.1)) != some u } }

/-- A core's firing ends (R206, R209). -/
def State.dropFiring (s : State) (u : CoreId) : State := (s.setCore u (s.coreOf u).dropFiring).abandon u

/-- End every firing of a work, forget its ready firings, and abandon the engine operations of its operators. -/
def State.endFirings (s : State) (w : WorkRef) : State :=
  let us := (s.cores.filter fun e => e.2.runs w).map (·.1)
  let t := us.foldl State.dropFiring s
  { t with
    mason := { t.mason with ready := t.mason.ready.filter fun r => r.w != w }
    ks := { t.ks with searches := t.ks.searches.filter fun x => (x.w.map (·.1)) != some w }
    dg := { t.dg with
      lanes := t.dg.lanes.filter fun x => (x.2.w.map (·.1)) != some w
      waiting := t.dg.waiting.filter fun x => (x.2.w.map (·.1)) != some w } }

/-- A firing of the work is in a stone. -/
def State.hasFiring (s : State) (w : WorkRef) : Bool := s.cores.any fun e => e.2.runs w

/-! ### Commands waiting on retirement (R83, R453) -/

/-- Items of a context not yet retired, and runs not ended. -/
def State.ctxBusy (s : State) (ctx : Nat) : Bool :=
  (s.items.any fun i => i.ctx == ctx && i.stage != .done) || (s.runs.any fun r => r.ctx == ctx && !r.finished)

/-- Free a context number and complete its unload (R83). -/
def State.finishUnload (s : State) (w : Waiting) : State :=
  match w with
  | .unload h sl ctx =>
    if s.ctxBusy ctx then s
    else
      let s1 := { s with
        ctxs := s.ctxs.filter fun c => c.num != ctx
        host := { s.host with waiting := s.host.waiting.filter fun x => x != w } }
      s1.done sl h
  | _ => s

/-- The admitted G contexts in order of admission. -/
def State.admitted (s : State) : List Context :=
  sortBy (fun a b => decide (a.order < b.order)) (s.ctxs.filter fun c => c.cls == 0 && (c.state == 1 || c.state == 3))

/-- An admitted context of the slice binds the table. -/
def State.gBound (s : State) (t : KsTab) : Bool :=
  s.admitted.any fun c => c.slice == t.slice && c.image.decls.any fun d => d.table == t.id

/-- What admission holds goes with the last admitted context of a slice, and the warm reserve with the last of all
(R44, R184); a table that no admitted context binds any more goes back to its declared COPIES (R258). -/
def State.trimAdmission (s : State) : State :=
  let live := (s.ctxs.filter fun c => c.cls == 0).map (·.slice)
  { s with
    mason := { s.mason with
      warm := if live.isEmpty then [] else s.mason.warm
      g := s.mason.g.filter fun e => live.contains e.1 }
    ks := { s.ks with
      plan := s.ks.plan.filter fun p => live.contains p.slice
      tables := mapIf (fun t => !(s.gBound t)) (fun t => { t with held := t.held.take t.copies }) s.ks.tables } }

/-- Complete every unload whose context has nothing left, and free every such context that is unloading. -/
def State.settleUnloads (s : State) : State :=
  let t := s.host.waiting.foldl State.finishUnload s
  ({ t with ctxs := t.ctxs.filter fun c => !(c.state == 3 && !(t.ctxBusy c.num)) } : State).trimAdmission

/-! ### Releasing an answer (R36-R41) -/

/-- Whether every course of a copy entry's source has been decoded (R104). -/
def Item.knows (i : Item) (src len : Nat) : Bool :=
  (List.range len).all fun k => i.rowKnown.any fun r => r.1 ≤ src + k && src + k < r.1 + r.2

/-- Put courses into a list at an offset. -/
def putAt (l : List Course) (off : Nat) (cs : List Course) : List Course :=
  l.take off ++ cs ++ l.drop (off + cs.length)

/-- The fallback answer with its copied keys, and whether one is missing (R40, R104). -/
def fallbackAnswer (im : Image) (i : Item) : List Course × Bool :=
  im.copies.foldl (fun acc e =>
    if i.knows e.src e.len then (putAt acc.1 e.dst (slice i.rowCourses e.src e.len), acc.2) else (acc.1, true))
    (im.fallback, false)

/-- The answer flags course (R41). -/
def answerFlags (fb : Bool) (cause : Nat) (reissued demoted incomplete override_ : Bool) : Course :=
  BitVec.ofNat 12 ((if fb then 2048 + cause % 8 * 256 else 0) + (if reissued then 128 else 0) +
    (if demoted then 64 else 0) + (if incomplete then 32 else 0) + (if override_ then 16 else 0))

/-- The state area of a flow replaced (R142). -/
def putFlowState (sl space : Nat) (key : List Byte) (area : List Course) (l : List FlowState) : List FlowState :=
  if l.any fun f => f.slice == sl && f.space == space && f.key == key then
    mapIf (fun f => f.slice == sl && f.space == space && f.key == key) (fun f => { f with area := area }) l
  else l ++ [⟨sl, space, key, area⟩]

/-- The window state of a flow replaced (R140). -/
def putWindow (sl win : Nat) (key : List Byte) (cs : List Course) (l : List WindowState) : List WindowState :=
  if l.any fun f => f.slice == sl && f.window == win && f.key == key then
    mapIf (fun f => f.slice == sl && f.window == win && f.key == key) (fun f => { f with courses := cs }) l
  else l ++ [⟨sl, win, key, cs⟩]

/-- Commit an item's STATE_PUT: the state becomes visible (R142, R21). -/
def State.commitPut (s : State) (i : Item) : State :=
  { s with flowState := putFlowState i.slice i.putSpace i.flowKey i.putArea s.flowState }

/-- Commit an item's window updates (R140, R22). -/
def State.commitWindows (s : State) (i : Item) : State :=
  { s with windows := i.windowPuts.foldl (fun l p => putWindow i.slice p.1 i.flowKey p.2 l) s.windows }

/-- Append rows to a slice's table, if it holds it (R148). -/
def State.appendTo (s : State) (sl : Nat) (p : Nat × List Row) : State :=
  { s with tables := mapIf (fun t => t.slice == sl && t.id == p.1) (fun t => appendRows s.dicts t p.2) s.tables }

/-- Commit the appended rows of a run (R148). -/
def State.commitAppends (s : State) (sl : Nat) (ps : List (Nat × List Row)) : State :=
  ps.foldl (fun t p => t.appendTo sl p) s

/-- Every TABLE_APPEND of an item to a table has fired, or its graph has ended (R148). -/
def State.appendsDone (s : State) (a : AppendTurn) : Bool :=
  match s.itemOf a.seq with
  | none => true
  | some i => i.ended || i.stage == .done ||
    (match s.ctxOf i.ctx with
      | some c => (List.range c.image.ops.length).all fun k => match c.image.ops[k]? with
        | some o => o.code != 0x18 || o.par2 0 != a.table || i.work.fired.contains k
        | none => true
      | none => true)

/-- Commit the appends whose turn has come: those with nothing still to fire and no earlier turn at their table. -/
def State.settleTurns : Nat → State → State
  | 0, s => s
  | n + 1, s =>
    let first := fun (a : AppendTurn) =>
      ((s.mason.turns.find? fun x => x.slice == a.slice && x.table == a.table).map (·.seq)) == some a.seq
    match s.mason.turns.find? fun a => first a && s.appendsDone a with
    | none => s
    | some a =>
      State.settleTurns n (({ s with mason := { s.mason with turns := s.mason.turns.filter fun x => x != a } } : State).appendTo
        a.slice (a.table, a.rows))

/-- Commit every append whose turn has come. -/
def State.settleAppends (s : State) : State := State.settleTurns s.mason.turns.length s

/-- An answered item takes its turn at every table its graph appends to, behind earlier answer ticks and, within a tick,
earlier arrivals. -/
def State.takeTurns (s : State) (i : Item) : State :=
  let tables := (((s.ctxOf i.ctx).map fun c => (c.image.ops.filter fun o => o.code == 0x18).map fun o => o.par2 0).getD []).eraseDups
  let mine := tables.map fun t =>
    ({ seq := i.seq, slice := i.slice, table := t, tick := s.now, arrival := i.arrival,
       rows := (i.appends.filter fun p => p.1 == t).flatMap (·.2) } : AppendTurn)
  let lt := fun (a b : AppendTurn) => decide (a.tick < b.tick) ||
    (a.tick == b.tick && (decide (a.arrival < b.arrival) || (a.arrival == b.arrival && decide (a.seq < b.seq))))
  { s with mason := { s.mason with turns := sortBy lt (s.mason.turns ++ mine) } }

/-- Rows that a TABLE_APPEND delivers after its item's answer join the item's turn. -/
def State.joinTurn (s : State) (seq table : Nat) (rows : List Row) : State :=
  { s with mason := { s.mason with
      turns := mapIf (fun a => a.seq == seq && a.table == table) (fun a => { a with rows := a.rows ++ rows }) s.mason.turns } }

/-- Nothing of an item's graph is still to fire: it has ended, or every operator has fired (R115). -/
def State.graphDone (s : State) (i : Item) : Bool :=
  i.cause != 0 || i.ended ||
    (match s.ctxOf i.ctx with
      | some c => (List.range c.image.ops.length).all fun k => i.work.fired.contains k
      | none => true)

/-- The ledger record of an answered item (R371). -/
def ledgerRecord (i : Item) (a : Answer) : List Byte :=
  let pairs := i.extension.length / 2
  natBytes 1 1 ++ natBytes 1 pairs ++ natBytes 2 i.slice ++ natBytes 2 i.ctx ++ natBytes 2 i.gen ++ natBytes 8 i.itemId ++
    natBytes 8 i.arrival ++ natBytes 8 a.tick ++ natBytes 2 a.flags.toNat ++ natBytes 2 a.answer.length ++
    fitList 48 0 (Config.sha384 i.record) ++ fitList 32 0 (Config.sha384 (packBytes a.answer)) ++ natBytes 12 0 ++
    packBytes (i.extension.take (2 * pairs))

/-- The answer capsule of an answered item. -/
def answerCapsule (aq : Nat) (i : Item) (a : Answer) : AnswerOut :=
  { aq := aq, slice := i.slice, ctx := i.ctx, gen := i.gen, itemId := i.itemId, arrival := i.arrival, tick := a.tick,
    flags := a.flags, status := 0, answer := a.answer, port := i.port, tx := false }

/-- The AQ an item's answer leaves on. -/
def State.aqOf (s : State) (i : Item) : Nat := ((s.queueOf i.slice i.iq).map (·.pair)).getD 0

/-- A released answer is mirrored to the replica of its flow with its ledger record (R50, R52). -/
def State.mirrorAnswer (s : State) (i : Item) (cause : Nat) (a : Answer) : State :=
  s.tellReplica i.flowKey (.answer i.seq cause (answerCapsule (s.aqOf i) i a) (ledgerRecord i a))

/-- In a group the flow state of a G context is mirrored to the replica (R20, R196). -/
def State.replicated (s : State) (i : Item) : Bool :=
  s.group.grouped && ((s.ctxOf i.ctx).map fun c => c.image.cls == 0).getD false

/-- Return an item's entry, lock and ingress copy when its answer has left, its STATE_PUT is acknowledged or
cancelled, and no firing of it is in a stone (R21, R23). -/
def State.retire (s : State) (seq : Nat) : State :=
  match s.itemOf seq with
  | none => s
  | some i =>
    if i.answer.isNone ∨ !(s.graphDone i) ∨ i.putStage = 1 ∨ (s.replicated i ∧ i.putStage = 2 ∧ !i.replicaAcked)
        ∨ s.hasFiring (.item seq) ∨ i.stage = .done then s
    else
      let s1 := (s.updItem seq fun i => { i with
        stage := .done, lockHeld := false, mortar := 0, drawn := none, work := workEmpty, ended := true }).endFirings (.item seq)
      let s2 := { s1 with items := s1.items.filter fun i => !(i.seq == seq && i.recorded && i.sent) }
      s2.settleAppends.settleUnloads

/-- The arbiter releases the computed result of an item at the present tick (R36); a cause decided by then is of no
effect (R37, R39), but the firing it ended stays ended. -/
def State.releaseResult (s : State) (seq : Nat) : State :=
  match s.itemOf seq with
  | none => s
  | some i =>
    let ans : Answer :=
      { tick := s.now, flags := answerFlags false 0 false i.demoted false i.override_, answer := i.verdict.getD [] }
    let s1 := s.updItem seq fun i => { i with
      answer := some ans, cause := 0, faulted := false, ended := i.ended || i.cause != 0 || i.faulted }
    let s2 := (if i.putStage = 2 then s1.commitPut i else s1).mirrorAnswer i 0 ans
    ((s2.commitWindows i).takeTurns i).settleAppends.retire seq

/-- The arbiter releases the fallback of an item at the present tick with its decided cause, or TIMED_OUT; the
STATE_PUT is cancelled and firings are signalled to end (R38-R40). -/
def State.releaseFallback (s : State) (seq : Nat) : State :=
  match s.itemOf seq with
  | none => s
  | some i =>
    let cause := if i.cause = 0 then 1 else i.cause
    let (ans, inc) :=
      match s.ctxOf i.ctx with
      | some c => fallbackAnswer c.image i
      | none => ([], true)
    let a : Answer := { tick := s.now, flags := answerFlags true cause false i.demoted inc i.override_, answer := ans }
    let s1 := s.updItem seq fun i => { i with
      answer := some a, cause := cause, putStage := if i.putStage = 0 then 0 else 3, windowPuts := [], appends := [],
      faulted := false }
    let s2 := (s1.bump 0x3002 (cause + 1) [] i.slice).updCtx i.ctx fun c => { c with nFallbacks := c.nFallbacks + 1 }
    let s3 := if i.deadline < s.now then s2.bump 0x3002 9 [] i.slice else s2
    (s3.mirrorAnswer i cause a).retire seq

/-! ### Ending a run (R116, R118, R459) -/

/-- The batch of a run that a firing serves (R172). -/
def Firing.batch (f : Firing) : Option Nat := (f.inputs.head?).bind (·.batch)

/-- The END capsule of a RESULT_OUT, the `k`-th of the run's (R459). -/
def endCapsule (r : Run) (status k rq : Nat) : ResultOut :=
  { last := true, rq := rq, slice := r.slice, ctx := r.ctx, gen := r.gen, run := r.num, seq := r.outSeq + k, rows := [],
    rowCourses := 0, status := status, total := r.outRows, tx := false }

/-- The loaded probe contexts of a slice bound to a hash-table identifier: image and operator (R132). -/
def State.probesOf (s : State) (sl id : Nat) : List (Image × Operator) :=
  (s.ctxs.filter fun c => c.slice == sl).flatMap fun c =>
    (c.image.ops.filter fun o => o.code == 0x0A && o.par2 2 == id).map fun o => (c.image, o)

/-- The build row layout that a probe of a published identifier declares (R133). -/
def Image.buildLayout (im : Image) (o : Operator) : List TypeDesc :=
  (((im.layoutRef (nth o.params 8 0) (nth o.params 9 0)).toOption).map Layout.types).getD []

/-- The code that keeps a build from being published: its chain limit beyond a bound probe context's, or a layout or key
that differs from the one it declares (R132). -/
def State.buildFault (s : State) (t : HashTab) : Option Nat :=
  let probes := if t.id = 0 then [] else s.probesOf t.slice t.id
  if probes.any fun p => decide (p.2.par 6 < t.chain) then some 0x038E
  else if probes.any fun p => p.1.buildLayout p.2 != t.layout || p.2.par 7 != t.keyField || p.2.par 1 != t.keyCount then some 0x038C
  else none

/-- The code that keeps a run's builds from being published as it ends. -/
def State.publishFault (s : State) (num : Nat) : Option Nat :=
  ((s.runOf num).map (·.publishes)).bind fun ps => ps.findSome? s.buildFault

/-- A hash table replaced or added by its identifier (R132). -/
def putHash (t : HashTab) (l : List HashTab) : List HashTab :=
  if l.any fun x => x.slice == t.slice && x.id == t.id then
    mapIf (fun x => x.slice == t.slice && x.id == t.id) (fun _ => t) l
  else l ++ [t]

/-- Complete the CONTEXT_RUN of a run. -/
def State.finishRun (s : State) (num code : Nat) (w : Waiting) : State :=
  match w with
  | .run h sl n =>
    if n = num then
      ({ s with host := { s.host with waiting := s.host.waiting.filter fun x => x != w } } : State).finish sl h code num []
    else s
  | _ => s

/-- End a run with a code: 0 commits its appends, any other code commits nothing (R118, R148); END capsules precede
the completion (R459). -/
def State.endRun (s : State) (num code : Nat) : State :=
  match s.runOf num with
  | none => s
  | some r =>
    let ops := match s.ctxOf r.ctx with
      | some c => c.image.ops
      | none => []
    let rqOf := fun (k : Nat) => crsNat ((nth ops (nth r.results k 0) ⟨0, 0, 0, [], 0⟩).params.take 1)
    let s1 := if code = 0 then (s.cleanOwner r.ctx).commitAppends r.slice r.appends else s
    let s2 := { s1 with
      hashTables := if code = 0 then
          r.publishes.foldl (fun l p => putHash p l) s1.hashTables
        else s1.hashTables
      host := { s1.host with results := s1.host.results ++ (List.range r.results.length).map fun k => endCapsule r code k (rqOf k) }
      runs := s1.runs.filter fun x => x.num != num }
    let s3 := s2.endFirings (.run num)
    (s3.host.waiting.foldl (fun (t : State) w => t.finishRun num code w) s3).settleUnloads

/-! ### Errors that end work (R118) -/

/-- The unit in which an error of a work arose: ring, class and index (R502, R506). -/
structure Place where
  ring : Nat
  cls : Nat
  index : Nat
deriving DecidableEq, Repr

/-- The hub, as the place of an error. -/
def hubPlace : Place := ⟨0, 0, 0⟩

/-- A bay, as the place of an error. -/
def bayPlace (b : Nat) : Place := ⟨bayRing b, 2, b⟩

/-- A stone, as the place of an error. -/
def stonePlace (b slot : Nat) : Place := ⟨bayRing b, 3, b * 32 + slot⟩

/-- An error of work enters the ring of its unit and the ring of its slice (R506). -/
def State.recordBoth (s : State) (p : Place) (slice ctx code info : Nat) (cont : Option Nat) : State :=
  (s.occurAt p.ring ⟨s.now, s.unitOf p.cls p.index, code, 1, info, cont⟩).recordSlice slice ctx code info cont

/-- A code that says a cap of R109 was reached: one of BUDGET_EXCEEDED, or SCRATCH. -/
def capCode (code : Nat) : Bool := code == 0x0381 || code == 0x0384

/-- Count a cap reached in its context (R109, R199). -/
def State.countCap (s : State) (ctx : Nat) (b : Bool) : State :=
  if b then s.updCtx ctx fun c => { c with nCaps := c.nCaps + 1 } else s

/-- An error ends an item or a run (R118). The code goes to the rings of its unit and of the slice with the item tag
and the detail (R503, R506), `batch` being the item tag in a run; `cont` is the address of a translation fault (R504). A cap reached is counted in its
context (R199). -/
def State.workErrorAt (s : State) (p : Place) (w : WorkRef) (batch code detail : Nat) (cont : Option Nat) : State :=
  match w with
  | .item seq =>
    match s.itemOf seq with
    | none => s
    | some i =>
      let s1 := s.updItem seq fun i =>
        let j := i.decide (causeOfCode code)
        { j with ended := j.ended || i.answer.isSome }
      let s2 := (s1.endFirings w).recordBoth p i.slice i.ctx code (endInfo seq detail) cont
      (s2.countCap i.ctx (capCode code)).settleAppends.retire seq
  | .run n =>
    match s.runOf n with
    | none => s
    | some r =>
      let s1 := s.recordBoth p r.slice r.ctx code (endInfo batch detail) cont
      (s1.countCap r.ctx (capCode code)).endRun n code

/-- The bay of a work: the home bay of an item; a run has none. -/
def State.placeOf (s : State) : WorkRef → Place
  | .item q => match s.itemOf q with
    | some i => bayPlace i.bay
    | none => hubPlace
  | .run _ => hubPlace

/-- An error of an operator ends its item or run (R118). -/
def State.workError (s : State) (w : WorkRef) (code detail : Nat) : State :=
  s.workErrorAt (s.placeOf w) w 0 code detail none

/-- An error of an operator at a token of a batch. -/
def State.workErrorB (s : State) (w : WorkRef) (batch : Option Nat) (code detail : Nat) : State :=
  s.workErrorAt (s.placeOf w) w (batch.getD 0) code detail none

/-! ### Quoin pairs (R16) and lost lines (R299) -/

/-- A failure of the trial pair ends the trial: the pair on the old image takes over, the image stays verified (R545). -/
def State.endTrial (s : State) : State :=
  ({ s with trust := { s.trust with run := s.trust.prev, stageState := 2, plinthPending := false } } : State).record
    0 8 s.quoin.active 0x0A08 0

/-- A pair is fenced; the standby pair, if one is ready, becomes active (R16, R497, R508). An activation that has not
switched has lost its standby pair and ends; a trial ends under R545. -/
def State.fencePair (s : State) (p : Nat) : State :=
  if s.quoin.fenced.contains p then s
  else
    let take := decide (p = s.quoin.active) && s.quoin.standby
    let s1 : State := { s with quoin :=
      { s.quoin with
        active := if take then 1 - p else s.quoin.active, standby := false, fenced := s.quoin.fenced ++ [p] } }
    let s2 := if s.trust.stageState = 5 ∧ p = s.quoin.active then s1.endTrial
      else if s.trust.stageState = 4 then { s1 with trust := { s1.trust with stageState := 2 } } else s1
    let s3 := s2.recovery 11 0 8 p 0x069A 0 true
    if take then (s3.stick 0 8).startPause else s3

/-- A dirty line is lost: its owning context is unloaded, its items take FAULT and its runs end; a line of firmware
is a fault of the active pair (R299). -/
def State.dirtyLost (s : State) (owner : Nat) : State :=
  match s.ctxOf owner with
  | none => s.fencePair s.quoin.active
  | some c =>
    let s1 := (s.updCtx owner fun c => { c with state := 3 }).recordSlice c.slice owner 0x0601 0 none
    let s2 : State := { s1 with items := mapIf (fun i => i.ctx == owner) (Item.decide 4) s1.items }
    let runs := (s2.runs.filter fun r => r.ctx == owner).map (·.num)
    (runs.foldl (fun (t : State) n => t.endRun n 0x0601) s2).settleUnloads

/-! ### Charges (R109) -/

/-- The bounds that meter a work and how many times: once for an item and for a batch of a run, and once a batch for what
serves the run as a whole (assumption 17: DEDUCED). -/
def State.capsOf (s : State) (w : WorkRef) (batch : Option Nat) : Option (Bounds × Nat) :=
  match w with
  | .item q => do
    let i ← s.itemOf q
    let c ← s.ctxOf i.ctx
    return (c.image.bounds, 1)
  | .run n => do
    let r ← s.runOf n
    let c ← s.ctxOf r.ctx
    return (c.image.bounds, if batch.isSome then 1 else max 1 r.batches.length)

/-- What an item, a batch of a run, or the run outside its batches has been charged. -/
def Work.chargesOf (k : Work) (batch : Option Nat) : Charges :=
  match batch with
  | none => k.charges
  | some b => tgetD b chargesZero k.batchCharges

/-- Set those charges. -/
def Work.setCharges (k : Work) (batch : Option Nat) (c : Charges) : Work :=
  match batch with
  | none => { k with charges := c }
  | some b => { k with batchCharges := tset b c k.batchCharges }

/-- Charge stone cycles (2), searches (3), lines (4), digest bytes (5) or ledger bytes (6): the new charges, or
`none` when the cap would be exceeded (R109, R151). -/
def chargeOf (b : Bounds) (k kind n : Nat) (c : Charges) : Option Charges :=
  match kind with
  | 2 => if b.stoneCycles * k < c.stoneCycles + n then none else some { c with stoneCycles := c.stoneCycles + n }
  | 3 => if b.keySearches * k < c.keySearches + n then none else some { c with keySearches := c.keySearches + n }
  | 4 => if b.hbmLines * k < c.hbmLines + n then none else some { c with hbmLines := c.hbmLines + n }
  | 5 => if b.digestBytes * k < c.digestBytes + n then none else some { c with digestBytes := c.digestBytes + n }
  | _ => if b.ledgerBytes * k < c.ledgerBytes + n then none else some { c with ledgerBytes := c.ledgerBytes + n }

/-- Charge a work, for a batch of it; `none` when the cap would be exceeded. -/
def State.charge (s : State) (w : WorkRef) (batch : Option Nat) (kind n : Nat) : Option State :=
  match s.capsOf w batch, s.workOf w with
  | some (b, k), some wk =>
    match chargeOf b k kind n (wk.chargesOf batch) with
    | some c => some (s.updWork w fun x => x.setCharges batch c)
    | none => none
  | _, _ => some s

end Sys2Proof.Machine
end

