-- ==== Sys2Proof/Machine/Walk.lean ====
section
/-! DEFINITION. Translation (12): spaces, page-table entries, the walk one read at a time, TLBs, the walk cache and the
bound entries of a bay. -/

namespace Sys2Proof.Machine

/-- A space: the firmware space, or a slice and its generation, with its levels and root (R312). -/
structure Space where
  firmware : Bool
  slice : Nat
  gen : Nat
  levels : Nat
  root : Nat
deriving DecidableEq, Repr

/-- The space of a slice at its present generation. -/
def State.sliceSpace (s : State) (sl : Nat) : Space :=
  let x := s.sliceOf sl
  ⟨false, sl, x.gen, x.levels, x.root⟩

/-- The firmware space: 4 levels, rooted at CA 0 (assumption 19: DESIGN CHOICE). -/
def firmwareSpace : Space := ⟨true, 0, 0, 4, 0⟩

/-- The virtual address is within the space (R312). -/
def Space.inRange (p : Space) (va : Nat) : Bool :=
  decide (3 ≤ p.levels) && (if 5 ≤ p.levels then decide (va < 2 ^ 60) else decide (va < 2 ^ (12 + 10 * p.levels)))

/-- The index of a virtual address at a level (R313). -/
def vaIndex (va level : Nat) : Nat := va / 2 ^ (12 + 10 * (level - 1)) % (if level = 5 then 256 else 1024)

/-- The bits of a virtual address above a page of a level (R314, R322). -/
def vaPage (va level : Nat) : Nat := va / 2 ^ (12 + 10 * (level - 1))

/-- The offset within a page of a level. -/
def vaOffset (va level : Nat) : Nat := va % 2 ^ (12 + 10 * (level - 1))

/-! ### Entries (R315, R316) -/

/-- A bit of course 0 of an entry. -/
def pteBit (e : List Course) (k : Nat) : Bool := (nth e 0 0).getLsbD k

/-- FRAME of an entry (R315). -/
def pteFrame (e : List Course) : Nat := crsNat (slice e 1 3)

/-- A valid entry that breaks R316. -/
def pteMalformed (p : Space) (level : Nat) (e : List Course) : Bool :=
  let leaf := pteBit e 10
  let f := pteFrame e
  if !leaf then decide ((nth e 0 0).toNat % 1024 ≠ 0)
  else
    decide (4 ≤ level) ||
    (level == 2 && decide (f % 1024 ≠ 0)) ||
    (level == 3 && decide (f % 2 ^ 20 ≠ 0)) ||
    (!p.firmware && pteBit e 2) ||
    (!p.firmware && decide (regBase ≤ caLocal (f * 4096)))

/-- Who asks for a translation (R319). -/
inductive Asker where
  | stone
  | hod
  | quoin
  | borrowed
deriving DecidableEq, Repr

/-- The permission check of a leaf (R319): 0, or the status. -/
def permission (who : Asker) (store u w : Bool) : Nat :=
  match who with
  | .stone => if !u then 0x0202 else if store && !w then 0x0202 else 0
  | .hod => if store && !w then 0x0202 else 0
  | .borrowed => if store && !w then 0x0202 else 0
  | .quoin => if u then 0x03D1 else 0

/-- The TLB entry of a leaf (R322). A translation installed for a load with D 0 is read-only (R320). -/
def entryOf (p : Space) (va level : Nat) (e : List Course) (store : Bool) : TlbEntry :=
  { firmware := p.firmware, slice := p.slice, gen := p.gen, level := level, vpage := vaPage va level,
    frame := pteFrame e, mtype := fieldOf (nth e 0 0).toNat 9 8, u := pteBit e 7, w := pteBit e 6, x := pteBit e 5,
    d := pteBit e 3 || store, glb := pteBit e 2, lk := pteBit e 1 }

/-- An entry that matches an access (R322). -/
def TlbEntry.covers (t : TlbEntry) (p : Space) (va : Nat) : Bool :=
  t.firmware == p.firmware && (p.firmware || (t.slice == p.slice && t.gen == p.gen)) && t.vpage == vaPage va t.level

/-- The physical address of an access through an entry (R314). -/
def TlbEntry.phys (t : TlbEntry) (va : Nat) : Nat := t.frame * 4096 + vaOffset va t.level

/-- Whether an entry serves an access: a store needs W and a D that is set, else it walks again (R320). -/
def TlbEntry.serves (t : TlbEntry) (store : Bool) : Bool := !store || (t.w && t.d)

/-! ### The walk cache and bound entries of a bay (R323); the hub's walker is number 16 -/

/-- The walker of a core: its bay's, or the hub's. -/
def walkerOf (u : CoreId) : Nat := (coreBay u).getD 16

/-- A walk-cache entry for a step (R318, R323). -/
def State.walkCached (s : State) (b : Nat) (p : Space) (va level : Nat) : Option (List Course) :=
  ((tgetD b [] s.memx.walkCache).find? fun e =>
    e.firmware == p.firmware && e.slice == p.slice && e.gen == p.gen && e.level == level &&
      e.vprefix == vaPage va level).map (·.entry)

/-- Put a non-leaf entry into the walk cache of 1,024 entries; a full cache replaces at random (R323). -/
def State.walkFill (s : State) (b : Nat) (p : Space) (va level : Nat) (e : List Course) : State :=
  let l := tgetD b [] s.memx.walkCache
  let x : WalkEntry := ⟨p.firmware, p.slice, p.gen, level, vaPage va level, e⟩
  let l1 := if l.length < 1024 then l ++ [x] else l.set (s.lfsrOf b % 1024) x
  { s with memx := { s.memx with walkCache := tset b l1 s.memx.walkCache } }

/-- Remove the walk-cache entries of a space on the path of an address (R318, R326). -/
def State.walkPurge (s : State) (b : Nat) (p : Space) (va : Nat) : State :=
  { s with memx := { s.memx with
      walkCache := tupd b [] (fun l => l.filter fun e =>
        !(e.firmware == p.firmware && e.slice == p.slice && e.gen == p.gen && e.vprefix == vaPage va e.level))
        s.memx.walkCache } }

/-- A bound entry for an access (R323). -/
def State.boundFind (s : State) (b : Nat) (p : Space) (va : Nat) : Option TlbEntry :=
  (tgetD b [] s.memx.boundEntries).find? fun t => t.covers p va

/-! ### One step of a walk (R318) -/

/-- What a step of a walk ends in. -/
inductive WalkStep where
  | fault (s : State) (code level : Nat)
  | down (s : State) (table level : Nat)
  | leaf (s : State) (t : TlbEntry)

/-- The table pointer is in the populated HBM or DRAM of the local device (R318). -/
def State.tableOk (s : State) (table : Nat) : Bool := s.isLocal table && s.populated (caLocal table)

/-- One read of a walk at a level: the table pointer is checked, the entry comes from the walk cache or from memory as
one unit, and it descends, faults, or gives the translation with A and D set in memory (R318-R320). An entry at level 1 that
is no leaf is malformed (assumption 102: DEDUCED). -/
def State.walkStep (s : State) (b : Nat) (p : Space) (who : Asker) (store : Bool) (va table level : Nat)
    (obs : ReadObs) : WalkStep :=
  if !(s.tableOk table) then .fault s 0x0204 level
  else
    let at_ := table + 4 * vaIndex va level
    let cached := s.walkCached b p va level
    let bad := cached.isNone && (obs == .uncorrectable || s.poisoned at_)
    if bad then
      let s1 := if s.poisoned at_ then s.bump 0x6001 4 [] p.slice else (s.bump 0x6001 6 [] 0).setPoison at_
      .fault (s1.walkPurge b p va) 0x0205 level
    else
      let e := cached.getD (s.memLoad at_ 4)
      let s1 := if cached.isSome then s.bump 0x6200 3 [b] 0 else s.bump 0x6200 2 [b] 0
      let s2 := if cached.isNone && obs == .corrected then (s1.bump 0x6001 5 [] 0).stick 0 0 else s1
      if !(pteBit e 11) then .fault s2 0x0201 level
      else if pteMalformed p level e then .fault s2 0x0206 level
      else if pteBit e 10 then
        let code := permission who store (pteBit e 7) (pteBit e 6)
        if code ≠ 0 then .fault s2 code level
        else
          let needA := !(pteBit e 4)
          let needD := store && !(pteBit e 3)
          let c0 := (nth e 0 0) ||| (if needA then 0x010 else 0) ||| (if needD then 0x008 else 0)
          let s3 := if needA || needD then s2.memPut at_ [c0] else s2
          .leaf s3 (entryOf p va level e store)
      else if level ≤ 1 then .fault s2 0x0206 level
      else
        let s3 := if cached.isSome then s2 else s2.walkFill b p va level e
        .down s3 (pteFrame e * 4096) (level - 1)

/-- The whole of a walk from a table and level, with clean reads. -/
def State.walkRun : Nat → State → Nat → Space → Asker → Bool → Nat → Nat → Nat → WalkStep
  | 0, s, _, _, _, _, _, _, level => .fault s 0x0206 level
  | k + 1, s, b, p, who, store, va, table, level =>
    match s.walkStep b p who store va table level .clean with
    | .down t table' level' => State.walkRun k t b p who store va table' level'
    | r => r

/-- Translate at a walker without a TLB: bound entries, then a walk (R323, R324). -/
def State.translate (s : State) (b : Nat) (p : Space) (who : Asker) (store : Bool) (va : Nat) : WalkStep :=
  if !(p.inRange va) then .fault s 0x0203 p.levels
  else
    match s.boundFind b p va with
    | some t =>
      let code := permission who store t.u t.w
      if code ≠ 0 then .fault s code t.level else .leaf s t
    | none => State.walkRun 6 s b p who store va p.root p.levels

/-! ### The TLB of a core (R322) -/

/-- The TLB or locked entry of a core for an access. -/
def Core.tlbFind (c : Core) (p : Space) (va : Nat) (store : Bool) : Option TlbEntry :=
  match c.locked.find? fun t => t.covers p va && t.serves store with
  | some t => some t
  | none => (c.tlb.filterMap id).find? fun t => t.covers p va && t.serves store

/-- A fill takes the lowest invalid entry, or the one the random register names (R322). -/
def tlbFill (rnd : Nat) (t : TlbEntry) (l : List (Option TlbEntry)) : List (Option TlbEntry) :=
  match l.findIdx? Option.isNone with
  | some k => l.set k (some t)
  | none => l.set (rnd % 64) (some t)

end Sys2Proof.Machine
end

