-- ==== Sys2Proof/Machine/Hod.lean ====
section
/-! DEFINITION. Hod channels (13): registers, the checks of GO, one line or block of a transfer at a time, ordered
stops and disables. -/

namespace Sys2Proof.Machine

/-! ### Registers (R333-R335) -/

def hodReset : HodCh where
  src := 0
  dst := 0
  cnt := 0
  mode := 0
  en := false
  status := 0
  space := 0
  err := 0
  result := 0
  pattern := List.replicate 8 0
  total := 0
  srcTr := none
  dstTr := none

/-- A channel of a bay. -/
def State.hodOf (s : State) (b c : Nat) : HodCh := tgetD (b, c) hodReset s.hod.ch

/-- Put a channel. -/
def State.setHod (s : State) (b c : Nat) (h : HodCh) : State :=
  { s with hod := { s.hod with ch := tset (b, c) h s.hod.ch } }

/-- Fields of HOD_MODE (R334). -/
def HodCh.op (h : HodCh) : Nat := fieldOf h.mode 23 21
def HodCh.srcKind (h : HodCh) : Nat := fieldOf h.mode 20 19
def HodCh.dstKind (h : HodCh) : Nat := fieldOf h.mode 18 17
def HodCh.endPad (h : HodCh) : Nat := fieldOf h.mode 16 15
def HodCh.fillLen (h : HodCh) : Nat := fieldOf h.mode 14 12 + 1
def HodCh.xform (h : HodCh) : Nat := fieldOf h.mode 11 10
def HodCh.stride (h : HodCh) : Nat := fieldOf h.mode 9 4
def HodCh.blk (h : HodCh) : Nat := (fieldOf h.mode 3 0 + 1) * 4096

/-- HOD_SPACE names the firmware space (R333). -/
def HodCh.firmware (h : HodCh) : Bool := fieldOf h.space 22 22 == 1

/-- The slice of HOD_SPACE (R233); the firmware's work counts for the device. -/
def HodCh.slice (h : HodCh) : Nat := if h.firmware then 0 else fieldOf h.space 21 12

/-- The generation of HOD_SPACE (R233). -/
def HodCh.gen (h : HodCh) : Nat := fieldOf h.space 11 0

/-- The space of the channel's virtual endpoints (R336). -/
def State.hodSpace (s : State) (h : HodCh) : Space :=
  if h.firmware then firmwareSpace else { s.sliceSpace h.slice with gen := h.gen }

/-- An endpoint is host memory (R336). -/
def HodCh.host (h : HodCh) : Bool := (h.op != 1 && h.srcKind == 2) || h.dstKind == 2

/-! ### GO (R336, R337) -/

/-- The mode check of GO: 0, or the code it is refused with (R337). -/
def hodCheck (h : HodCh) : Nat :=
  let sk := h.srcKind
  let dk := h.dstKind
  if 5 ≤ h.op ∨ sk = 3 ∨ dk = 3 ∨ h.endPad = 3 then 0x0701
  else if (h.op = 1 ∧ sk ≠ 0) ∨ (h.op ≠ 1 ∧ sk = 2 ∧ dk = 2) ∨ (3 ≤ h.op ∧ (sk = 2 ∨ dk = 2)) then 0x0701
  else if (h.op ≠ 1 ∧ sk = 0 ∧ 2 ^ 48 ≤ h.src) ∨ (dk = 0 ∧ 2 ^ 48 ≤ h.dst) then 0x0701
  else if h.endPad ≠ 0 ∧ !h.host then 0x0701
  else if h.op = 3 ∧ (h.xform = 3 ∨ (h.xform = 0 ∧ h.stride ≠ 0) ∨ (h.xform ≠ 0 ∧ h.stride = 0)) then 0x0701
  else if h.host ∧ h.cnt % 2 = 1 then 0x0702
  else if h.op = 0 ∧ sk = dk ∧ h.src < h.dst + h.cnt ∧ h.dst < h.src + h.cnt then 0x0703
  else 0

/-- A code of a channel enters the ring of its bay and of the slice of HOD_SPACE, or the hub's ring for the firmware
space (R357, R506). -/
def State.hodRecord (s : State) (b c : Nat) (h : HodCh) (code detail : Nat) (cont : Option Nat) : State :=
  let info := if code / 256 = 7 then h.cnt % 2 ^ 24 * 4096 else detail
  let s1 := s.occurAt (bayRing b) ⟨s.now, s.unitOf 9 (b + c * 16), code, 1, info, cont⟩
  if h.firmware then s1.occurAt 0 ⟨s.now, s.unitOf 9 (b + c * 16), code, 1, info, cont⟩
  else s1.recordSlice h.slice 0 code info cont

/-- The physical pieces of a range of an endpoint, page by page; a page without a translation has none. -/
def State.hodPages (s : State) (b : Nat) (h : HodCh) (kind : Nat) (store : Bool) : Nat → Nat → Nat → List (Nat × Nat)
  | 0, _, _ => []
  | k + 1, a, n =>
    if n = 0 ∨ kind = 2 then []
    else if kind = 0 then [(a, n)]
    else
      let m := min n (4096 - a % 4096)
      let here := match s.translate b (s.hodSpace h) .hod store a with
        | .leaf _ t => [(t.phys a, m)]
        | _ => []
      here ++ State.hodPages s b h kind store k (a + m) (n - m)

/-- Pages a range of `n` courses can touch. -/
def pagesOf (n : Nat) : Nat := n / 4096 + 2

/-- Clean the source range on every bay before a transfer starts (R294). -/
def State.hodClean (s : State) (b : Nat) (h : HodCh) : State :=
  if h.op = 1 then s
  else (s.hodPages b h h.srcKind false (pagesOf h.cnt) h.src h.cnt).foldl (fun (t : State) p => t.cleanRange p.1 p.2) s

/-- Invalidate the destination range a transfer has written on every bay before it completes (R294). -/
def State.hodInvalidate (s : State) (b : Nat) (h : HodCh) : State :=
  let n := if 3 ≤ h.op then h.result else h.total - h.cnt
  if h.op = 2 then s
  else (s.hodPages b h h.dstKind true (pagesOf n) (h.dst - n) n).foldl
    (fun (t : State) p => t.invalidateRange p.1 p.2) s

/-- The lines at the edges of a destination range are cleaned before the transfer starts, so that the invalidation at
its end keeps the courses outside the range (R294, R305). -/
def State.hodEdges (s : State) (b : Nat) (h : HodCh) : State :=
  if 2 ≤ h.op then s
  else (s.hodPages b h h.dstKind true (pagesOf h.cnt) h.dst h.cnt).foldl
    (fun (t : State) p => (t.cleanRange p.1 1).cleanRange (p.1 + p.2 - 1) 1) s

/-- GO with EN 1 (R337, R341). -/
def State.hodGo (s : State) (b c : Nat) : State :=
  let h := s.hodOf b c
  if h.status = 1 then s
  else
    let code := hodCheck h
    if code ≠ 0 then (s.setHod b c { h with status := 6, err := code }).hodRecord b c h code 0 none
    else if h.cnt = 0 then s.setHod b c { h with status := 2, result := 0 }
    else
      ((s.setHod b c { h with status := 1, result := 0, total := h.cnt, srcTr := none, dstTr := none }).hodClean b h).hodEdges b h

/-! ### Stops (R342-R344) -/

/-- The pattern rotated by `k` places (R339). -/
def rotatePattern (len k : Nat) (p : List Course) : List Course :=
  let q := p.take len
  q.drop (k % len) ++ q.take (k % len) ++ p.drop len

/-- An ordered stop (R342). -/
def State.hodStop (s : State) (b c : Nat) (code detail : Nat) (cont : Option Nat) : State :=
  let h := s.hodOf b c
  let h' := { h with
    status := 4
    err := code
    pattern := if h.op = 1 then rotatePattern h.fillLen (h.total - h.cnt) h.pattern else h.pattern }
  let s0 := if code / 256 = 2 then s.bump 0x6200 4 [] h.slice else s
  (((s0.setHod b c h').hodInvalidate b h').bump 0x6300 3 [b] h.slice).hodRecord b c h code detail cont

/-- A running channel is disabled: HOD_CNT, HOD_SRC, HOD_DST and HOD_RESULT are undefined (R343). -/
def State.hodDisable (s : State) (b c : Nat) (en : Bool) (code : Nat) : State :=
  let h := s.hodOf b c
  let v := fun (k w : Nat) => Config.freeValue (s.free + k) % 2 ^ w
  let h' := { h with
    en := en, status := 5, err := code, src := v 0 60, dst := v 1 60, cnt := v 2 32, result := v 3 32 }
  ({ s.setHod b c h' with free := s.free + 4 } : State).bump 0x6300 4 [b] h.slice

/-- The generation of a slice rises: its running channels are disabled with GENERATION_RETIRED (R344, R402). -/
def State.hodRetire (s : State) (sl : Nat) : State :=
  (s.hod.ch.filter fun e => e.2.status == 1 && !e.2.firmware && e.2.slice == sl).foldl (fun (t : State) e =>
    (t.hodDisable e.1.1 e.1.2 e.2.en 0x090C).hodRecord e.1.1 e.1.2 e.2 0x090C 0 none) s

/-- A store to HOD_CTL (R335, R337, R343). -/
def State.hodCtl (s : State) (b c : Nat) (v : Course) : State :=
  let h := s.hodOf b c
  if v.getLsbD 11 = false then
    (if h.status = 1 then (s.hodDisable b c false 0x0705).hodRecord b c h 0x0705 0 none else s.setHod b c { h with en := false })
  else
    let s1 := s.setHod b c { h with en := true }
    if v.getLsbD 10 then s1.hodGo b c else s1

/-! ### Access to an endpoint -/

/-- A fault of an access: the state it leaves, its code, and the detail and address of a translation fault. -/
structure HodErr where
  s : State
  code : Nat
  detail : Nat
  cont : Option Nat

/-- The physical address of a course of an endpoint, with the channel's kept translation (R324). -/
def State.hodPhys (s : State) (b c kind : Nat) (dst store : Bool) (a : Nat) : Except HodErr (State × Nat) :=
  if kind = 0 then .ok (s, a)
  else
    let h := s.hodOf b c
    let p := s.hodSpace h
    let walk : Except HodErr (State × Nat) :=
      match s.translate b p .hod store a with
      | .leaf t e =>
        let h' := t.hodOf b c
        .ok (t.setHod b c (if dst then { h' with dstTr := some e } else { h' with srcTr := some e }), e.phys a)
      | .fault t code level => .error ⟨t, code, level * 512, some a⟩
      | .down t _ level => .error ⟨t, 0x0206, level * 512, some a⟩
    match if dst then h.dstTr else h.srcTr with
    | some e => if e.covers p a && e.serves store then .ok (s, e.phys a) else walk
    | none => walk

/-- Courses of one line at a physical address (R282, R300, R301); another member's memory reads free values. -/
def State.hodLoad (s : State) (sl ca n : Nat) (obs : MemObs) : Except HodErr (State × List Course) :=
  if s.isLocal ca && s.populated (caLocal ca) then
    match s.mediumRead sl (lineOf ca) obs with
    | .error (t, code) => .error ⟨t, code, 0, none⟩
    | .ok t => .ok (t, t.memLoad ca n)
  else if s.isMember ca && decide (caLocal ca < regBase) then .ok (s.advanceFree, natCrs n (s.freeBits (12 * n)))
  else .error ⟨s, 0x0604, 0, none⟩

/-- Write courses of one line at a physical address (R282, R300). -/
def State.hodStore (s : State) (sl ca : Nat) (cs : List Course) : Except HodErr State :=
  if s.isLocal ca && s.populated (caLocal ca) then
    (if s.poisoned ca ∧ !(caLocal ca % 128 = 0 ∧ 128 ≤ cs.length) then
      .error ⟨s.bump 0x6001 4 [] sl, 0x0602, 0, none⟩
    else .ok (s.memStore ca cs))
  else if s.isMember ca && decide (caLocal ca < regBase) then .ok s
  else .error ⟨s, 0x0604, 0, none⟩

/-- The pieces of a range that lie in one line each. -/
def linePieces : Nat → Nat → Nat → List (Nat × Nat)
  | 0, _, _ => []
  | k + 1, a, n =>
    if n = 0 then []
    else
      let m := min n (128 - a % 128)
      (a, m) :: linePieces k (a + m) (n - m)

/-- Courses of a physical or virtual endpoint. -/
def State.hodReadCa (b c kind : Nat) (dst : Bool) (obs : MemObs) :
    List (Nat × Nat) → State → Except HodErr (State × List Course)
  | [], s => .ok (s, [])
  | (a, n) :: t, s =>
    match s.hodPhys b c kind dst false a with
    | .error e => .error e
    | .ok (s1, ca) =>
      match s1.hodLoad (s.hodOf b c).slice ca n obs with
      | .error e => .error e
      | .ok (s2, xs) =>
        match State.hodReadCa b c kind dst .clean t s2 with
        | .error e => .error e
        | .ok (s3, ys) => .ok (s3, xs ++ ys)

/-- Write courses to a physical or virtual endpoint. -/
def State.hodWriteCa (b c kind : Nat) : List (Nat × Nat) → List Course → State → Except HodErr State
  | [], _, s => .ok s
  | (a, n) :: t, cs, s =>
    match s.hodPhys b c kind true true a with
    | .error e => .error e
    | .ok (s1, ca) =>
      match s1.hodStore (s.hodOf b c).slice ca (cs.take n) with
      | .error e => .error e
      | .ok s2 => State.hodWriteCa b c kind t (cs.drop n) s2

/-- Bytes of a host buffer for `n` courses; the last group of the transfer is trimmed by END_PAD (R346). -/
def hostBytes (h : HodCh) (n : Nat) : Nat := n * 3 / 2 - (if n = h.cnt then h.endPad else 0)

/-- Read `n` courses of an endpoint (R346). -/
def State.hodRead (s : State) (b c : Nat) (dst : Bool) (n : Nat) (obs : MemObs) :
    Except HodErr (State × List Course) :=
  let h := s.hodOf b c
  let kind := if dst then h.dstKind else h.srcKind
  let a := if dst then h.dst else h.src
  if kind = 2 then
    let bs := (List.range (hostBytes h n)).map fun k => tgetD (a + k) (Config.hostByte (a + k)) s.hod.hostMem
    .ok (s, fitList n 0 (unpackBytes bs))
  else State.hodReadCa b c kind dst obs (linePieces (n / 128 + 2) a n) s

/-- Write courses to the destination (R346). -/
def State.hodWrite (s : State) (b c : Nat) (cs : List Course) : Except HodErr State :=
  let h := s.hodOf b c
  if h.dstKind = 2 then
    let bs := (packBytes cs).take (hostBytes h cs.length)
    let m := (List.range bs.length).foldl (fun m k => tset (h.dst + k) (nth bs k 0) m) s.hod.hostMem
    .ok { s with hod := { s.hod with hostMem := m } }
  else State.hodWriteCa b c h.dstKind (linePieces (cs.length / 128 + 2) h.dst cs.length) cs s

/-- An endpoint moved on by `n` courses. -/
def hodNext (kind a n : Nat) : Nat := if kind = 2 then a + n * 3 / 2 else a + n

/-- The channel moved on: `n` source courses, `m` destination courses. -/
def HodCh.advance (h : HodCh) (n m : Nat) : HodCh :=
  { h with
    src := if h.op = 1 then h.src else hodNext h.srcKind h.src n
    dst := hodNext h.dstKind h.dst m
    cnt := h.cnt - n
    result := if 3 ≤ h.op then h.result + m else h.result }

/-- The courses one line of a transfer covers: up to the end of the nearer line, an even number unless it ends the
transfer (R342). -/
def HodCh.chunk (h : HodCh) : Nat :=
  let room := fun (kind a : Nat) => if kind = 2 then 128 else 128 - a % 128
  let n := min h.cnt (min (if h.op = 1 then 128 else room h.srcKind h.src) (room h.dstKind h.dst))
  if n = h.cnt ∨ n % 2 = 0 then n else if n = 1 then min 2 h.cnt else n - 1

/-- End a step of a channel: DONE when nothing remains (R338). -/
def State.hodSettle (s : State) (b c : Nat) : State :=
  let h := s.hodOf b c
  if h.cnt = 0 then
    let h' := { h with status := 2 }
    (s.setHod b c h').hodInvalidate b h'
  else s

/-- A step that moved `n` source and `m` destination courses. -/
def State.hodMoved (s : State) (b c n m lines : Nat) : State :=
  let h := s.hodOf b c
  ((s.setHod b c (h.advance n m)).bumpBy 0x6300 2 [b] h.slice u64Max lines).hodSettle b c

/-- The index of the first course in which two lists differ. -/
def firstDiff (xs ys : List Course) : Option Nat := (List.range xs.length).find? fun k => nth xs k 0 != nth ys k 0

/-- Stop in order with a fault (R342). -/
def HodErr.stop (e : HodErr) (b c : Nat) : State := e.s.hodStop b c e.code e.detail e.cont

/-- Courses of the destination that lines are counted for. -/
def linesOf (n : Nat) : Nat := ceilDiv n 128

/-- One line of COPY or FILL (R338, R339). Nothing of a line that faults is written (R342). -/
def State.hodMoveLine (s : State) (b c : Nat) (obs : MemObs) : State :=
  let h := s.hodOf b c
  let n := h.chunk
  let got : Except HodErr (State × List Course) :=
    if h.op = 1 then .ok (s, (List.range n).map fun k => nth h.pattern ((h.total - h.cnt + k) % h.fillLen) 0)
    else s.hodRead b c false n obs
  match got with
  | .error e => e.stop b c
  | .ok (s1, cs) =>
    match s1.hodWrite b c cs with
    | .error e => ({ e with s := { e.s with mem := s1.mem } } : HodErr).stop b c
    | .ok s2 => s2.hodMoved b c n n 1

/-- One line of COMPARE (R340). -/
def State.hodCompareLine (s : State) (b c : Nat) (obs : MemObs) : State :=
  let h := s.hodOf b c
  let n := h.chunk
  match s.hodRead b c false n obs with
  | .error e => e.stop b c
  | .ok (s1, xs) =>
    match s1.hodRead b c true n .clean with
    | .error e => e.stop b c
    | .ok (s2, ys) =>
      match firstDiff xs ys with
      | some k =>
        let g := s2.hodOf b c
        s2.setHod b c { g.advance k k with status := 3, result := g.total - g.cnt + k }
      | none => s2.hodMoved b c n n 0

/-- One block of PACK (R353). -/
def State.hodPackBlock (s : State) (b c : Nat) (obs : MemObs) : State :=
  let h := s.hodOf b c
  let n := min h.cnt h.blk
  match s.hodRead b c false n obs with
  | .error e => e.stop b c
  | .ok (s1, cs) =>
    let out := settPack h.xform h.stride cs
    match s1.hodWrite b c out with
    | .error e => e.stop b c
    | .ok s2 =>
      let s3 := s2.bump 0x6301 1 [b] 0
      let s4 := if (nth out 1 0).getLsbD 11 then s3.bump 0x6301 2 [b] 0 else s3
      s4.hodMoved b c n out.length (linesOf out.length)

/-- A Sett error of a block stops the channel in order at that block (R354). -/
def State.settError (s : State) (b c code : Nat) : State :=
  (s.bump 0x6301 4 [b] (s.hodOf b c).slice).hodStop b c code 0 none

/-- One block of UNPACK (R354): the header is checked before the payload is read (R350). -/
def State.hodUnpackBlock (s : State) (b c : Nat) (obs : MemObs) : State :=
  let h := s.hodOf b c
  match s.hodRead b c false (min 8 h.cnt) obs with
  | .error e => e.stop b c
  | .ok (s1, hd) =>
    match settHeader hd h.cnt with
    | .error code => s1.settError b c code
    | .ok hdr =>
      match s1.hodRead b c false hdr.size .clean with
      | .error e => e.stop b c
      | .ok (s2, cs) =>
        match settHeader cs h.cnt with
        | .error code => s2.settError b c code
        | .ok _ =>
          match settDecode hdr cs with
          | .error code => s2.settError b c code
          | .ok u =>
            match s2.hodWrite b c u with
            | .error e => e.stop b c
            | .ok s3 => (s3.bump 0x6301 3 [b] 0).hodMoved b c hdr.size u.length (linesOf u.length)

/-- One line or block of a running channel (R345). -/
def State.hodAdvance (s : State) (b c : Nat) (obs : MemObs) : State :=
  match (s.hodOf b c).op with
  | 2 => s.hodCompareLine b c obs
  | 3 => s.hodPackBlock b c obs
  | 4 => s.hodUnpackBlock b c obs
  | _ => s.hodMoveLine b c obs

/-- A Hod step is of a channel that exists and runs (R332). -/
def State.hodRunning (s : State) (b c : Nat) : Bool := decide (b < 16 ∧ c < 32) && (s.hodOf b c).status == 1

/-! ### Meanings -/

/-- GO with OP `op`: a store of EN and GO to HOD_CTL (R335, R337). -/
def State.hodStart (s : State) (b c op : Nat) : State :=
  if b < 16 ∧ c < 32 ∧ (s.hodOf b c).op = op then s.hodCtl b c 0xC00 else s

/-- HOD_COPY (R338). -/
def execHodCopy (bay ch : Nat) (s : State) : Out := .next (s.hodStart bay ch 0)

/-- HOD_FILL (R339). -/
def execHodFill (bay ch : Nat) (s : State) : Out := .next (s.hodStart bay ch 1)

/-- HOD_COMPARE (R340). -/
def execHodCompare (bay ch : Nat) (s : State) : Out := .next (s.hodStart bay ch 2)

/-- HOD_PACK (R353). -/
def execHodPack (bay ch : Nat) (s : State) : Out := .next (s.hodStart bay ch 3)

/-- HOD_UNPACK (R354). -/
def execHodUnpack (bay ch : Nat) (s : State) : Out := .next (s.hodStart bay ch 4)

/-- HOD_DISABLE (R343): a store to HOD_CTL that clears EN. -/
def execHodDisable (bay ch : Nat) (s : State) : Out := .next (if bay < 16 ∧ ch < 32 then s.hodCtl bay ch 0 else s)

/-- HOD_LINE_DONE (R345): a line or block completes. `fault` is a fault the model does not find itself: an uncorrectable
read, HOD_HOST_FAULT on a host endpoint, or a transfer that failed after its replays (R342). -/
def execHodLineDone (bay ch : Nat) (fault : Option Nat) (s : State) : Out :=
  .next <|
    if !(s.hodRunning bay ch) then s
    else
      match fault with
      | none => s.hodAdvance bay ch .clean
      | some code =>
        if code = 0x0603 then s.hodAdvance bay ch .uncorrectable
        else if (code = 0x0704 ∧ (s.hodOf bay ch).host) ∨ code = 0x0686 then s.hodStop bay ch code 0 none
        else s

/-- A compressor of a bay fails a self-verification: it is counted, and fenced at the third failure (R355, R497). -/
def State.settFail (s : State) (b : Nat) : State :=
  let n := tgetD b 0 s.hod.settFails + 1
  let s1 := { s with hod := { s.hod with settFails := tset b n s.hod.settFails } }.bump 0x6301 5 [b] 0
  if n = 3 ∧ !(s1.hod.settFenced.contains b) then
    let s2 := { s1 with hod := { s1.hod with settFenced := s1.hod.settFenced ++ [b] } }
    ((s2.bump 0x6301 6 [b] 0).recovery 10 (bayRing b) 2 b 0x0716 0 false).stick (bayRing b) 3
  else s1

/-- SETT_VERIFY_HANDOFF (R355): a block of a running PACK fails its verification on the compressor of its bay and goes
to another awake bay's; a mismatch there stops the channel in order. -/
def execSettVerifyHandoff (bay ch other : Nat) (pass : Bool) (s : State) : Out :=
  .next <|
    if !(s.hodRunning bay ch) ∨ (s.hodOf bay ch).op ≠ 3 ∨ other = bay ∨ !(s.bayAwake other)
        ∨ s.hod.settFenced.contains other then s
    else
      let s1 := s.settFail bay
      if pass then s1.hodPackBlock bay ch .clean else (s1.settFail other).hodStop bay ch 0x0716 0 none

end Sys2Proof.Machine
end

