-- ==== Sys2Proof/Machine/MemEvents.lean ====
section
/-! DEFINITION. Events of the memory system (11) and of translation (12): fills, write-backs, acknowledgements, the patrol,
bound pairs, the range engines, and invalidates as they take effect. -/

namespace Sys2Proof.Machine

/-! ### Range engines (R305-R309) -/

def rangeReset : RangeEng := { queue := [], error := false, lastOp := 0 }

/-- The range engine of a bay. -/
def State.rangeOf (s : State) (b : Nat) : RangeEng := tgetD b rangeReset s.memx.range

/-- Change a bay's range engine. -/
def State.updRange (s : State) (b : Nat) (f : RangeEng → RangeEng) : State :=
  { s with memx := { s.memx with range := tupd b rangeReset f s.memx.range } }

/-- RANGE_STATUS of a bay (R309). -/
def State.rangeStatus (s : State) (b : Nat) : Course :=
  let r := s.rangeOf b
  BitVec.ofNat 12 ((if r.queue.isEmpty then 0 else 2048) + (if r.error then 1024 else 0) + r.queue.length % 8 * 16 + r.lastOp % 8)

/-- Lines of a range. -/
def RangeOp.lines (o : RangeOp) : Nat := if o.count = 0 then 0 else (o.start + o.count - 1) / 128 - o.start / 128 + 1

/-- Visits of a range: its lines, or every set when it has 4,096 lines or more (R307). -/
def RangeOp.visits (o : RangeOp) : Nat := if o.lines < 4096 then o.lines else 4096

/-- Whether a line is covered by visit `k` of an operation (R307). -/
def RangeOp.visited (o : RangeOp) (k addr : Nat) : Bool :=
  decide (addr < o.start + o.count ∧ o.start < addr + 128) &&
    (if o.lines < 4096 then addr == lineOf o.start + 128 * k else l2Set addr == k)

/-- A line lies wholly in a range. -/
def RangeOp.whole (o : RangeOp) (addr : Nat) : Bool := decide (o.start ≤ addr ∧ addr + 128 ≤ o.start + o.count)

/-- Apply an operation to the lines of a bay that satisfy `p` (R305): a line only partly in range is cleaned before it is
discarded. -/
def State.rangeApply (s : State) (b : Nat) (o : RangeOp) (p : Line → Bool) : State :=
  if o.op = 0x10 then s.cleanBay b p
  else if o.op = 0x12 then (s.cleanBay b p).discardBay b p
  else (s.cleanBay b fun l => p l && !(o.whole l.addr)).discardBay b p

/-- RANGE_SET_VISIT (R307): the engine visits the next line or set; a line whose fill is outstanding is covered and takes
the operation when its fill completes. -/
def execRangeSetVisit (bay : Nat) (s : State) : Out :=
  .next <|
    match (s.rangeOf bay).queue with
    | [] => s
    | o :: _ =>
      if o.visits ≤ o.at_ then s
      else
        let filling := fun (a : Nat) => s.memx.fills.any fun f => f.bay == bay && f.line == a
        let s1 := s.rangeApply bay o fun l => o.visited o.at_ l.addr && !(filling l.addr)
        let s2 := { s1 with memx := { s1.memx with
          fills := mapIf (fun f => f.bay == bay && o.visited o.at_ f.line) (fun f => { f with covered := some o.id })
            s1.memx.fills } }
        s2.updRange bay fun r => { r with
          queue := mapIf (fun x => x.id == o.id) (fun x => { x with at_ := x.at_ + 1 }) r.queue }

/-- Write zero over a range (R305, R306). -/
def State.zeroRange (s : State) (o : RangeOp) : State :=
  (linePieces (o.count / 128 + 2) o.start o.count).foldl
    (fun (t : State) p => t.memStore p.1 (List.replicate p.2 0)) s

/-- Every bay that holds an operation has finished its visits. -/
def State.rangeVisited (s : State) (id : Nat) : Bool :=
  s.memx.range.all fun e => e.2.queue.all fun o => o.id != id || decide (o.visits ≤ o.at_)

/-- RANGE_ZERO_WRITE (R306): once every bay in scope has visited, the hub writes zero over the range, once. -/
def execRangeZeroWrite (bay : Nat) (s : State) : Out :=
  .next <|
    match (s.rangeOf bay).queue with
    | [] => s
    | o :: _ =>
      if o.op ≠ 0x13 ∨ s.memx.zeroDone.contains o.id ∨ !(s.rangeVisited o.id) then s
      else
        let s1 := s.zeroRange o
        { s1 with memx := { s1.memx with zeroDone := o.id :: s1.memx.zeroDone } }

/-- RANGE_OP_DONE (R307): every visit, covered fill and write of the head operation is complete. -/
def execRangeOpDone (bay : Nat) (s : State) : Out :=
  .next <|
    match (s.rangeOf bay).queue with
    | [] => s
    | o :: t =>
      if o.at_ < o.visits ∨ (s.memx.fills.any fun f => f.bay == bay && f.covered == some o.id)
          ∨ (s.memx.victims.any fun v => v.1 == bay && decide (v.2 < o.start + o.count ∧ o.start < v.2 + 128))
          ∨ (o.op = 0x13 ∧ !(s.memx.zeroDone.contains o.id)) then s
      else s.updRange bay fun r => { r with queue := t, lastOp := o.op - 0x10 + 1 }

/-- A range leaves the populated part of one window of the local device (R308). -/
def State.rangeOutside (s : State) (start n : Nat) : Bool :=
  let la := caLocal start
  let last := la + n - 1
  !(s.isLocal start) || !(s.populated la) || !(s.populated last) || decide (la < hbmSize) != decide (last < hbmSize)

/-- Queue a range operation on bays (R306, R308). A range outside is refused: ERROR is set and the code recorded. -/
def State.rangeQueue (s : State) (bays : List Nat) (op start n : Nat) : State :=
  if n = 0 then s
  else if s.rangeOutside start n then
    (bays.foldl (fun (t : State) b => t.updRange b fun r => { r with error := true }) s).record 0 0 0 0x0606 0
  else
    let o : RangeOp := ⟨op, start, n, 0, s.memx.nextRange⟩
    let s1 := { s with memx := { s.memx with nextRange := s.memx.nextRange + 1 } }
    bays.foldl (fun (t : State) b => t.updRange b fun r => { r with queue := r.queue ++ [o] }) s1

/-! ### Fills (R295, R298-R301, R307) -/

/-- Apply to a completed fill the operation that covers it (R307). -/
def State.coverDone (s : State) (f : Fill) : State :=
  match f.covered with
  | none => s
  | some id =>
    match (s.rangeOf f.bay).queue.find? fun o => o.id == id with
    | some o => s.rangeApply f.bay o fun l => l.addr == f.line
    | none => s

/-- The last sector of a fill has arrived. A prefetch puts its line into L2. -/
def State.fillDone (s : State) (f : Fill) : State :=
  let s1 := { s with memx := { s.memx with
    fills := s.memx.fills.filter fun x => !(x.bay == f.bay && x.line == f.line) } }
  let s2 := if f.prefetch ∧ (s1.l2Find f.bay f.line).isNone then
      s1.l2Install f.bay f.line (s1.memLoad f.line 128) false 4096 (s1.wayMask f.slice)
    else s1
  s2.coverDone f

/-- A line is in service of memory: its read is of a populated, unpoisoned line (R281, R300). -/
def State.readable (s : State) (la : Nat) : Bool := s.populated (caLocal la) && !(s.poisoned la)

/-- An uncorrectable error of the medium poisons the line and is counted; the hub's ring records it (R301, R508). -/
def State.mediumLost (s : State) (la : Nat) : State :=
  let u := if caLocal la < hbmSize then (5, pchOf (caLocal la / 4096)) else (6, (caLocal la - dramBase) / 4096 % 8)
  ((s.setPoison la).bump 0x6001 6 [] 0).record 0 u.1 u.2 0x0603 0

/-- A corrected error of the medium (R301, R508). -/
def State.mediumCorrected (s : State) : State := (s.bump 0x6001 5 [] 0).stick 0 0

/-- CACHE_FILL_SECTOR (R295): the next sector of an outstanding fill arrives. An uncorrectable error ends the fill and
poisons the line (R301); a fill of a victim's own line waits for the victim's acknowledgement (R297). -/
def execCacheFillSector (bay line : Nat) (obs : ReadObs) (s : State) : Out :=
  .next <|
    match s.memx.fills.find? fun f => f.bay == bay && f.line == line with
    | none => s
    | some f =>
      if s.memx.victims.contains (bay, line) ∨ !(s.memUp line) then s
      else if obs = .uncorrectable ∨ (f.prefetch ∧ !(s.readable line)) then
        let s1 := if obs = .uncorrectable then s.mediumLost line else s
        let s2 := s1.setL2 bay ((s1.l2Lines bay).filter fun l => l.addr != line || l.dirty)
        { s2 with memx := { s2.memx with fills := s2.memx.fills.filter fun x => !(x.bay == bay && x.line == line) } }
      else
        let s1 := if obs = .corrected then s.mediumCorrected else s
        match f.sectors with
        | _ :: k :: t =>
          { s1 with memx := { s1.memx with
              fills := mapIf (fun x => x.bay == bay && x.line == line) (fun x => { x with sectors := k :: t })
                s1.memx.fills } }
        | _ => s1.fillDone f

/-- EVICTION_WRITEBACK (R296): the oldest line of a stone's eviction buffer is written back to L2. A parity error in it
loses the line (R299). -/
def execEvictionWriteback (bay slot : Nat) (parityBad : Bool) (s : State) : Out :=
  .next <|
    let u := CoreId.stone bay slot
    match (s.coreOf u).evict with
    | [] => s
    | l :: t =>
      if parityBad then
        let c := s.coreOf u
        let s1 := (s.setCore u { c with evict := t }).setPoison l.addr
        (s1.bump 0x6001 3 [] (s1.ownerSlice l.owner)).dirtyLost l.owner
      else s.evictHead u bay

/-- L2_VICTIM_ACK (R297): memory acknowledges the write of a dirty L2 victim. -/
def execL2VictimAck (bay line : Nat) (s : State) : Out :=
  .next { s with memx := { s.memx with victims := s.memx.victims.erase (bay, line) } }

/-- MEMORY_STORE_ACK (R242): an outstanding store of a core is acknowledged. -/
def execMemoryStoreAck (u : CoreId) (s : State) : Out :=
  .next <|
    let c := s.coreOf u
    if c.storesOut = 0 then s else s.setCore u { c with storesOut := c.storesOut - 1 }

/-- PATROL_READ (R301): the patrol reads a populated line; corrected data are written back, and an uncorrectable error
poisons the line. -/
def execPatrolRead (line : Nat) (obs : ReadObs) (s : State) : Out :=
  .next <|
    let la := lineOf line
    if !(s.readable la) ∨ !(s.memUp la) then s
    else
      match obs with
      | .clean => s
      | .corrected => s.mediumCorrected
      | .uncorrectable => s.mediumLost la

/-- BOUND_PAIR_REBUILD (R302): a bound pair that has lost a frame takes a new second frame on another stack, which receives
the surviving frame's courses. -/
def execBoundPairRebuild (frame newFrame : Nat) (s : State) : Out :=
  .next <|
    let dead := fun (f : Nat) => s.memx.pch.contains (pchOf f)
    match s.memx.bound.find? fun p => p.1 == frame && (dead p.1 || dead p.2) with
    | none => s
    | some p =>
      let keep := if dead p.1 then p.2 else p.1
      if dead newFrame ∨ (dead p.1 ∧ (dead p.2 ∨ 2 ≤ ((s.partners frame).filter fun f => !(dead f)).length)) ∨ hbmSize ≤ newFrame * 4096 ∨ pchOf newFrame % 6 = pchOf keep % 6
          ∨ s.memx.bound.any (fun q => q.1 == newFrame || q.2 == newFrame) then s
      else
        let cs := s.memLoad (frame * 4096) 4096
        let m := Memory.putCourses (newFrame * 4096) cs s.mem
        let rest := s.memx.bound.filter fun q => q != p
        { s with
          mem := m
          memx := { s.memx with
            bound := if dead p.1 then rest ++ [(frame, keep), (frame, newFrame)] else rest ++ [(frame, newFrame)] } }

/-! ### Invalidates (R326, R327) -/

/-- The space a slice tag names (R233, R326). -/
def Inval.firmware (i : Inval) : Bool := fieldOf i.tag 22 22 == 1

/-- An invalidate matches an entry by its space, page and GLB mark (R326). -/
def Inval.hits (i : Inval) (firmware : Bool) (slice gen page level : Nat) (glb : Bool) : Bool :=
  let space := if i.firmware then firmware
    else !firmware && slice == fieldOf i.tag 21 12 && gen == fieldOf i.tag 11 0
  match i.kind with
  | 0 => space && page == vaPage i.va level
  | 1 => space && !(i.firmware && glb)
  | _ => true

/-- A translation an invalidate removes. -/
def Inval.hitsTlb (i : Inval) (t : TlbEntry) : Bool := i.hits t.firmware t.slice t.gen t.vpage t.level t.glb

/-- A walk in flight for a matching address installs nothing (R327); the addresses match when one page could cover both. -/
def Inval.onCore (i : Inval) (u : CoreId) (c : Core) : Core :=
  let sp := match u, c.firing with
    | .stone _ _, some f => (false, f.slice, f.gen)
    | _, _ => if (c.access.map Access.borrowed).getD false then (false, c.space / 4096, c.space % 4096) else (true, 0, 0)
  { c with
    tlb := c.tlb.map fun t => if (t.map i.hitsTlb).getD false then none else t
    locked := c.locked.filter fun t => !(i.hitsTlb t)
    access := c.access.map fun a =>
      if i.hits sp.1 sp.2.1 sp.2.2 (vaPage a.va 3) 3 false then { a with noInstall := true } else a }

/-- Remove the translations of one bay, or of the hub (16), that an invalidate matches (R326). -/
def State.invalidate (s : State) (b : Nat) (i : Inval) : State :=
  let here := fun (u : CoreId) => walkerOf u == b
  let tr := fun (t : Option TlbEntry) => if (t.map i.hitsTlb).getD false then none else t
  { s with
    cores := s.cores.map fun e => if here e.1 then (e.1, i.onCore e.1 e.2) else e
    memx := { s.memx with
      walkCache := tupd b [] (fun l => l.filter fun e => !(i.hits e.firmware e.slice e.gen e.vprefix e.level false))
        s.memx.walkCache
      boundEntries := tupd b [] (fun l => l.filter fun t => !(i.hitsTlb t)) s.memx.boundEntries }
    hod := { s.hod with
      ch := s.hod.ch.map fun e => if e.1.1 = b then (e.1, { e.2 with srcTr := tr e.2.srcTr, dstTr := tr e.2.dstTr }) else e } }

/-- INVALIDATE_EFFECT (R327): the oldest invalidate that has not reached a bay takes effect there. -/
def execInvalidateEffect (bay : Nat) (s : State) : Out :=
  .next <|
    match s.memx.invals.find? fun i => i.bays.contains bay with
    | none => s
    | some i =>
      let s1 := s.invalidate bay i
      let rest := s.memx.invals.takeWhile fun x => x != i
      let after := (s.memx.invals.dropWhile fun x => x != i).drop 1
      let i' := { i with bays := i.bays.erase bay }
      { s1 with memx := { s1.memx with invals := rest ++ (if i'.bays.isEmpty then [] else [i']) ++ after } }

/-- Queue an invalidate for every bay and the hub, and forward it to every member of a group (R327). -/
def State.queueInval (s : State) (kind tag va : Nat) : State :=
  let i : Inval := ⟨kind, tag, va, List.range 17⟩
  ({ s with memx := { s.memx with invals := s.memx.invals ++ [i] } } : State).tellAll (.invalidate i)

end Sys2Proof.Machine
end

