-- ==== Sys2Proof/Machine/Regs.lean ====
section
/-! DEFINITION. The register region (11, 13): RANGE_STATUS of each bay (R309) and the Hod channels (R333). -/

namespace Sys2Proof.Machine

/-- Where a local address of the register region lies. -/
inductive RegAt where
  | range (bay : Nat)
  | hod (bay ch off : Nat)
  | none
deriving DecidableEq, Repr

/-- RANGE_STATUS at 0x03C010000000 + b × 0x1000; channel c of bay b at 0x03C020000000 + b × 0x10000 + c × 0x40. -/
def regAt (la : Nat) : RegAt :=
  if 0x03C010000000 ≤ la ∧ la < 0x03C010010000 then
    (if la % 0x1000 = 0 then .range ((la - 0x03C010000000) / 0x1000) else .none)
  else if 0x03C020000000 ≤ la ∧ la < 0x03C020100000 then
    let o := la - 0x03C020000000
    if o % 0x10000 < 0x800 then .hod (o / 0x10000) (o % 0x10000 / 0x40) (o % 0x40) else .none
  else .none

/-- The 64 courses of a channel's registers (R333). -/
def HodCh.image (h : HodCh) : List Course :=
  let ctl := (if h.en then 2048 else 0) + (if h.status = 1 then 1024 else 0) + h.status % 16
  natCrs 5 h.src ++ natCrs 5 h.dst ++ natCrs 3 h.cnt ++ natCrs 2 h.mode ++ [BitVec.ofNat 12 ctl] ++
    natCrs 2 h.space ++ natCrs 2 (h.err % 65536) ++ natCrs 3 (h.result % 2 ^ 32) ++ [0] ++ fitList 8 0 h.pattern ++
    List.replicate 32 0

/-- One course of the register region; an address with no register reads 0. -/
def State.regCourse (s : State) (la : Nat) : Course :=
  match regAt la with
  | .range b => s.rangeStatus b
  | .hod b c o => nth (s.hodOf b c).image o 0
  | .none => 0

/-- A load from the register region. -/
def State.regRead (s : State) (la n : Nat) : List Course := (List.range n).map fun k => s.regCourse (la + k)

/-- A register of a channel written whole by one store of its width; while RUNNING only HOD_CTL takes a write (R333). -/
def State.hodRegWrite (s : State) (b c off : Nat) (cs : List Course) : State :=
  let h := s.hodOf b c
  let v := crsNat cs
  if off = 0x0F ∧ cs.length = 1 then s.hodCtl b c (nth cs 0 0)
  else if h.status = 1 then s
  else
    match off, cs.length with
    | 0x00, 5 => s.setHod b c { h with src := v }
    | 0x05, 5 => s.setHod b c { h with dst := v }
    | 0x0A, 3 => s.setHod b c { h with cnt := v % 2 ^ 32 }
    | 0x0D, 2 => s.setHod b c { h with mode := v }
    | 0x10, 2 => s.setHod b c { h with space := v }
    | 0x18, 8 => s.setHod b c { h with pattern := cs }
    | _, _ => s

/-- A store to the register region; writes to read-only fields have no effect (R309, R333). -/
def State.regWrite (s : State) (la : Nat) (cs : List Course) : State :=
  match regAt la with
  | .range b =>
    if cs.length = 1 ∧ (nth cs 0 0).getLsbD 10 then s.updRange b fun r => { r with error := false } else s
  | .hod b c o => s.hodRegWrite b c o cs
  | .none => s

/-- REGISTER_WRITE (R333): a write to a register of the register region. -/
def execRegisterWrite (ca : Nat) (value : List Course) (s : State) : Out :=
  .next (if s.isLocal ca then s.regWrite (caLocal ca) value else s)

end Sys2Proof.Machine
end

