-- ==== Sys2Proof/Machine/CoreMemory.lean ====
section
/-! DEFINITION. Memory accesses of a core (08, 11, 12): faults of a stone and traps of a Quoin core, the access through a
translation by memory type, and the walk an access waits for. -/

namespace Sys2Proof.Machine

/-! ### Faults (R209, R237, R238) -/

/-- A fault or cut-off ends a firing: the context's OVERFLOW is applied, and the work ends with the code (R209, R217). -/
def State.endFiringWith (s : State) (b slot : Nat) (code detail : Nat) (cont : Option Nat) : State :=
  let u := CoreId.stone b slot
  let c := s.coreOf u
  match c.firing with
  | none => s
  | some f =>
    let s1 := s.dropFiring u
    let s2 := if c.ctxOvf then s1.updCtx f.ctx fun x => { x with overflow := true } else s1
    let s3 := if code / 256 = 2 then s2.bump 0x6200 4 [] f.slice else s2
    let s4 := s3.workErrorAt (stonePlace b slot) f.w c.item code detail cont
    match f.w with
    | .item q => s4.retire q
    | .run _ => s4

/-- The address a trap saves: the instruction, or its branch when it lies in a delay slot (R237). -/
def Core.epcOf (c : Core) : Nat := match c.slot with
  | some (k, _) => k
  | none => c.pc

/-- A Quoin core traps (R237): a fault while TRAP is set fences the pair. -/
def State.trap (s : State) (p : Nat) (epc code detail : Nat) (cont : Option Nat) : State :=
  let u := CoreId.quoin p
  let c := s.coreOf u
  let s0 := if code / 256 = 2 then s.bump 0x6200 4 [] 0 else s
  let s1 := s0.occurAt 0 ⟨s.now, s.unitOf 8 p, code, 1, detail, cont⟩
  if c.trapped then s1.fencePair p
  else
    s1.setCore u { c with
      epc := scalarOf epc, cause := code, mode := c.mode ||| 0x200, borrow := false, pc := c.vector.toNat,
      slot := none, annul := false, access := none }

/-- A fault of the instruction at hand on a core. -/
def State.coreFault (s : State) (u : CoreId) (code detail : Nat) (cont : Option Nat) : State :=
  match u with
  | .stone b k => s.endFiringWith b k code detail cont
  | .quoin p => s.trap p (s.coreOf u).epcOf code detail cont

/-- A fault at cycle `k`: in the last cycle of the bound the cap is recorded instead (R209). -/
def State.faultAt (s : State) (u : CoreId) (k code detail : Nat) (cont : Option Nat) : State :=
  match (s.coreOf u).firing with
  | some f =>
    if !f.predict ∧ f.cycleBound ≤ k + 1 then s.coreFault u 0x0381 f.boundDetail none else s.coreFault u code detail cont
  | none => s.coreFault u code detail cont

/-- A fault of the access a core waits for: on a stone it falls in the metered cycle of the last issue; on a Quoin core the
access keeps the address to return to. -/
def State.accessFault (s : State) (u : CoreId) (a : Access) (code level : Nat) : State :=
  let cont := if code / 256 = 2 then some a.va else none
  let detail := if code / 256 = 2 then level * 512 else 0
  match u with
  | .stone _ _ => s.faultAt u (s.coreOf u).sched.last code detail cont
  | .quoin p => s.trap p a.epc code detail cont

/-! ### Late delivery (R246, R255) -/

/-- An operation issued in tick `since` is delivered to a core: on a PREDICT-0 firing the cycles by which it passes its
charge are counted, and the delivery with them. The model tells cycles by the ticks that have passed (assumption 25:
DESIGN CHOICE). -/
def State.noteLate (s : State) (u : CoreId) (since : Tick) (charge : Nat) : State :=
  match (s.coreOf u).firing with
  | some f =>
    let gone := 80 * (s.now - since)
    let at_ := (coreBay u).toList
    if f.predict ∨ gone ≤ charge then s
    else (s.bumpBy 0x3402 1 at_ f.slice u64Max (gone - charge)).bump 0x3402 2 at_ f.slice
  | none => s

/-! ### Spaces and owners -/

/-- The slice a core's accesses count for: the slice of its firing, or the device. -/
def Core.slice (c : Core) : Nat := match c.firing with
  | some f => f.slice
  | none => 0

/-- The owner a store marks its line with (R299). -/
def Core.owner (c : Core) : Nat := match c.firing with
  | some f => f.ctx
  | none => 4096

/-- The space an access translates in (R201, R236). -/
def State.spaceOf (s : State) (c : Core) (borrowed : Bool) : Space :=
  match c.firing with
  | some f => { s.sliceSpace f.slice with gen := f.gen }
  | none =>
    if borrowed then { s.sliceSpace (fieldOf c.space 21 12) with gen := c.space % 4096 } else firmwareSpace

/-- Who asks, for the permission check (R319). -/
def askerOf (u : CoreId) (borrowed : Bool) : Asker :=
  match u with
  | .stone _ _ => .stone
  | .quoin _ => if borrowed then .borrowed else .quoin

/-! ### The CONSTANTS data (R98, R223) -/

/-- The constants a virtual address of a firing falls into: their courses and the offset. -/
def State.constantsAt (s : State) (c : Core) (va : Nat) : Option (List Course × Nat) :=
  match c.firing with
  | none => none
  | some f =>
    match s.ctxOf f.ctx with
    | none => none
    | some x =>
      let cs := x.image.constants
      let base := (Config.constPage f.ctx).toNat * 4096
      if cs.isEmpty ∨ va < base ∨ base + ceilDiv cs.length 4096 * 4096 ≤ va then none else some (cs, va - base)

/-! ### The access through a translation (R286-R289) -/

/-- The first address after the page of an entry. -/
def TlbEntry.pageEnd (t : TlbEntry) : Nat := (t.frame + 2 ^ (10 * (t.level - 1))) * 4096

/-- Read `n` courses of one line through a translation, by its memory type. -/
def State.coreLoad (s : State) (u : CoreId) (t : TlbEntry) (va n : Nat) (obs : MemObs) :
    Except (State × Nat) (State × List Course) :=
  let c := s.coreOf u
  let ca := t.phys va
  let off := ca % 128
  let direct : Except (State × Nat) (State × List Course) :=
    if !(s.populated (caLocal ca)) then .error (s, 0x0604)
    else match s.mediumRead c.slice (lineOf ca) obs with
      | .error e => .error e
      | .ok x => .ok (x, x.memLoad ca n)
  if s.isLocal ca then
    match coreBay u with
    | none => if regBase ≤ caLocal ca then .ok (s, s.regRead (caLocal ca) n) else direct
    | some b =>
      let cut := fun (r : Except (State × Nat) (State × List Course)) => match r with
        | .error e => .error e
        | .ok (x, l) => .ok (x, slice l off n)
      match t.mtype with
      | 0 => cut (s.l1Read u b c.slice c.owner (lineOf ca) off n obs)
      | 1 => cut (s.l2Read b c.slice c.owner (lineOf ca) off n (some t.pageEnd) obs)
      | 2 => cut (s.l2Read b c.slice c.owner (lineOf ca) off n none obs)
      | _ => direct
  else if s.isMember ca && decide (caLocal ca < regBase) then .ok (s.advanceFree, natCrs n (s.freeBits (12 * n)))
  else .error (s, 0x0604)

/-- Write the given courses to memory; `none` leaves a course. -/
def State.memWrite (s : State) (ca : Nat) (ws : List (Option Course)) : State :=
  (List.range ws.length).foldl (fun (t : State) k => match nth ws k none with
    | some x => t.memPut (ca + k) [x]
    | none => t) s

/-- Write courses of one line through a translation, by its memory type (R286). -/
def State.coreStore (s : State) (u : CoreId) (t : TlbEntry) (va : Nat) (ws : List (Option Course)) (obs : MemObs) :
    Except (State × Nat) State :=
  let c := s.coreOf u
  let ca := t.phys va
  let la := lineOf ca
  let off := ca % 128
  let n := ws.length
  let direct : Except (State × Nat) State :=
    if !(s.populated (caLocal ca)) then .error (s, 0x0604)
    else match s.mediumRead c.slice la obs with
      | .error e => .error e
      | .ok x => .ok (x.memWrite ca ws)
  if s.isLocal ca then
    match coreBay u with
    | none =>
      if regBase ≤ caLocal ca then .ok (s.regWrite (caLocal ca) (ws.map fun w => w.getD 0)) else direct
    | some b =>
      match t.mtype with
      | 0 =>
        match s.l1Read u b c.slice c.owner la off n obs with
        | .error e => .error e
        | .ok (x, _) =>
          let d := x.coreOf u
          let ls := mapIf (fun l => l.addr == la)
            (fun l => { l with data := lineWith l.data off ws, dirty := true, owner := c.owner }) d.l1d
          .ok (x.setCore u { d with l1d := ls })
      | 1 =>
        match s.l2Read b c.slice c.owner la off n (some t.pageEnd) obs with
        | .error e => .error e
        | .ok (x, _) =>
          .ok (x.updL2 b la fun l => { l with data := lineWith l.data off ws, dirty := true, owner := c.owner })
      | 2 =>
        match s.l2Read b c.slice c.owner la off n none obs with
        | .error e => .error e
        | .ok (x, _) => .ok ((x.updL2 b la fun l => { l with data := lineWith l.data off ws }).memWrite ca ws)
      | _ => direct
  else if s.isMember ca && decide (caLocal ca < regBase) then .ok s
  else .error (s, 0x0604)

/-! ### Completing an access -/

/-- A loaded value in its register: zero- or sign-extended from n courses (R221); the enabled lanes of a vector. -/
def Core.deliver (c : Core) (a : Access) (cs : List Course) : Core :=
  if a.isVec then
    let old := vecCourses (c.vr a.reg)
    c.setV a.reg (vecOf ((List.range 64).map fun k => if nth a.mask k false then nth cs k 0 else nth old k 0))
  else
    let v := crsNat cs
    c.setS a.reg (if a.signed then BitVec.ofInt 60 (signedOf (12 * a.n) v) else scalarOf v)

/-- The acknowledgement of a store by memory type (R242). -/
def ackDelay (mtype : Nat) : Nat := if mtype ≤ 1 then 120 else 360

/-- tlock: a lockable entry takes the translation when the context is G class, the leaf has LK and one of the 8 entries
is free (R229, R322). -/
def State.lockEntry (s : State) (u : CoreId) (a : Access) (t : TlbEntry) : State :=
  let c := s.coreOf u
  let g := match c.firing with
    | some f => ((s.ctxOf f.ctx).map fun x => x.cls == 0).getD false
    | none => false
  let have_ := c.locked.contains t
  let ok := g && t.lk && !a.noInstall && (have_ || decide (c.locked.length < 8))
  let c1 := if ok && !have_ then { c with locked := c.locked ++ [t] } else c
  s.setCore u (c1.setS a.reg (if ok then 1 else 0))

/-- An access that needs a fill from memory waits: its bay has no memory operation left for it (R304), the line is a victim
whose write memory has not acknowledged (R297), or the medium is in self-refresh (R516). -/
def State.memWaits (s : State) (u : CoreId) (a : Access) (t : TlbEntry) : Bool :=
  match coreBay u with
  | none => false
  | some b =>
    let c := s.coreOf u
    let la := lineOf (t.phys a.va)
    let held := (c.l1d.any fun l => l.addr == la) || (c.evict.any fun l => l.addr == la)
    s.isLocal la && decide (caLocal la < regBase) && decide (t.mtype ≤ 2) && !a.lock &&
      !(t.mtype == 0 && held) && (s.l2Find b la).isNone && !(s.memx.fills.any fun f => f.bay == b && f.line == la) &&
      (s.memx.victims.contains (b, la) || s.poolFull b (s.ownerGd c.owner) || !(s.memUp la))

/-- An access whose translation is known completes, unless it has to wait for a memory operation. A line found lost unloads
its owner (R299). -/
def State.completeAccess (s : State) (u : CoreId) (a : Access) (t : TlbEntry) (obs : MemObs) : State :=
  if s.memWaits u a t then
    let p := s.spaceOf (s.coreOf u) a.borrowed
    s.setCore u { s.coreOf u with access := some { a with table := p.root, level := p.levels } }
  else
  let s0 := s.setCore u { s.coreOf u with access := none }
  let lost := fun (e : State × Nat) =>
    let owner := match (s.coreOf u).l1d.find? fun l => l.addr == lineOf (t.phys a.va) with
      | some l => l.owner
      | none => match (s.coreOf u).evict.find? fun l => l.addr == lineOf (t.phys a.va) with
        | some l => l.owner
        | none => ((coreBay u).bind fun b => (s.l2Find b (lineOf (t.phys a.va))).map Line.owner).getD 4096
    let s1 := e.1.accessFault u a e.2 0
    if e.2 = 0x0601 then s1.dirtyLost owner else s1
  if a.lock then (s0.noteLate u a.since 1800).lockEntry u a t
  else if a.isStore then
    let ws := (List.range a.data.length).map fun k => if nth a.mask k true then some (nth a.data k 0) else none
    match s0.coreStore u t a.va ws obs with
    | .error e => lost e
    | .ok s1 =>
      let s2 := s1.noteLate u a.since (ackDelay t.mtype)
      let c := s2.coreOf u
      s2.setCore u { c with
        storesOut := c.storesOut + 1
        sched := { c.sched with ackAt := max c.sched.ackAt (c.sched.last + ackDelay t.mtype) } }
  else
    match s0.coreLoad u t a.va (if a.isVec then 64 else a.n) obs with
    | .error e => lost e
    | .ok (s1, cs) =>
      let s2 := s1.noteLate u a.since 360
      s2.setCore u ((s2.coreOf u).deliver a cs)

/-- Install a translation in the core's TLB (R320, R322). -/
def State.installTlb (s : State) (u : CoreId) (t : TlbEntry) : State :=
  let c := s.coreOf u
  s.setCore u { c with tlb := tlbFill (s.lfsrOf (walkerOf u)) t c.tlb }

/-- What a walk step of an access leads to. -/
def walkResult (u : CoreId) (a : Access) (r : WalkStep) : State :=
  match r with
  | .fault t code level => (t.setCore u { t.coreOf u with access := none }).accessFault u a code level
  | .down t table level => t.setCore u { t.coreOf u with access := some { a with table := table, level := level } }
  | .leaf t e =>
    let t1 := if a.noInstall then t else t.installTlb u e
    t1.completeAccess u a e .clean

/-- The access a core waits for goes on: at once where a TLB entry serves it, else by `walk`. -/
def State.resumeAccess (s : State) (u : CoreId) (walk : Access → WalkStep) : State :=
  match (s.coreOf u).access with
  | none => s
  | some a =>
    match (s.coreOf u).tlbFind (s.spaceOf (s.coreOf u) a.borrowed) a.va a.isStore with
    | some t => s.completeAccess u a t .clean
    | none => walkResult u a (walk a)

/-- Settle the access a core waits for: its walk runs on with clean reads. -/
def State.settle (s : State) (u : CoreId) : State :=
  s.resumeAccess u fun a =>
    State.walkRun 6 s (walkerOf u) (s.spaceOf (s.coreOf u) a.borrowed) (askerOf u a.borrowed) a.isStore a.va a.table a.level

/-- Start an access: CONSTANTS, the range of the space, the TLB and locked entries, the bound entries, else a walk the
core waits for (R221-R224, R318, R322, R323). -/
def State.startAccess (s : State) (u : CoreId) (a : Access) (obs : MemObs) : State :=
  let c := s.coreOf u
  let p := s.spaceOf c a.borrowed
  let who := askerOf u a.borrowed
  match s.constantsAt c a.va with
  | some (cs, off) =>
    if a.isStore then s.accessFault u a 0x0202 1
    else if a.lock then s.setCore u (c.setS a.reg 0)
    else s.setCore u (c.deliver a (fitList (if a.isVec then 64 else a.n) 0 (cs.drop off)))
  | none =>
    if !(p.inRange a.va) then s.accessFault u a 0x0203 p.levels
    else
      match c.tlbFind p a.va a.isStore with
      | some t =>
        let code := permission who a.isStore t.u t.w
        if code ≠ 0 then s.accessFault u a code t.level else s.completeAccess u { a with since := s.now } t obs
      | none =>
        let s1 := match coreBay u with
          | some b => s.bump 0x6200 1 [b] 0
          | none => s
        match s1.boundFind (walkerOf u) p a.va with
        | some t =>
          let code := permission who a.isStore t.u t.w
          if code ≠ 0 then s1.accessFault u a code t.level else (s1.installTlb u t).completeAccess u { a with since := s.now } t obs
        | none => s1.setCore u { s1.coreOf u with access := some { a with table := p.root, level := p.levels, since := s.now } }

/-- WALK_READ_DONE (R318): one read of the walk a core waits for. -/
def execWalkReadDone (u : CoreId) (obs : ReadObs) (s : State) : Out :=
  .next <| s.resumeAccess u fun a =>
    s.walkStep (walkerOf u) (s.spaceOf (s.coreOf u) a.borrowed) (askerOf u a.borrowed) a.isStore a.va a.table a.level obs

end Sys2Proof.Machine
end

