-- ==== Sys2Proof/Machine/Issue.lean ====
section
/-! DEFINITION. How a core issues and retires an instruction (08, 09): the gate every instruction passes, the metered
schedule of a PREDICT-0 firing, delay slots, and what a result does to the core. -/

namespace Sys2Proof.Machine

/-! ### What an instruction declares (R204, R239-R241) -/

/-- The pipe, occupancy, charge and registers of an instruction; `alone` marks those that never pair (R240); `legal`
that its encoding is defined on the core (R204). -/
structure Info where
  vec : Bool
  occ : Nat
  charge : Nat
  reads : List RegName
  writes : List RegName
  alone : Bool
  transfer : Bool
  /-- the guard is an element guard, whose bits the instruction itself reads (R205) -/
  elem : Bool
  /-- a conditional br, whose outcome trains the predictor (R250) -/
  br : Bool
  legal : Bool
deriving DecidableEq, Repr

/-- A scalar-pipe instruction. -/
def infoS (charge : Nat) (reads writes : List RegName) (legal : Bool) : Info :=
  { vec := false, occ := 1, charge := charge, reads := reads, writes := writes, alone := false, transfer := false,
    elem := false, br := false, legal := legal }

/-- A vector-pipe instruction under an element guard. -/
def infoV (occ charge : Nat) (reads writes : List RegName) (legal : Bool) : Info :=
  { vec := true, occ := occ, charge := charge, reads := reads, writes := writes, alone := false, transfer := false,
    elem := true, br := false, legal := legal }

/-- Scalar registers as schedule names. -/
def rS (is : List (Fin 32)) : List RegName := is.map fun i => .s i.val

/-- Vector registers as schedule names. -/
def rV (is : List (Fin 16)) : List RegName := is.map fun i => .v i.val

/-- Predicate registers as schedule names. -/
def rP (is : List (Fin 8)) : List RegName := is.map fun i => .p i.val

/-- The registers of pairs. -/
def rPair (is : List (Fin 32)) : List RegName := is.flatMap fun i => [.s i.val, .s (i.val + 1)]

/-- The registers of a quad. -/
def rQuad (i : Fin 32) : List RegName := [.s i.val, .s (i.val + 1), .s (i.val + 2), .s (i.val + 3)]

/-- The work area as a schedule name: a store to it is visible from the next cycle on (R239). -/
def rWork : RegName := .work

/-- ctl.ovf as a schedule name: what reads it waits for every instruction that may still set it; those that set it do not
wait for each other, since its bits only rise (R217, R239; assumption 25: DESIGN CHOICE). -/
def rOvf : RegName := .ctl 2

/-! ### The schedule (R239-R245) -/

/-- The cycle from which a register can be read. -/
def Sched.readyAt (sc : Sched) (r : RegName) : Nat :=
  match r with
  | .s 0 => 0
  | .p 0 => 0
  | _ => tgetD r 0 sc.ready

/-- The latest cycle at which the registers of a list are ready. -/
def Sched.regsReady (sc : Sched) (rs : List RegName) : Nat := (rs.map sc.readyAt).foldl max 0

/-- Two lists of names have none in common. -/
def disjoint (xs ys : List RegName) : Bool := !(xs.any fun x => ys.contains x)

/-- The names of a list that are registers whose results do not overtake each other. -/
def realRegs (xs : List RegName) : List RegName := xs.filter fun r => r != .work && r != rOvf && r != .s 0 && r != .p 0

/-- Cycles from index 10,240 on (R243). -/
def farIndex (pc : Nat) : Nat := if 10240 ≤ pc then 20 else 0

/-- The instruction may issue beside the one before it (R240). -/
def Sched.mayPair (sc : Sched) (i : Info) (pc : Nat) (inSlot : Bool) (reads : List RegName) : Bool :=
  match sc.pair with
  | none => false
  | some (v, rds, wrs) =>
    v != i.vec && !i.alone && !i.transfer && !inSlot && decide (pc < 10240) && disjoint reads wrs &&
      disjoint (realRegs i.writes) (rds ++ wrs)

/-- The cycle in which an instruction issues (R239, R240, R243), and whether it pairs with the one before. -/
def Sched.issueAt (sc : Sched) (g : Fin 8) (i : Info) (pc : Nat) (inSlot : Bool) : Nat × Bool :=
  let reads := RegName.p g.val :: i.reads
  let k0 := max (if i.vec then sc.vFree else sc.sFree) (sc.regsReady (reads ++ realRegs i.writes))
  let pairs := sc.mayPair i pc inSlot reads && decide (k0 ≤ sc.last)
  if pairs then (sc.last, true) else (max sc.next k0 + farIndex pc, false)

/-- The schedule after an instruction issued in cycle `k`; `hold` is the cycle it retires in when it holds the next
issue (R242); `gap` is what a transfer adds for the instruction after its slot (R244). -/
def Sched.issued (sc : Sched) (g : Fin 8) (i : Info) (k : Nat) (paired inSlot : Bool) (hold gap : Nat) : Sched :=
  let done := max k hold
  { sc with
    next := max (done + 1) (if inSlot then sc.after else 0)
    after := if i.transfer then k + gap else 0
    last := done
    sFree := if i.vec then sc.sFree else k + i.occ
    vFree := if i.vec then k + i.occ else sc.vFree
    ready := i.writes.foldl (fun m r => tset r (max (tgetD r 0 m) (k + (if r = .work then 1 else i.charge))) m) sc.ready
    pair := if paired || i.alone || i.transfer || inSlot then none
      else some (i.vec, realRegs (RegName.p g.val :: i.reads), realRegs i.writes ++ (if i.writes.contains .work then [.work] else [])) }

/-! ### The gate -/

/-- An outstanding search delivers to a register (R210, R226). -/
def State.awaits (s : State) (u : CoreId) (rs : List RegName) : Bool :=
  s.ks.searches.any fun x => match x.core with
    | some (v, rd) => v == u && (rs.contains (.s rd) || rs.contains (.s (rd + 1)))
    | none => false

/-- A search of a core is out past its charge: all issue stalls until it is delivered (R245). -/
def State.lateSearch (s : State) (u : CoreId) (c : Core) (k : Nat) : Bool :=
  s.ks.searches.any fun x => match x.core with
    | some (v, rd) => v == u && decide (c.sched.readyAt (.s rd) ≤ k)
    | none => false

/-- The cycles of the ticks that have passed since a firing started. With PREDICT 1 every elapsed cycle is metered (R248);
the model tells them by ticks (assumption 25: DESIGN CHOICE). -/
def Firing.elapsed (f : Firing) (now : Tick) : Nat := 80 * (now - f.start)

/-- What the gate answers: an outcome, or the state in which the instruction retires, its issue cycle, whether it pairs,
and whether it executes. -/
inductive Gate where
  | stop (o : Out)
  | go (s : State) (k : Nat) (paired on : Bool)

/-- Whether the instruction executes (R205, R232). -/
def Core.executes (c : Core) (g : Fin 8) (i : Info) : Bool :=
  !c.annul && (i.elem || (c.pr g.val).getLsbD 0)

/-- The gate of a stone: a firing, a defined encoding, the end of the kernel, the cycle bound and the budget (R204,
R208, R211, R245). The access before it settles first; a result still to come holds the instruction (R210). -/
def State.gateStone (s : State) (u : CoreId) (g : Fin 8) (i : Info) : Gate :=
  match (s.coreOf u).firing with
  | none => .stop (.next s)
  | some _ =>
    if !i.legal then .stop (.fault .undefinedEncoding)
    else
      let s1 := s.settle u
      let c := s1.coreOf u
      match c.firing with
      | none => .stop (.next s1)
      | some f =>
        if c.access.isSome ∨ (s1.awaits u (i.reads ++ i.writes) ∧ !c.annul) then .stop (.next s1)
        else if f.codeLen ≤ c.pc then .stop (.next (s1.faultAt u c.sched.next 0x03C1 0 none))
        else
          let (k, paired) :=
            if f.predict then (f.elapsed s1.now, false)
            else if c.annul then (c.sched.next + farIndex c.pc, false)
            else c.sched.issueAt g i c.pc c.slot.isSome
          if !f.predict ∧ s1.lateSearch u c k then .stop (.next s1)
          else if f.cycleBound ≤ k then .stop (.next (s1.coreFault u 0x0381 f.boundDetail none))
          else if c.budget = 0 then .stop (.next (s1.coreFault u 0x0381 0 none))
          else .go s1 k paired (c.executes g i)

/-- The gate of a Quoin core: its pair is not fenced, and an undefined encoding traps (R16, R204). -/
def State.gateQuoin (s : State) (p : Nat) (g : Fin 8) (i : Info) : Gate :=
  let u := CoreId.quoin p
  if 2 ≤ p ∨ s.quoin.fenced.contains p then .stop (.next s)
  else
    let s1 := s.settle u
    let c := s1.coreOf u
    if s1.quoin.fenced.contains p ∨ c.access.isSome ∨ (s1.awaits u (i.reads ++ i.writes) ∧ !c.annul) then .stop (.next s1)
    else if !i.legal ∧ !c.annul then .stop (.next (s1.coreFault u 0x03D0 0 none))
    else .go s1 0 false (c.executes g i)

/-- The gate every instruction passes. -/
def State.gate (s : State) (u : CoreId) (g : Fin 8) (i : Info) : Gate :=
  match u with
  | .stone _ _ => s.gateStone u g i
  | .quoin p => s.gateQuoin p g i

/-! ### Results -/

/-- What the execution of an instruction comes to. -/
inductive Res where
  /-- it completes, and the core is as it leaves it -/
  | done (s : State)
  /-- it completes and retires in a later cycle, which holds the next issue (R242) -/
  | held (s : State) (cycle : Nat)
  /-- it completes, and its access to memory starts as it retires -/
  | access (s : State) (start : State → State)
  /-- a transfer that is taken to a target, with the gap of R244 -/
  | jump (s : State) (target gap : Nat)
  /-- a fault with its detail -/
  | fault (s : State) (code detail : Nat)
  /-- the state the instruction leaves by itself: it has ended the firing, trapped, or waits -/
  | leave (s : State)

/-- Retire the instruction of a core (R208, R232, R236): the next index, the slot, the budget and the schedule. -/
def State.retireCore (s : State) (u : CoreId) (g : Fin 8) (i : Info) (k : Nat) (paired : Bool) (hold gap : Nat)
    (target : Option Nat) (annulNext keepBorrow : Bool) : State :=
  let c := s.coreOf u
  let inSlot := c.slot.isSome
  s.setCore u { c with
    pc := match c.slot with
      | some (_, some t) => t
      | _ => c.pc + 1
    slot := if i.transfer && !inSlot then some (c.pc, target) else none
    annul := annulNext
    budget := c.budget - 1
    borrow := c.borrow && keepBorrow
    sched := match c.firing with
      | some f => if f.predict then c.sched else c.sched.issued g i k paired inSlot hold gap
      | none => c.sched }

/-- An annulled instruction retires as a no-op, one cycle after its transfer (R232, R244). -/
def infoAnnulled : Info :=
  { vec := false, occ := 0, charge := 0, reads := [], writes := [], alone := true, transfer := false, elem := false,
    br := false, legal := true }

/-- A conditional br trains its two-bit counter and the history of 11 outcomes (R249, R250): with PREDICT 0 no structure is
read or updated. -/
def Core.learnBr (c : Core) (taken : Bool) : Core :=
  if !c.predicts then c
  else
    let k := (c.pc % 2048) ^^^ c.pred.history
    let n := tgetD k 0 c.pred.counters
    { c with pred := { c.pred with
        counters := tset k (if taken then min 3 (n + 1) else n - 1) c.pred.counters
        history := (c.pred.history * 2 + (if taken then 1 else 0)) % 2048 } }

/-- Issue an instruction: pass the gate, execute it when its guard lets it, retire it. `annulNext` says that the
instruction after it is annulled when it is not taken (R232). -/
def State.issue (s : State) (u : CoreId) (g : Fin 8) (i : Info) (annulNext keepBorrow : Bool)
    (body : State → Core → Nat → Res) : Out :=
  match s.gate u g i with
  | .stop o => o
  | .go s1 k paired on =>
    let c := s1.coreOf u
    let untaken := i.transfer && annulNext && c.slot.isNone
    if c.annul then .next (s1.retireCore u 0 infoAnnulled k false 0 2 none false false)
    else if !on then
      .next ((if i.br then s1.setCore u (c.learnBr false) else s1).retireCore u g i k paired 0 2 none untaken false)
    else if i.transfer ∧ c.slot.isSome then .next (s1.faultAt u k 0x03C2 0 none)
    else
      match body s1 c k with
      | .done s2 => .next (s2.retireCore u g i k paired 0 2 none untaken keepBorrow)
      | .held s2 n =>
        match (s2.coreOf u).firing with
        | some f =>
          if !f.predict ∧ f.cycleBound ≤ n then .next (s2.coreFault u 0x0381 f.boundDetail none)
          else .next (s2.retireCore u g i k paired n 2 none untaken keepBorrow)
        | none => .next (s2.retireCore u g i k paired n 2 none untaken keepBorrow)
      | .access s2 f => .next (f (s2.retireCore u g i k paired 0 2 none untaken keepBorrow))
      | .jump s2 t gap => .next (s2.retireCore u g i k paired 0 gap (some t) false keepBorrow)
      | .fault s2 code detail => .next (s2.faultAt u k code detail none)
      | .leave s2 => .next s2

/-- A cap reached before issue: BUDGET_EXCEEDED with its detail (R109, R223, R226, R228). -/
def capRes (s : State) (detail : Nat) : Res := .fault s 0x0381 detail

/-! ### Shapes of instructions -/

/-- An instruction that only changes the core's registers. -/
def State.pureOp (s : State) (u : CoreId) (g : Fin 8) (i : Info) (f : Core → Core) : Out :=
  s.issue u g i false false fun t c _ => .done (t.setCore u (f c))

/-- An instruction that changes registers or faults with a code. -/
def State.tryOp (s : State) (u : CoreId) (g : Fin 8) (i : Info) (f : Core → Except Nat Core) : Out :=
  s.issue u g i false false fun t c _ => match f c with
    | .ok d => .done (t.setCore u d)
    | .error code => .fault t code 0

end Sys2Proof.Machine
end

