-- ==== Sys2Proof/Machine/ChiselSuper.lean ====
section
/-! DEFINITION. Supervisor instructions of Chisel (R233-R236, R326, R327, R305-R308, R183); they exist on Quoin cores
only. -/

namespace Sys2Proof.Machine

/-- A supervisor instruction; on a stone its encoding is undefined (R201, R204). -/
def infoQ (u : CoreId) (reads writes : List RegName) : Info := infoS 1 reads writes u.isQuoin

/-! ### Units and scrubs (R183, R233) -/

/-- The bay and physical slot a unit operand names (R233). -/
def State.unitSlot (s : State) (n : Nat) : Nat × Nat :=
  let b := fieldOf n 7 4
  (b, if n.testBit 8 then 16 else s.physSlot b (fieldOf n 3 0))

/-- The scrub of a stone: dirty lines go back to L2, then every array and register is cleared (R183, R294). -/
def State.scrubStone (s : State) (b slot : Nat) : State :=
  let u := CoreId.stone b slot
  let s1 := s.cleanL1 u b fun _ => true
  { s1 with cores := tdel u s1.cores }

/-- A stone holds a firing. -/
def State.stoneBusy (s : State) (b slot : Nat) : Bool := (s.coreOf (.stone b slot)).firing.isSome

/-- The lease of a stone: its slice and start. -/
def State.leaseOf (s : State) (b slot : Nat) : Option (Nat × Tick) := tget (b, slot) s.mason.leases

/-- A stone of a slice's G pool: the first g leased stones of the slice on a warm bay (R184). -/
def State.inGPool (s : State) (b slot : Nat) : Bool :=
  match s.leaseOf b slot with
  | none => false
  | some (sl, _) =>
    let mine := ((s.mason.leases.filter fun e => e.1.1 == b && e.2.1 == sl).map fun e => e.1.2)
    s.mason.warm.contains b && (mine.take (tgetD sl 0 s.mason.g)).contains slot

/-- Lease a stone to a slice, scrubbed when it passes from another, which LEASE_CHANGES counts (R183, R198). -/
def State.leaseTo (s : State) (b slot sl : Nat) : State :=
  let s1 := match s.leaseOf b slot with
    | some (x, _) => if x = sl then s else (s.scrubStone b slot).bump 0x3400 8 [] 0
    | none => (s.scrubStone b slot).bump 0x3400 8 [] 0
  { s1 with mason := { s1.mason with leases := tset (b, slot) (sl, s.now) s1.mason.leases } }

/-- A lease may change: the minimum of 1,250 ticks has run, and it is no G pool stone (R183, R184). -/
def State.leaseFree (s : State) (b slot sl : Nat) : Bool :=
  match s.leaseOf b slot with
  | none => true
  | some (x, t) => x == sl || (decide (t + 1250 ≤ s.now) && !(s.inGPool b slot))

/-- lease: rd 0 when leased, 1 when refused; it waits for a firing of another slice to leave the stone. -/
def execLease (u : CoreId) (g : Fin 8) (rd ra rb : Fin 32) (s : State) : Out :=
  s.issue u g (infoQ u (rS [ra, rb]) (rS [rd])) false false fun t c _ =>
    let (b, slot) := t.unitSlot (c.sr ra.val).toNat
    let sl := fieldOf (c.sr rb.val).toNat 21 12
    if !(t.leaseFree b slot sl) then .done (t.setCore u (c.setS rd.val 1))
    else if t.stoneBusy b slot then .leave t
    else .done ((t.leaseTo b slot sl).setCore u (c.setS rd.val 0))

/-- scrub: retires when complete; it waits for a firing to leave the stone. -/
def execScrub (u : CoreId) (g : Fin 8) (ra : Fin 32) (s : State) : Out :=
  s.issue u g (infoQ u (rS [ra]) []) false false fun t c _ =>
    let (b, slot) := t.unitSlot (c.sr ra.val).toNat
    if t.stoneBusy b slot then .leave t else .done (t.scrubStone b slot)

/-! ### Invalidates (R326, R327) -/

/-- An invalidate retires once it is queued. -/
def execTinvA (u : CoreId) (g : Fin 8) (ra rb : Fin 32) (s : State) : Out :=
  s.issue u g (infoQ u (rS [ra, rb]) []) false false fun t c _ =>
    .done (t.queueInval 0 ((c.sr rb.val).toNat % 2 ^ 23) (c.sr ra.val).toNat)

def execTinvT (u : CoreId) (g : Fin 8) (rb : Fin 32) (s : State) : Out :=
  s.issue u g (infoQ u (rS [rb]) []) false false fun t c _ => .done (t.queueInval 1 ((c.sr rb.val).toNat % 2 ^ 23) 0)

def execTinvAll (u : CoreId) (g : Fin 8) (s : State) : Out :=
  s.issue u g (infoQ u [] []) false false fun t _ _ => .done (t.queueInval 2 0 0)

/-- Every earlier invalidate has taken effect over the scope, and every walk it met has ended (R327). -/
def State.syncDone (s : State) (scope bay : Nat) : Bool :=
  let here := fun (b : Nat) => scope != 0 || b == bay
  !(s.memx.invals.any fun i => i.bays.any here) &&
    !(s.cores.any fun e => here (walkerOf e.1) && (e.2.access.map fun (a : Access) => a.noInstall).getD false)

/-- tsync: holds until it may retire; scope 3 is undefined (R234). -/
def execTsync (u : CoreId) (g : Fin 8) (ra : Fin 32) (s : State) : Out :=
  s.issue u g (infoQ u (rS [ra]) []) false false fun t c _ =>
    let n := (c.sr ra.val).toNat
    let scope := fieldOf n 5 4
    if scope = 3 then .fault t 0x03D0 0
    else if t.syncDone scope (fieldOf n 3 0) then .done t else .leave t

/-! ### Range operations (R305-R308) -/

/-- crange: queued on the bay rd names, or on every awake bay; a full queue holds it. -/
def State.crange (s : State) (u : CoreId) (g : Fin 8) (op : Nat) (rd ra rb : Fin 32) : Out :=
  s.issue u g (infoQ u (rS [rd, ra, rb]) []) false false fun t c _ =>
    let sel := (c.sr rd.val).toNat
    let bays := if sel.testBit 4 then allBays.filter t.bayAwake else [fieldOf sel 3 0]
    let start := (c.sr ra.val).toNat % 2 ^ 48
    let n := (c.sr rb.val).toNat
    if n ≠ 0 ∧ !(t.rangeOutside start n) ∧ bays.any (fun b => decide (4 ≤ (t.rangeOf b).queue.length)) then .leave t
    else .done (t.rangeQueue bays op start n)

def execCrangeClean (u : CoreId) (g : Fin 8) (rd ra rb : Fin 32) (s : State) : Out := s.crange u g 0x10 rd ra rb
def execCrangeInv (u : CoreId) (g : Fin 8) (rd ra rb : Fin 32) (s : State) : Out := s.crange u g 0x11 rd ra rb
def execCrangeCinv (u : CoreId) (g : Fin 8) (rd ra rb : Fin 32) (s : State) : Out := s.crange u g 0x12 rd ra rb
def execCrangeZero (u : CoreId) (g : Fin 8) (rd ra rb : Fin 32) (s : State) : Out := s.crange u g 0x13 rd ra rb

/-! ### borrow and sret (R234, R236, R237) -/

/-- borrow arms one borrowed access. -/
def execBorrow (u : CoreId) (g : Fin 8) (s : State) : Out :=
  s.issue u g (infoQ u [] []) false true fun t c _ => .done (t.setCore u { c with borrow := true })

/-- sret: pc := ctl.epc, TRAP := 0; it has no delay slot. -/
def execSret (u : CoreId) (g : Fin 8) (s : State) : Out :=
  s.issue u g (infoQ u [] []) false false fun t c _ =>
    .leave (t.setCore u { c with pc := c.epc.toNat, mode := c.mode &&& 0xDFF, slot := none, annul := false, borrow := false })

end Sys2Proof.Machine
end

