-- ==== Sys2Proof/Machine/Graph.lean ====
section
/-! DEFINITION. The operator graph at run time (05): layouts of ports (R112-R114), predicate terms (R119, R120), the
tokens on the edges, and the shapes of operators that the meanings share (R115-R118). -/

namespace Sys2Proof.Machine

/-! ### Derived layouts (R114, R137) -/

/-- The output type of an aggregate of R137, for its field's type. -/
def aggType (fn : Nat) (t : TypeDesc) : TypeDesc :=
  if fn ≤ 1 then tUint 8
  else if fn = 2 then
    match t.kind with
    | 0 => tInt 8
    | 1 => tUint 8
    | 2 => ⟨2, 8, t.param⟩
    | _ => ⟨3, 4, t.param⟩
  else t

/-- The aggregates of a GROUP_AGG: function and field. -/
def Operator.aggs (o : Operator) : List (Nat × Nat) :=
  (List.range (o.par 1)).map fun i =>
    let k := 2 + evenUp (o.par 0) + 2 * i
    (o.par k / 256, o.par (k + 1))

/-- The field types of a layout as an operator that derives its output reads them (R114). -/
def fieldTypes (im : Image) : Nat → Nat → Nat → Option Layout
  | 0, _, _ => none
  | fuel + 1, op, port => do
    let o ← im.ops[op]?
    let inAt := fun (p : Nat) => do
      let e ← im.edges.find? fun e => e.dst == op && e.dport == p
      fieldTypes im fuel e.src e.sport
    let ref := fun (k : Nat) => (im.layoutRef (nth o.params k 0) (nth o.params (k + 1) 0)).toOption
    match o.code with
    | 0x01 => some (.fixed (o.par 0 / 1024) 0)
    | 0x02 => ref 2
    | 0x04 => ref (2 + 2 * port)
    | 0x05 => if port = 1 then some (.fixed 3 0) else (im.templates[o.par 0]?).map fun t => .fields t.types
    | 0x06 => some (.fixed 6 0)
    | 0x07 => some (.fixed 5 0)
    | 0x08 => (inAt 0).map fun l => .fields (l.types ++ [tUint 2, tUint 4])
    | 0x09 => some (.fixed 7 0)
    | 0x0A => do
      let l ← inAt 0
      if 2 ≤ o.par 4 then return l
      if o.par2 2 ≠ 0 then
        let b ← ref 8
        return .fields (l.types ++ b.types)
      let e ← im.edges.find? fun e => e.dst == op && e.dport == 1
      let e2 ← im.edges.find? fun x => x.dst == e.src && x.dport == 0
      let b ← fieldTypes im fuel e2.src e2.sport
      return .fields (l.types ++ b.types)
    | 0x0B => do
      let l ← inAt 0
      let r ← inAt 1
      return .fields (l.types ++ r.types)
    | 0x0E => do
      let l ← inAt 0
      let ks := (o.pars 2 (o.par 0)).map fun k => nth l.types k tCode
      return .fields (ks ++ o.aggs.map fun a => aggType a.1 (nth l.types a.2 tCode))
    | 0x0F => do
      let l ← inAt 0
      let t := if o.par 4 = 0 then tUint 8 else aggType 2 (nth l.types (o.par 5) tCode)
      return .fields (l.types ++ [t])
    | 0x10 => some (.fixed 4 (o.par 0))
    | 0x14 => do
      let l ← inAt 0
      return .fields (l.types ++ [if o.par 0 / 128 % 2 = 1 then tBool else tBytes 64])
    | _ => inAt 0

/-- The layout of an output port (R114). -/
def Image.outLayout (im : Image) (op port : Nat) : Option Layout := fieldTypes im (im.ops.length + 1) op port

/-- The layout arriving on an input port. -/
def Image.inLayout (im : Image) (op port : Nat) : Option Layout := do
  let e ← im.edges.find? fun e => e.dst == op && e.dport == port
  im.outLayout e.src e.sport

/-- The build row layout of a HASH_PROBE, and the first build key field (R133). -/
def Image.buildOf (im : Image) (op : Nat) : List TypeDesc × Nat :=
  match im.ops[op]? with
  | none => ([], 0)
  | some o =>
    if o.par2 2 ≠ 0 then (im.buildLayout o, o.par 7)
    else match im.edges.find? fun e => e.dst == op && e.dport == 1 with
      | some e => (((im.inLayout e.src 0).map Layout.types).getD [], ((im.ops[e.src]?).map fun b => b.par 0).getD 0)
      | none => ([], 0)

/-! ### Predicate terms (R119, R120) -/

/-- AND of three-valued terms; `none` is UNKNOWN. -/
def and3 (ts : List (Option Bool)) : Option Bool :=
  if ts.contains (some false) then some false else if ts.contains none then none else some true

/-- Whether an ordering satisfies an operator EQ to GE. -/
def cmpHolds (op : Nat) (o : Ordering) : Bool :=
  match op, o with
  | 0, .eq => true
  | 1, .lt => true
  | 1, .gt => true
  | 2, .lt => true
  | 3, .lt => true
  | 3, .eq => true
  | 4, .gt => true
  | 5, .gt => true
  | 5, .eq => true
  | _, _ => false

/-- Membership in a set of values. -/
def inSet (t : TypeDesc) (v : List Course) : Nat → List Course → Except Nat Bool
  | 0, _ => .ok false
  | n + 1, cs => do
    let o ← cmpField t v (cs.take t.size)
    let r ← inSet t v n (cs.drop t.size)
    return o == .eq || r

/-- One term over a row. -/
def evalTerm (im : Image) (ts : List TypeDesc) (r : Row) (t : List Course) : Except Nat (Option Bool) :=
  let c0 := (nth t 0 0).toNat
  let op := fieldOf c0 11 8
  let neg := fun (v : Option Bool) => if fieldOf c0 7 7 = 1 then v.map (!·) else v
  let lhs := (nth t 1 0).toNat
  let ty := nth ts lhs tCode
  let off := crsNat (slice t 2 2)
  let isField := fieldOf c0 6 6 = 1
  let rhs := fun (k : Nat) =>
    if isField then r.get ((nth t 3 0).toNat % 256 + k) else some (slice im.constants (off + k * ty.size) ty.size)
  if op = 6 then .ok (neg (some (r.get lhs).isNone))
  else match r.get lhs with
    | none => .ok none
    | some v =>
      if op = 8 then do
        let b ← inSet ty v (nth im.constants off 0).toNat (im.constants.drop (off + 2))
        return neg (some b)
      else if op = 7 then
        match rhs 0, rhs 1 with
        | some lo, some hi => do
          let a ← cmpField ty v lo
          let b ← cmpField ty v hi
          return neg (some (cmpHolds 5 a && cmpHolds 3 b))
        | _, _ => .ok none
      else match rhs 0 with
        | none => .ok none
        | some x => do
          let o ← cmpField ty v x
          return neg (some (cmpHolds op o))

/-- The terms of four courses each from a course list. -/
def termsOf (n : Nat) (cs : List Course) : List (List Course) := (List.range n).map fun i => slice cs (4 * i) 4

/-- Whether a row satisfies a list of terms. -/
def satisfies (im : Image) (ts : List TypeDesc) (terms : List (List Course)) (r : Row) : Except Nat Bool := do
  let vs ← exceptAll (terms.map (evalTerm im ts r))
  return and3 vs == some true

/-- The rows that satisfy a list of terms. -/
def filterRows (im : Image) (ts : List TypeDesc) (terms : List (List Course)) (rows : List Row) : Except Nat (List Row) := do
  let bs ← exceptAll (rows.map (satisfies im ts terms))
  return ((rows.zip bs).filter (·.2)).map (·.1)

/-! ### Keys (R62, R138) -/

/-- The values of fields of a row. -/
def Row.getAll (r : Row) (ks : List Nat) : List (Option (List Course)) := ks.map r.get

/-- Reading a field checks it (R60, R65). -/
def checkField (t : TypeDesc) (v : Option (List Course)) : Except Nat Unit :=
  match v with
  | none => .ok ()
  | some cs =>
    match cmpField t cs cs with
    | .ok _ => .ok ()
    | .error e => .error e

/-- Check fields of rows as they are read. -/
def checkKeys (ts : List TypeDesc) (ks : List Nat) (rows : List Row) : Except Nat Unit := do
  let _ ← exceptAll (rows.flatMap fun r => ks.map fun k => checkField (nth ts k tCode) (r.get k))
  return ()

/-- The order of two present values whose fields have been checked. -/
def cmpChecked (t : TypeDesc) (a b : List Course) : Ordering := (cmpField t a b).toOption.getD .eq

/-- Two lists of values are equal under R62; null equals null. -/
def keysEq : List TypeDesc → List (Option (List Course)) → List (Option (List Course)) → Bool
  | t :: ts, a :: as_, b :: bs =>
    (match a, b with
      | none, none => true
      | some x, some y => cmpChecked t x y == .eq
      | _, _ => false) && keysEq ts as_ bs
  | _, _, _ => true

/-- The order of two lists of present values. -/
def keysCmp : List TypeDesc → List (Option (List Course)) → List (Option (List Course)) → Ordering
  | t :: ts, a :: as_, b :: bs =>
    match cmpChecked t (a.getD []) (b.getD []) with
    | .eq => keysCmp ts as_ bs
    | o => o
  | _, _, _ => .eq

/-! ### The work at an operator -/

/-- What an operator's meaning sees: its record, its image, and the work it fires for. -/
structure OpEnv where
  w : WorkRef
  idx : Nat
  op : Operator
  image : Image
  slice : Nat
  ctx : Nat
  isRun : Bool
  work : Work
deriving DecidableEq, Repr

/-- An item's graph still runs: it is in service, no cause is decided, its generation is current (R22, R39, R172). -/
def State.itemLive (s : State) (i : Item) : Bool :=
  i.stage == .inService && i.cause == 0 && !i.ended && !i.faulted && i.gen == s.genOf i.slice

/-- A run still runs. -/
def State.runLive (s : State) (r : Run) : Bool := !r.finished && r.gen == s.genOf r.slice

/-- An operator of a live work that has not fired and has the code of the command. -/
def State.opEnv (s : State) (w : WorkRef) (idx code : Nat) : Option OpEnv :=
  let mk := fun (slice ctx : Nat) (isRun : Bool) (work : Work) => do
    let c ← s.ctxOf ctx
    let o ← c.image.ops[idx]?
    if o.code = code ∧ !(work.fired.contains idx) then
      return ({ w := w, idx := idx, op := o, image := c.image, slice := slice, ctx := ctx, isRun := isRun, work := work } : OpEnv)
    none
  match w with
  | .item q => do
    let i ← s.itemOf q
    if s.itemLive i then mk i.slice i.ctx false i.work else none
  | .run n => do
    let r ← s.runOf n
    if s.runLive r then mk r.slice r.ctx true r.work else none

/-- The types arriving on an input port. -/
def OpEnv.types (e : OpEnv) (p : Nat) : List TypeDesc := ((e.image.inLayout e.idx p).map Layout.types).getD []

/-- The layout of an output port. -/
def OpEnv.out (e : OpEnv) (p : Nat) : Layout := (e.image.outLayout e.idx p).getD (.fields [])

/-- The tokens waiting on an input port. -/
def Work.at_ (k : Work) (op port : Nat) : PortTok :=
  (k.toks.find? fun t => t.op == op && t.port == port).getD ⟨op, port, [], false⟩

/-- Change an input port's tokens. -/
def Work.updPort (k : Work) (op port : Nat) (f : PortTok → PortTok) : Work :=
  if k.toks.any fun t => t.op == op && t.port == port then
    { k with toks := mapIf (fun t => t.op == op && t.port == port) f k.toks }
  else { k with toks := k.toks ++ [f ⟨op, port, [], false⟩] }

/-- Rows held by an operator between its own steps. -/
def Work.heldRows (k : Work) (op : Nat) : Option (List Row) := tget op k.held

/-- Put a token on every edge of an output port; with no edge it is discarded (R94). -/
def Work.deliver (k : Work) (im : Image) (op port : Nat) (t : Token) : Work :=
  im.edges.foldl (fun (w : Work) e =>
    if e.src = op ∧ e.sport = port then w.updPort e.dst e.dport fun p => { p with toks := p.toks ++ [t] } else w) k

/-- Put the end mark on every edge of an operator's outputs and mark it as fired (R116). -/
def Work.finishOp (k : Work) (im : Image) (op : Nat) : Work :=
  let w := im.edges.foldl (fun (w : Work) e =>
    if e.src = op then w.updPort e.dst e.dport fun p => { p with ended := true } else w) k
  { w with fired := w.fired ++ [op] }

/-- What an operator finds on its inputs. -/
inductive Feed where
  | wait
  | finish
  | toks (ts : List Token)

/-- A token of all the rows of a stream. -/
def Work.stream (k : Work) (l : Layout) (op port : Nat) : Token :=
  let ts := (k.at_ op port).toks
  { tokenOf l (ts.flatMap (·.rows)) with build := ts.flatMap (·.build) }

/-- The inputs of an operator. An item's operator takes one token on each port. In a run a row operator takes the next
token of each port, an ended port giving none, and passes the end mark on when all have ended (R115, R116). -/
def OpEnv.feed (e : OpEnv) (stream : Bool) : Feed :=
  let ports := List.range e.op.nin
  let at_ := fun (p : Nat) => e.work.at_ e.idx p
  let lay := fun (p : Nat) => (e.image.inLayout e.idx p).getD (.fields [])
  if !e.isRun then
    if ports.all fun p => !(at_ p).toks.isEmpty then .toks (ports.map fun p => ((at_ p).toks.head?).getD (tokenOf (lay p) []))
    else .wait
  else if stream then
    if ports.all fun p => (at_ p).ended then .toks (ports.map fun p => e.work.stream (lay p) e.idx p) else .wait
  else if ports.all fun p => (at_ p).ended && (at_ p).toks.isEmpty then .finish
  else if ports.all fun p => (at_ p).ended || !(at_ p).toks.isEmpty then
    .toks (ports.map fun p => ((at_ p).toks.head?).getD (tokenOf (lay p) []))
  else .wait

/-- Take one token from every input port. -/
def Work.take (k : Work) (op : Nat) : Work :=
  { k with toks := k.toks.map fun t => if t.op = op then { t with toks := t.toks.drop 1 } else t }

/-- Take every token from every input port. -/
def Work.takeAll (k : Work) (op : Nat) : Work :=
  { k with toks := k.toks.map fun t => if t.op = op then { t with toks := [] } else t }

/-- Split rows into tokens of up to 4,096. -/
def chunkRows : Nat → List Row → List (List Row)
  | 0, _ => []
  | n + 1, rows => if rows.isEmpty then [] else rows.take 4096 :: chunkRows n (rows.drop 4096)

/-- The scratch of a stone in courses. -/
def scratchCourses : Nat := 131072

/-- A token that exceeds R111: more than 4,096 rows, or more courses than a stone's scratch. -/
def Token.tooBig (t : Token) : Bool :=
  decide (4096 < t.rows.length) || decide (scratchCourses < t.rows.length * t.layout.imageSize)

/-- The sinks of a graph (R94). -/
def sinkCodes : List Nat := [0x11, 0x15, 0x16, 0x17, 0x18]

/-- End a run when every sink has received its end mark (R116); a build that disagrees with a probe context that is bound
by then ends it with its code (R132). -/
def State.checkRunEnd (s : State) (w : WorkRef) : State :=
  match w with
  | .item _ => s
  | .run n =>
    match s.runOf n with
    | none => s
    | some r =>
      let ops := ((s.ctxOf r.ctx).map fun c => c.image.ops).getD []
      let open_ := (List.range ops.length).any fun k =>
        sinkCodes.contains (((ops[k]?).map (·.code)).getD 0) && !(r.work.fired.contains k)
      if open_ then s
      else match s.publishFault n with
        | some code => s.workError w code 0
        | none => s.endRun n 0

/-- Emit tokens on the output ports of an operator, port by port, and mark it as fired: always in an item, at the end
of its stream in a run. -/
def State.emit (s : State) (e : OpEnv) (outs : List (Nat × Token)) (last : Bool) : State :=
  if outs.any fun o => o.2.tooBig then s.workError e.w 0x0385 0
  else
    let s1 := s.updWork e.w fun k => outs.foldl (fun (x : Work) o => x.deliver e.image e.idx o.1 o.2) k
    let s2 := if last then s1.updWork e.w fun k => k.finishOp e.image e.idx else s1
    s2.checkRunEnd e.w

/-- Charge a work, for a batch of it, for several resources in the order of R151's details; the detail of the first that
does not fit. -/
def State.chargeAll (s : State) (w : WorkRef) (batch : Option Nat) : List (Nat × Nat) → Except Nat State
  | [] => .ok s
  | (k, n) :: t =>
    match s.charge w batch k n with
    | some s1 => s1.chargeAll w batch t
    | none => .error k

/-- What the work of one firing comes to: the tokens to emit, or a code with its detail. -/
abbrev Fired := Except (Nat × Nat) (State × List (Nat × Token))

/-- A code with detail 0. -/
def liftCode {α : Type} (x : Except Nat α) : Except (Nat × Nat) α :=
  match x with
  | .ok a => .ok a
  | .error c => .error (c, 0)

/-- One firing of an operator: its inputs, its charges, its work, its outputs. With only zero-row inputs it costs
an item nothing unless `always` (R115); a run has no such exception (R565). -/
def State.fire (s : State) (w : WorkRef) (idx code : Nat) (stream always : Bool)
    (cost : OpEnv → List Token → List (Nat × Nat)) (body : State → OpEnv → List Token → Fired) : State :=
  match s.opEnv w idx code with
  | none => s
  | some e =>
    match e.feed stream with
    | .wait => s
    | .finish => s.emit e [] true
    | .toks ts =>
      let zero := ts.all fun t => t.rows.isEmpty
      let batch := (ts.head?).bind (·.batch)
      match s.chargeAll w batch (if zero && !always && !e.isRun then [] else cost e ts) with
      | .error d => s.workErrorB w batch 0x0381 d
      | .ok s1 =>
        match body (s1.updWork w fun k => if stream && e.isRun then k.takeAll idx else k.take idx) e ts with
        | .error (c, d) => s.workErrorB w batch c d
        | .ok (s2, outs) => s2.emit e (outs.map fun o => (o.1, { o.2 with batch := batch })) (!e.isRun || stream)

/-- The first input token. -/
def tok0 (ts : List Token) : Token := (ts.head?).getD (tokenOf (.fields []) [])

/-- The rows of the first input token. -/
def rows0 (ts : List Token) : Nat := (tok0 ts).rows.length

/-- The output of an operator with one output port: one token in an item, tokens of up to 4,096 rows of a stream. -/
def OpEnv.outRows (e : OpEnv) (rows : List Row) : List (Nat × Token) :=
  if e.isRun && decide (4096 < rows.length) then
    (chunkRows (rows.length + 1) rows).map fun r => (0, tokenOf (e.out 0) r)
  else [(0, tokenOf (e.out 0) rows)]

/-- The sticky OVERFLOW flag of a context (R67). -/
def State.overflow (s : State) (ctx : Nat) (b : Bool) : State :=
  if b then s.updCtx ctx fun c => { c with overflow := true } else s

/-! ### The B floor (R169) -/

/-- B_FLOOR_BAYS of R198. -/
def State.bFloorBays (s : State) : Nat := s.objNum 0x3400 3 [] 0 1

/-- B_FLOOR_BAYS as admission counts it: after the loss of a bay it shrinks to what remains outside the warm reserve
(R169). -/
def State.bFloor (s : State) : Nat :=
  if s.mason.lostBays.isEmpty then s.bFloorBays else min s.bFloorBays (s.liveBays.length - s.mason.warm.length)

/-- The bays of the B floor: live bays outside the warm reserve, as many as B_FLOOR_BAYS gives and remain. -/
def State.floorBays (s : State) : List Nat := (s.liveBays.filter fun b => !(s.mason.warm.contains b)).take s.bFloorBays

/-- The cycles B work has had on the floor's stones in the current window of 2,500 ticks. -/
def State.bUseNow (s : State) : Nat := if s.mason.bWindow = s.now / 2500 then s.mason.bUse else 0

/-- Count cycles of a B firing that ran on a bay. -/
def State.noteB (s : State) (w : WorkRef) (b n : Nat) : State :=
  match w with
  | .item _ => s
  | .run _ =>
    if s.floorBays.contains b then
      { s with mason := { s.mason with bUse := s.bUseNow + n, bWindow := s.now / 2500 } }
    else s

end Sys2Proof.Machine
end

