-- ==== Sys2Proof/Machine/Mortar.lean ====
section
/-! DEFINITION. Mortar (R172-R175): the entries an item or a batch of a run is granted, and the class and deadline an item
inherits from those that wait behind it (R179). -/

namespace Sys2Proof.Machine

/-! ### Inheritance (R179) -/

/-- The class and deadline a holder runs with: the highest class and the earliest deadline among it and the waiters of
higher class. -/
def inherit (i : Item) (waiters : List Item) : Nat × Tick :=
  let up := waiters.filter fun w => w.cls < i.cls
  ((up.map (·.cls)).foldl min i.inhCls, (up.map (·.deadline)).foldl min i.inhDeadline)

/-- The items behind the head of a flow. -/
def State.behind (s : State) (i : Item) : List Item :=
  (s.flowItems i.slice i.flowKey).filter fun x => i.seq < x.seq && x.answer.isNone

/-! ### Entries in use (R173) -/

/-- m of R173: the input ports of the operators with two or more. -/
def Image.mEntries (im : Image) : Nat := max 1 (sumNat ((im.ops.filter fun o => 2 ≤ o.nin).map (·.nin)))

/-- Entries held on a bay by the items that satisfy `p`. -/
def State.mortarUsed (s : State) (b : Nat) (p : Item → Bool) : Nat :=
  sumNat ((s.items.filter fun i => i.stage == .inService && i.bay == b && p i).map (·.mortar))

/-- A batch is still in its run's graph: a token of it waits, or a firing serves it. -/
def State.batchLive (s : State) (r : Run) (k : Nat) : Bool :=
  (r.work.toks.any fun t => t.toks.any fun x => x.batch == some k) ||
    s.cores.any fun e => match e.2.firing with
      | some f => f.w == .run r.num && f.batch == some k
      | none => false

/-- Entries held on a bay by the batches of the runs that satisfy `p`. A batch returns them when it has left the graph. -/
def State.mortarBatches (s : State) (b : Nat) (p : Run → Bool) : Nat :=
  sumNat ((s.runs.filter p).map fun r =>
    ((s.ctxOf r.ctx).map fun c => c.image.mEntries).getD 0 *
      (r.granted.filter fun e => e.2 == b && s.batchLive r e.1).length)

/-! ### Grants (R174, R179) -/

/-- Entries the G contexts hold in reserve on a bay (R174). -/
def State.mortarReserved (s : State) (b : Nat) : Nat :=
  if s.mason.warm.contains b then
    sumNat ((s.ctxs.filter fun c => c.cls == 0).map fun c => 2 * c.g * c.image.mEntries)
  else 0

/-- A context's reservation on a bay has room for `m` entries (R174). -/
def State.reserveFits (s : State) (b m ctx : Nat) : Bool :=
  match s.ctxOf ctx with
  | some c => c.cls == 0 && decide (s.mortarUsed b (fun x => x.drawn == some ctx) + m ≤ 2 * c.g * c.image.mEntries)
  | none => false

/-- The unreserved entries of a bay in use by the slices that satisfy `p`. -/
def State.unreservedUsed (s : State) (b : Nat) (p : Nat → Bool) : Nat :=
  s.mortarUsed b (fun x => x.drawn.isNone && p x.slice) + s.mortarBatches b fun r => p r.slice

/-- The unreserved entries of a bay have room for `m` of a slice, within its MORTAR_SHARE (R174, R411). -/
def State.unreservedFits (s : State) (b m sl : Nat) : Bool :=
  decide (s.unreservedUsed b (fun _ => true) + m ≤ 16384 - s.mortarReserved b) &&
    decide (s.unreservedUsed b (· == sl) + m ≤ s.objNum (0x4000 + sl) 14 [] 0 0)

/-- What an item's entries on a bay are drawn on: `some (some c)` the reservation of context c, `some none` the unreserved
entries, `none` nothing with room. A G item draws on its own context's reservation; an item that has inherited G class on
that of a waiter's context where it has room (R174, R179; assumption 48: DESIGN CHOICE). -/
def State.mortarDraw (s : State) (b : Nat) (i : Item) (c : Context) : Option (Option Nat) :=
  let m := c.image.mEntries
  let warm := s.mason.warm.contains b
  let lent := ((s.behind i).filter fun w => w.cls == 0).map (·.ctx)
  if i.cls = 0 ∧ warm then (if s.reserveFits b m i.ctx then some (some i.ctx) else none)
  else match (if warm then lent.find? (s.reserveFits b m) else none) with
    | some x => some (some x)
    | none => if s.unreservedFits b m i.slice then some none else none

/-- The bay on which a batch of a slice is granted `m` entries: the first live one with room among its unreserved entries,
of which B holds at most half (R174; assumption 48: DESIGN CHOICE). -/
def State.batchBay (s : State) (sl m : Nat) : Option Nat :=
  s.liveBays.find? fun b => s.unreservedFits b m sl &&
    decide (2 * (s.mortarBatches b (fun _ => true) + m) ≤ 16384 - s.mortarReserved b)

end Sys2Proof.Machine
end

