-- ==== Sys2Proof/Machine/RowOps.lean ====
section
/-! DEFINITION. What the operators compute on rows (05): sums (R69, R70, R139), order (R136), groups (R138), joins
(R131, R134, R135) and windows (R140). -/

namespace Sys2Proof.Machine

/-! ### Sums (R69, R70, R139) -/

/-- The accumulators of a sum: positive and negative, with their saturation. -/
structure Acc where
  pos : Nat
  neg : Nat
  posSat : Bool
  negSat : Bool

def accZero : Acc := ⟨0, 0, false, false⟩

/-- The limits of the two accumulators for a kind: R69 for DEC, the limits of UINT(8) or INT(8) otherwise (R70). -/
def accLimits (kind : Nat) : Nat × Nat :=
  if kind = 2 then (10 ^ 36 - 1, 10 ^ 36 - 1) else if kind = 1 then (2 ^ 96 - 1, 2 ^ 96 - 1) else (2 ^ 95 - 1, 2 ^ 95)

/-- One input of a sum. -/
def Acc.add (kind : Nat) (a : Acc) (v : Int) : Acc :=
  let lim := accLimits kind
  if 0 ≤ v then { a with pos := min lim.1 (a.pos + v.natAbs), posSat := a.posSat || decide (lim.1 < a.pos + v.natAbs) }
  else { a with neg := min lim.2 (a.neg + v.natAbs), negSat := a.negSat || decide (lim.2 < a.neg + v.natAbs) }

/-- The aggregate the accumulators form, and whether one saturated (R69). -/
def Acc.total (kind : Nat) (a : Acc) : Int × Bool :=
  let lim := accLimits kind
  if !a.posSat && !a.negSat then ((a.pos : Int) - a.neg, false)
  else if a.negSat && !a.posSat then (-(lim.2 : Int), true)
  else ((lim.1 : Int), true)

/-- A value fitted to an aggregate's type (R67, R70). -/
def fitTo (t o : TypeDesc) (v : Int) : List Course × Bool :=
  if o.kind = 2 then
    let r := fitDec t.param o.n o.param v
    (decCourses o.n r.1, r.2)
  else if o.kind = 1 then
    let r := satUint (12 * o.n) v
    (natCrs o.n r.1.toNat, r.2)
  else
    let r := satInt (12 * o.n) v
    (natCrs o.n (wrapTo (12 * o.n) r.1), r.2)

/-- The sum of values of a type, in an output type, with its saturation. -/
def sumOf (t o : TypeDesc) (vs : List Int) : List Course × Bool :=
  let a := (vs.foldl (Acc.add t.kind) accZero).total t.kind
  let r := fitTo t o a.1
  (r.1, a.2 || r.2)

/-- The numbers of the non-null values of a field over rows. -/
def numsOf (t : TypeDesc) (k : Nat) (rows : List Row) : Except Nat (List Int) :=
  exceptAll ((rows.filterMap fun r => r.get k).map fun cs => match numOf t cs with
    | some v => .ok v
    | none => .error 0x0383)

/-! ### Order (R136) -/

/-- Whether row `a` comes before row `b` by keys of field and flags; fields have been checked. -/
def rowBefore (ts : List TypeDesc) (a b : Row) : List (Nat × Nat) → Bool
  | [] => false
  | (k, fl) :: rest =>
    let desc := fl / 2048 % 2 = 1
    let first := fl / 1024 % 2 = 1
    match a.get k, b.get k with
    | none, none => rowBefore ts a b rest
    | none, some _ => first
    | some _, none => !first
    | some x, some y =>
      match cmpChecked (nth ts k tCode) x y with
      | .eq => rowBefore ts a b rest
      | .lt => !desc
      | .gt => desc

/-- The keys of SORT and TOP_K. -/
def Operator.sortKeys (o : Operator) : List (Nat × Nat) :=
  (List.range (o.par 0)).map fun i => (o.par (2 + 2 * i), o.par (3 + 2 * i))

/-- Rows in stable order. -/
def sortRows (ts : List TypeDesc) (ks : List (Nat × Nat)) (rows : List Row) : Except Nat (List Row) := do
  checkKeys ts (ks.map (·.1)) rows
  return sortBy (fun a b => rowBefore ts a b ks) rows

/-! ### Groups (R138) -/

/-- Enter a row in its group; groups stay in the order of their first row. -/
def groupInto (kt : List TypeDesc) (ks : List Nat) (r : Row) : List (List Row) → List (List Row)
  | [] => [[r]]
  | g :: gs =>
    match g.head? with
    | some f => if keysEq kt (f.getAll ks) (r.getAll ks) then (g ++ [r]) :: gs else g :: groupInto kt ks r gs
    | none => groupInto kt ks r gs

/-- A value as the device produces it: a decimal of magnitude 0 carries sign 0 (R66). -/
def produced (t : TypeDesc) (cs : List Course) : List Course :=
  match (if t.kind = 2 then decOf cs else none) with
  | some 0 => decCourses t.n 0
  | _ => cs

/-- The value of an aggregate over a group, and whether it saturated. -/
def aggregate (ts : List TypeDesc) (fn k : Nat) (rows : List Row) : Except Nat (Option (List Course) × Bool) :=
  let t := nth ts k tCode
  let vs := rows.filterMap fun r => r.get k
  let pick := fun (keep : Ordering) (a b : List Course) => if cmpChecked t b a == keep then b else a
  match fn with
  | 0 => .ok (some (natCrs 8 rows.length), false)
  | 1 => .ok (some (natCrs 8 vs.length), false)
  | 2 => do
    let ns ← numsOf t k rows
    if ns.isEmpty then return (none, false)
    let r := sumOf t (aggType 2 t) ns
    return (some r.1, r.2)
  | 3 => do
    checkKeys ts [k] rows
    return (vs.head?.map fun v => produced t (vs.foldl (pick .lt) v), false)
  | 4 => do
    checkKeys ts [k] rows
    return (vs.head?.map fun v => produced t (vs.foldl (pick .gt) v), false)
  | 5 => .ok (vs.head?, false)
  | _ => .ok (vs.getLast?, false)

/-- The output row of a group, with the saturation of its sums. -/
def groupRow (ts : List TypeDesc) (ks : List Nat) (as_ : List (Nat × Nat)) (rows : List Row) : Except Nat Row := do
  let vs ← exceptAll (as_.map fun a => aggregate ts a.1 a.2 rows)
  let first := (rows.head?).getD (rowOf [])
  let keyed : Row := { rowOf [] with ovf := vs.any (·.2) }
  let withKeys := ks.foldl (fun (r : Row) k => r.push (first.get k) (nth ts k tCode).size) keyed
  return (vs.zip as_).foldl (fun (r : Row) v => r.push v.1.1 (aggType v.2.1 (nth ts v.2.2 tCode)).size) withKeys

/-- GROUP_AGG over rows (R138). -/
def groupRows (ts : List TypeDesc) (ks : List Nat) (as_ : List (Nat × Nat)) (rows : List Row) : Except Nat (List Row) := do
  checkKeys ts ks rows
  let groups := if ks.isEmpty then [rows]
    else rows.foldl (fun gs r => groupInto (ks.map fun k => nth ts k tCode) ks r gs) []
  exceptAll (groups.map (groupRow ts ks as_))

/-! ### Joins (R131, R134, R135) -/

/-- Consecutive key fields from the first. -/
def keyFields (first n : Nat) : List Nat := (List.range n).map fun i => first + i

/-- Two rows joined; `none` gives null fields of the types. -/
def joinRows (lt rt : List TypeDesc) (l r : Option Row) : Row :=
  let nulls := fun (ts : List TypeDesc) =>
    ({ fields := ts.map fun t => List.replicate t.size 0, valid := ts.map fun _ => false, ovf := false } : Row)
  let a := l.getD (nulls lt)
  let b := r.getD (nulls rt)
  { fields := a.fields ++ b.fields, valid := a.valid ++ b.valid, ovf := a.ovf || b.ovf }

/-- The rows a probe row gives, and the matches dropped (R134). -/
def probeRow (pt bt : List TypeDesc) (pk bk : List Nat) (mode most : Nat) (build : List Row) (r : Row) : List Row × Nat :=
  let key := r.getAll pk
  let kt := pk.map fun k => nth pt k tCode
  let ms := if key.contains none then [] else build.filter fun b => keysEq kt key (b.getAll bk)
  let pairs := (ms.take most).map fun b => joinRows pt bt (some r) (some b)
  match mode with
  | 0 => (pairs, ms.length - most)
  | 1 => if ms.isEmpty then ([joinRows pt bt (some r) none], 0) else (pairs, ms.length - most)
  | 2 => (if ms.isEmpty then [] else [r], 0)
  | _ => (if ms.isEmpty then [r] else [], 0)

/-- A stream is in ascending key order with null keys last (R135). -/
def inOrder (kt : List TypeDesc) (ks : List Nat) : List Row → Bool
  | a :: b :: t =>
    let ka := a.getAll ks
    let kb := b.getAll ks
    (kb.contains none || (!(ka.contains none) && keysCmp kt ka kb != .gt)) && inOrder kt ks (b :: t)
  | _ => true

/-- Merge two streams of rows with non-null keys, key by key (R135). -/
def mergeRows (lt rt : List TypeDesc) (lk rk : List Nat) (mode : Nat) : Nat → List Row → List Row → List Row
  | 0, _, _ => []
  | fuel + 1, ls, rs =>
    let kt := lk.map fun k => nth lt k tCode
    let left := fun (x : List Row) => if 1 ≤ mode then x.map fun l => joinRows lt rt (some l) none else []
    let right := fun (x : List Row) => if mode = 2 then x.map fun r => joinRows lt rt none (some r) else []
    match ls, rs with
    | [], _ => right rs
    | _, [] => left ls
    | l :: _, r :: _ =>
      let kl := l.getAll lk
      let kr := r.getAll rk
      let gl := ls.takeWhile fun x => keysEq kt (x.getAll lk) kl
      let gr := rs.takeWhile fun x => keysEq kt (x.getAll rk) kr
      match keysCmp kt kl kr with
      | .lt => left gl ++ mergeRows lt rt lk rk mode fuel (ls.drop gl.length) rs
      | .gt => right gr ++ mergeRows lt rt lk rk mode fuel ls (rs.drop gr.length)
      | .eq => (gl.flatMap fun x => gr.map fun y => joinRows lt rt (some x) (some y)) ++
          mergeRows lt rt lk rk mode fuel (ls.drop gl.length) (rs.drop gr.length)

/-- MERGE_JOIN of two streams (R135). -/
def mergeJoin (lt rt : List TypeDesc) (lk rk : List Nat) (mode : Nat) (ls rs : List Row) : Except Nat (List Row) := do
  checkKeys lt lk ls
  checkKeys rt rk rs
  let ok := inOrder (lk.map fun k => nth lt k tCode) lk ls && inOrder (rk.map fun k => nth rt k tCode) rk rs
  if !ok then throw 0x038F
  let isNull := fun (ks : List Nat) (r : Row) => (r.getAll ks).contains none
  let l1 := ls.filter fun r => !(isNull lk r)
  let r1 := rs.filter fun r => !(isNull rk r)
  let body := mergeRows lt rt lk rk mode (ls.length + rs.length + 1) l1 r1
  let ln := if 1 ≤ mode then (ls.filter (isNull lk)).map fun l => joinRows lt rt (some l) none else []
  let rn := if mode = 2 then (rs.filter (isNull rk)).map fun r => joinRows lt rt none (some r) else []
  return body ++ ln ++ rn

/-! ### Hash keys (05, before R132) -/

/-- The hash of the key of a row: CRC-32C over the packed fields, with -0 as +0 and no bytes beyond a length. -/
def keyHash (ts : List TypeDesc) (ks : List Nat) (r : Row) : Nat :=
  crc32c (packBytes (ks.flatMap fun k =>
    let t := nth ts k tCode
    let cs := (r.get k).getD []
    if t.kind = 2 then decCourses t.n ((decOf cs).getD 0) else canonField t cs))

/-! ### Windows (R140) -/

/-- The window of a flow: the last tick recorded, if any, and the slot totals. -/
structure Win where
  last : Option Tick
  slots : List Int

/-- The courses of a slot. -/
def slotSize (fn : Nat) : Nat := if fn = 0 then 4 else 12

/-- A slot's total from its courses. -/
def slotOf (fn kind : Nat) (cs : List Course) : Int :=
  if fn = 0 then crsNat cs
  else if kind = 2 then (decOf cs).getD 0
  else if kind = 1 then crsNat (cs.drop 4)
  else signedOf 96 (crsNat (cs.drop 4))

/-- The courses of a slot's total. -/
def slotCourses (fn kind : Nat) (v : Int) : List Course :=
  if fn = 0 then natCrs 4 v.toNat
  else if kind = 2 then decCourses 12 v
  else List.replicate 4 0 ++ natCrs 8 (wrapTo 96 v)

/-- The limits of a slot. -/
def slotLimits (fn kind : Nat) : Int × Int :=
  if fn = 0 then (0, (2 ^ 48 - 1 : Nat))
  else if kind = 2 then (-(10 ^ 36 - 1 : Nat), (10 ^ 36 - 1 : Nat))
  else if kind = 1 then (0, (2 ^ 96 - 1 : Nat))
  else (-(2 ^ 95 : Nat), (2 ^ 95 - 1 : Nat))

/-- A window from its state; a flow with none is empty. -/
def winOf (fn kind nb : Nat) (cs : Option (List Course)) : Win :=
  match cs with
  | none => ⟨none, List.replicate nb 0⟩
  | some c =>
    let z := slotSize fn
    ⟨some (crsNat (c.take 5)), (List.range nb).map fun i => slotOf fn kind (slice c (5 + z * i) z)⟩

/-- The state of a window after an item at tick `t`. -/
def winCourses (fn kind : Nat) (t : Tick) (slots : List Int) : List Course :=
  natCrs 5 t ++ slots.flatMap (slotCourses fn kind)

/-- The slots of the buckets passed since the last tick, up to the present one, are zero. -/
def winAdvance (w nb b : Nat) (win : Win) : List Int :=
  match win.last with
  | none => win.slots
  | some l =>
    let passed := (List.range nb).filter fun k => decide (l / w + 1 + k ≤ b)
    if l / w + nb ≤ b then List.replicate nb 0
    else passed.foldl (fun (sl : List Int) k => sl.set ((l / w + 1 + k) % nb) 0) win.slots

/-- The rows of WINDOW_AGG: each with its RESULT, the slots after them, and whether anything saturated. -/
def winRows (fn : Nat) (t : TypeDesc) (field b nb : Nat) (committed : List Int) :
    List Row → List Int → List Int → Except Nat (List Row × List Int × Bool)
  | [], _, slots => .ok ([], slots, false)
  | r :: rest, cur, slots => do
    let v ← if fn = 0 then pure (some (1 : Int)) else
      match r.get field with
      | none => pure none
      | some cs => match numOf t cs with
        | some x => pure (some x)
        | none => throw 0x0383
    let kind := if fn = 0 then 1 else t.kind
    let lim := slotLimits fn kind
    let cur1 := match v with
      | some x => cur ++ [x]
      | none => cur
    let raw := nth slots (b % nb) 0 + v.getD 0
    let tot := max lim.1 (min lim.2 raw)
    let out := if fn = 0 then sumOf (tUint 8) (tUint 8) (committed ++ cur1) else sumOf t (aggType 2 t) (committed ++ cur1)
    let sat := out.2 || tot != raw
    let row := { r.push (some out.1) out.1.length with ovf := r.ovf || sat }
    let more ← winRows fn t field b nb committed rest cur1 (slots.set (b % nb) tot)
    return (row :: more.1, more.2.1, sat || more.2.2)

end Sys2Proof.Machine
end

