-- ==== Sys2Proof/Machine/Operators.lean ====
section
/-! DEFINITION. The operators (05): each fires by State.fire, with its charges of R149 and R565 and its work on rows.
Operators that wait on an engine are in Sys2Proof/Machine/EngineOps.lean. -/

namespace Sys2Proof.Machine

/-- A pass of rows through a port of the same layout. -/
def Token.with_ (t : Token) (rows : List Row) : Token := { t with rows := rows }

/-- An operator that emits rows on port 0 and changes nothing else. -/
def State.rowsOut (s : State) (e : OpEnv) (x : Except Nat (List Row)) : Fired :=
  match x with
  | .ok rows => .ok (s, e.outRows rows)
  | .error c => .error (c, 0)

/-- The ceiling of the binary logarithm of n + 1. -/
def log2Up (n : Nat) : Nat := if n = 0 then 0 else Nat.log2 n + 1

/-- The fields of a layout that rows of an input have. -/
def OpEnv.width (e : OpEnv) : Nat := imageSize (e.types 0)

/-! ### Ingress and records -/

/-- The ITEM row of an item (R457). Its RECORD_ADDR is set when a kernel's input area is laid out. -/
def itemRow (itemId arrival deadline len : Nat) : Row :=
  rowOf [natCrs 6 itemId, natCrs 5 arrival, natCrs 5 deadline, natCrs 2 len, natCrs 2 0]

/-- The BATCH row of a batch descriptor (R457). -/
def batchRow (k : Nat) (d : List Byte) : Row :=
  rowOf [natCrs 2 k, unpackBytes (slice d 0 6), unpackBytes (slice d 6 6), unpackBytes (slice d 12 6)]

/-- ITEM_IN (R122): the item's row, or the next batch of a run and at last the end mark. A batch enters once its Mortar
entries are granted; until then the source holds it (R173, R175). -/
def execItemIn (w : WorkRef) (op : Nat) (s : State) : Out :=
  .next <|
    match s.opEnv w op 0x01 with
    | none => s
    | some e =>
      match w with
      | .item q =>
        match s.itemOf q with
        | none => s
        | some i =>
          s.emit e [(0, tokenOf (e.out 0) [{ itemRow i.itemId i.arrival i.deadline i.record.length with record := i.record }])] true
      | .run n =>
        match s.runOf n with
        | none => s
        | some r =>
          let k := tgetD op 0 r.scanAt
          match r.batches[k]? with
          | none => s.emit e [] true
          | some d =>
            match s.batchBay e.slice e.image.mEntries with
            | none => s
            | some bay =>
            let row := if e.op.par 0 / 1024 = 1 then batchRow k d else { itemRow k r.start 0 d.length with record := d }
            (s.updRun n fun r => { r with
                scanAt := tset op (k + 1) r.scanAt
                granted := if r.granted.any fun x => x.1 == k then r.granted else r.granted ++ [(k, bay)] }).emit e
              [(0, { tokenOf (e.out 0) [row] with batch := some k })] false

/-- The record a DECODE reads of an input row: that of an ITEM row, or a BYTES field; `none` for a null field (R123). -/
def sourceOf (e : OpEnv) (r : Row) : Except Nat (Option (List Byte)) :=
  let src := e.op.par 1
  if src = 0xFFF then .ok (some r.record)
  else match r.get src with
    | none => .ok none
    | some cs =>
      match bytesOf (nth (e.types 0) src tCode) cs with
      | some bs => .ok (some bs)
      | none => .error 0x0382

/-- What Quarry makes of an input row of a DECODE (R123). -/
def decodeRow (e : OpEnv) (t : Template) (r : Row) : Except Nat Decoded :=
  match sourceOf e r with
  | .error c => .error c
  | .ok none => .ok { row := rowOf [], known := [], reject := some ⟨4, 0xFFF, 0⟩ }
  | .ok (some bs) => .ok (quarryDecode t e.image.bounds.quarryBytes bs)

/-- An input row's record is longer than QUARRY_BYTES: a cap is reached (R109). -/
def overQuarry (e : OpEnv) (r : Row) : Bool :=
  match sourceOf e r with
  | .ok (some bs) => decide (e.image.bounds.quarryBytes < bs.length)
  | _ => false

/-- Count in the context that a DECODE about to fire meets QUARRY_BYTES (R109, R199). -/
def State.noteQuarry (s : State) (w : WorkRef) (op : Nat) : State :=
  match s.opEnv w op 0x05 with
  | none => s
  | some e => match e.feed false with
    | .toks ts => s.countCap e.ctx ((ts.flatMap (·.rows)).any (overQuarry e))
    | _ => s

/-- The item decode keeps its row and what is decoded of it for the fallback's copies (R40, R95, R104). -/
def State.noteDecode (s : State) (w : WorkRef) (op : Nat) : State :=
  match w, s.opEnv w op 0x05 with
  | .item q, some e =>
    let fromItem := e.image.edges.any fun x =>
      x.dst == op && ((e.image.ops[x.src]?).map fun o => o.code == 0x01).getD false
    match e.feed false, e.image.templates[e.op.par 0]? with
    | .toks ts, some t =>
      match (tok0 ts).rows.head? with
      | some r =>
        match decodeRow e t r with
        | .ok d =>
          if fromItem then
            let s1 := s.updItem q fun i => { i with rowCourses := d.row.fields.flatMap id, rowKnown := d.known }
            (s1.itemOf q).elim s1 fun i => s1.tellReplica i.flowKey (.item i)
          else s
        | .error _ => s
      | none => s
    | _, _ => s
  | _, _ => s

/-- DECODE (R123): rows on port 0; in a run rejects on port 1; in an item a reject ends the item. -/
def execDecode (w : WorkRef) (op : Nat) (s : State) : Out :=
  .next <| ((s.noteDecode w op).noteQuarry w op).fire w op 0x05 false false (fun _ _ => []) fun t e ts =>
    match e.image.templates[e.op.par 0]? with
    | none => .ok (t, [])
    | some tm =>
      match exceptAll ((tok0 ts).rows.map (decodeRow e tm)) with
      | .error c => .error (c, 0)
      | .ok ds =>
        let rejects := ds.filterMap (·.reject)
        match rejects.head?, e.isRun with
        | some j, false => .error (0x0B00 + j.cause, j.field)
        | _, _ =>
          let rows := (ds.filter fun d => d.reject.isNone).map (·.row)
          let rejRow := fun (j : Rej) => rowOf [natCrs 1 j.cause, natCrs 1 j.field, natCrs 2 j.offset]
          .ok (t.overflow e.ctx (rows.any (·.ovf)),
            [(0, tokenOf (e.out 0) rows), (1, tokenOf (e.out 1) (rejects.map rejRow))])

/-- ENCODE (R124). -/
def execEncode (w : WorkRef) (op : Nat) (s : State) : Out :=
  .next <| s.fire w op 0x06 false false (fun _ _ => []) fun t e ts =>
    match e.image.templates[e.op.par 0]? with
    | none => .ok (t, [])
    | some tm => t.rowsOut e (exceptAll ((tok0 ts).rows.map fun r => do
        let bs ← quarryEncode tm r
        return { rowOf [bytesCourses 4095 bs] with ovf := r.ovf }))

/-! ### Column access, filtering and routing -/

/-- The rows of an ashlar row range of a table for the columns of a SCAN, and the lines read. -/
def scanRange (s : State) (tb : Table) (cols : List Nat) (k : Nat) : Except Nat (List Row × Nat) := do
  let as_ := cols.map fun c => (((nth tb.columns c [])[k]?).map (·.courses)).getD []
  let rs ← exceptAll (as_.map (ashlarRead s.dicts))
  let n := ((rs.head?).map fun r => r.vals.length).getD 0
  let row := fun (i : Nat) => rs.foldl (fun (r : Row) a => r.push (nth a.vals i none) a.type_.size) (rowOf [])
  return ((List.range n).map row, sumNat (as_.map fun a => ceilDiv a.length 128))

/-- A read raises the heat of the ashlars it reads (R193). -/
def State.heatUp (s : State) (sl id : Nat) (cols : List Nat) (k : Nat) : State :=
  { s with tables := mapIf (fun t => t.slice == sl && t.id == id) (fun t =>
      { t with columns := (List.range t.columns.length).map fun c =>
          let as_ := nth t.columns c []
          if cols.contains c then (List.range as_.length).map fun i =>
            let a := nth as_ i ⟨[], 0, 0, 0⟩
            if i = k then { a with heat := min 4095 (a.heat + 1) } else a
          else as_ }) s.tables }

/-- The tier of the farthest ashlar of a row range as it lies now (R193). -/
def State.scanTier (s : State) (sl id : Nat) (cols : List Nat) (k : Nat) : Nat :=
  match s.tables.find? fun t => t.slice == sl && t.id == id with
  | some tb => (cols.map fun c => (((nth tb.columns c [])[k]?).map (·.tier)).getD 0).foldl max 0
  | none => 0

/-- SCAN (R125): the next row range of the table as it stood at the start of the run, and at last the end mark. It waits
while an ashlar it reaches lies in the store (R193). -/
def execScan (w : WorkRef) (op : Nat) (s : State) : Out :=
  .next <|
    match s.opEnv w op 0x02, w with
    | some e, .run n =>
      match s.runOf n with
      | none => s
      | some r =>
        let id := e.op.par2 0
        let ncol := e.op.par 4
        let cols := e.op.pars 6 ncol
        let terms := termsOf (e.op.par 5) (e.op.params.drop (6 + evenUp ncol))
        match r.scans.find? fun t => t.id == id with
        | none => s.workError w 0x038C 0
        | some tb =>
          let same := s.tables.any fun t => t.slice == e.slice && t.id == id && t.cols == tb.cols
          let k := tgetD op 0 r.scanAt
          if !same then s.workError w 0x038C 0
          else if (nth tb.columns (nth cols 0 0) []).length ≤ k then s.emit e [] true
          else if s.scanTier e.slice id cols k = 2 then s
          else if s.scanTier e.slice id cols k = 3 then s.workError w 0x0602 0
          else match scanRange s tb cols k with
            | .error c => s.workError w c 0
            | .ok (rows, lines) =>
              match s.chargeAll w none [(2, 20 + (2 * ncol + 6 * e.op.par 5) * ceilDiv rows.length 64), (4, lines)] with
              | .error d => s.workError w 0x0381 d
              | .ok s1 =>
                match filterRows e.image (e.out 0).types terms rows with
                | .error c => s1.workError w c 0
                | .ok out =>
                  ((s1.heatUp e.slice id cols k).updRun n fun r => { r with scanAt := tset op (k + 1) r.scanAt }).emit e
                    [(0, tokenOf (e.out 0) out)] false
    | _, _ => s

/-- The cost of evaluating `t` terms over `n` rows (R149). -/
def termCost (t n : Nat) : List (Nat × Nat) := [(2, 20 + 6 * t * ceilDiv n 64)]

/-- FILTER (R126). -/
def execFilter (w : WorkRef) (op : Nat) (s : State) : Out :=
  .next <| s.fire w op 0x03 false false (fun e ts => termCost (e.op.par 0) (rows0 ts)) fun t e ts => do
    let rows ← liftCode (filterRows e.image (e.types 0) (termsOf (e.op.par 0) (e.op.params.drop 2)) (tok0 ts).rows)
    return (t, [(0, (tok0 ts).with_ rows)])

/-- The port a row takes: the first whose term is TRUE, else the last. -/
def routeOf (im : Image) (ts : List TypeDesc) (terms : List (List Course)) (r : Row) : Except Nat Nat := do
  let vs ← exceptAll (terms.map (evalTerm im ts r))
  return ((vs.findIdx? fun v => v == some true).getD terms.length)

/-- ROUTE (R127). -/
def execRoute (w : WorkRef) (op : Nat) (s : State) : Out :=
  .next <| s.fire w op 0x13 false false (fun e ts => termCost (e.op.nout - 1) (rows0 ts)) fun t e ts => do
    let terms := termsOf (e.op.nout - 1) (e.op.params.drop 2)
    let ps ← liftCode (exceptAll ((tok0 ts).rows.map (routeOf e.image (e.types 0) terms)))
    return (t, (List.range e.op.nout).map fun p =>
      (p, (tok0 ts).with_ ((((tok0 ts).rows.zip ps).filter fun x => x.2 == p).map (·.1))))

/-- UNION (R128): an item's inputs port by port; in a run the tokens of each port in turn. -/
def execUnion (w : WorkRef) (op : Nat) (s : State) : Out :=
  .next <|
    match s.opEnv w op 0x12 with
    | none => s
    | some e =>
      if !e.isRun then
        s.fire w op 0x12 false false (fun _ _ => []) fun t _ ts =>
          let first := (ts.find? fun x => !x.rows.isEmpty).getD (tok0 ts)
          .ok (t, [(0, first.with_ (ts.flatMap (·.rows)))])
      else
        let done := fun (p : Nat) => (e.work.at_ op p).ended && (e.work.at_ op p).toks.isEmpty
        match (List.range e.op.nin).find? fun p => !(done p) with
        | none => s.emit e [] true
        | some p =>
          match (e.work.at_ op p).toks with
          | [] => s
          | t :: rest => (s.updWork w fun k => k.updPort op p fun x => { x with toks := rest }).emit e [(0, t)] false

/-! ### Joins -/

/-- Lines of the longest bucket chain of a hash table (R132); a table of no rows has no chain. -/
def chainOf (hashes : List Nat) (size : Nat) : Nat := if hashes.isEmpty then 0 else Config.chainLines hashes size

/-- HASH_BUILD (R132). What it publishes is held to the probe contexts again when the run ends. -/
def execHashBuild (w : WorkRef) (op : Nat) (s : State) : Out :=
  .next <| s.fire w op 0x09 true true
    (fun e ts => [(2, 30 + 12 * rows0 ts), (4, rows0 ts * e.op.par 4)]) fun t e ts => do
    let ty := e.types 0
    let ks := keyFields (e.op.par 0) (e.op.par 1)
    let id := e.op.par2 2
    let rows := (tok0 ts).rows.filter fun r => !((r.getAll ks).contains none)
    let tab : HashTab := { slice := e.slice, id := id, rows := rows, layout := ty, keyField := e.op.par 0,
                           keyCount := e.op.par 1, chain := e.op.par 4 }
    liftCode (checkKeys ty ks rows)
    if !(t.hbmFits e.slice (tab.courses * (if t.hashBound tab then 2 else 1))) then throw (0x038D, 0)
    if e.op.par 4 < chainOf (rows.map (keyHash ty ks)) (imageSize ty) then throw (0x038E, 0)
    match t.buildFault tab with
    | some code => throw (code, 0)
    | none => pure ()
    let t1 := match w with
      | .run n => if id = 0 then t else t.updRun n fun r => { r with publishes := r.publishes ++ [tab] }
      | .item _ => t
    return (t1, [(0, { tokenOf (e.out 0) [rowOf [natCrs 5 rows.length]] with build := rows })])

/-- The build rows a HASH_PROBE searches: its local build, the version current at the run's start, or the current one
(R133). -/
def State.buildRows (s : State) (e : OpEnv) (local_ : List Row) : List Row :=
  let id := e.op.par2 2
  let find := fun (l : List HashTab) => ((l.find? fun t => t.slice == e.slice && t.id == id).map (·.rows)).getD []
  if id = 0 then local_
  else match e.w with
    | .item _ => find s.hashTables
    | .run n => ((s.runOf n).map fun r => find r.probes).getD []

/-- HASH_PROBE of one token of probe rows (R134). -/
def State.probe (s : State) (e : OpEnv) (batch : Option Nat) (rows build : List Row) : Fired := do
  let pt := e.types 0
  let (bt, bk0) := e.image.buildOf e.idx
  let pk := keyFields (e.op.par 0) (e.op.par 1)
  let bk := keyFields bk0 (e.op.par 1)
  liftCode (checkKeys pt pk rows)
  let outs := rows.map (probeRow pt bt pk bk (e.op.par 4) (e.op.par 5) build)
  let out := outs.flatMap (·.1)
  let cost := if rows.isEmpty && !e.isRun then [] else
    [(2, 30 + 12 * rows.length + 8 * out.length), (4, rows.length * e.op.par 6)]
  match s.chargeAll e.w batch cost with
  | .error d => throw (0x0381, d)
  | .ok s1 =>
    let s2 := s1.updCtx e.ctx fun c => { c with nMatchesDropped := c.nMatchesDropped + sumNat (outs.map (·.2)) }
    return (s2, [(0, tokenOf (e.out 0) out)])

/-- HASH_PROBE (R133, R134). In a run with a local build the build arrives whole before the first probe. -/
def execHashProbe (w : WorkRef) (op : Nat) (s : State) : Out :=
  .next <|
    match s.opEnv w op 0x0A with
    | none => s
    | some e =>
      let p0 := e.work.at_ op 0
      let ready := e.op.par2 2 ≠ 0 ∨ (e.work.at_ op 1).ended
      if !e.isRun then
        s.fire w op 0x0A false false (fun _ _ => []) fun t e ts => t.probe e none (tok0 ts).rows (t.buildRows e [])
      else if !ready then s
      else match p0.toks with
        | [] => if p0.ended then s.emit e [] true else s
        | t :: rest =>
          let build := s.buildRows e ((e.work.at_ op 1).toks.flatMap (·.build))
          match (s.updWork w fun k => k.updPort op 0 fun x => { x with toks := rest }).probe e t.batch t.rows build with
          | .error (c, d) => s.workErrorB w t.batch c d
          | .ok (s1, outs) => s1.emit e (outs.map fun o => (o.1, { o.2 with batch := t.batch })) false

/-- MERGE_JOIN (R135). -/
def execMergeJoin (w : WorkRef) (op : Nat) (s : State) : Out :=
  .next <| s.fire w op 0x0B true false (fun _ _ => []) fun t e ts => do
    let ls := (nth ts 0 (tokenOf (.fields []) [])).rows
    let rs := (nth ts 1 (tokenOf (.fields []) [])).rows
    let out ← liftCode (mergeJoin (e.types 0) (e.types 1) (keyFields (e.op.par 0) (e.op.par 2))
      (keyFields (e.op.par 1) (e.op.par 2)) (e.op.par 3) ls rs)
    let n := ls.length + rs.length
    match t.chargeAll w none [(2, 30 + 12 * n + 8 * out.length)] with
    | .error d => throw (0x0381, d)
    | .ok t1 => return (t1, e.outRows out)

/-! ### Ordering and aggregation -/

/-- SORT (R136). -/
def execSort (w : WorkRef) (op : Nat) (s : State) : Out :=
  .next <| s.fire w op 0x0C true false
    (fun e ts => [(2, 40 + 12 * rows0 ts * log2Up (rows0 ts)), (4, 2 * ceilDiv (rows0 ts * e.width) 128)]) fun t e ts =>
    if !(t.hbmFits e.slice (rows0 ts * e.width)) then .error (0x038D, 0)
    else t.rowsOut e (sortRows (e.types 0) e.op.sortKeys (tok0 ts).rows)

/-- TOP_K (R136). -/
def execTopK (w : WorkRef) (op : Nat) (s : State) : Out :=
  .next <| s.fire w op 0x0D true false (fun _ ts => [(2, 40 + 12 * rows0 ts)]) fun t e ts => do
    let rows ← liftCode (sortRows (e.types 0) e.op.sortKeys (tok0 ts).rows)
    return (t, [(0, (tok0 ts).with_ (rows.take (e.op.par 1)))])

/-- GROUP_AGG (R138). With NKEY 0 it works on zero rows too. -/
def execGroupAgg (w : WorkRef) (op : Nat) (s : State) : Out :=
  let noKey := match s.opEnv w op 0x0E with
    | some e => e.op.par 0 == 0
    | none => false
  .next <| s.fire w op 0x0E true noKey (fun e ts => [(2, 40 + rows0 ts * (8 + 4 * e.op.par 1))]) fun t e ts => do
    let rows := (tok0 ts).rows
    let out ← liftCode (groupRows (e.types 0) (e.op.pars 2 (e.op.par 0)) e.op.aggs rows)
    if e.isRun ∧ !(t.hbmFits e.slice (out.length * (e.out 0).imageSize)) then throw (0x038D, 0)
    return (t.overflow e.ctx (out.any (·.ovf)), e.outRows out)

/-- The window state of a flow, as committed. -/
def State.windowOf (s : State) (sl win : Nat) (key : List Byte) : Option (List Course) :=
  (s.windows.find? fun w => w.slice == sl && w.window == win && w.key == key).map (·.courses)

/-- WINDOW_AGG (R140): the rows with their RESULT; the update is kept with the item until its answer, and commits at once
when its RESULT has left. -/
def execWindowAgg (w : WorkRef) (op : Nat) (s : State) : Out :=
  .next <| s.fire w op 0x0F false false
    (fun e ts => [(2, 60 + e.op.par 3 + 8 * rows0 ts),
      (4, 2 * ceilDiv (5 + e.op.par 3 * slotSize (e.op.par 4)) 128)]) fun t e ts => do
    match w with
    | .run _ => return (t, [])
    | .item q =>
      match t.itemOf q with
      | none => return (t, [])
      | some i =>
        let nb := e.op.par 3
        let fn := e.op.par 4
        let ty := if fn = 0 then tUint 8 else nth (e.types 0) (e.op.par 5) tCode
        let kind := if fn = 0 then 1 else ty.kind
        let win := winOf fn kind nb (t.windowOf e.slice (e.op.par 6) i.flowKey)
        let width := crsNat (e.op.params.take 3) / nb
        let tick := max i.arrival (win.last.getD 0)
        let b := tick / width
        let rows := (tok0 ts).rows
        if rows.isEmpty then return (t, [(0, tokenOf (e.out 0) [])])
        let start := winAdvance width nb b win
        let (out, slots, sat) ← liftCode (winRows fn ty (e.op.par 5) b nb start rows [] start)
        let put := (e.op.par 6, winCourses fn kind tick slots)
        let t1 := if i.answer.isSome then t.commitWindows { i with windowPuts := [put] }
          else t.updItem q fun i => { i with windowPuts := i.windowPuts ++ [put] }
        return (t1.overflow e.ctx sat, [(0, tokenOf (e.out 0) out)])

/-! ### Flow state -/

/-- The STATE_GET of a context's graph, if any (R95). -/
def Image.stateGet (im : Image) : Option Operator := im.ops.find? fun o => o.code == 0x10

/-- STATE_GET_READ_DONE (R141): the lines the read started at entry have arrived. -/
def execStateGetReadDone (seq : Nat) (s : State) : Out :=
  .next <|
    match s.itemOf seq with
    | none => s
    | some i =>
      match ((s.ctxOf i.ctx).map fun c => c.image.stateGet).getD none with
      | none => s
      | some o =>
        if !(s.itemLive i) || i.stateReadDone then s
        else
          let f := s.flowState.find? fun f => f.slice == i.slice && f.space == o.par 1 && f.key == i.flowKey
          s.updItem seq fun i => { i with
            stateReadDone := true
            stateNew := f.isNone
            stateRead := fitList (o.par 0 * 128) 0 ((f.map (·.area)).getD []) }

/-- STATE_GET (R141): one STATE row once the read has completed and the trigger is present. -/
def execStateGet (w : WorkRef) (op : Nat) (s : State) : Out :=
  .next <|
    match w with
    | .run _ => s
    | .item q =>
      match s.itemOf q with
      | none => s
      | some i =>
        if !i.stateReadDone then s
        else s.fire w op 0x10 false true (fun _ _ => []) fun t e _ =>
          .ok (t, [(0, { tokenOf (e.out 0) [rowOf [natCrs 1 (if i.stateNew then 1 else 0), natCrs 2 0]] with
            area := i.stateRead })])

/-- STATE_PUT (R142): a one-row token's area goes out to be written through; a zero-row token writes nothing. -/
def execStatePut (w : WorkRef) (op : Nat) (s : State) : Out :=
  let after := fun (t : State) => match w with
    | .item q => t.retire q
    | .run _ => t
  .next <| after <| s.fire w op 0x11 false true (fun e ts => if rows0 ts = 0 then [] else [(4, e.op.par 0)]) fun t e ts => do
    match w with
    | .run _ => return (t, [])
    | .item q =>
      if rows0 ts = 0 then return (t, [])
      let n := e.op.par 0 * 128
      let need := ((t.itemOf q).map fun i => t.newArea { i with putStage := 1, putArea := List.replicate n 0, putSpace := e.op.par 1 }).getD 0
      if need ≠ 0 ∧ !(t.hbmFits e.slice (2 * need)) then throw (0x038A, 0)
      let area := fitList n 0 (tok0 ts).area
      let u := t.updItem q fun i => { i with putStage := 1, putArea := area, putSpace := e.op.par 1 }
      return (match u.itemOf q with
        | some i => if u.replicated i then u.tellReplica i.flowKey (.put q (e.op.par 1) area) else u
        | none => u, [])

/-! ### Egress -/

/-- The answer courses of a VERDICT_OUT's token (R145). -/
def verdictOf (e : OpEnv) (t : Token) : Except (Nat × Nat) (List Course) :=
  let n := e.op.par 0
  match t.rows with
  | [r] =>
    match r.get 0 with
    | none => .error (0x0387, 0)
    | some cs =>
      if t.layout = .fixed 6 0 then
        match bytesOf (tBytes 4095) cs with
        | none => .error (0x0382, 0)
        | some bs => if 3 * n < 2 * bs.length then .error (0x0388, 0) else .ok (fitList n 0 (unpackBytes bs))
      else .ok (fitList n 0 cs)
  | _ => .error (0x0387, 0)

/-- VERDICT_OUT (R145): the answer is on its way to the arbiter. -/
def execVerdictOut (w : WorkRef) (op : Nat) (s : State) : Out :=
  .next <| s.fire w op 0x15 false true (fun _ _ => [(6, 128)]) fun t e ts => do
    let a ← verdictOf e (tok0 ts)
    match w with
    | .item q => return (t.updItem q fun i => { i with verdict := some a }, [])
    | .run _ => return (t, [])

/-- RESULT_OUT (R146, R459): a token of rows becomes a result capsule. -/
def execResultOut (w : WorkRef) (op : Nat) (s : State) : Out :=
  .next <| s.fire w op 0x16 false false (fun _ _ => []) fun t e ts =>
    match w with
    | .item _ => .ok (t, [])
    | .run n =>
      match t.runOf n with
      | none => .ok (t, [])
      | some r =>
        let lay := (tok0 ts).layout
        let rows := (tok0 ts).rows
        if rows.isEmpty then .ok (t, [])
        else
          let cap : ResultOut :=
            { last := false, rq := e.op.par 0, slice := e.slice, ctx := e.ctx, gen := r.gen, run := n, seq := r.outSeq,
              rows := rows.map fun x => lay.image x, rowCourses := lay.imageSize, status := 0, total := 0, tx := false }
          let t1 := t.updRun n fun r => { r with outSeq := r.outSeq + 1, outRows := r.outRows + rows.length }
          .ok ({ t1 with host := { t1.host with results := t1.host.results ++ [cap] } }, [])

/-- LEDGER_APPEND (R147): the extension of the ledger record, unless the answer has left. -/
def execLedgerAppend (w : WorkRef) (op : Nat) (s : State) : Out :=
  let after := fun (t : State) => match w with
    | .item q => t.retire q
    | .run _ => t
  .next <| after <| s.fire w op 0x17 false false (fun e _ => [(6, ceilDiv (3 * e.op.par 0) 2)]) fun t e ts => do
    match w, (tok0 ts).rows with
    | .item q, [r] =>
      let ts0 := (tok0 ts).layout.types
      let cs := (List.range r.fields.length).flatMap fun k =>
        (r.get k).getD (List.replicate (nth ts0 k tCode).size 0)
      return (t.updItem q fun i =>
        if i.answer.isSome then i else { i with extension := fitList (e.op.par 0) 0 cs }, [])
    | .item _, _ :: _ :: _ => throw (0x0389, 0)
    | _, _ => return (t, [])

/-- TABLE_APPEND (R148): rows kept until the answer and the item's turn, or the end of the run. -/
def execTableAppend (w : WorkRef) (op : Nat) (s : State) : Out :=
  let after := fun (t : State) => match w with
    | .item q => t.settleAppends.retire q
    | .run _ => t
  .next <| after <| s.fire w op 0x18 false false (fun e ts => [(4, 1 + ceilDiv (rows0 ts * e.width) 128)]) fun t e ts => do
    let id := e.op.par2 0
    let rows := (tok0 ts).rows
    if rows.isEmpty then return (t, [])
    if !(t.tables.any fun x => x.slice == e.slice && x.id == id && x.cols == e.types 0) then throw (0x038C, 0)
    match rowsFault (e.types 0) rows with
    | some code => throw (code, 0)
    | none => pure ()
    match w with
    | .run n => return (t.updRun n fun r => { r with appends := r.appends ++ [(id, rows)] }, [])
    | .item q =>
      let answered := ((t.itemOf q).map fun i => i.answer.isSome).getD false
      if answered then return (t.joinTurn q id rows, [])
      return (t.updItem q fun i => { i with appends := i.appends ++ [(id, rows)] }, [])

end Sys2Proof.Machine
end

