-- ==== Sys2Proof/Machine/Ingress.lean ====
section
/-! DEFINITION. Items on their way into the graph: the capsule and its records (R454-R456), deadline and class (R30-R35),
the answer table and the flow table (R19, R176-R178), Mortar grants and the flow queues (R171-R175, R177, R179). -/

namespace Sys2Proof.Machine

/-! ### Item records (R454, R455) -/

/-- One item record. -/
structure ItemRec where
  itemId : Nat
  ctx : Nat
  ov : Nat
  flowField : List Byte
  record : List Byte
deriving DecidableEq, Repr

/-- The byte offset from `off` of the first non-zero byte. -/
def firstNonZero (off : Nat) (bs : List Byte) : Option Nat := (bs.findIdx? fun b => b != 0).map fun k => off + k

/-- The fields of a record with `n` record bytes. -/
def recOf (d : List Byte) (n : Nat) : ItemRec where
  itemId := beNat (d.take 8)
  ctx := beNat (slice d 8 2)
  ov := beNat (slice d 12 4)
  flowField := slice d 16 12
  record := slice d 30 n

/-- One record at the head of the data, which starts at capsule offset `off`: the record and the bytes it takes, or the
offset of the first failing byte. -/
def recordAt (off : Nat) (d : List Byte) : Except Nat (ItemRec × Nat) :=
  let lenField := beNat (slice d 10 2)
  let pad := (3 - lenField % 3) % 3
  if d.length < 30 then .error 16
  else if 16 ≤ (nth d 8 0).toNat then .error (off + 8)
  else if 16384 ≤ lenField then .error (off + 10)
  else match firstNonZero (off + 28) (slice d 28 2) with
    | some k => .error k
    | none =>
      if d.length < 30 + lenField + pad then .error (off + 10)
      else match firstNonZero (off + 30 + lenField) (slice d (30 + lenField) pad) with
        | some k => .error k
        | none => .ok (recOf d lenField, 30 + lenField + pad)

/-- All records of the data; data left over disagrees with the count. -/
def recordsOf : Nat → Nat → List Byte → Except Nat (List ItemRec)
  | 0, _, d => if d.isEmpty then .ok [] else .error 16
  | n + 1, off, d => do
    let (r, k) ← recordAt off d
    let rs ← recordsOf n (off + k) (d.drop k)
    return r :: rs

/-! ### Deadline and class (R30-R35) -/

/-- The override applies only when it tightens the deadline (R31). -/
def overrideOf (d ov : Nat) : Option Nat := if 1 ≤ ov ∧ ov < d then some ov else none

/-- The flow key of an item, or none when the record ends before it (R88). -/
def flowKeyOf (im : Image) (r : ItemRec) : Option (List Byte) :=
  if im.flowSrc = 1 then some (r.flowField.take im.flowBytes)
  else if r.record.length < im.flowOffset + im.flowBytes then none
  else some (slice r.record im.flowOffset im.flowBytes)

/-- One token of a context's bucket in credits (R35). -/
def oneToken : Nat := 25000000

/-- A G item is conforming at its arrival (R35). -/
def Context.conforms (c : Context) (flow : Nat) (ov : Option Nat) : Bool :=
  decide (oneToken ≤ c.credits) && decide (flow < c.image.bounds.flowBurst) &&
    (match ov with
      | some v => decide (c.dAdm ≤ v)
      | none => true)

/-! ### Answer-table and flow-table room (R19, R178, R187) -/

/-- The entries admission reserves for a context (R187). -/
def Context.reserved (c : Context) : Nat :=
  if c.cls = 0 then c.image.bounds.burst + ceilDiv (c.image.bounds.rate * c.image.deadline) 25000000 else 0

/-- What is left of the reservations of the G contexts that satisfy `p`, by what each holds. -/
def State.reservedLeft (s : State) (p : Context → Bool) (held : Context → Nat) : Nat :=
  sumNat ((s.ctxs.filter fun c => c.cls == 0 && p c).map fun c => c.reserved - held c)

/-- An answer-table entry is free for an item of a class (R19). -/
def State.entryFree (s : State) (sl ctx cls : Nat) : Bool :=
  let mine := ((s.ctxOf ctx).map Context.reserved).getD 0
  let held := fun (c : Context) => s.ctxEntriesUsed c.num
  if cls = 0 ∧ s.ctxEntriesUsed ctx < mine then true
  else
    decide (s.entriesUsed + s.reservedLeft (fun _ => true) held < 65536) &&
      decide (s.sliceEntriesUsed sl + s.reservedLeft (fun c => c.slice == sl) held < s.objNum (0x4000 + sl) 15 [] 0 0)

/-- The flows of a context's G items. -/
def State.ctxFlows (s : State) (ctx : Nat) : Nat :=
  ((s.items.filter fun i => i.inFlow && i.ctx == ctx && i.cls == 0).map (·.flowKey)).eraseDups.length

/-- A flow-table entry is free for an item: a flow that is active needs none; a G item always finds one (R178). -/
def State.flowFree (s : State) (sl cls : Nat) (key : List Byte) : Bool :=
  let held := fun (c : Context) => s.ctxFlows c.num
  decide (cls = 0) || !(s.flowItems sl key).isEmpty ||
    (decide (s.activeFlows.length + s.reservedLeft (fun _ => true) held < 131072) &&
      decide ((s.sliceFlows sl).length + s.reservedLeft (fun c => c.slice == sl) held < s.objNum (0x4000 + sl) 16 [] 0 0))

/-! ### Inheritance (R179) -/

/-- Pass class and deadline to the holder of a flow's lock. -/
def State.passOn (s : State) (sl : Nat) (key : List Byte) : State :=
  let waiters := (s.flowItems sl key).filter fun i => i.stage == .queued && i.answer.isNone
  let up := fun (i : Item) =>
    let (c, d) := inherit i waiters
    { i with inhCls := c, inhDeadline := d }
  { s with items := mapIf (fun i => i.lockHeld && i.sameFlow sl key) up s.items }

/-! ### Entering (R18 steps 3 to 6) -/

/-- The item takes its flow-table entry and its place in the flow queue, or is held for one. -/
def State.enterFlow (s : State) (seq : Nat) : State :=
  match s.itemOf seq with
  | none => s
  | some i =>
    if i.cause ≠ 0 then s.updItem seq fun i => { i with stage := .heldFlow }
    else if s.flowFree i.slice i.cls i.flowKey then
      let home := s.bucketHome (flowBucket i.flowKey)
      (s.updItem seq fun i => { i with stage := .queued, bay := home }).passOn i.slice i.flowKey
    else
      let s1 := if i.stage = .heldFlow then s else s.bump 0x3400 5 [] 0
      s1.updItem seq fun i => { i with stage := .heldFlow }

/-- The item takes its answer-table entry, or is held for one (R19). -/
def State.enterTable (s : State) (seq : Nat) : State :=
  match s.itemOf seq with
  | none => s
  | some i => if s.entryFree i.slice i.ctx i.cls then s.enterFlow seq else s

/-- A new item, held at ingress with its deadline fixed. -/
def newItem (seq sl gen iq port : Nat) (arrival deadline : Tick) (ov : Bool) (cls : Nat) (demoted : Bool) (cause : Nat)
    (key : List Byte) (r : ItemRec) : Item where
  seq := seq
  slice := sl
  gen := gen
  ctx := r.ctx
  itemId := r.itemId
  iq := iq
  port := port
  arrival := arrival
  deadline := deadline
  override_ := ov
  record := r.record
  flowKey := key
  cls := cls
  demoted := demoted
  inhCls := cls
  inhDeadline := deadline
  stage := .heldAnswer
  bay := 0
  work := workEmpty
  rowCourses := []
  rowKnown := []
  cause := cause
  verdict := none
  verdictTick := none
  answer := none
  putStage := 0
  putArea := []
  putSpace := 0
  replicaAcked := false
  windowPuts := []
  appends := []
  stateReadDone := false
  stateRead := []
  stateNew := false
  mortar := 0
  drawn := none
  lockHeld := false
  ended := false
  hashReady := false
  extension := []
  recorded := false
  acked := false
  mirrored := false
  sent := false
  replays := 0
  moved := false
  faulted := false

/-- The context of a record takes items: loaded, of the slice, G or D class, not being unloaded (R456). -/
def State.ctxTakes (s : State) (sl n : Nat) : Option Context :=
  (s.ctxOf n).filter fun c => c.slice == sl && c.image.cls != 2 && c.state != 3

/-- The answer capsule of a record that is not admitted (R456). -/
def invalidAnswer (aq sl gen port now : Nat) (r : ItemRec) : AnswerOut :=
  { aq := aq, slice := sl, ctx := r.ctx, gen := gen, itemId := r.itemId, arrival := now, tick := now, flags := 0,
    status := 0x010E, answer := [], port := port, tx := false }

/-- One record of an accepted capsule, in record order (R456, R31, R35, R48, R88). -/
def State.takeRecord (sl gen iq port aq : Nat) (s : State) (r : ItemRec) : State :=
  let seq := s.nextSeq
  let s0 : State := { s with nextSeq := seq + 1 }
  match s0.ctxTakes sl r.ctx with
  | none =>
    let s1 := s0.bump 0x1120 4 [] sl
    { s1 with host := { s1.host with answers := s1.host.answers ++ [invalidAnswer aq sl gen port s1.now r] } }
  | some c =>
    let ov := overrideOf c.image.deadline r.ov
    let key := flowKeyOf c.image r
    let flow := (s0.flowItems sl (key.getD [])).length
    let conf := c.cls == 0 && c.conforms flow ov
    let demoted := c.cls == 0 && !conf
    let cls := if conf then 0 else 1
    let cause := if key.isNone then 2 else if cls = 1 ∧ s0.therm.shedding then 5 else 0
    let deadline := s0.now + ov.getD c.image.deadline
    let i := newItem seq sl gen iq port s0.now deadline ov.isSome cls demoted cause (key.getD []) r
    let s1 := s0.bump 0x1120 3 [] sl
    let s2 := s1.updCtx c.num fun c => { c with
      nItems := c.nItems + 1, credits := if conf then c.credits - oneToken else c.credits,
      nDemoted := if demoted then c.nDemoted + 1 else c.nDemoted }
    let s3 := if demoted then s2.bump 0x3002 7 [] sl else s2
    let capped := c.cls == 0 && !(c.conforms flow none)
    let s4 := (if key.isNone then s3.recordSlice sl c.num 0x0B04 (endInfo seq 0xFFF) none else s3).countCap c.num capped
    (({ s4 with items := s4.items ++ [i] } : State).tellReplica i.flowKey (.item i)).enterTable seq

/-! ### The capsule (R448, R454-R456) -/

/-- The checks 1 to 7 of R448 on an item capsule: its queue, or the refusal with its detail. -/
def State.itemChecks (s : State) (h : CmdHdr) (param : List Byte) : Except (Nat × Nat) (Binding × Queue) :=
  match firstNonZero 18 (param.drop 2), s.bindingOf h.pid with
  | some k, _ => .error (0x0101, k)
  | none, none => .error (0x0901, 4)
  | none, some b =>
    if h.gen ≠ s.genOf b.slice then .error (0x0902, 6)
    else if b.role ≠ 0 then .error (0x0904, 0)
    else match s.queueOf b.slice h.qid with
      | none => .error (0x0106, 10)
      | some q => if q.kind ≠ 2 then .error (0x0107, 10) else .ok (b, q)

/-- The records of a capsule, or the offset of the first byte that breaks R454 or R455. -/
def itemRecords (h : CmdHdr) (param data : List Byte) : Except Nat (List ItemRec) :=
  let n := beNat (param.take 2)
  match h.descs.findIdx? fun d => d != 0 with
  | some k => .error (32 + 8 * k)
  | none => if n = 0 ∨ 64 < n then .error 16 else recordsOf n 64 data

/-- ITEM_SUBMIT (R456): every record is parsed before any is stamped; then each is admitted or answered. -/
def execItemSubmit (h : CmdHdr) (port : Nat) (param data : List Byte) (s : State) : Out :=
  .next <|
    if s.power.frozen then s
    else match s.itemChecks h param with
      | .error (code, detail) => s.refuse h code detail
      | .ok (b, q) =>
        let st := (s.sliceOf b.slice).state
        let here := fun (a : Accepted) => a.is b.slice h 0x0080
        let drop := fun (t : State) =>
          ({ t with host := { t.host with accepted := t.host.accepted.filter fun a => !(here a) } } : State)
        if st = 2 then
          (if (s.acceptedFrom h 0x0080).isSome then s.keepRow (.itemSubmit h port param data) h 0x0080
           else { s with host := { s.host with
              accepted := s.host.accepted ++ [(⟨h.pid, b.role, b.slice, h.qid, h.cid, 0x0080, port,
                some (.itemSubmit h port param data)⟩ : Accepted)] } })
        else if st ≠ 1 then (drop s).refuse h 0x0905 0
        else match itemRecords h param data with
          | .error off => (drop s).refuse h 0x010D off
          | .ok rs =>
            let s1 := (drop s).bump 0x1120 1 [] b.slice
            let s2 : State := { s1 with host := { s1.host with
              queues := putQueue { q with accepted := q.accepted + 1 } s1.host.queues } }
            rs.foldl (State.takeRecord b.slice h.gen h.qid port q.pair) s2

/-- ITEM_INGRESS_RELEASE (R19, R178): an item held at ingress takes the entry that has become free. -/
def execItemIngressRelease (seq : Nat) (s : State) : Out :=
  .next <|
    match s.itemOf seq with
    | none => s
    | some i =>
      if i.answer.isSome ∨ i.gen ≠ s.genOf i.slice then s
      else match i.stage with
        | .heldAnswer => s.enterTable seq
        | .heldFlow => s.enterFlow seq
        | _ => s

/-! ### Leaving the flow queue (R171, R177) -/

/-- The head of its flow's queue: no item of the flow in service, none queued before it (R177). -/
def State.flowHead (s : State) (i : Item) : Bool :=
  i.stage == .queued && i.answer.isNone && i.cause == 0 && i.gen == s.genOf i.slice &&
    !((s.flowItems i.slice i.flowKey).any fun x => x.stage == .inService || x.lockHeld || decide (x.seq < i.seq))

/-- The item may leave its queue on a bay: it is the head, its bucket is homed here and does not move, and its Mortar
entries are granted. -/
def State.mayLeave (s : State) (b : Nat) (i : Item) : Bool :=
  let k := flowBucket i.flowKey
  s.flowHead i && s.bucketHome k == b && !(s.mason.moves.any fun m => m.1 == k) &&
    ((s.ctxOf i.ctx).any fun c => (s.mortarDraw b i c).isSome)

/-- The first of the items free to leave: G before D, each by earliest deadline (R171, R179). -/
def State.chooseLeave (s : State) (b : Nat) : Option Item :=
  let rank := fun (i : Item) => let (c, d) := inherit i (s.behind i); (c, d, i.seq)
  let lt := fun (x y : Item) =>
    let (c, d, q) := rank x
    let (c', d', q') := rank y
    decide (c < c') || (c == c' && (decide (d < d') || (d == d' && decide (q < q'))))
  (sortBy lt (s.items.filter (s.mayLeave b))).head?

/-- FLOW_QUEUE_LEAVE (R171): the item enters service on its home bay with its Mortar entries and its flow lock; its
state read is issued and charged (R18 step 8, R149). -/
def execFlowQueueLeave (bay : Nat) (s : State) : Out :=
  .next <|
    if !(s.bayLive bay) ∨ (tgetD bay (⟨0, 0, none⟩ : BayPower) s.power.bays).state ≠ 0 then s
    else match s.chooseLeave bay with
      | none => s
      | some i =>
        match s.ctxOf i.ctx with
        | none => s
        | some c =>
          let s1 := (s.updItem i.seq fun i => { i with
            stage := .inService, bay := bay, mortar := c.image.mEntries, drawn := (s.mortarDraw bay i c).getD none,
            lockHeld := true }).passOn i.slice i.flowKey
          match c.image.stateGet with
          | none => s1
          | some o =>
            match s1.charge (.item i.seq) none 4 (o.par 0) with
            | some s2 => s2
            | none => s1.workError (.item i.seq) 0x0381 4

end Sys2Proof.Machine
end

