-- ==== Sys2Proof/Machine/Arbiter.lean ====
section
/-! DEFINITION. The answer arbiter (R36-R39), double faults of its tables (R495), the acknowledgements that return an
item's lock and copy (R20-R23), the mirror of answers (R50) and replays (R43). -/

namespace Sys2Proof.Machine

/-! ### A verdict reaches the arbiter (R20, R36, R38) -/

/-- A result that is never released: counted, its STATE_PUT cancelled (R38). -/
def State.lateDiscard (s : State) (i : Item) : State :=
  (s.bump 0x3002 1 [] i.slice).updItem i.seq fun i => { i with
    verdict := none, verdictTick := none, putStage := if i.putStage = 0 then 0 else 3, windowPuts := [], appends := [] }

/-- The graph of an item holds a STATE_PUT that has not fired. -/
def State.putToFire (s : State) (i : Item) : Bool :=
  (s.ctxOf i.ctx).any fun c => (List.range c.image.ops.length).any fun k =>
    (c.image.ops[k]?).any (fun o => o.code == 0x11) && !(i.work.fired.contains k)

/-- In a group the verdict of a G item waits for the replica's acknowledgement of its STATE_PUT, whatever cause another
event has decided (R20). -/
def State.offerWaits (s : State) (i : Item) : Bool :=
  s.replicated i && !i.replicaAcked && (i.putStage != 0 || s.putToFire i)

/-- ARBITER_RESULT_ARRIVAL: the arbiter tick of the result is the present one; a result that meets an answered entry, or
comes after its deadline, is discarded (R36-R38). -/
def execArbiterResultArrival (seq : Nat) (s : State) : Out :=
  .next <|
    match s.itemOf seq with
    | none => s
    | some i =>
      if i.verdict.isNone ∨ i.verdictTick.isSome then s
      else if i.answer.isSome then (s.lateDiscard i).retire seq
      else if s.offerWaits i then s
      else if i.deadline < s.now then s.lateDiscard i
      else s.updItem seq fun i => { i with verdictTick := some s.now }

/-! ### Parity of the tables (R495) -/

/-- A double fault: its record, HEALTH 3 (R495). -/
def State.doubleFault (s : State) : State :=
  let s1 := s.record 0 0 0 0x0687 0
  { s1 with err := { s1.err with doubleFault := true } }

/-- The firing of an item ends and R43 decides whether it replays. -/
def State.faultItem (s : State) (seq : Nat) : State :=
  (s.updItem seq fun i => if i.answer.isNone ∧ i.cause = 0 then { i with faulted := true } else { i with ended := true }).endFirings
    (.item seq)

/-- The fallback FAULT with KEY_INCOMPLETE, at the tick of discovery. -/
def State.releaseLost (s : State) (seq : Nat) : State :=
  let s1 := (s.updItem seq fun i => { i with cause := 4 }).releaseFallback seq
  s1.updItem seq fun i => { i with answer := i.answer.map fun a => { a with flags := a.flags ||| 0x020 } }

/-- One parity error of the answer table (0), the flow table (1) or a Mortar tag (2). -/
def State.tableParity (s : State) (p : ParityObs) : State :=
  match s.itemOf p.seq with
  | none => s
  | some i =>
    if i.stage = .done then s
    else if !p.both then s.record 0 0 0 0x0685 0
    else
      let s1 := s.doubleFault
      if p.table = 0 then (if i.answer.isSome then s1 else s1.releaseLost p.seq)
      else if p.table = 1 then ((s1.flowItems i.slice i.flowKey).map (·.seq)).foldl State.faultItem s1
      else if i.stage = .inService then s1.faultItem p.seq
      else s1

/-! ### The two phases of a tick (R37) -/

/-- An unanswered item of the current generation. -/
def State.unanswered (s : State) (i : Item) : Bool := i.answer.isNone && i.stage != .done && i.gen == s.genOf i.slice

/-- Phase 1: a result whose arbiter tick is not after the present tick and its deadline. -/
def State.resultDue (s : State) (i : Item) : Bool :=
  s.unanswered i && i.verdictTick.any fun t => decide (t ≤ s.now ∧ t ≤ i.deadline)

/-- Phase 2: a decided cause, or the deadline. -/
def State.fallbackDue (s : State) (i : Item) : Bool := s.unanswered i && (i.cause != 0 || decide (i.deadline ≤ s.now))

/-- The sequence numbers of the items that satisfy `p`, in order. -/
def State.seqsOf (s : State) (p : Item → Bool) : List Nat := (s.items.filter p).map (·.seq)

/-- An item whose deadline arrives while it has no answer-table entry is shed (R19). -/
def State.shedHeld (s : State) (seq : Nat) : State :=
  s.updItem seq fun i => if i.stage = .heldAnswer then i.decide 5 else i

/-- An unanswered item of an old generation whose firing has left its stone: its answer is discarded at the arbiter (R23,
R402). -/
def State.discarded (s : State) (i : Item) : Bool :=
  i.answer.isNone && i.gen != s.genOf i.slice && !(s.hasFiring (.item i.seq))

/-- Such items return their entries, locks and ingress copies. -/
def State.dropDiscarded (s : State) : State :=
  if s.items.any s.discarded then
    ({ s with items := s.items.filter fun i => !(s.discarded i) } : State).settleAppends.settleUnloads
  else s

/-- ARBITER_TICK: the parity errors met, what an old generation left unanswered, then phase 1, then phase 2. After the freeze
of a save nothing is released (R520), nor by a member in a minority (R433). -/
def execArbiterTick (parity : List ParityObs) (s : State) : Out :=
  .next <|
    if s.power.frozen ∨ s.group.minority then s
    else
      let s1 := (parity.foldl State.tableParity s).dropDiscarded
      let s2 := (s1.seqsOf s1.resultDue).foldl State.releaseResult s1
      let due := s2.seqsOf s2.fallbackDue
      due.foldl (fun (t : State) q => (t.shedHeld q).releaseFallback q) s2

/-! ### Acknowledgements (R20-R23, R39) -/

/-- FIRING_END_CONFIRM: the stone confirms the end of a signalled firing (R39). -/
def execFiringEndConfirm (seq : Nat) (s : State) : Out :=
  .next <|
    match s.itemOf seq with
    | none => s
    | some i =>
      if i.answer.isSome ∧ i.cause ≠ 0 then
        ((s.endFirings (.item seq)).updItem seq fun i => { i with ended := true }).retire seq
      else s

/-- STATE_PUT_ACK: the write-through is acknowledged; with a released result its state becomes visible (R21, R142). -/
def execStatePutAck (seq : Nat) (s : State) : Out :=
  .next <|
    match s.itemOf seq with
    | none => s
    | some i =>
      if i.putStage ≠ 1 then s
      else
        let s1 := s.updItem seq fun i => { i with putStage := 2 }
        let s2 := if i.answer.isSome ∧ i.cause = 0 then s1.commitPut i else s1
        s2.retire seq

/-- The replica has acknowledged the mirrored STATE_PUT of an item (R20). -/
def State.replicaAck (s : State) (seq : Nat) : State :=
  match s.itemOf seq with
  | none => s
  | some i =>
    if s.replicated i ∧ (i.putStage = 1 ∨ i.putStage = 2) then
      (s.updItem seq fun i => { i with replicaAcked := true }).retire seq
    else s

/-- The replica holds the mirrored answer of an item (R50). -/
def State.mirrorAck (s : State) (seq : Nat) : State :=
  match s.itemOf seq with
  | none => s
  | some i => if s.group.grouped ∧ i.answer.isSome then s.updItem seq fun i => { i with mirrored := true } else s

/-- REPLICA_STATE_ACK (R20). -/
def execReplicaStateAck (seq : Nat) (s : State) : Out := .next (s.replicaAck seq)

/-- ANSWER_MIRROR_ACK (R50). -/
def execAnswerMirrorAck (seq : Nat) (s : State) : Out := .next (s.mirrorAck seq)

/-! ### Replay (R43) -/

/-- The item as it stood when it left its queue, on a bay. The key fields copied when Quarry finished decoding stay
copied (R40). -/
def Item.again (i : Item) (bay : Nat) : Item :=
  { i with
    work := workEmpty, verdict := none, verdictTick := none,
    putStage := 0, putArea := [], replicaAcked := false, windowPuts := [], appends := [], stateReadDone := false,
    stateRead := [], stateNew := false, extension := [], replays := i.replays + 1, faulted := false, bay := bay }

/-- Put an item back into its graph from its ingress copy; its state read is issued again. -/
def State.replay (s : State) (i : Item) : State :=
  let s1 := (s.endFirings (.item i.seq)).updItem i.seq fun x => x.again (s.bucketHome (flowBucket i.flowKey))
  match ((s.ctxOf i.ctx).map fun c => c.image.stateGet).getD none with
  | none => s1
  | some o => (s1.charge (.item i.seq) none 4 (o.par 0)).getD s1

/-- ITEM_REPLAY: the item is replayed when the time that remains is at least SERVICE; otherwise its cause is FAULT. -/
def execItemReplay (seq : Nat) (s : State) : Out :=
  .next <|
    match s.itemOf seq with
    | none => s
    | some i =>
      if !i.faulted then s
      else if i.answer.isSome ∨ i.cause ≠ 0 then
        (s.updItem seq fun i => { i with faulted := false, ended := true }).retire seq
      else
        let service := ((s.ctxOf i.ctx).map fun c => c.image.bounds.service).getD 0
        if i.deadline < s.now + service then s.updItem seq fun i => { i with faulted := false, cause := 4 }
        else if i.stage = .inService then s.replay i
        else s.updItem seq fun i => { i with faulted := false }

/-! ### The input hash (R370) -/

/-- INPUT_HASH_READY: the port's hasher has the SHA-384 of the record bytes. -/
def execInputHashReady (seq : Nat) (s : State) : Out := .next (s.updItem seq fun i => { i with hashReady := true })

end Sys2Proof.Machine
end

