-- ==== Sys2Proof/Machine/ChiselMemory.lean ====
section
/-! DEFINITION. Loads and stores of Chisel (R221-R225): the work area, the input area and memory; fence. -/

namespace Sys2Proof.Machine

/-- The effective address ra + OFF, modulo 2^60 (R221). -/
def Core.addr (c : Core) (ra : Fin 32) (off : BitVec 13) : Nat := (c.sr ra.val + off.signExtend 60).toNat

/-- A scalar access lies within one line (R222). -/
def alignedS (a n : Nat) : Bool := decide (a % 128 + n ≤ 128)

/-- A vector access starts at a multiple of 64 courses (R222). -/
def alignedV (a : Nat) : Bool := decide (a % 64 = 0)

/-- The 64 lanes a vector form enables (R205, R221). -/
def Core.lanesOn (c : Core) (g : Fin 8) (e : Fin 4) : List Bool :=
  (List.range 64).map fun k => c.elemOn g (k / elemSize e)

/-- An enabled lane lies beyond an area (R205, R221). -/
def laneBeyond (mask : List Bool) (a size : Nat) : Bool :=
  (List.range 64).any fun k => nth mask k false && decide (size ≤ a + k)

/-- The low n courses of a scalar register, as a store writes them (R221). -/
def Core.storeCourses (c : Core) (rd : Fin 32) (n : Nat) : List Course := (scalarCourses (c.sr rd.val)).drop (5 - n)

/-- The value of a scalar load (R221). -/
def loadValue (x : Bool) (n : Nat) (cs : List Course) : Scalar :=
  if x then BitVec.ofInt 60 (signedOf (12 * n) (crsNat cs)) else scalarOf (crsNat cs)

/-- The lanes of a vector load over the old register (R205). -/
def maskLanes (mask : List Bool) (old new : List Course) : Vec :=
  vecOf ((List.range 64).map fun k => if nth mask k false then nth new k 0 else nth old k 0)

/-! ### The work area and the input area -/

/-- A scalar load from an area; ALIGN is checked first, and `bad` is a parity error of the scratch read (R222, R298). -/
def State.areaLoad (s : State) (u : CoreId) (g : Fin 8) (inp : Bool) (n : Nat) (x : Bool) (rd ra : Fin 32)
    (off : BitVec 13) (bad : Bool) : Out :=
  s.tryOp u g (infoS 3 (rS [ra] ++ if inp then [] else [rWork]) (rS [rd]) (inRange 1 5 n)) fun c =>
    let a := c.addr ra off
    if !(alignedS a n) then .error 0x03C4
    else if (if inp then c.inputSize else c.workSize) < a + n then .error (if inp then 0x03C3 else 0x0384)
    else if bad then .error 0x0605
    else .ok (c.setS rd.val (loadValue x n (if inp then c.inputRead a n else c.workRead a n)))

/-- ls.N (R221). -/
def execLs (u : CoreId) (g : Fin 8) (n : Nat) (x : Bool) (rd ra : Fin 32) (off : BitVec 13) (bad : Bool) (s : State) :
    Out :=
  s.areaLoad u g false n x rd ra off bad

/-- lt.N (R221). -/
def execLt (u : CoreId) (g : Fin 8) (n : Nat) (x : Bool) (rd ra : Fin 32) (off : BitVec 13) (bad : Bool) (s : State) :
    Out :=
  s.areaLoad u g true n x rd ra off bad

/-- ss.N (R221). -/
def execSs (u : CoreId) (g : Fin 8) (n : Nat) (rd ra : Fin 32) (off : BitVec 13) (s : State) : Out :=
  s.tryOp u g (infoS 1 (rS [rd, ra]) [rWork] (inRange 1 5 n)) fun c =>
    let a := c.addr ra off
    if !(alignedS a n) then .error 0x03C4
    else if c.workSize < a + n then .error 0x0384
    else .ok (c.workWrite a ((c.storeCourses rd n).map some))

/-- A vector load from an area under its element guard. -/
def State.areaVload (s : State) (u : CoreId) (g : Fin 8) (inp : Bool) (e : Fin 4) (vd : Fin 16) (ra : Fin 32)
    (off : BitVec 13) (bad : Bool) : Out :=
  s.tryOp u g (infoV 1 3 (rS [ra] ++ if inp then [] else [rWork]) (rV [vd]) true) fun c =>
    let a := c.addr ra off
    let mask := c.lanesOn g e
    if c.noElem g e then .ok c
    else if !(alignedV a) then .error 0x03C4
    else if laneBeyond mask a (if inp then c.inputSize else c.workSize) then .error (if inp then 0x03C3 else 0x0384)
    else if bad then .error 0x0605
    else .ok (c.setV vd.val (maskLanes mask (vecCourses (c.vr vd.val)) (if inp then c.inputRead a 64 else c.workRead a 64)))

/-- vls (R221). -/
def execVls (u : CoreId) (g : Fin 8) (e : Fin 4) (vd : Fin 16) (ra : Fin 32) (off : BitVec 13) (bad : Bool) (s : State) :
    Out :=
  s.areaVload u g false e vd ra off bad

/-- vlt (R221). -/
def execVlt (u : CoreId) (g : Fin 8) (e : Fin 4) (vd : Fin 16) (ra : Fin 32) (off : BitVec 13) (bad : Bool) (s : State) :
    Out :=
  s.areaVload u g true e vd ra off bad

/-- The courses a vector store writes: `none` for a disabled lane. -/
def maskedCourses (mask : List Bool) (cs : List Course) : List (Option Course) :=
  (List.range 64).map fun k => if nth mask k false then some (nth cs k 0) else none

/-- vss (R221). -/
def execVss (u : CoreId) (g : Fin 8) (e : Fin 4) (vd : Fin 16) (ra : Fin 32) (off : BitVec 13) (s : State) : Out :=
  s.tryOp u g (infoV 1 1 (rV [vd] ++ rS [ra]) [rWork] true) fun c =>
    let a := c.addr ra off
    let mask := c.lanesOn g e
    if c.noElem g e then .ok c
    else if !(alignedV a) then .error 0x03C4
    else if laneBeyond mask a c.workSize then .error 0x0384
    else .ok (c.workWrite a (maskedCourses mask (vecCourses (c.vr vd.val))))

/-! ### Memory (R223, R224) -/

/-- Charge an operation to the work of a firing. -/
def State.chargeFiring (s : State) (f : Firing) (kind n : Nat) : Option State := s.charge f.w f.batch kind n

/-- Charge an operation to the work of a core's firing; a Quoin core is not metered. -/
def State.chargeCore (s : State) (c : Core) (kind n : Nat) : Option State :=
  match c.firing with
  | some f => s.chargeFiring f kind n
  | none => some s

/-- Charge one line and start the access as the instruction retires (R223). -/
def State.memRes (s : State) (u : CoreId) (c : Core) (a : Access) (obs : MemObs) : Res :=
  match s.chargeCore c 4 1 with
  | none => capRes s 4
  | some t => .access t fun x => x.startAccess u a obs

/-- A scalar access of a core. -/
def Core.scalarAccess (c : Core) (store : Bool) (reg n : Nat) (x : Bool) (va : Nat) (data : List Course) : Access :=
  { isStore := store, isVec := false, lock := false, reg := reg, n := n, signed := x, va := va, data := data, mask := [],
    borrowed := c.borrow, epc := c.epcOf, level := 0, table := 0, noInstall := false, since := 0 }

/-- A vector access of a core. -/
def Core.vectorAccess (c : Core) (store : Bool) (reg va : Nat) (data : List Course) (mask : List Bool) : Access :=
  { isStore := store, isVec := true, lock := false, reg := reg, n := 64, signed := false, va := va, data := data,
    mask := mask, borrowed := c.borrow, epc := c.epcOf, level := 0, table := 0, noInstall := false, since := 0 }

/-- lm.N (R221, R223). -/
def execLm (u : CoreId) (g : Fin 8) (n : Nat) (x : Bool) (rd ra : Fin 32) (off : BitVec 13) (obs : MemObs) (s : State) :
    Out :=
  s.issue u g (infoS 360 (rS [ra]) (rS [rd]) (inRange 1 5 n)) false false fun t c _ =>
    let a := c.addr ra off
    if !(alignedS a n) then .fault t 0x03C4 0 else t.memRes u c (c.scalarAccess false rd.val n x a []) obs

/-- sm.N (R221, R223). -/
def execSm (u : CoreId) (g : Fin 8) (n : Nat) (rd ra : Fin 32) (off : BitVec 13) (obs : MemObs) (s : State) : Out :=
  s.issue u g (infoS 1 (rS [rd, ra]) [] (inRange 1 5 n)) false false fun t c _ =>
    let a := c.addr ra off
    if !(alignedS a n) then .fault t 0x03C4 0
    else t.memRes u c (c.scalarAccess true rd.val n false a (c.storeCourses rd n)) obs

/-- vlm (R221, R223). -/
def execVlm (u : CoreId) (g : Fin 8) (e : Fin 4) (vd : Fin 16) (ra : Fin 32) (off : BitVec 13) (obs : MemObs) (s : State) :
    Out :=
  s.issue u g (infoV 1 360 (rS [ra]) (rV [vd]) true) false false fun t c _ =>
    let a := c.addr ra off
    if c.noElem g e then .done t
    else if !(alignedV a) then .fault t 0x03C4 0
    else t.memRes u c (c.vectorAccess false vd.val a [] (c.lanesOn g e)) obs

/-- vsm (R221, R223). -/
def execVsm (u : CoreId) (g : Fin 8) (e : Fin 4) (vd : Fin 16) (ra : Fin 32) (off : BitVec 13) (obs : MemObs) (s : State) :
    Out :=
  s.issue u g (infoV 1 1 (rV [vd] ++ rS [ra]) [] true) false false fun t c _ =>
    let a := c.addr ra off
    if c.noElem g e then .done t
    else if !(alignedV a) then .fault t 0x03C4 0
    else t.memRes u c (c.vectorAccess true vd.val a (vecCourses (c.vr vd.val)) (c.lanesOn g e)) obs

/-- fence (R225, R242): retires once every earlier store is acknowledged; until then it holds. -/
def execFence (u : CoreId) (g : Fin 8) (s : State) : Out :=
  s.issue u g { infoS 1 [] [] true with alone := true } false false fun t c _ =>
    if c.storesOut ≠ 0 then .leave t else .held t c.sched.ackAt

/-- tlock (R229): the translation of ra is asked to be held; the walk faults as a load would. It is no load, so it consumes
no borrow (R236). -/
def execTlock (u : CoreId) (g : Fin 8) (rd ra : Fin 32) (s : State) : Out :=
  s.issue u g (infoS 1800 (rS [ra]) (rS [rd]) true) false false fun t c _ =>
    .access t fun x => x.startAccess u
      { c.scalarAccess false rd.val 1 false (c.sr ra.val).toNat [] with lock := true, borrowed := false } .clean

/-- tunlock (R229): releases the lock on the translation of ra. -/
def execTunlock (u : CoreId) (g : Fin 8) (ra : Fin 32) (s : State) : Out :=
  s.issue u g (infoS 1 (rS [ra]) [] true) false false fun t c _ =>
    let p := t.spaceOf c false
    .done (t.setCore u { c with locked := c.locked.filter fun e => !(e.covers p (c.sr ra.val).toNat) })

end Sys2Proof.Machine
end

