-- ==== Sys2Proof/Machine/Keystone.lean ====
section
/-! DEFINITION. The Keystone store (10): what a copy of a table holds, searches, slots, updates, loads, parity and
rebuilds. -/

namespace Sys2Proof.Machine

/-! ### Entries (R260, R261) -/

/-- An image of R260: its length, a TERNARY value within its mask, a RANGE low bound at most its high bound. -/
def ksImageOk (mode key : Nat) (im : List Course) : Bool :=
  let a := im.take key
  let b := slice im key key
  im.length == ksImageLen mode key &&
    (match mode with
      | 1 => (a.zip b).all fun x => x.1 &&& ~~~x.2 == 0
      | 2 => decide (crsNat a ≤ crsNat b)
      | _ => true)

/-- A key matches an entry (R261). -/
def ksMatches (mode k : Nat) (key im : List Course) : Bool :=
  let a := im.take k
  let b := slice im k k
  im.length == ksImageLen mode k &&
    (match mode with
      | 0 => a == key
      | 1 => (key.zip (a.zip b)).all fun x => (x.1 ^^^ x.2.1) &&& x.2.2 == 0
      | _ => decide (crsNat a ≤ crsNat key ∧ crsNat key ≤ crsNat b))

/-- The result courses of an entry. -/
def ksResult (im : List Course) : List Course := im.drop (im.length - 4)

/-! ### What a copy holds (R264-R266, R275) -/

/-- The entries of a copy by position as the committed state and its moves give them; the empty image stands for the
position a delete has invalidated. -/
def KsTab.expected (t : KsTab) (c : KsCopy) : List (List Course) :=
  match t.queue with
  | u :: _ =>
    if !t.started then t.committed
    else if u.kind = 0 then
      if c.moved = 0 then t.committed
      else t.committed.take (t.committed.length - c.moved + 1) ++ t.committed.drop (t.committed.length - c.moved)
    else if u.kind = 1 ∧ t.committedHead then
      let dup := u.pos + c.moved
      if c.moved = 0 then t.committed.take u.pos ++ [[]] ++ t.committed.drop u.pos
      else t.committed.take dup ++ t.committed.drop (dup - 1)
    else t.committed
  | [] => t.committed

/-- A copy's positions: `none` where the entry is invalid for parity. -/
def KsTab.rows (t : KsTab) (c : KsCopy) : List (Option (List Course)) :=
  let ex := t.expected c
  (List.range ex.length).map fun i => if c.bad.contains i then none else some (nth ex i [])

/-- What one copy answers (R262, R275): a hit, a miss, or nothing because the invalid entry at a position comes first. -/
inductive KsAnswer where
  | hit (pos : Nat) (im : List Course)
  | miss
  | blocked (pos : Nat)
deriving DecidableEq, Repr

/-- Search the rows of a copy from a position on. -/
def ksScan (mode k : Nat) (key : List Course) : Nat → List (Option (List Course)) → KsAnswer
  | _, [] => .miss
  | i, none :: _ => .blocked i
  | i, some im :: t => if ksMatches mode k key im then .hit i im else ksScan mode k key (i + 1) t

/-- What the copy in a bank answers; `none` where the bank holds no copy. -/
def KsTab.answerAt (t : KsTab) (bank : Nat) (key : List Course) : Option KsAnswer :=
  (t.held.find? fun c => c.bank == bank).map fun c => ksScan t.mode t.key key 0 (t.rows c)

/-- An update applied to a list of entries (R264, R265, R268). -/
def KsUpd.apply (u : KsUpd) (es : List (List Course)) : List (List Course) :=
  match u.kind with
  | 0 => es.take u.pos ++ [(u.images.head?).getD []] ++ es.drop u.pos
  | 1 => es.eraseIdx u.pos
  | _ => u.images

/-- The record of the update at the head, written and not yet committed (R263). -/
def KsTab.unsettled (t : KsTab) : Nat := if t.started && !t.committedHead then 1 else 0

/-- The committed state as the shadow gives it: the image with the committed records replayed (R274). -/
def KsTab.shadow (t : KsTab) : List (List Course) :=
  (t.journal.take (t.journal.length - t.unsettled)).foldl (fun es u => u.apply es) t.image

/-- COUNT: after the commit of a delete it falls only when its moves are done (R265). -/
def KsTab.count (t : KsTab) : Nat := t.committed.length + (if t.committedHead then 1 else 0)

/-- The moves an update needs in each copy. -/
def KsTab.movesDue (t : KsTab) (u : KsUpd) : Nat :=
  if u.kind = 0 then t.committed.length - u.pos else if t.committedHead then t.committed.length - u.pos else 0

/-- A copy built from the shadow (R274, R276): it holds the committed state, so no move of a committed delete is due in it. -/
def KsTab.newCopy (t : KsTab) (bank : Nat) : KsCopy :=
  { bank := bank, bad := [], moved := match t.queue with
      | u :: _ => if u.kind = 1 ∧ t.committedHead then t.movesDue u else 0
      | [] => 0 }

/-- The key banks of a slice. -/
def State.keyBanks (s : State) (sl : Nat) : List Nat := ((s.ks.plan.filter fun p => p.slice == sl).map (·.banks)).flatten

/-! ### Slots (R256, R270) -/

/-- A bank before its first frame: unthrottled, nothing used. -/
def ksBankZero : KsBank :=
  { frameStart := 0, slots := 320, used := 0, reserved := [], sharedUsed := [], rebuildUsed := 0, spare := 256, errors := [],
    fenced := 0 }

/-- A bank. -/
def State.ksBank (s : State) (b : Nat) : KsBank := tgetD b ksBankZero s.ks.banks

/-- Change a bank. -/
def State.updBank (s : State) (b : Nat) (f : KsBank → KsBank) : State :=
  { s with ks := { s.ks with banks := tupd b ksBankZero f s.ks.banks } }

/-- The slots a throttle step leaves in a frame (R272). -/
def ksSlots (step : Nat) : Nat := 320 / 2 ^ step

/-- The throttle step of a bay. -/
def State.stepOf (s : State) (b : Nat) : Nat := tgetD b 0 s.therm.steps

/-- What asks for a slot (R270): a G-class request of a slice, any other request of a slice, or a rebuild write. -/
inductive KsReq where
  | guaranteed (slice : Nat)
  | shared (slice : Nat)
  | rebuild
deriving DecidableEq, Repr

/-- The class a search is served as. -/
def State.searchReq (s : State) (x : KsSearch) : KsReq :=
  let cls := match x.core with
    | some (u, _) => ((s.coreOf u).firing.map (·.cls)).getD 2
    | none => match x.w with
      | some (.item q, _, _) => ((s.itemOf q).map (·.cls)).getD 2
      | _ => 2
  if cls = 0 then .guaranteed x.slice else .shared x.slice

/-- The class an update is served as: its firing's (R270). -/
def State.updReq (s : State) (sl : Nat) (u : KsUpd) : KsReq :=
  if u.core.isSome && ((s.ctxOf u.ctx).any fun c => c.cls == 0) then .guaranteed sl else .shared sl

/-- A request takes a reserved slot: one of its slice is left in the frame. -/
def State.ksReservedLeft (s : State) (b : Nat) : KsReq → Bool
  | .guaranteed sl => decide (0 < tgetD sl 0 (s.ksBank b).reserved)
  | _ => false

/-- The slice a request shares for. -/
def KsReq.slice? : KsReq → Option Nat
  | .guaranteed sl => some sl
  | .shared sl => some sl
  | .rebuild => none

/-- Slots of a frame held back for reservations not yet used: all of them until its last tick, in which the unused ones are
shared (R270; assumption 70: DESIGN CHOICE). -/
def State.ksBack (s : State) (b : Nat) : Nat :=
  if s.now < (s.ksBank b).frameStart + 7 then sumNat ((s.ksBank b).reserved.map (·.2)) else 0

/-- Rebuild writes that a bank still owes: its invalid entries (R275). -/
def State.ksOwed (s : State) (b : Nat) : Nat :=
  sumNat (s.ks.tables.map fun t => sumNat ((t.held.filter fun c => c.bank == b).map fun c => c.bad.length))

/-- An update of the same firing, issued before the search, has not committed (R267). -/
def KsTab.holds (t : KsTab) (x : KsSearch) : Bool :=
  (List.range t.queue.length).any fun i => match t.queue[i]? with
    | some u => u.core.isSome && u.core == x.core.map (·.1) && decide (u.id < x.id) && !(i == 0 && t.committedHead)
    | none => false

/-- KS_SEARCH_SHARE of a slice. -/
def State.ksShare (s : State) (sl : Nat) : Nat := s.objNum (0x4000 + sl) 6 [] 0 0

/-- A slice's turn at the shared slots of a bank: no slice with a search that waits there has had fewer of them for its
share (R270; assumption 70: DESIGN CHOICE). -/
def State.ksTurn (s : State) (b sl : Nat) : Bool :=
  let had := fun (n : Nat) => tgetD n 0 (s.ksBank b).sharedUsed
  s.ks.searches.all fun x => x.bank != some b || x.slice == sl || s.ksReservedLeft b (s.searchReq x) ||
    ((s.ksTab x.slice x.table).any fun t => t.holds x) ||
    decide (had sl * s.ksShare x.slice ≤ had x.slice * s.ksShare sl)

/-- A bank has a slot for a request: reserved slots first, then rebuild writes, then the shared slots by share (R270). -/
def State.ksFree (s : State) (b : Nat) (r : KsReq) : Bool :=
  let k := s.ksBank b
  if s.ksReservedLeft b r then decide (k.used < k.slots)
  else match r.slice? with
    | none => decide (k.used + s.ksBack b < k.slots)
    | some sl => decide (k.used + s.ksBack b + s.ksOwed b < k.slots) && s.ksTurn b sl

/-- Take a slot (R270). -/
def State.ksSlot (s : State) (b : Nat) (r : KsReq) : State :=
  let left := s.ksReservedLeft b r
  s.updBank b fun k => match r.slice? with
    | none => { k with used := k.used + 1, rebuildUsed := k.rebuildUsed + 1 }
    | some sl =>
      if left then { k with used := k.used + 1, reserved := k.reserved.map fun e => if e.1 = sl then (e.1, e.2 - 1) else e }
      else { k with used := k.used + 1, sharedUsed := tset sl (tgetD sl 0 k.sharedUsed + 1) k.sharedUsed }

/-- The reserved slots of a bank's frame by slice (R271). -/
def State.ksReserved (s : State) (b : Nat) : List (Nat × Nat) :=
  (s.ks.plan.filter fun p => p.banks.contains b).map fun p => (p.slice, p.slots)

/-- KS_FRAME_START (R270, R273): a frame of 8 ticks begins at the step of its bay. -/
def execKsFrameStart (bay : Nat) (s : State) : Out :=
  .next <|
    if !(s.bayLive bay) || decide (s.now < (s.ksBank bay).frameStart + 8) then s
    else s.updBank bay fun k => { k with
      frameStart := s.now, slots := ksSlots (s.stepOf bay), used := 0, reserved := s.ksReserved bay, sharedUsed := [],
      rebuildUsed := 0 }

/-- Positions of a bank that are not fenced. -/
def KsBank.capacity (k : KsBank) : Nat := 32768 - k.fenced

/-- Entry positions of a bank held by tables, a load's second list included (R257, R268). -/
def State.ksUsed (s : State) (b : Nat) : Nat :=
  sumNat (s.ks.tables.map fun t => if t.held.any fun c => c.bank == b then
    t.capacity + sumNat ((t.queue.filter fun u => u.kind == 2).map fun u => u.images.length) else 0)

/-- Entry positions a slice holds, all copies. -/
def State.ksSliceUsed (s : State) (sl : Nat) : Nat :=
  sumNat ((s.ks.tables.filter fun t => t.slice == sl).map fun t => t.held.length *
    (t.capacity + sumNat ((t.queue.filter fun u => u.kind == 2).map fun u => u.images.length)))

/-- A bank can take `n` more positions. -/
def State.ksRoom (s : State) (b n : Nat) : Bool := s.bayLive b && decide (s.ksUsed b + n ≤ (s.ksBank b).capacity)

/-! ### Parity (R275, R276) -/

/-- Change the copy of a table in a bank. -/
def KsTab.updCopy (t : KsTab) (bank : Nat) (f : KsCopy → KsCopy) : KsTab :=
  { t with held := mapIf (fun c => c.bank == bank) f t.held }

/-- A parity error at a position of a copy: the entry is invalid, and the error counts against its row. -/
def State.ksError (s : State) (sl id bank pos : Nat) : State :=
  let t := s.updKs sl id fun t => t.updCopy bank fun c =>
    if c.bad.contains pos then c else { c with bad := c.bad ++ [pos] }
  t.updBank bank fun k => { k with errors := k.errors ++ [(sl, id, pos, s.now)] }

/-- KS_PARITY_REWRITE (R275, R276): the entry is rewritten from the shadow; a row with three errors within a second is
fenced to a spare row. -/
def execKsParityRewrite (sl id bank pos : Nat) (s : State) : Out :=
  .next <|
    match s.ksTab sl id with
    | none => s
    | some t =>
      match t.held.find? fun c => c.bank == bank with
      | none => s
      | some c =>
        if !(c.bad.contains pos) || !(s.ksFree bank .rebuild) then s
        else
          let s1 := (s.updKs sl id fun t => t.updCopy bank fun c =>
            { c with bad := c.bad.filter fun p => p != pos }).bump 0x6100 5 [bank] sl
          let s2 := s1.ksSlot bank .rebuild
          let here := fun (e : Nat × Nat × Nat × Tick) => e.1 == sl && e.2.1 == id && e.2.2.1 == pos
          let recent := (s.ksBank bank).errors.filter fun e => here e && decide (s.now < e.2.2.2 + 25000000)
          if recent.length < 3 then s2
          else
            let s3 := (s2.updBank bank fun k => { k with
              spare := k.spare - 1
              fenced := if k.spare = 0 then k.fenced + 1 else k.fenced
              errors := k.errors.filter fun e => !(here e) }).bumpBy 0x6100 7 [bank] sl u32Max 1
            s3.recoveryQuiet 7

/-! ### Searches (R226, R130, R262) -/

/-- The requests that wait at a bank: the searches sent to it and the queued updates of the tables it holds. -/
def State.ksQueueLen (s : State) (b : Nat) : Nat :=
  (s.ks.searches.filter fun x => x.bank == some b).length +
    sumNat ((s.ks.tables.filter fun t => t.held.any fun c => c.bank == b).map fun t => t.queue.length)

/-- The copy a search goes to: the one in its own bay, else that whose bank has the shortest queue, the lowest such bank
(R262; assumption 70: DESIGN CHOICE). -/
def State.ksChoose (s : State) (bay : Nat) (cs : List KsCopy) : Option KsCopy :=
  match cs.find? fun c => c.bank == bay with
  | some c => some c
  | none => (sortBy (fun (a b : KsCopy) => let x := s.ksQueueLen a.bank; let y := s.ksQueueLen b.bank
      decide (x < y) || (x == y && decide (a.bank < b.bank))) cs).head?

/-- The copy of its table a search stands at: where it was sent, or, that copy being gone, the one it goes to now. -/
def State.ksCopyOf (s : State) (t : KsTab) (x : KsSearch) : Option KsCopy :=
  match t.held.find? fun c => x.bank == some c.bank with
  | some c => some c
  | none => s.ksChoose x.bay t.held

/-- Issue a search. -/
def State.ksIssue (s : State) (x : KsSearch) : State :=
  let bank := ((s.ksTab x.slice x.table).bind fun t => s.ksChoose x.bay t.held).map (·.bank)
  { s with ks := { s.ks with
      searches := s.ks.searches ++ [{ x with id := s.ks.nextId, since := s.now, bank := bank }], nextId := s.ks.nextId + 1 } }

/-- Send a search to the copy in a bank, or, with `none`, issue it again. -/
def State.ksSend (s : State) (x : KsSearch) (bank : Option Nat) : State :=
  { s with ks := { s.ks with searches := mapIf (fun y => y.id == x.id) (fun y => { y with bank := bank }) s.ks.searches } }

/-- Entry of a KEY_RESULT row (R113). -/
def keyResultRow (hit : Bool) (pos : Nat) (result : List Course) : Row :=
  rowOf [natCrs 1 (if hit then 1 else 0), natCrs 2 pos, fitList 4 0 result]

/-- The output rows of a Keystone operator for its input rows and their results (R130, R131). -/
def keyRows (e : OpEnv) (rows results : List Row) : List Row :=
  if e.op.code = 0x07 then results
  else (rows.zip results).filterMap fun x =>
    let hit := crsNat ((x.2.get 0).getD []) = 1
    if hit then some ((x.1.push (x.2.get 1) 2).push (x.2.get 2) 4)
    else if e.op.par 2 = 1 then some ((x.1.push none 2).push none 4)
    else none

/-- The operator emits once every search of its token has answered. -/
def State.keyFinish (s : State) (w : WorkRef) (op code : Nat) : State :=
  match s.opEnv w op code with
  | none => s
  | some e =>
    match e.work.heldRows op with
    | none => s
    | some results =>
      if s.ks.searches.any fun x => match x.w with
          | some (v, o, _) => v == w && o == op
          | none => false then s
      else
        let tok := tok0 (e.work.at_ op 0).toks
        let s1 := s.updWork w fun k => { k.take op with held := tdel op k.held }
        s1.emit e [(0, { tokenOf (e.out 0) (keyRows e tok.rows results) with batch := tok.batch })] (!e.isRun)

/-- The fields of a key: consecutive fields whose sizes sum to its length (R130). -/
def keyRun (ts : List TypeDesc) : Nat → Nat → Nat → List Nat
  | 0, _, _ => []
  | fuel + 1, k, need => if need = 0 then [] else k :: keyRun ts fuel (k + 1) (need - (nth ts k tCode).size)

/-- The bay a work's engines are asked from: the item's home bay as it stands, or in a run the bay that holds the operator's
input token, which may be any live bay: a free value (R117, R130; assumption 48: DESIGN CHOICE). -/
def State.askFrom (s : State) : WorkRef → State × Nat
  | .item q => (s, ((s.itemOf q).map (·.bay)).getD 0)
  | .run _ => (s.advanceFree, nth s.liveBays (s.freeBits 4 % s.liveBays.length) 0)

/-- The bay whose stones a work waits for. -/
def State.workBay (s : State) : WorkRef → Nat
  | .item q => ((s.itemOf q).map (·.bay)).getD 0
  | .run _ => (s.liveBays.head?).getD 0

/-- A Keystone operator issues one search for each row whose key fields are present (R130, R131). -/
def State.keyStart (s : State) (w : WorkRef) (op code : Nat) : State :=
  match s.opEnv w op code with
  | none => s
  | some e =>
    if (e.work.heldRows op).isSome then s
    else match e.feed false with
      | .wait => s
      | .finish => s.emit e [] true
      | .toks ts =>
        match e.image.decls.find? fun d => d.loc == e.op.par 0 with
        | none => s
        | some d =>
          let rows := (tok0 ts).rows
          let ks := keyRun (e.types 0) 9 (e.op.par 1) d.key
          let keys := rows.map fun r => let vs := r.getAll ks
            if vs.contains none then none else some (vs.flatMap fun v => v.getD [])
          match s.chargeAll w (tok0 ts).batch [(3, (keys.filterMap id).length)] with
          | .error c => s.workErrorB w (tok0 ts).batch 0x0381 c
          | .ok s0 =>
            let (s1, bay) := s0.askFrom w
            let s2 := s1.updWork w fun k => { k with held := tset op (rows.map fun _ => keyResultRow false 0 []) k.held }
            let s3 := (List.range keys.length).foldl (fun (t : State) i => match nth keys i none with
              | some key => t.ksIssue
                  { id := 0, slice := e.slice, table := d.table, key := key, bay := bay, core := none, w := some (w, op, i), since := 0,
                    bank := none }
              | none => t) s2
            s3.keyFinish w op code

/-- KEY_LOOKUP (R130). -/
def execKeyLookup (w : WorkRef) (op : Nat) (s : State) : Out := .next (s.keyStart w op 0x07)

/-- KEY_JOIN (R131). -/
def execKeyJoin (w : WorkRef) (op : Nat) (s : State) : Out := .next (s.keyStart w op 0x08)

/-- Deliver the answer of a search (R226, R130); to a core, 160 cycles after its issue or late (R241, R246). -/
def State.ksDeliver (s : State) (x : KsSearch) (hit : Bool) (pos : Nat) (result : List Course) : State :=
  let s0 : State := { s with ks := { s.ks with searches := s.ks.searches.filter fun y => y.id != x.id } }
  let s1 := match x.core with
    | some (u, _) => s0.noteLate u x.since 160
    | none => s0
  match x.core, x.w with
  | some (u, rd), _ =>
    let c := s1.coreOf u
    let res : Nat := if hit then 2 ^ 59 + crsNat result else 0
    let put := fun (c : Core) (i n : Nat) => if i = 0 then c else { c with s := c.s.set i (BitVec.ofNat 60 n) }
    s1.setCore u (put (put c rd res) (rd + 1) (if hit then pos else 0))
  | none, some (w, op, i) =>
    let s2 := s1.updWork w fun k => { k with
      held := k.held.map fun h => if h.1 = op then (op, h.2.set i (keyResultRow hit pos result)) else h }
    let code := match s2.ctxOfWork w with
      | some c => ((s2.ctxOf c).bind fun (c : Context) => c.image.ops[op]?).map Operator.code
      | none => none
    s2.keyFinish w op (code.getD 0)
  | none, none => s1

/-- KS_SEARCH_RESULT (R262, R275): `bad` lists positions at which the compared copy shows a parity error. A search of a
table with no copy, with no slot left, or behind its firing's own update, waits. One that an invalid entry blocks is sent to
another copy whose entry at that position is valid; where there is none, KEY_REBUILDING is reissued. -/
def execKsSearchResult (id : Nat) (bad : List Nat) (s : State) : Out :=
  .next <|
    match s.ks.searches.find? fun x => x.id == id with
    | none => s
    | some x =>
      match s.ksTab x.slice x.table with
      | none => s.ksDeliver x false 0 []
      | some t =>
        match s.ksCopyOf t x with
        | none => s
        | some c =>
          if t.holds x || !(s.ksFree c.bank (s.searchReq x)) || !(s.bayRuns c.bank) then s
          else
            let n := (t.rows c).length
            let s1 := bad.foldl (fun (u : State) p => if p < n then u.ksError x.slice x.table c.bank p else u)
              (s.ksSlot c.bank (s.searchReq x))
            let t1 := (s1.ksTab x.slice x.table).getD t
            match t1.answerAt c.bank x.key with
            | some (.hit p im) => (s1.bump 0x6100 2 [c.bank] x.slice).ksDeliver x true p (ksResult im)
            | some (.blocked p) =>
              match s1.ksChoose x.bay (t1.held.filter fun d => d.bank != c.bank && !(d.bad.contains p)) with
              | some d => s1.ksSend x (some d.bank)
              | none => (s1.bump 0x6100 6 [c.bank] x.slice).ksSend x none
            | _ => (s1.bump 0x6100 2 [c.bank] x.slice).ksDeliver x false 0 []

/-! ### Updates (R263-R268) -/

/-- Complete the host command whose update is `id`. -/
def State.ksComplete (s : State) (id status : Nat) : State :=
  match s.host.waiting.find? fun w => match w with
      | .ksUpdate _ _ _ i => i == id
      | .ksLoad _ _ i => i == id
      | _ => false with
  | none => s
  | some w =>
    let sl := match w with
      | .ksUpdate _ sl _ _ => sl
      | .ksLoad _ sl _ => sl
      | _ => 0
    ({ s with host := { s.host with waiting := s.host.waiting.filter fun x => x != w } } : State).finish sl w.hdr status 0 []

/-- A loaded context of the slice binds the table (R100, R269). -/
def State.ksBound (s : State) (sl id : Nat) : Bool :=
  s.ctxs.any fun c => c.slice == sl && c.image.decls.any fun d => d.table == id

/-- The drops whose table has an empty queue complete: the table is deleted, or the drop fails, since a context loaded
meanwhile binds it (R269). -/
def State.ksDrops (s : State) : State :=
  s.host.waiting.foldl (fun (t : State) w => match w with
    | .ksDrop h sl id =>
      let t1 : State := { t with host := { t.host with waiting := t.host.waiting.filter fun x => x != w } }
      if !(((t.ksTab sl id).map fun x => x.queue.isEmpty).getD true) then t
      else if t.ksBound sl id then t1.fail sl h 0x0506
      else ({ t1 with ks := { t1.ks with tables := t1.ks.tables.filter fun x => !(x.slice == sl && x.id == id) } } : State).done sl h
    | _ => t) s

/-- Queue a request of the host on a table. -/
def State.ksQueue (s : State) (sl id kind pos : Nat) (images : List (List Course)) (host : Bool) (ctx : Nat)
    (core : Option CoreId) : State :=
  let u : KsUpd := { kind := kind, pos := pos, images := images, id := s.ks.nextId, host := host, ctx := ctx, core := core }
  let s1 := s.updKs sl id fun t => { t with queue := t.queue ++ [u] }
  { s1 with ks := { s1.ks with nextId := s1.ks.nextId + 1 } }

/-- The updates in a table's queue. A load waits in the queue with its list beside it, and takes none of the 16 entries
(R267, R268; assumption 70: DESIGN CHOICE). -/
def KsTab.queued (t : KsTab) : Nat := (t.queue.filter fun x => x.kind != 2).length

/-- A KS_INSERT or KS_DELETE enters the queue of its table, or waits while the queue is full (R267). -/
def State.ksEnter (s : State) (h : CmdHdr) (sl id kind pos : Nat) (images : List (List Course)) : State :=
  if ((s.ksTab sl id).map KsTab.queued).getD 0 < 16 then
    (s.wait (.ksUpdate h sl id s.ks.nextId)).ksQueue sl id kind pos images true 0 none
  else s.wait (.ksEnter h sl id kind pos images)

/-- The host's updates that a full queue held enter it as far as it has room, in order. -/
def State.ksRefill (s : State) (sl id : Nat) : State :=
  s.host.waiting.foldl (fun (t : State) w => match w with
    | .ksEnter h a b kind pos images =>
      if a = sl ∧ b = id ∧ ((t.ksTab sl id).map KsTab.queued).getD 0 < 16 then
        ({ t with host := { t.host with waiting := t.host.waiting.filter fun x => x != w } } : State).ksEnter h a b kind pos images
      else t
    | _ => t) s

/-- The request at the head leaves the queue. -/
def State.ksPop (s : State) (sl id : Nat) : State :=
  ((s.updKs sl id fun t => { t with
    queue := t.queue.drop 1, started := false, committedHead := false
    held := t.held.map fun c => { c with moved := 0 } }).ksRefill sl id).ksDrops

/-- A committed delete whose moves are done in every copy that is left leaves the queue (R263, R265). -/
def State.ksSettle (s : State) (sl id : Nat) : State :=
  match s.ksTab sl id with
  | none => s
  | some t =>
    match t.queue with
    | u :: _ =>
      if t.committedHead ∧ u.kind = 1 ∧ t.held.all fun c => decide (t.movesDue u ≤ c.moved) then s.ksPop sl id else s
    | [] => s

/-- The check of an update at the head of its queue (R264, R265, R267). -/
def KsTab.headCheck (t : KsTab) (u : KsUpd) : Nat :=
  if u.kind = 0 then
    if t.capacity ≤ t.committed.length then 0x0502 else if t.committed.length < u.pos then 0x0503 else 0
  else if t.committed.length ≤ u.pos then 0x0503 else 0

/-- A search of the same firing, issued before the update, has not been answered (R267). -/
def State.ksBehind (s : State) (sl id : Nat) (u : KsUpd) : Bool :=
  s.ks.searches.any fun x => x.slice == sl && x.table == id && u.core.isSome && x.core.map (·.1) == u.core && decide (x.id < u.id)

/-- KS_UPDATE_HEAD (R267): the update at the head is checked and starts, its journal record written first (R263). A delete
whose last lagging copy has gone leaves the queue before. -/
def execKsUpdateHead (sl id : Nat) (s0 : State) : Out :=
  .next <|
    let s := s0.ksSettle sl id
    match s.ksTab sl id with
    | none => s
    | some t =>
      match t.queue with
      | [] => s
      | u :: _ =>
        if t.started ∨ u.kind = 2 ∨ t.held.isEmpty ∨ s.ksBehind sl id u then s
        else
          let code := t.headCheck u
          if code = 0 then s.updKs sl id fun t => { t with started := true, journal := t.journal ++ [u] }
          else if u.host then (s.ksComplete u.id code).ksPop sl id
          else
            let bay := ((t.held.head?).map (·.bank)).getD 0
            ((s.bump 0x6100 9 [bay] sl).recordBoth (bayPlace bay) sl u.ctx code 0 none).ksPop sl id

/-- KS_MOVE (R264, R265): one entry is copied one place in a copy, or shows a parity error. A rewrite goes first. -/
def execKsMove (sl id bank : Nat) (bad : Bool) (s : State) : Out :=
  .next <|
    match s.ksTab sl id with
    | none => s
    | some t =>
      match t.queue, t.held.find? fun c => c.bank == bank with
      | u :: _, some c =>
        if !t.started ∨ (u.kind = 1 ∧ !t.committedHead) ∨ t.movesDue u ≤ c.moved ∨ !c.bad.isEmpty ∨ !(s.ksFree bank (.shared sl)) then s
        else
          let src := if u.kind = 0 then t.committed.length - 1 - c.moved else u.pos + 1 + c.moved
          let s1 := s.ksSlot bank (.shared sl)
          if bad then s1.ksError sl id bank src
          else
            ((s1.updKs sl id fun t => t.updCopy bank fun c => { c with moved := c.moved + 1 }).bump 0x6100 4 [bank] sl).ksSettle sl id
      | _, _ => s

/-- KS_COMMIT (R263): an insert commits after its moves in every copy, a delete before them, in one slot of every copy. -/
def execKsCommit (sl id : Nat) (s : State) : Out :=
  .next <|
    match s.ksTab sl id with
    | none => s
    | some t =>
      match t.queue with
      | [] => s
      | u :: _ =>
        let r := s.updReq sl u
        let free := t.held.all fun c => s.ksFree c.bank r && c.bad.isEmpty
        if !t.started ∨ t.committedHead ∨ t.held.isEmpty ∨ !free ∨ (u.kind = 0 ∧ t.held.any fun c => c.moved < t.movesDue u) then s
        else
          let s1 := t.held.foldl (fun (x : State) c => x.ksSlot c.bank r) s
          let s2 := s1.bump 0x6100 3 ((t.held.head?.map fun c => [c.bank]).getD []) sl
          let s3 :=
            if u.kind = 0 then (s2.updKs sl id fun t => { t with committed := u.apply t.committed }).ksPop sl id
            else (s2.updKs sl id fun t => { t with committed := u.apply t.committed, committedHead := true }).ksSettle sl id
          if u.host then s3.ksComplete u.id 0 else s3

/-- KS_LOAD_SWITCH (R268): a load at the head switches every copy to its list in one commit slot. -/
def execKsLoadSwitch (sl id : Nat) (s : State) : Out :=
  .next <|
    match s.ksTab sl id with
    | none => s
    | some t =>
      match t.queue with
      | [] => s
      | u :: _ =>
        if u.kind ≠ 2 ∨ t.held.isEmpty ∨ !(t.held.all fun c => s.ksFree c.bank (.shared sl)) then s
        else
          let s1 := t.held.foldl (fun (x : State) c => x.ksSlot c.bank (.shared sl)) s
          let s2 := s1.bump 0x6100 3 ((t.held.head?.map fun c => [c.bank]).getD []) sl
          let s3 := s2.updKs sl id fun t => { t with
            committed := u.apply t.committed, journal := t.journal ++ [u], held := t.held.map fun c => { c with bad := [] } }
          (s3.ksPop sl id).ksComplete u.id 0

/-- KS_JOURNAL_FOLD (R274): firmware folds the committed records of the journal into the shadow image. -/
def execKsJournalFold (sl id : Nat) (s : State) : Out :=
  .next <| if s.paused then s
    else s.updKs sl id fun t => { t with image := t.shadow, journal := t.journal.drop (t.journal.length - t.unsettled) }

/-- A copy of a table is wanted in a bank: in each key bank of its slice while an admitted context binds it; else, on any
bank, up to its declared COPIES (R258, R276). -/
def State.ksWanted (s : State) (t : KsTab) (bank : Nat) : Bool :=
  let key := s.keyBanks t.slice
  if s.gBound t && !key.isEmpty then key.contains bank else decide (t.held.length < t.copies)

/-- KS_COPY_REBUILD (R276): a replacement copy is built from the shadow on a bank with room. -/
def execKsCopyRebuild (sl id bank : Nat) (s : State) : Out :=
  .next <|
    match s.ksTab sl id with
    | none => s
    | some t =>
      if s.ksWanted t bank ∧ !(t.held.any fun c => c.bank == bank) ∧ s.ksRoom bank t.capacity then
        s.updKs sl id fun t => { t with held := t.held ++ [t.newCopy bank] }
      else s

/-- A place for `copies` copies of a new table: the live banks with room in bank order. -/
def State.ksPlace (s : State) (capacity copies : Nat) : Option (List KsCopy) :=
  let bs := (List.range 16).filter fun b => s.ksRoom b capacity
  if bs.length < copies then none else some ((bs.take copies).map fun b => (⟨b, [], 0⟩ : KsCopy))

/-! ### Host commands (R259, R268, R269, R277, R460) -/

/-- KS_CREATE (R259). PARAM bytes beyond the 8 courses are checked as capsule fields (R448). -/
def execKsCreate (h : CmdHdr) (param : List Byte) (s : State) : Out :=
  .next <| match (List.range (param.length - 12)).find? fun k => nth param (12 + k) 0 != 0 with
  | some k => s.refuse h 0x0101 (28 + k)
  | none => s.managed (.ksCreate h param) h 0x0030 tenantRole fun t b =>
    let cs := fitList 8 0 (unpackBytes (param.take 12))
    let id := crsNat (cs.take 2)
    let c2 := (nth cs 2 0).toNat
    let mode := c2 / 1024
    let key := c2 % 16
    let cap := crsNat (slice cs 3 2)
    let copies := (nth cs 5 0).toNat
    if id = 0 ∨ mode = 3 ∨ fieldOf c2 9 4 ≠ 0 ∨ key = 0 ∨ (if mode = 2 then 4 else 8) < key ∨ cap = 0 ∨ 32768 < cap
        ∨ copies = 0 ∨ 2 < copies ∨ crsNat (slice cs 6 2) ≠ 0 then t.fail b.slice h 0x0508
    else if (t.ksTab b.slice id).isSome then t.fail b.slice h 0x0505
    else if t.objNum (0x4000 + b.slice) 5 [] 0 0 < t.ksSliceUsed b.slice + cap * copies then t.fail b.slice h 0x0507
    else match t.ksPlace cap copies with
      | none => t.fail b.slice h 0x0507
      | some held =>
        let tab : KsTab := { slice := b.slice, id := id, mode := mode, key := key, capacity := cap, copies := copies,
                             committed := [], image := [], journal := [], held := held, queue := [], started := false,
                             committedHead := false }
        ({ t with ks := { t.ks with tables := t.ks.tables ++ [tab] } } : State).done b.slice h

/-- KS_DROP (R269): deleted once the update queue is empty. -/
def execKsDrop (h : CmdHdr) (table : Nat) (s : State) : Out :=
  .next <| s.managed (.ksDrop h table) h 0x0031 tenantRole fun t b =>
    match t.ksTab b.slice table with
    | none => t.fail b.slice h 0x0509
    | some _ =>
      if t.ksBound b.slice table then t.fail b.slice h 0x0506
      else (t.wait (.ksDrop h b.slice table)).ksDrops

/-- KS_INSERT (R264, R277): completes at its commit. -/
def execKsInsert (h : CmdHdr) (table position : Nat) (entry : List Byte) (s : State) : Out :=
  .next <| s.managed (.ksInsert h table position entry) h 0x0032 tenantRole fun t b =>
    match t.ksTab b.slice table with
    | none => t.fail b.slice h 0x0509
    | some k =>
      let n := ksImageLen k.mode k.key
      let im := (unpackBytes entry).take n
      if entry.length ≠ ceilDiv n 2 * 3 ∨ !(ksImageOk k.mode k.key im) then t.fail b.slice h 0x0504
      else t.ksEnter h b.slice table 0 position [im]

/-- KS_DELETE (R265, R277): completes at its commit. -/
def execKsDelete (h : CmdHdr) (table position : Nat) (s : State) : Out :=
  .next <| s.managed (.ksDelete h table position) h 0x0033 tenantRole fun t b =>
    match t.ksTab b.slice table with
    | none => t.fail b.slice h 0x0509
    | some _ => t.ksEnter h b.slice table 1 position []

/-- KS_LOAD (R268): the list waits behind the updates already queued, and completes at the switch. -/
def execKsLoad (h : CmdHdr) (table count : Nat) (entries : List Byte) (s : State) : Out :=
  .next <| s.managed (.ksLoad h table count entries) h 0x0034 tenantRole fun t b =>
    match t.ksTab b.slice table with
    | none => t.fail b.slice h 0x0509
    | some k =>
      let n := ksImageLen k.mode k.key
      let cs := unpackBytes entries
      let ims := (List.range count).map fun i => slice cs (i * n) n
      let short := k.held.any fun c => !(t.ksRoom c.bank count)
      let quota := t.objNum (0x4000 + b.slice) 5 [] 0 0
      if k.capacity < count then t.fail b.slice h 0x0502
      else if entries.length ≠ ceilDiv (count * n) 2 * 3 ∨ !(ims.all (ksImageOk k.mode k.key)) then t.fail b.slice h 0x0504
      else if short ∨ quota < t.ksSliceUsed b.slice + count * k.held.length then t.fail b.slice h 0x0507
      else (t.wait (.ksLoad h b.slice t.ks.nextId)).ksQueue b.slice table 2 0 ims true 0 none

/-- KS_READ (R269): the entry images of a range of the committed state. -/
def execKsRead (h : CmdHdr) (table first last : Nat) (s : State) : Out :=
  .next <| s.command (.ksRead h table first last) h 0x0035 tenantRole fun t b =>
    match t.ksTab b.slice table with
    | none => t.fail b.slice h 0x0509
    | some k =>
      if last < first then t.fail b.slice h 0x0503
      else t.finish b.slice h 0 0 (packBytes ((slice k.committed first (last + 1 - first)).flatMap id))

end Sys2Proof.Machine
end

