-- ==== Sys2Proof/Machine/Digest.lean ====
section
/-! DEFINITION. The digest engine (14): key slots, messages, lanes and their order, and the DIGEST operator (R144). -/

namespace Sys2Proof.Machine

/-! ### Algorithms (R143, R358) -/

/-- The blocks of a message of M bytes (R358). -/
def digestBlocks (alg m : Nat) : Nat :=
  match alg with
  | 0 => ceilDiv (m + 9) 64
  | 1 => ceilDiv (m + 17) 128
  | 2 => ceilDiv (m + 17) 128
  | 3 => ceilDiv (m + 1) 136
  | 4 => ceilDiv (m + 1) 104
  | 5 => ceilDiv (m + 9) 64 + 1
  | 6 => ceilDiv (m + 17) 128 + 1
  | 7 => ceilDiv (m + 17) 128 + 1
  | 8 => ceilDiv (m + 4) 136
  | _ => max 1 (ceilDiv m 64)

/-- The longest tag of an algorithm (R143). -/
def digestTagMax (alg : Nat) : Nat :=
  match alg with
  | 0 => 32
  | 1 => 48
  | 2 => 64
  | 3 => 32
  | 4 => 48
  | 5 => 32
  | 6 => 48
  | 7 => 64
  | 8 => 64
  | _ => 16

/-- A tag length in range for its algorithm (R143). -/
def tagLenOk (alg n : Nat) : Bool := decide (1 ≤ n ∧ n ≤ digestTagMax alg)

/-- The tag of a message (R144, R362). -/
def tagOf (alg : Nat) (key msg : List Byte) (n : Nat) : List Byte := fitList n 0 (Config.digestTag alg key msg n)

/-- The charge of a message of M bytes in a context whose kernels hold dg.sub (R185, R228). -/
def digestCharge (m : Nat) : Nat := 64 * ceilDiv (m + 73) 64

/-- Some kernel of an image holds dg.sub (R185). -/
def Image.hasDgSub (im : Image) : Bool :=
  im.kernels.any fun k => k.code.any fun w => fieldOf w 35 30 == 0x33 && fieldOf w 11 0 == 0

/-! ### Key slots (R359, R360) -/

/-- The key of a slot that holds one for the algorithm; unkeyed algorithms take no slot (R144). -/
def State.keyFor (s : State) (sl slot alg : Nat) : Option (List Byte) :=
  if alg ≤ 4 then (if slot = 0xFFF then some [] else none)
  else (s.dg.slots.find? fun k => k.slice == sl && k.slot == slot && k.alg == alg).map (·.key)

/-- The device's number of the slot that a slice's number names; all ones for an unkeyed algorithm (R369). -/
def State.deviceSlot (s : State) (sl slot alg : Nat) : Nat :=
  if alg ≤ 4 then 0xFFF
  else (s.dg.slots.findIdx? fun k => k.slice == sl && k.slot == slot && k.alg == alg).getD 0xFFF

/-- A permitted key length (R359). -/
def keyLenOk (alg n : Nat) : Bool :=
  if alg ≤ 7 then decide (1 ≤ n ∧ n ≤ 128) else if alg = 8 then decide (32 ≤ n ∧ n ≤ 64) else n == 16 || n == 32

/-- DG_KEY_LOAD (R359). -/
def execDgKeyLoad (h : CmdHdr) (slot alg : Nat) (wrapped : List Byte) (s : State) : Out :=
  .next <| s.managed (.dgKeyLoad h slot alg wrapped) h 0x0040 tenantRole fun t b =>
    let mine := fun (k : KeySlot) => k.slice == b.slice && k.slot == slot
    let room := t.dg.slots.any mine || decide (t.dg.slots.length < 4096)
    if t.objNum (0x4000 + b.slice) 13 [] 0 0 ≤ slot ∨ alg < 5 ∨ 9 < alg ∨ !room then t.fail b.slice h 0x0803
    else match (t.sliceOf b.slice).kek.bind fun k => Config.kwpUnwrap k wrapped with
      | none => t.fail b.slice h 0x0802
      | some key =>
        if !(keyLenOk alg key.length) then t.fail b.slice h 0x0803
        else
          ({ t with dg := { t.dg with
              slots := t.dg.slots.filter (fun k => !(mine k)) ++ [(⟨b.slice, slot, alg, key⟩ : KeySlot)] } } : State).done b.slice h

/-- DG_KEY_CLEAR (R359). -/
def execDgKeyClear (h : CmdHdr) (slot : Nat) (s : State) : Out :=
  .next <| s.managed (.dgKeyClear h slot) h 0x0041 tenantRole fun t b =>
    if t.objNum (0x4000 + b.slice) 13 [] 0 0 ≤ slot then t.fail b.slice h 0x0803
    else ({ t with dg := { t.dg with
        slots := t.dg.slots.filter fun k => !(k.slice == b.slice && k.slot == slot) } } : State).done b.slice h

/-! ### Order (R365) -/

/-- Where a message stands: class, then for items deadline, arrival, context and sequence, else request tick. -/
def State.msgRank (s : State) (m : DgMsg) : List Nat :=
  let item := match m.core, m.w with
    | some (u, _), _ => (s.coreOf u).firing.bind fun f => match f.w with
      | .item q => s.itemOf q
      | .run _ => none
    | none, some (.item q, _, _) => s.itemOf q
    | _, _ => none
  match item with
  | some i => if m.cls < 2 then [m.cls, m.deadline, i.arrival, i.ctx, i.seq] else [m.cls, m.requested]
  | none => [m.cls, m.requested]

/-- Lexicographic order of ranks. -/
def rankLt : List Nat → List Nat → Bool
  | a :: s, b :: t => decide (a < b) || (a == b && rankLt s t)
  | [], _ :: _ => true
  | _, [] => false

/-- Messages of a context that hold a save record (R366). -/
def State.saveRecords (s : State) (ctx : Nat) : Nat :=
  ((s.dg.lanes.filter fun x => x.2.hasRecord && x.2.ctx == ctx).length) +
    ((s.dg.waiting.filter fun x => x.2.hasRecord && x.2.ctx == ctx).length)

/-- A message may start: G takes no record; any other holds one or finds one of its context's 16 free (R366). -/
def State.mayRun (s : State) (m : DgMsg) : Bool := m.cls == 0 || m.hasRecord || decide (s.saveRecords m.ctx < 16)

/-- The request of a bay, of those that satisfy `p`, that is served next (R365). -/
def State.nextOf (s : State) (bay : Nat) (p : DgMsg → Bool) : Option DgMsg :=
  ((s.dg.waiting.filter fun x => x.1 == bay && s.mayRun x.2 && p x.2).map (·.2)).foldl (fun (best : Option DgMsg) m =>
    match best with
    | none => some m
    | some b => if rankLt (s.msgRank m) (s.msgRank b) then some m else best) none

/-- The request of a bay that is served next (R365). -/
def State.nextMsg (s : State) (bay : Nat) : Option DgMsg := s.nextOf bay fun _ => true

/-! ### Save records (R369) -/

/-- The bytes of a block of an algorithm (R358). -/
def blockBytes (alg : Nat) : Nat :=
  match alg with
  | 0 => 64
  | 3 => 136
  | 4 => 104
  | 5 => 64
  | 8 => 136
  | 9 => 64
  | _ => 128

/-- The bytes of chaining state of an algorithm (R369). -/
def stateBytes (alg : Nat) : Nat :=
  match alg with
  | 0 => 32
  | 5 => 32
  | 1 => 64
  | 2 => 64
  | 6 => 64
  | 7 => 64
  | 9 => 16
  | _ => 200

/-- The fragment that holds a byte of a message, and the byte's place in it; past the fragments lies LAST_WORD. -/
def fragAt : List Nat → Nat → Nat × Nat
  | [], n => (0, n)
  | f :: t, n => if n < f then (0, n) else ((fragAt t (n - f)).1 + 1, (fragAt t (n - f)).2)

/-- The save record of a message at a block boundary. -/
def DgMsg.saveRecord (m : DgMsg) : List Course :=
  let absorbed := m.done * blockBytes m.alg
  let place := fragAt m.frags absorbed
  let chain := fitList (stateBytes m.alg) 0 (Config.digestState m.alg m.key (m.msg.take absorbed))
  let body := natCrs 1 0xD5A ++ natCrs 1 (m.alg * 256) ++ natCrs 1 m.keySlot ++ natCrs 1 m.tagLen ++ natCrs 5 absorbed ++
    natCrs 1 place.1 ++ natCrs 2 place.2 ++ natCrs 2 m.desc ++ natCrs 2 0 ++ fitList 134 0 (unpackBytes chain) ++ natCrs 2 0
  body ++ natCrs 4 (crc32c (packBytes body))

/-- The checks of a restore: MAGIC, ALG and CHECK; a message that was never displaced has no record to restore. -/
def DgMsg.restores (m : DgMsg) : Bool :=
  m.saved.isEmpty || (nth m.saved 0 0 == 0xD5A && (nth m.saved 1 0).toNat / 256 == m.alg &&
    crsNat ((m.saved.drop 152).take 4) == crc32c (packBytes (m.saved.take 152)))

/-- A save record that fails its checks ends its message: the firing, or the work of the operator, ends with
DIGEST_STATE_INVALID. -/
def State.stateInvalid (s : State) (m : DgMsg) : State :=
  let s1 : State := { s with dg := { s.dg with waiting := s.dg.waiting.filter fun x => x.2.id != m.id } }
  match m.core, m.w with
  | some (u, _), _ => s1.coreFault u 0x0804 0 none
  | none, some (w, _, _) => s1.workError w 0x0804 0
  | none, none => s1

/-- A message takes a lane, from its save record where it has one. -/
def State.startLane (s : State) (bay lane : Nat) (m : DgMsg) : State :=
  if !m.restores then s.stateInvalid m
  else { s with dg := { s.dg with
      waiting := s.dg.waiting.filter fun x => x.2.id != m.id
      lanes := tset (bay, lane) { m with sinceStart := 0, hasRecord := m.cls != 0, saved := [] } s.dg.lanes } }

/-- DIGEST_LANE_START (R365, R366): the request first in order starts or resumes on a free lane of its bay. -/
def execDigestLaneStart (bay lane : Nat) (s : State) : Out :=
  .next <|
    if !(s.bayRuns bay) ∨ 4 ≤ lane ∨ s.mason.fencedLanes.contains (bay, lane) ∨ (tget (bay, lane) s.dg.lanes).isSome then s
    else match s.nextMsg bay with
      | none => s
      | some m => s.startLane bay lane m

/-- Put a message in the queue of a bay. -/
def State.dgQueue (s : State) (bay : Nat) (m : DgMsg) : State :=
  { s with dg := { s.dg with waiting := s.dg.waiting ++ [(bay, { m with id := s.dg.nextId })], nextId := s.dg.nextId + 1 } }

/-! ### The DIGEST operator (R144) -/

/-- The message fields of a DIGEST. -/
def Operator.digestFields (o : Operator) : List Nat := o.pars 6 (o.par 4)

/-- The largest bytes a field contributes. -/
def fieldMax (t : TypeDesc) : Nat := if t.kind = 5 then t.param else ceilDiv t.n 2 * 3

/-- The message of a row; `none` when a message field is null. -/
def rowMessage (ts : List TypeDesc) (ks : List Nat) (r : Row) : Except Nat (Option (List Byte)) :=
  let vs := r.getAll ks
  if vs.contains none then .ok none
  else do
    let bs ← exceptAll (ks.map fun k => fieldBytes (nth ts k tCode) ((r.get k).getD []))
    return some (bs.flatMap id)

/-- Reading TAG_FIELD checks its length (R60, R144): the code it raises on some row. -/
def tagFault (e : OpEnv) (rows : List Row) : Option Nat :=
  if e.op.par 0 / 128 % 2 = 0 then none
  else match exceptAll (rows.map fun r => checkField (nth (e.types 0) (e.op.par 3) tCode) (r.get (e.op.par 3))) with
    | .ok _ => none
    | .error c => some c

/-- The output row for a row and its tag: TAG, or VALID (R144). -/
def digestRow (e : OpEnv) (r : Row) (tag : Option (List Byte)) : Row :=
  let n := e.op.par 2
  if e.op.par 0 / 128 % 2 = 0 then r.push (tag.map (bytesCourses 64)) 45
  else
    let t := nth (e.types 0) (e.op.par 3) tCode
    let given := (r.get (e.op.par 3)).bind fun cs => bytesOf t cs
    let ok := match tag, given with
      | some x, some y => decide (n ≤ y.length) && y.take n == x
      | _, _ => false
    r.push (some [if ok then 1 else 0]) 1

/-- DIGEST emits once every message of its token has its tag. -/
def State.digestFinish (s : State) (w : WorkRef) (op : Nat) : State :=
  match s.opEnv w op 0x14 with
  | none => s
  | some e =>
    let mine := fun (m : DgMsg) => match m.w with
      | some (v, o, _) => v == w && o == op
      | none => false
    match e.work.heldRows op with
    | none => s
    | some tags =>
      if (s.dg.lanes.any fun x => mine x.2) || (s.dg.waiting.any fun x => mine x.2) then s
      else
        let tok := tok0 (e.work.at_ op 0).toks
        let out := (tok.rows.zip tags).map fun x => digestRow e x.1 ((x.2.get 0).bind fun cs => bytesOf (tBytes 64) cs)
        (s.updWork w fun k => { k.take op with held := tdel op k.held }).emit e [(0, { tokenOf (e.out 0) out with batch := tok.batch })]
          (!e.isRun)

/-- The class, deadline and request tick of a work's messages. -/
def State.workClass (s : State) : WorkRef → Nat × Tick
  | .item q => match s.itemOf q with
    | some i => (min i.cls i.inhCls, min i.deadline i.inhDeadline)
    | none => (2, 0)
  | .run _ => (2, 0)

/-- DIGEST (R144): one message for each row whose message fields are present. The address of its field list, which a save
record names, is a free value (R369, assumption 4: DESIGN CHOICE). -/
def execDigest (w : WorkRef) (op : Nat) (s : State) : Out :=
  .next <|
    match s.opEnv w op 0x14 with
    | none => s
    | some e =>
      if (e.work.heldRows op).isSome then s
      else match e.feed false with
        | .wait => s
        | .finish => s.emit e [] true
        | .toks ts =>
          let rows := (tok0 ts).rows
          let ty := e.types 0
          let alg := e.op.par 0 / 256
          let ks := e.op.digestFields
          if rows.isEmpty && !e.isRun then (s.updWork w fun k => k.take op).emit e [(0, tokenOf (e.out 0) [])] true
          else match s.keyFor e.slice (e.op.par 1) alg, exceptAll (rows.map (rowMessage ty ks)), tagFault e rows with
            | none, _, _ => s.workErrorB w (tok0 ts).batch 0x038B 0
            | _, .error c, _ => s.workErrorB w (tok0 ts).batch c 0
            | _, _, some c => s.workErrorB w (tok0 ts).batch c 0
            | some key, .ok ms, none =>
              let most := sumNat (ks.map fun k => fieldMax (nth ty k tCode))
              let bytes := sumNat ((ms.filterMap id).map fun m => if e.image.hasDgSub then digestCharge m.length else most)
              match s.chargeAll w (tok0 ts).batch [(2, 20 + 4 * rows.length), (5, bytes)] with
              | .error d => s.workErrorB w (tok0 ts).batch 0x0381 d
              | .ok s0 =>
                let (s1, bay) := s0.askFrom w
                let (cls, dl) := s1.workClass w
                let n := e.op.par 2
                let s2 := s1.updWork w fun k => { k with held := tset op (ms.map fun m => match m with
                  | some x => rowOf [bytesCourses 64 (tagOf alg key x n)]
                  | none => { fields := [[]], valid := [false], ovf := false }) k.held }
                let lens := fun (i : Nat) => ks.map fun k =>
                  ((((rows[i]?).bind fun r => r.get k).bind fun cs => (fieldBytes (nth ty k tCode) cs).toOption).getD []).length
                let s3 := (List.range ms.length).foldl (fun (t : State) i => match nth ms i none with
                  | some m => t.dgQueue bay
                      { id := 0, cls := cls, deadline := dl, requested := t.now, slice := e.slice, ctx := e.ctx, alg := alg,
                        key := key, msg := m, tagLen := n, blocks := digestBlocks alg m.length, done := 0, sinceStart := 0,
                        hasRecord := false, core := none, w := some (w, op, i), keySlot := s2.deviceSlot e.slice (e.op.par 1) alg,
                        desc := s2.freeBits 24, frags := lens i }
                  | none => t) s2.advanceFree
                s3.digestFinish w op

/-- DIGEST_BLOCK_DONE (R358, R367, R368): a lane ends a block. The message ends with its tag; a non-G message is
displaced for a G request that finds no free lane, or after 64 blocks when a non-G request waits. -/
def execDigestBlockDone (bay lane : Nat) (s : State) : Out :=
  .next <|
    match tget (bay, lane) s.dg.lanes with
    | none => s
    | some m0 =>
      let m := { m0 with done := m0.done + 1, sinceStart := m0.sinceStart + 1 }
      let s1 := s.bump 0x6340 1 [bay] m.slice
      let without : State := { s1 with dg := { s1.dg with lanes := tdel (bay, lane) s1.dg.lanes } }
      if m.blocks ≤ m.done then
        match m.w with
        | some (w, op, _) => without.digestFinish w op
        | none => match m.core with
          | some (u, _) => without.noteLate u m.requested (40 + 160 * (m.blocks + 1))
          | none => without
      else
        let freeLane := (List.range 4).any fun l =>
          !(s.mason.fencedLanes.contains (bay, l)) && (tget (bay, l) s.dg.lanes).isNone
        let next := if freeLane then s1.nextOf bay (fun n => n.cls != 0) else s1.nextMsg bay
        match next.filter fun n => m.cls != 0 && (n.cls == 0 || decide (64 ≤ m.sinceStart)) with
        | none => { s1 with dg := { s1.dg with lanes := tset (bay, lane) m s1.dg.lanes } }
        | some n =>
          let s2 := without.startLane bay lane n
          ({ s2 with dg := { s2.dg with waiting := s2.dg.waiting ++ [(bay, { m with saved := m.saveRecord })] } } : State).bump
            0x6340 2 [bay] m.slice

end Sys2Proof.Machine
end

