-- ==== Sys2Proof/Machine/ChiselEngine.lean ====
section
/-! DEFINITION. Engine instructions of Chisel (R226-R228), the end of a firing (R211) and its cycle bound (R208). -/

namespace Sys2Proof.Machine

/-- Courses of the work area from `a` on lie inside it (R221). -/
def Core.inWork (c : Core) (a n : Nat) : Bool := decide (a + n ≤ c.workSize)

/-! ### Keystone (R226) -/

/-- The declaration of a LOCAL in the image of a core's firing. -/
def State.declOf (s : State) (c : Core) (loc : Nat) : Option (Firing × KsDecl) := do
  let f ← c.firing
  let x ← s.ctxOf f.ctx
  let d ← x.image.decls.find? fun d => d.loc == loc
  return (f, d)

/-- ks.find: one search of a declared table; its answer is delivered by KS_SEARCH_RESULT. -/
def execKsFind (u : CoreId) (g : Fin 8) (rd ra : Fin 32) (loc : BitVec 8) (s : State) : Out :=
  s.issue u g (infoS 160 (rS [ra] ++ [rWork]) [.s rd.val, .s (rd.val + 1)] (inRange 1 30 rd.val)) false false fun t c _ =>
    match t.declOf c loc.toNat with
    | none => .fault t 0x03C6 0
    | some (f, d) =>
      let a := (c.sr ra.val).toNat
      if !(c.inWork a d.key) then .fault t 0x0384 0
      else match t.chargeFiring f 3 1 with
        | none => capRes t 3
        | some t1 => .done (t1.ksIssue
            { id := 0, slice := f.slice, table := d.table, key := c.workRead a d.key, bay := (coreBay u).getD 0,
              core := some (u, rd.val), w := none, since := 0, bank := none })

/-- An update of a kernel: accepted when the bank's queue of 16 takes it, held at issue until then (R226, R267). -/
def State.ksUpdate (s : State) (u : CoreId) (c : Core) (loc kind pos : Nat) (image : Option Nat) : Res :=
  match s.declOf c loc with
  | none => .fault s 0x03C6 0
  | some (f, d) =>
    match s.ksTab f.slice d.table with
    | none => .fault s 0x03C6 0
    | some t =>
      let n := ksImageLen t.mode t.key
      let ims := match image with
        | some a => [c.workRead a n]
        | none => []
      if !d.write then .fault s 0x03C7 0
      else if (image.map fun a => !(c.inWork a n)).getD false then .fault s 0x0384 0
      else if !(ims.all (ksImageOk t.mode t.key)) then .fault s 0x0504 0
      else match s.chargeFiring f 3 1 with
        | none => capRes s 3
        | some s1 =>
          if 16 ≤ t.queued then .leave (s.setCore u { c with heldSince := some (c.heldSince.getD s.now) })
          else
            let s2 := match c.heldSince with
              | some a => (s1.setCore u { c with heldSince := none }).noteLate u a 0
              | none => s1
            .done (s2.ksQueue f.slice d.table kind pos ims false f.ctx (some u))

/-- ks.ins: queue an insert of the image at ra at position rb. -/
def execKsIns (u : CoreId) (g : Fin 8) (ra rb : Fin 32) (loc : BitVec 8) (s : State) : Out :=
  s.issue u g { infoS 1 (rS [ra, rb]) [] true with occ := 160, alone := true } false false fun t c _ =>
    t.ksUpdate u c loc.toNat 0 (c.sr rb.val).toNat (some (c.sr ra.val).toNat)

/-- ks.del: queue a delete at position rb. -/
def execKsDel (u : CoreId) (g : Fin 8) (rb : Fin 32) (loc : BitVec 8) (s : State) : Out :=
  s.issue u g { infoS 1 (rS [rb]) [] true with occ := 160, alone := true } false false fun t c _ =>
    t.ksUpdate u c loc.toNat 1 (c.sr rb.val).toNat none

/-! ### emit (R227, R129) -/

/-- LINES of a STATE layout, else 0. -/
def Layout.stateLines : Layout → Nat
  | .fixed 4 n => n
  | _ => 0

/-- The occupancy of an emit for its rows (R241). -/
def emitOcc (c : Core) (port n : Nat) : Nat :=
  match c.firing with
  | none => 2
  | some f =>
    let l := nth f.outLayouts port (.fields [])
    2 + ceilDiv (n * l.imageSize + (if n = 0 then 0 else l.stateLines * 128)) 64

/-- The token an emit copies from the work area. -/
def emitToken (c : Core) (l : Layout) (a n : Nat) : Token :=
  let z := l.imageSize
  let rows := (List.range n).map fun k =>
    let r := l.row (c.workRead (a + k * z) z)
    { r with ovf := r.ovf || c.rowOvf }
  let addr := ((rows.head?).bind fun r => r.fields[1]?).elim 0 crsNat
  { tokenOf l rows with area := c.workRead addr (l.stateLines * 128) }

/-- Scratch left free in the stone of a firing: its work and input areas are taken, and every emitted token that travels by
reference, being above 256 courses (R111). -/
def Firing.scratchFree (f : Firing) : Nat :=
  let big := (f.emitted.map fun e => e.2.rows.length * e.2.layout.imageSize).filter fun n => 256 < n
  scratchCourses - (f.scratch * 128 + f.input.length + sumNat big)

/-- A token of `n` rows is above what a token may have: one row in G and D class, 4,096 rows, or the scratch left free where
it travels by reference (R111, R129, R227). -/
def Firing.rowLimit (f : Firing) (l : Layout) (n : Nat) : Bool :=
  (f.cls != 2 && decide (1 < n)) || decide (4096 < n) ||
    (decide (256 < n * l.imageSize) && decide (f.scratchFree < n * l.imageSize))

/-- The STATE rows of an emit are in order: ADDR a multiple of 128 and the area within the work area (R227). -/
def stateRowsOk (c : Core) (l : Layout) (rows : List Row) : Bool :=
  l.stateLines == 0 || rows.all fun r =>
    let a := crsNat (nth r.fields 1 [])
    a % 128 == 0 && c.inWork a (l.stateLines * 128)

/-- emit: a token of rb rows at ra on a port; its checks are made in the order of R227. -/
def execEmit (u : CoreId) (g : Fin 8) (port : Fin 8) (ra rb : Fin 32) (s : State) : Out :=
  let c0 := (s.settle u).coreOf u
  let occ := emitOcc c0 port.val (c0.sr rb.val).toNat
  s.issue u g { infoS 1 (rS [ra, rb] ++ [rOvf]) [] true with occ := occ, alone := true } false false fun t c _ =>
    match c.firing with
    | none => .fault t 0x03C8 0
    | some f =>
      let n := (c.sr rb.val).toNat
      let a := (c.sr ra.val).toNat
      let l := nth f.outLayouts port.val (.fields [])
      if f.nout ≤ port.val then .fault t 0x03C8 0
      else if f.emitted.any fun e => e.1 == port.val then .fault t 0x0386 0
      else if f.rowLimit l n then .fault t 0x0385 0
      else if !(c.inWork a (n * l.imageSize)) then .fault t 0x0384 0
      else
        let tok := emitToken c l a n
        if !(stateRowsOk c l tok.rows) then .fault t 0x03C9 0
        else .done (t.setCore u { c.clearRow with firing := some { f with emitted := f.emitted ++ [(port.val, tok)] } })

/-! ### Digests (R228, R361-R364) -/

/-- The fragments of a descriptor: area, bytes, address. -/
def dgFragments (cs : List Course) (n : Nat) : List (Nat × Nat × Nat) :=
  (List.range n).map fun i =>
    let f := slice cs (12 + 8 * i) 8
    ((nth f 0 0).toNat, crsNat (slice f 1 2), crsNat (slice f 3 5))

/-- A fragment of a firing: work or input area, an even address, its bytes within the area (R361, R363). -/
def dgFragOk (c : Core) (x : Nat × Nat × Nat) : Bool :=
  let size := if x.1 / 1024 = 0 then c.workSize else c.inputSize
  decide (x.1 / 1024 ≤ 1 ∧ x.1 % 1024 = 0 ∧ x.2.2 % 2 = 0 ∧ x.2.2 + ceilDiv (2 * x.2.1) 3 ≤ size)

/-- The bytes of a fragment (R362). -/
def dgFragBytes (c : Core) (x : Nat × Nat × Nat) : List Byte :=
  let n := ceilDiv (2 * x.2.1) 3
  (packBytes (if x.1 / 1024 = 0 then c.workRead x.2.2 n else c.inputRead x.2.2 n)).take x.2.1

/-- The checks of a descriptor in course order (R363): its code, or its parts. -/
def dgCheck (s : State) (c : Core) (sl a : Nat) : Except Nat (Nat × List Byte × Nat × List Byte × Nat × List (Nat × Nat × Nat)) := do
  if !(c.inWork a 12) then throw 0x03CA
  let h := c.workRead a 12
  let c0 := (nth h 0 0).toNat
  let n := c0 % 64
  if !(c.inWork a (12 + 8 * n)) then throw 0x03CA
  let alg := c0 / 256
  let slot := (nth h 1 0).toNat
  let tagLen := (nth h 2 0).toNat
  let last := (nth h 3 0).toNat
  if 9 < alg ∨ fieldOf c0 7 6 ≠ 0 ∨ 32 < n ∨ (alg ≤ 4 ∧ slot ≠ 0xFFF) ∨ !(tagLenOk alg tagLen) then throw 0x03CA
  if 8 < last then throw 0x0801
  let word := packBytes (slice h 4 6)
  if (word.drop last).any (· != 0) then throw 0x03CA
  let tagAddr := crsNat (slice h 10 2)
  if !(c.inWork tagAddr 45) then throw 0x03CA
  let frags := dgFragments (c.workRead a (12 + 8 * n)) n
  if !(frags.all (dgFragOk c)) then throw 0x03CA
  match s.keyFor sl slot alg with
  | none => throw 0x038B
  | some key => return (alg, key, tagLen, frags.flatMap (dgFragBytes c) ++ word.take last, tagAddr, frags)

/-- dg.sub: submit the descriptor at ra. -/
def execDgSub (u : CoreId) (g : Fin 8) (ra : Fin 32) (s : State) : Out :=
  s.issue u g (infoS 1 (rS [ra] ++ [rWork]) [] true) false false fun t c k =>
    match c.firing with
    | none => .fault t 0x03CA 0
    | some f =>
      match dgCheck t c f.slice (c.sr ra.val).toNat with
      | .error code => .fault t code 0
      | .ok (alg, key, tagLen, msg, tagAddr, frags) =>
        match t.chargeFiring f 5 (digestCharge msg.length) with
        | none => capRes t 5
        | some t1 =>
          let blocks := digestBlocks alg msg.length
          let area := (tagAddr, 45) :: ((frags.filter fun x => x.1 / 1024 == 0).map fun x => (x.2.2, ceilDiv (2 * x.2.1) 3))
          let pend : DgPend := { tagAddr := tagAddr, tag := tagOf alg key msg tagLen, area := area, spoiled := false }
          let (cls, dl) := t1.workClass f.w
          let t2 := t1.setCore u { c with
            firing := some { f with digests := f.digests ++ [pend] }
            sched := { c.sched with tagAt := max c.sched.tagAt (k + 40 + 80 * (blocks + 1) * 2) } }
          .done (t2.dgQueue ((coreBay u).getD 0)
            { id := 0, cls := cls, deadline := dl, requested := t2.now, slice := f.slice, ctx := f.ctx, alg := alg, key := key,
              msg := msg, tagLen := tagLen, blocks := blocks, done := 0, sinceStart := 0, hasRecord := false,
              core := some (u, 0), w := none, desc := (c.sr ra.val).toNat, frags := frags.map fun x => x.2.1,
              keySlot := t2.deviceSlot f.slice (nth (c.workRead (c.sr ra.val).toNat 2) 1 0).toNat alg })

/-- Digests of a core still on a lane or waiting for one. -/
def State.digesting (s : State) (u : CoreId) : Bool :=
  (s.dg.lanes.any fun x => (x.2.core.map (·.1)) == some u) || (s.dg.waiting.any fun x => (x.2.core.map (·.1)) == some u)

/-- Write a completed tag into the work area; a spoiled one has undefined bytes (R228, R362, R364). -/
def State.putTag (s : State) (u : CoreId) (d : DgPend) : State :=
  let n := d.tag.length
  let bytes := if d.spoiled then natBytes n (s.freeBits (8 * n)) else d.tag
  let s1 := if d.spoiled then s.advanceFree else s
  s1.setCore u ((s1.coreOf u).workWrite d.tagAddr ((bytesCourses 64 bytes).map some))

/-- dg.wait: retires when every earlier tag is complete; the tags are then in the work area. -/
def execDgWait (u : CoreId) (g : Fin 8) (s : State) : Out :=
  s.issue u g { infoS 1 [] [] true with alone := true } false false fun t c _ =>
    if t.digesting u then .leave t
    else match c.firing with
      | none => .done t
      | some f =>
        let t1 := f.digests.foldl (fun (x : State) d => x.putTag u d) t
        let c1 := t1.coreOf u
        .held (t1.setCore u { c1 with firing := c1.firing.map fun f => { f with digests := [] } }) c.sched.tagAt

/-! ### The end of a firing (R209, R211, R242) -/

/-- The cycle in which end retires: its issue, every charge, acknowledgement and tag before it. -/
def endCycle (c : Core) (k : Nat) : Nat := max (max k c.sched.ackAt) (max c.sched.tagAt ((c.sched.ready.map (·.2)).foldl max 0))

/-- Deliver what a firing emitted: a token on every port, of zero rows where none was emitted (R129). -/
def State.deliverFiring (s : State) (f : Firing) : State :=
  match s.opEnv f.w f.op 0x04 with
  | none => s
  | some e =>
    s.emit e ((List.range f.nout).map fun p =>
      let t := (tget p f.emitted).getD (tokenOf (nth f.outLayouts p (.fields [])) [])
      (p, { t with batch := f.batch })) (!e.isRun)

/-- A firing that has retired end in cycle `n`: its cycles are charged, its overflow applied, its tokens delivered. Where
other firings of the work have left too little of STONE_CYCLES, the cap ends the work (R109, R151). -/
def State.completeFiring (s : State) (u : CoreId) (f : Firing) (c : Core) (n : Nat) : State :=
  let s1 := ((s.dropFiring u).overflow f.ctx c.ctxOvf).noteB f.w ((coreBay u).getD 16) (n + 1)
  let s2 := match s1.chargeFiring f 2 (n + 1) with
    | some t => t.deliverFiring f
    | none => s1.workErrorAt (s1.placeOf f.w) f.w c.item 0x0381 2 none
  match f.w with
  | .item q => s2.retire q
  | .run _ => s2

/-- end: retires after every load, search, digest and store of the firing, and ends it. On a Quoin core it only
retires. -/
def execEndFiring (u : CoreId) (g : Fin 8) (s : State) : Out :=
  s.issue u g { infoS 1 [] [] true with alone := true } false false fun t c k =>
    match c.firing with
    | none => .done t
    | some f =>
      if t.digesting u ∨ c.storesOut ≠ 0 ∨ t.ks.searches.any fun x => (x.core.map (·.1)) == some u then .leave t
      else
        let n := if f.predict then k else endCycle c k
        if f.cycleBound ≤ n then .fault t 0x0381 f.boundDetail
        else .leave (t.completeFiring u f c n)

/-- CYCLE_BOUND_CUTOFF (R208): the cycle count reaches the bound before end retires. With PREDICT 0 the next issue lies
beyond the bound; with PREDICT 1 the count reaches it within the current tick (R248). -/
def execCycleBoundCutoff (u : CoreId) (s : State) : Out :=
  .next <|
    match (s.coreOf u).firing with
    | none => s
    | some f =>
      let k := if f.predict then f.elapsed s.now + 80 else (s.coreOf u).sched.next
      if f.cycleBound ≤ k then s.coreFault u 0x0381 f.boundDetail none else s

end Sys2Proof.Machine
end

