-- ==== Sys2Proof/Machine/Firing.lean ====
section
/-! DEFINITION. MAP (R129) and the start of a firing: the dispatcher's choice (R167-R170) and what the device places in
the stone (R206). -/

namespace Sys2Proof.Machine

/-! ### MAP (R129) -/

/-- A firing of an operator is ready or in a stone. -/
def State.firingKnown (s : State) (w : WorkRef) (op : Nat) : Bool :=
  (s.mason.ready.any fun r => r.w == w && r.op == op) ||
    s.cores.any fun e => match e.2.firing with
      | some f => f.w == w && f.op == op
      | none => false

/-- MAP: with a row on some input its kernel's firing is ready; with none it emits a zero-row token on every port. -/
def execMap (w : WorkRef) (op : Nat) (s : State) : Out :=
  .next <|
    match s.opEnv w op 0x04 with
    | none => s
    | some e =>
      if s.firingKnown w op then s
      else match e.feed false with
        | .wait => s
        | .finish => s.emit e [] true
        | .toks ts =>
          if ts.all fun t => t.rows.isEmpty then
            (s.updWork w fun k => k.take op).emit e
              ((List.range e.op.nout).map fun p => (p, { tokenOf (e.out p) [] with batch := (tok0 ts).batch })) (!e.isRun)
          else { s with mason := { s.mason with ready := s.mason.ready ++ [(⟨w, op, e.op.par 0⟩ : Ready)] } }

/-! ### The dispatcher's choice (R167-R170) -/

/-- Lexicographic order of numbers. -/
def lexLt : List Nat → List Nat → Bool
  | [], [] => false
  | [], _ :: _ => true
  | _ :: _, [] => false
  | a :: as_, b :: bs => decide (a < b) || (a == b && lexLt as_ bs)

/-- A stone's bay is running and it holds no firing (R513, R9). -/
def State.stoneFree (s : State) (b slot : Nat) : Bool :=
  (s.activeStones b).contains slot && !(s.stoneBusy b slot) &&
    decide ((tgetD b (⟨0, 0, none⟩ : BayPower) s.power.bays).state = 0)

/-- The slice that leases a stone. -/
def State.leasedBy (s : State) (b slot sl : Nat) : Bool := (s.leaseOf b slot).any fun l => l.1 == sl

/-- The bay has a free stone of a slice (R170). -/
def State.hasFreeStone (s : State) (b sl : Nat) : Bool :=
  (s.activeStones b).any fun k => s.stoneFree b k && s.leasedBy b k sl

/-- A ready B firing goes before a ready D firing on the stones of a bay (R169). -/
def State.bFirst (s : State) (b : Nat) : Bool :=
  s.floorBays.contains b &&
    decide (2 * s.bUseNow < sumNat (s.floorBays.map fun x => (s.activeStones x).length) * (2500 * 80))

/-- The rank of a class at a stone: G, then D, then B, or B before D on the floor (R167, R169). -/
def classRank (bFirst : Bool) (cls : Nat) : Nat :=
  match cls, bFirst with
  | 1, true => 2
  | 2, true => 1
  | c, _ => c

/-- The bound a stone of a G pool sets on firings of other classes (R168). -/
def State.blockOk (s : State) (b slot : Nat) (r : Ready) (cls : Nat) (im : Image) : Bool :=
  cls == 0 || !(s.inGPool b slot) ||
    decide (((im.kernels[r.kernel]?).map (·.cycleBound)).getD 0 ≤ s.objNum 0x3400 2 [] 0 4000)

/-- The rank of a ready firing at a stone, if the stone may start it. -/
def State.readyRank (s : State) (b slot : Nat) (r : Ready) : Option (List Nat) := do
  let e ← s.opEnv r.w r.op 0x04
  if !(s.leasedBy b slot e.slice) then none
  match r.w with
  | .item q => do
    let i ← s.itemOf q
    if !(s.blockOk b slot r i.inhCls e.image) ∨ (i.bay ≠ b ∧ s.hasFreeStone i.bay e.slice) then none
    return [classRank (s.bFirst b) i.inhCls, i.inhDeadline, i.arrival, i.ctx, i.seq]
  | .run n => do
    let u ← s.runOf n
    if s.therm.bSuspended ∨ !(s.blockOk b slot r 2 e.image) then none
    let k := match e.feed false with
      | .toks ts => (tok0 ts).batch.getD 0
      | _ => 0
    return [classRank (s.bFirst b) 2, u.start, n, k]

/-- The first ready firing a stone may start. -/
def State.chooseReady (s : State) (b slot : Nat) : Option Ready :=
  let xs := s.mason.ready.filterMap fun r => (s.readyRank b slot r).map fun k => (k, r)
  ((sortBy (fun (x y : List Nat × Ready) => lexLt x.1 y.1) xs).head?).map (·.2)

/-! ### What the device places in the stone (R206, R207) -/

/-- The row of an input token as the kernel finds it: RECORD_ADDR of an ITEM row, ADDR of a STATE row. -/
def placedRow (l : Layout) (recAddr stateAddr : Nat) (r : Row) : Row :=
  match l with
  | .fixed 0 _ => { r with fields := r.fields.set 4 (natCrs 2 recAddr) }
  | .fixed 4 _ => { r with fields := r.fields.set 1 (natCrs 2 stateAddr) }
  | _ => r

/-- The rows of tokens in port order, with their layouts. -/
def placedRows (ts : List Token) : List (Layout × Row) := ts.flatMap fun t => t.rows.map fun r => (t.layout, r)

/-- The courses of the record of an ITEM row. -/
def recordCourses (x : Layout × Row) : List Course :=
  match x.1 with
  | .fixed 0 _ => let cs := unpackBytes x.2.record; fitList (evenUp cs.length) 0 cs
  | _ => []

/-- The address each row's record has, behind all rows. -/
def recordAddrs (start : Nat) : List (Layout × Row) → List Nat
  | [] => []
  | x :: xs => start :: recordAddrs (start + (recordCourses x).length) xs

/-- The input area: the directory, the rows of each port, and the record bytes of ITEM rows. -/
def inputArea (work : Nat) (ts : List Token) : List Course :=
  let sizes := ts.map fun t => t.rows.length * t.layout.imageSize
  let addrs := (List.range ts.length).map fun p => 32 + sumNat (sizes.take p)
  let xs := placedRows ts
  let recs := recordAddrs (32 + sumNat sizes) xs
  let dir := (List.range 8).flatMap fun p =>
    match ts[p]? with
    | some t => natCrs 2 t.rows.length ++ natCrs 2 (nth addrs p 0)
    | none => [0, 0, 0, 0]
  let rows := (xs.zip recs).flatMap fun (x, a) => x.1.image (placedRow x.1 a (work - x.1.stateLines * 128) x.2)
  dir ++ rows ++ xs.flatMap recordCourses

/-- The work area at the start: zero but for the state area in its top LINES × 128 courses. -/
def workStart (work : Nat) (ts : List Token) : List (Nat × Course) :=
  ts.foldl (fun m t =>
    let n := t.layout.stateLines * 128
    if n = 0 ∨ t.rows.isEmpty then m
    else (List.range n).foldl (fun (m : List (Nat × Course)) k => tset (work - n + k) (nth t.area k 0) m) m) []

/-- The lines of L1I that hold a kernel's first 10,240 instructions, by their place in the kernel (R243, R291). -/
def kernelLines (k : Kernel) : List Line :=
  let cs := (k.code.take 10240).flatMap (natCrs 3)
  (List.range (ceilDiv cs.length 128)).map fun i =>
    { way := i / 64, addr := 128 * i, data := fitList 128 0 (slice cs (128 * i) 128), dirty := false, owner := 4096 }

/-- The registers of a core at the start of a firing; what the core keeps from one firing to the next stays (R206). -/
def Core.startFiring (c : Core) (u : CoreId) (k : Kernel) (f : Firing) (arrival deadline tag : Nat) (consts : Bool) : Core :=
  { coreReset u with
    mode := if k.predict then 0x800 else 0
    budget := k.budget
    cbase := if consts then scalarOf ((Config.constPage f.ctx).toNat * 4096) else 0
    arrival := scalarOf arrival
    deadline := scalarOf deadline
    item := tag % 2 ^ 24
    ctx := f.ctx
    firing := some f
    pred := c.pred
    tlb := c.tlb
    locked := c.locked
    l1i := kernelLines k
    l1d := c.l1d
    ptrI := c.ptrI
    ptrD := c.ptrD
    evict := c.evict }

/-- What a firing may still take of its cycles: CYCLE_BOUND, or what is left of STONE_CYCLES, and the detail of the cap
(R109, R151, R208). -/
def State.cyclesLeft (s : State) (w : WorkRef) (batch : Option Nat) (k : Kernel) : Nat × Nat :=
  match s.capsOf w batch, s.workOf w with
  | some (b, n), some wk =>
    let left := b.stoneCycles * n - (wk.chargesOf batch).stoneCycles
    if k.cycleBound ≤ left then (k.cycleBound, 1) else (left, 2)
  | _, _ => (k.cycleBound, 1)

/-- The arrival, the deadline and the item tag a firing shows its kernel (R202). -/
def State.firingTimes (s : State) (w : WorkRef) (batch : Nat) : Nat × Nat × Nat × Nat :=
  match w with
  | .item q => match s.itemOf q with
    | some i => (i.arrival, i.deadline, q, i.cls)
    | none => (0, 0, q, 1)
  | .run _ => (0, 0, batch, 2)

/-- Start a ready firing in a stone (R206). -/
def State.startFiring (s : State) (b slot : Nat) (r : Ready) : State :=
  let u := CoreId.stone b slot
  let s0 : State := { s with mason := { s.mason with ready := s.mason.ready.filter fun x => x != r } }
  match s0.opEnv r.w r.op 0x04 with
  | none => s0
  | some e =>
    match e.feed false, e.image.kernels[r.kernel]? with
    | .toks ts, some k =>
      let batch := (tok0 ts).batch
      let work := k.scratch * 128
      let (arrival, deadline, tag, cls) := s0.firingTimes r.w (batch.getD 0)
      let (cyc, detail) := s0.cyclesLeft r.w batch k
      let gen := s0.genOf e.slice
      let f : Firing :=
        { start := s0.now, w := r.w, op := r.op, slice := e.slice, gen := gen, ctx := e.ctx, cls := cls, nout := e.op.nout, codeLen := k.code.length,
          cycleBound := cyc, boundDetail := detail, scratch := k.scratch, predict := k.predict,
          outLayouts := (List.range e.op.nout).map e.out, inputs := ts, workArea := workStart work ts, input := inputArea work ts,
          emitted := [], digests := [] }
      let s1 := s0.updWork r.w fun x => x.take r.op
      let s2 := s1.setCore u ((s1.coreOf u).startFiring u k f arrival deadline tag (!e.image.constants.isEmpty))
      if ts.any fun t => decide (work < t.layout.stateLines * 128) then s2.coreFault u 0x0384 0 none else s2
    | _, _ => s0

/-- FIRING_DISPATCH (R167): a free stone's dispatcher starts the next ready firing of the slice that leases it. A parity
error of an L1I line is refetched and counted (R298). -/
def execFiringDispatch (bay slot : Nat) (l1iParity : Bool) (s : State) : Out :=
  .next <|
    if !(s.stoneFree bay slot) ∨ !(s.bayRuns bay) then s
    else match s.chooseReady bay slot with
      | none => s
      | some r =>
        let s1 := s.startFiring bay slot r
        if l1iParity then (s1.bump 0x6001 1 [bay] 0).record (bayRing bay) 2 bay 0x0685 0 else s1

end Sys2Proof.Machine
end

