-- ==== Sys2Proof/Machine/Admission.lean ====
section
/-! DEFINITION. Admission of G-class contexts (07): bounds on rows, the cost vector and the path bound (R121, R149, R150),
the placement of key banks (R271), the test over W and g (R185-R188, R192), and its re-runs (R47, R189). -/

namespace Sys2Proof.Machine

/-! ### The graph in order (R564) -/

/-- The source operators of an operator. -/
def Image.sources (im : Image) (k : Nat) : List Nat := (im.edges.filter fun e => e.dst == k).map (·.src)

/-- The lowest-numbered operator that is not done and whose sources are all done. -/
def Image.nextOp (im : Image) (done : List Nat) : Option Nat :=
  (List.range im.ops.length).find? fun k => !(done.contains k) && (im.sources k).all fun x => done.contains x

/-- Operators in topological order, lowest number first. -/
def topoFrom (im : Image) : Nat → List Nat → List Nat
  | 0, done => done
  | n + 1, done => match im.nextOp done with
    | some k => topoFrom im n (done ++ [k])
    | none => done

/-- The topological order of a graph; shorter than the graph when it has a cycle. -/
def Image.topo (im : Image) : List Nat := topoFrom im im.ops.length []

/-- The value held for the source of an input port. -/
def Image.atInput (im : Image) (acc : List (Nat × Nat)) (k p : Nat) : Nat :=
  match im.edges.find? fun e => e.dst == k && e.dport == p with
  | some e => tgetD e.src 0 acc
  | none => 0

/-! ### Rows (R121) -/

/-- The bound on the output rows of an operator, from those of its inputs. -/
def Image.rowBound (im : Image) (acc : List (Nat × Nat)) (k : Nat) (o : Operator) : Nat :=
  let n := im.atInput acc k 0
  match o.code with
  | 0x01 => 1
  | 0x04 => 1
  | 0x0A => n * o.par 5
  | 0x0D => min n (o.par 1)
  | 0x0E => if o.par 0 = 0 then 1 else n
  | 0x10 => 1
  | 0x12 => sumNat ((List.range o.nin).map (im.atInput acc k))
  | _ => n

/-- The output-row bounds of the operators of a G or D graph. -/
def Image.rowBounds (im : Image) : List (Nat × Nat) :=
  im.topo.foldl (fun acc k => match im.ops[k]? with
    | some o => acc ++ [(k, im.rowBound acc k o)]
    | none => acc) []

/-! ### Costs (R149, R150) -/

/-- One row of the cost table of R149: six resources and the latency. -/
structure OpCost where
  stone : Nat
  keys : Nat
  lines : Nat
  quarry : Nat
  digest : Nat
  ledger : Nat
  latency : Nat
deriving DecidableEq, Repr

def costZero : OpCost := { stone := 0, keys := 0, lines := 0, quarry := 0, digest := 0, ledger := 0, latency := 0 }

/-- Stone cycles and a latency of some ticks beside them (R102: 80 cycles a tick). -/
def costStone (cycles lines extra : Nat) : OpCost :=
  { costZero with stone := cycles, lines := lines, latency := extra + ceilDiv cycles 80 }

/-- Bytes through Quarry. -/
def costQuarry (bytes : Nat) : OpCost := { costZero with quarry := bytes, latency := 2 + ceilDiv bytes 320 }

/-- The bitmaps a template's positions need (R155, R162). -/
def Template.bitmaps (t : Template) : Nat :=
  let has := fun (lo : Nat) => t.fields.any fun r => r.kind != 4 && decide (lo ≤ r.bit)
  if has 130 then 3 else if has 66 then 2 else 1

/-- The most bytes a record of a template can take when written. -/
def Template.recordMax (t : Template) (r : TField) : Nat :=
  match r.kind with
  | 0 => unitBytes r.charset r.maxLen
  | 2 => t.bitmaps * (if r.charset = 0 ∨ r.charset = 3 then 8 else 16)
  | 4 => 0
  | _ => (if r.pform = 2 then ceilDiv r.plen 2 else r.plen) + unitBytes r.charset r.maxLen

/-- The longest record a template can encode, at most 4,095 bytes (R149). -/
def Template.encodeMax (t : Template) : Nat := min 4095 (sumNat (t.fields.map t.recordMax))

/-- M of a DIGEST: the sum of the largest sizes of its message fields (R149). -/
def Image.digestMax (im : Image) (k : Nat) (o : Operator) : Nat :=
  let ts := ((im.inLayout k 0).map Layout.types).getD []
  sumNat (o.digestFields.map fun f => fieldMax (nth ts f tCode))

/-- The cost of an operator that is given up to `n` rows and emits up to `m` (R149). -/
def Image.opCost (im : Image) (k n m : Nat) (o : Operator) : OpCost :=
  let inSize := (((im.inLayout k 0).map Layout.imageSize).getD 0)
  match o.code with
  | 0x03 => costStone (20 + 6 * o.par 0 * ceilDiv n 64) 0 1
  | 0x13 => costStone (20 + 6 * (o.nout - 1) * ceilDiv n 64) 0 1
  | 0x04 => costStone (((im.kernels[o.par 0]?).map (·.cycleBound)).getD 0) 0 2
  | 0x05 => costQuarry (min (((im.templates[o.par 0]?).map (·.maxRecord)).getD 0) im.bounds.quarryBytes)
  | 0x06 => costQuarry (((im.templates[o.par 0]?).map Template.encodeMax).getD 0)
  | 0x07 => { costZero with keys := n, latency := 2 + ceilDiv n 4 }
  | 0x08 => { costZero with keys := n, latency := 2 + ceilDiv n 4 }
  | 0x0A => costStone (30 + 12 * n + 8 * m) (n * o.par 6) (2 + 12 * o.par 6)
  | 0x0D => costStone (40 + 12 * n) 0 1
  | 0x0E => costStone (40 + n * (8 + 4 * o.par 1)) 0 1
  | 0x0F =>
    let v := ceilDiv (5 + o.par 3 * slotSize (o.par 4)) 128
    costStone (60 + o.par 3 + 8 * n) (2 * v) (13 + v)
  | 0x10 => { costZero with lines := o.par 0, latency := 12 + o.par 0 }
  | 0x11 => { costZero with lines := o.par 0 }
  | 0x12 => { costZero with latency := 1 }
  | 0x14 =>
    let b := im.digestMax k o
    { costZero with stone := 20 + 4 * n, digest := n * (if im.hasDgSub then digestCharge b else b),
                    latency := 4 + n * (digestBlocks (o.par 0 / 256) b + 1) * 2 }
  | 0x15 => { costZero with ledger := 128, latency := 2 }
  | 0x17 => { costZero with ledger := ceilDiv (3 * o.par 0) 2 }
  | 0x18 => { costZero with lines := 1 + ceilDiv (n * inSize) 128 }
  | _ => costZero

/-- The costs of the operators in topological order. -/
def Image.opCosts (im : Image) : List (Nat × OpCost) :=
  let rows := im.rowBounds
  im.topo.filterMap fun k => (im.ops[k]?).map fun o => (k, im.opCost k (im.atInput rows k 0) (tgetD k 0 rows) o)

/-- When an operator's output is ready: its latency after its last input, and for STATE_GET no earlier than its read. -/
def Image.readyAt (im : Image) (acc : List (Nat × Nat)) (k : Nat) (c : OpCost) : Nat :=
  let inp := ((im.edges.filter fun e => e.dst == k).map fun e => tgetD e.src 0 acc).foldl max 0
  if ((im.ops[k]?).map (·.code)) = some 0x10 then max inp c.latency else inp + c.latency

/-- The path bound P, in ticks (R150). -/
def Image.pathBound (im : Image) : Nat :=
  let ready := im.opCosts.foldl (fun acc e => acc ++ [(e.1, im.readyAt acc e.1 e.2)]) []
  match im.ops.findIdx? fun o => o.code == 0x15 with
  | some k => tgetD k 0 ready
  | none => 0

/-- What admission uses of an image: each resource the larger of the cost vector and the declared bound; the digest lane
time in parts of 1/32 tick (R150, R185). -/
structure AdmCost where
  stone : Nat
  keys : Nat
  lines : Nat
  quarry : Nat
  lane32 : Nat
  ledger : Nat
  path : Nat
  stateLines : Nat
deriving DecidableEq, Repr

/-- The smallest block among the algorithms of the DIGEST operators: it gives the most blocks. -/
def Image.slowBlock (im : Image) : Nat :=
  ((im.ops.filter fun o => o.code == 0x14).map fun o => blockBytes (o.par 0 / 256)).foldl min 136

/-- Digest lane time of some bytes, in 1/32 tick (R185). -/
def Image.lane32 (im : Image) (bytes : Nat) : Nat :=
  if im.hasDgSub then bytes else 64 * ceilDiv bytes im.slowBlock

/-- The admission costs of an image. -/
def Image.admCost (im : Image) : AdmCost :=
  let cs := im.opCosts.map (·.2)
  let b := im.bounds
  let col := fun (f : OpCost → Nat) => sumNat (cs.map f)
  { stone := max b.stoneCycles (col (·.stone))
    keys := max b.keySearches (col (·.keys))
    lines := max b.hbmLines (col (·.lines))
    quarry := max b.quarryBytes (col (·.quarry))
    lane32 := im.lane32 (max b.digestBytes (col (·.digest)))
    ledger := max b.ledgerBytes (col (·.ledger))
    path := im.pathBound
    stateLines := (im.stateGet.map fun o => o.par 0).getD 0 }

/-! ### Key banks (R258, R271) -/

/-- The live bays with the most active stones, equals in increasing number (R44). -/
def State.bestBays (s : State) : List Nat :=
  sortBy (fun a b => decide ((s.activeStones b).length < (s.activeStones a).length)) s.liveBays

/-- The warm bays for a W. -/
def State.warmFor (s : State) (w : Nat) : List Nat := s.bestBays.take w

/-- Reservation slots still free on a bank, scaled by 100: KS_RESERVE_LIMIT percent of the frame less what is placed. -/
def ksFree100 (limit slots : Nat) (placed : List KsPlan) (b : Nat) : Nat :=
  limit * slots - 100 * sumNat ((placed.filter fun p => p.banks.contains b).map (·.slots))

/-- Place one slice: the smallest c_s that fits, on the warm banks with the most slots free, among equals in increasing bay
number. -/
def placeSlice (limit slots : Nat) (warm : List Nat) (placed : List KsPlan) (sl guaranteed : Nat) : Option KsPlan :=
  let free := ksFree100 limit slots placed
  let order := sortBy (fun a b => decide (free b < free a) || (free a == free b && decide (a < b))) warm
  let fits := fun (c : Nat) => (order.take c).all fun b => decide (100 * ceilDiv guaranteed (c - 1) ≤ free b)
  match ((List.range (warm.length + 1)).filter fun c => 2 ≤ c).find? fits with
  | some c => some ⟨sl, order.take c, ceilDiv guaranteed (c - 1)⟩
  | none => none

/-- Place the slices in order. -/
def State.placeKeys (s : State) (slots : Nat) (warm slices : List Nat) : List KsPlan :=
  let limit := s.objNum 0x6100 10 [] 0 75
  slices.foldl (fun (acc : List KsPlan) sl =>
    match placeSlice limit slots warm acc sl (s.objNum (0x4000 + sl) 7 [] 0 0) with
    | some p => acc ++ [p]
    | none => acc) []

/-- 8 × k_s: the slots a frame of all banks of a slice but one (R185, R271). -/
def ksEight (plan : List KsPlan) (sl : Nat) : Nat :=
  match plan.find? fun p => p.slice == sl with
  | some p => p.slots * (p.banks.length - 1)
  | none => 0

/-! ### The test at one W (R185-R187) -/

/-- What a try gives: the first failing test (0 when all pass) with the context of code 11, and its figures. -/
structure Tried where
  code : Nat
  ctx : Nat
  w : Nat
  warm : List Nat
  g : List (Nat × Nat)
  dAdm : List (Nat × Nat)
  plan : List KsPlan
deriving DecidableEq, Repr

/-- The limits of a test: U_MAX, B_blk, M, the slots of a Keystone frame, the ledger bytes a second, the pseudo-channels
that are counted on: all but one, or all that are left after a second failure (R185, R302), and the bays of the B floor. -/
structure AdmEnv where
  uMax : Nat
  bBlk : Nat
  mirror : Nat
  slots : Nat
  ledger : Nat
  pch : Nat
  floor : Nat
deriving DecidableEq, Repr

/-- The limits in force at a throttle step. -/
def State.admEnv (s : State) (step : Nat) : AdmEnv :=
  { uMax := s.objNum 0x3400 1 [] 0 80
    bBlk := ceilDiv (s.objNum 0x3400 2 [] 0 4000) 80
    mirror := if s.group.grouped then 2 * (2 * s.group.lambda_ + 2) else 0
    slots := ksSlots step
    ledger := s.st.nandRate * 1000000 * (s.st.channels - s.st.lostChannels.length - 1)
    pch := 192 - max 1 s.memx.pch.length
    floor := s.bFloor }

/-- The limits with no bay kept for the B floor, for which no G context is refused or put at risk after a fault (R169). -/
def AdmEnv.noFloor (e : AdmEnv) : AdmEnv := { e with floor := 0 }

/-- The same declared flow key. -/
def Image.sameKey (a b : Image) : Bool :=
  a.flowSrc == b.flowSrc && a.flowBytes == b.flowBytes && a.flowOffset == b.flowOffset

/-- S′ of a context (R186). -/
def Context.servicePrime (c : Context) : Nat := max c.image.bounds.service c.image.admCost.path + 15

/-- L of a context. -/
def Context.lockHold (c : Context) (mirror : Nat) : Nat := c.servicePrime + 12 + c.image.admCost.stateLines + mirror

/-- L* of a context among the G and D contexts of its slice that declare its flow key. -/
def lockStar (all : List Context) (c : Context) (mirror : Nat) : Nat :=
  ((all.filter fun x => x.slice == c.slice && x.image.cls != 2 && x.image.sameKey c.image).map
    fun x => x.lockHold mirror).foldl max 0

/-- A sum over contexts of their burst times a cost. -/
def burstSum (cs : List Context) (f : AdmCost → Nat) : Nat :=
  sumNat (cs.map fun c => c.image.bounds.burst * f c.image.admCost)

/-- A sum over contexts of their rate times a cost. -/
def rateSum (cs : List Context) (f : AdmCost → Nat) : Nat :=
  sumNat (cs.map fun c => c.image.bounds.rate * f c.image.admCost)

/-- The contexts of a slice. -/
def ofSlice (gs : List Context) (sl : Nat) : List Context := gs.filter fun c => c.slice == sl

/-- Q of a slice, for its g and 8 × k_s (R186). -/
def queueing (env : AdmEnv) (gs : List Context) (sl w g k8 : Nat) : Nat :=
  let mine := ofSlice gs sl
  env.bBlk + max (max (ceilDiv (burstSum mine (·.stone)) (80 * g * (w - 1))) (ceilDiv (8 * burstSum mine (·.keys)) k8))
    (max (ceilDiv (burstSum gs (·.quarry)) 320) (ceilDiv (burstSum gs (·.lane32)) (128 * (w - 1))))

/-- D_ADM of a context at a W and g (R186). -/
def admDeadline (env : AdmEnv) (all gs : List Context) (w g k8 : Nat) (c : Context) : Nat :=
  c.servicePrime + (c.image.bounds.flowBurst - 1) * lockStar all c env.mirror + queueing env gs c.slice w g k8 + 800 + env.mirror

/-- Test 1 for the stones of a slice. -/
def stonesPass (env : AdmEnv) (gs : List Context) (sl w g : Nat) : Bool :=
  decide (100 * rateSum (ofSlice gs sl) (·.stone) ≤ env.uMax * (2000000000 * g * (w - 1)))

/-- The smallest g of a slice that passes its tests, or 16 (R188). -/
def smallestG (env : AdmEnv) (all gs : List Context) (sl w k8 : Nat) : Nat :=
  (((List.range 16).map (· + 1)).find? fun g => stonesPass env gs sl w g &&
    (ofSlice gs sl).all fun c => decide (admDeadline env all gs w g k8 c ≤ c.image.deadline)).getD 16

/-- Answer-table and flow-table entries of a context (R187). -/
def Context.entries (c : Context) : Nat := c.image.bounds.burst + ceilDiv (c.image.bounds.rate * c.image.deadline) 25000000

/-- The slices of a list of contexts in the order of their first. -/
def slicesOf (gs : List Context) : List Nat := (gs.map (·.slice)).eraseDups

/-- The entries of every slice fit its allotment, and all fit the table. -/
def State.entriesPass (s : State) (gs : List Context) (sub limit : Nat) : Bool :=
  decide (sumNat (gs.map Context.entries) ≤ limit) &&
    (slicesOf gs).all fun sl => decide (sumNat ((ofSlice gs sl).map Context.entries) ≤ s.objNum (0x4000 + sl) sub [] 0 0)

/-- The first failing test of R187 at a W, in the order of R192. The candidate is the last of `gs`. -/
def State.firstFail (s : State) (env : AdmEnv) (gs : List Context) (t : Tried) : Nat × Nat :=
  let w := t.w
  let sls := slicesOf gs
  let dOf := fun (c : Context) => tgetD c.num 0 t.dAdm
  let late := fun (c : Context) => decide (c.image.deadline < dOf c)
  let stones := (t.warm.map fun b => (s.activeStones b).length).foldl min 16
  if !(sls.all fun sl => stonesPass env gs sl w (tgetD sl 16 t.g)) then (1, 0)
  else if !(sls.all fun sl => (t.plan.any fun p => p.slice == sl) &&
      decide (800 * rateSum (ofSlice gs sl) (·.keys) ≤ env.uMax * (ksEight t.plan sl * 25000000))) then (2, 0)
  else if env.uMax * (37500000000 * env.pch) < 192 * 100 * rateSum gs (·.lines) then (3, 0)
  else if env.uMax * (8000000000 * (w - 1)) < 100 * rateSum gs (·.quarry) then (4, 0)
  else if env.uMax * (4 * (w - 1) * 25000000 * 32) < 100 * rateSum gs (·.lane32) then (5, 0)
  else if env.uMax * env.ledger < 100 * rateSum gs (·.ledger) then (6, 0)
  else if !(s.entriesPass gs 15 65536) then (7, 0)
  else if 16384 < sumNat (gs.map fun c => 2 * tgetD c.slice 16 t.g * c.image.mEntries) then (8, 0)
  else if !(s.entriesPass gs 16 131072) then (9, 0)
  else if (gs.getLast?).any late then (10, 0)
  else match gs.dropLast.find? late with
    | some c => (11, c.num)
    | none =>
      if t.warm.length < w ∨ s.liveBays.length < w + env.floor ∨ stones < sumNat (t.g.map (·.2)) then (12, 0) else (0, 0)

/-- One W. -/
def State.tryW (s : State) (env : AdmEnv) (all gs : List Context) (w : Nat) : Tried :=
  let warm := s.warmFor w
  let plan := s.placeKeys env.slots warm (slicesOf gs)
  let g := (slicesOf gs).map fun sl => (sl, smallestG env all gs sl w (ksEight plan sl))
  let d := gs.map fun c => (c.num, admDeadline env all gs w (tgetD c.slice 16 g) (ksEight plan c.slice) c)
  let t : Tried := { code := 0, ctx := 0, w := w, warm := warm, g := g, dAdm := d, plan := plan }
  let r := s.firstFail env gs t
  { t with code := r.1, ctx := r.2 }

/-- Nothing could be tried: no W from 2 up leaves B_FLOOR_BAYS bays (R187). -/
def triedNone : Tried := { code := 12, ctx := 0, w := 0, warm := [], g := [], dAdm := [], plan := [] }

/-- W from 2 upward to the live bays less B_FLOOR_BAYS: the first that passes, else the last tried (R188). -/
def State.tryAll (s : State) (env : AdmEnv) (all gs : List Context) : Tried :=
  let ws := (List.range (s.liveBays.length - env.floor + 1)).filter fun w => 2 ≤ w
  let ts := ws.map (s.tryW env all gs)
  match ts.find? fun t => t.code == 0 with
  | some t => t
  | none => (ts.getLast?).getD triedNone

/-! ### Admission (R106 stage 7, R188) -/

/-- THERMAL_FLOOR_RATE. -/
def State.floorRate (s : State) : Nat := s.objNum 0x3001 1 [] 0 1

/-- Lease stones of a warm bay to a slice's G pool: unleased ones first, then idle ones whose lease may change (R184). -/
def State.fillPool (s : State) (b sl g : Nat) : State :=
  let stones := s.activeStones b
  let mine := (stones.filter fun k => s.leasedBy b k sl).length
  let none_ := stones.filter fun k => (s.leaseOf b k).isNone
  let others := stones.filter fun k => (s.leaseOf b k).isSome && !(s.leasedBy b k sl) && s.leaseFree b k sl && !(s.stoneBusy b k)
  ((none_ ++ others).take (g - mine)).foldl (fun (t : State) k => t.leaseTo b k sl) s

/-- Fill the G pools on every warm bay. -/
def State.fillPools (s : State) : State :=
  s.mason.warm.foldl (fun (t : State) b => s.mason.g.foldl (fun (u : State) e => u.fillPool b e.1 e.2) t) s

/-- The copies of a table: one in each key bank while an admitted context binds it, and no other once each key bank has its
own; else the declared COPIES. A key bank without room gets its copy by KS_COPY_REBUILD (R258; assumption 48: DESIGN
CHOICE). -/
def State.copiesFor (s : State) (t : KsTab) : List KsCopy :=
  let key := s.keyBanks t.slice
  if !(s.gBound t) then t.held.take t.copies
  else if key.isEmpty then t.held
  else
    let fresh := (key.filter fun b => !(t.held.any fun c => c.bank == b) && s.ksRoom b t.capacity).map t.newCopy
    let inKey := (t.held.filter fun c => key.contains c.bank) ++ fresh
    if inKey.length < key.length then t.held ++ fresh else inKey

/-- Every table has its copies, one table after the other (R258). -/
def State.bindCopies (s : State) : State :=
  s.ks.tables.foldl (fun (u : State) t => u.updKs t.slice t.id fun x => { x with held := u.copiesFor x }) s

/-- Buckets homed on a bay that is no longer warm get a home in the warm reserve, and their queued items go with them; a
move to such a bay ends (R180). -/
def State.homeWarm (s : State) (warm : List Nat) : State :=
  let s1 : State := { s with mason := { s.mason with
      warm := warm
      buckets := s.mason.buckets.filter fun e => warm.contains e.2
      moves := s.mason.moves.filter fun m => warm.contains m.2.1 } }
  { s1 with items := mapIf (fun i => i.stage == .queued) (fun i => { i with bay := s1.bucketHome (flowBucket i.flowKey) }) s1.items }

/-- The figures of a passed test come into force; a reserved bay below clock-gated is woken (R44). -/
def State.applyTried (s : State) (t : Tried) : State :=
  let s1 : State := { s with
    ctxs := s.ctxs.map fun c => match tget c.num t.dAdm with
      | some d => { c with dAdm := d, w := t.w, g := tgetD c.slice 0 t.g, state := if c.state = 3 then 3 else 1 }
      | none => c
    mason := { s.mason with g := t.g }
    ks := { s.ks with plan := t.plan } }
  t.warm.foldl (fun (u : State) b => if 2 ≤ (u.bayPower b).state then u.wakeBay b else u) (s1.homeWarm t.warm).fillPools.bindCopies

/-- Admit a candidate that is in no list yet: the state with it admitted, or the failing try. -/
def State.admitCtx (s : State) (c : Context) : Except Tried State :=
  let gs := s.admitted ++ [c]
  let t := s.tryAll (s.admEnv s.floorRate) (s.ctxs ++ [c]) gs
  if t.code ≠ 0 then .error t
  else .ok (({ s with
      ctxs := s.ctxs ++ [{ c with state := 1, order := s.mason.nextOrder }]
      mason := { s.mason with nextOrder := s.mason.nextOrder + 1 } } : State).applyTried t)

/-- Keep contexts in order while each still passes with those before it. -/
def State.keepers (s : State) (env : AdmEnv) (gs : List Context) : List Context :=
  gs.foldl (fun (kept : List Context) c =>
    if (s.tryAll env s.ctxs (kept ++ [c])).code = 0 then kept ++ [c] else kept) []

/-- A context is demoted to D class (R189). -/
def Context.demote (c : Context) : Context := { c with cls := 1, state := 2, dAdm := 0, w := 0, g := 0 }

/-- What a re-run follows (R189). -/
inductive Cause where
  | fault
  | group
  | config
deriving DecidableEq, Repr

/-- A context demoted by a group's re-run enters the hub's error ring (R436), which states no code for it: a free value
within the families of R501 (assumption 64: DESIGN CHOICE). -/
def State.noteDemoted (s : State) : State :=
  (s.record 0 0 0 (0x100 + Config.freeValue s.free % 0xB00) 0).advanceFree

/-- What the other members' capacities answer an admission: in a group the capacities hold per member, with the largest
share that another member's failure moves onto it (R190). Their loads are not in this device's state: the code of the
failing test, 0 for none, and the context of code 11 are free values (assumption 64: DESIGN CHOICE). -/
def State.groupVerdict (s : State) : Nat :=
  if s.others.isEmpty then 0
  else
    let v := Config.freeValue s.free % 13
    if v = 11 then v + (Config.freeValue (s.free + 1) % 4096) * 4096 else v

/-- The draws of a group's verdict are spent. -/
def State.verdictSpent (s : State) : State := if s.others.isEmpty then s else s.advanceFree.advanceFree

/-- The contexts that the other members' capacities still hold, a free value of each (R190; assumption 64: DESIGN CHOICE). -/
def State.groupKeeps (s : State) (gs : List Context) : List Context :=
  if s.others.isEmpty then gs else gs.filter fun c => (Config.freeValue s.free).testBit c.num

/-- Re-run after a fault, a join, a leave or a change of configuration (R189). -/
def State.rerun (s : State) (why : Cause) : State :=
  let gs := s.admitted
  if gs.isEmpty then s
  else
    let env := s.admEnv s.floorRate
    let lim := if why = .fault then env.noFloor else env
    let kept := s.groupKeeps (s.keepers lim gs)
    let lost := (gs.filter fun c => !(kept.any fun k => k.num == c.num)).map (·.num)
    let s0 : State := { s.verdictSpent with ctxs := mapIf (fun c => lost.contains c.num) Context.demote s.ctxs }
    let s1 := if why = .group then lost.foldl (fun (t : State) _ => t.noteDemoted) s0 else s0
    if kept.isEmpty then s1.trimAdmission
    else s1.applyTried (s1.tryAll lim s1.ctxs s1.admitted)

/-- Re-run after a change of THERMAL_FLOOR_RATE: it never demotes (R189). -/
def State.rerunRate (s : State) : State :=
  if s.admitted.isEmpty then s
  else
    let t := s.tryAll (s.admEnv s.floorRate) s.ctxs s.admitted
    if t.code = 0 then s.applyTried t else s

/-- The slowest throttle step of a live bay. -/
def State.worstStep (s : State) : Nat := (s.liveBays.map s.stepOf).foldl max 0

/-- AT_RISK_CONTEXTS while the condition of R46 persists: the contexts that no longer fit at the present Keystone rate
join the list, which stands in admission order (R47, R53). Whether the contexts still guaranteed need more than remains
beside D work is a free value; where none is guaranteed they need nothing (R48). -/
def State.atRiskNow (s : State) : State :=
  let gs := s.admitted
  let kept := s.keepers (s.admEnv s.worstStep).noFloor gs
  let lost := gs.filter fun c => !(kept.any fun k => k.num == c.num)
  let risk := ((sortBy (fun a b => decide (a.order < b.order)) s.ctxs).map (·.num)).filter fun n =>
    s.therm.atRisk.contains n || lost.any fun c => c.num == n
  let sure := gs.any fun c => !(risk.contains c.num)
  let s1 : State := { s with therm := { s.therm with atRisk := risk, shedding := sure && s.freeBits 1 == 1 } }
  if sure then s1.advanceFree else s1

end Sys2Proof.Machine
end

