-- ==== Sys2Proof/Machine/Dictionary.lean ====
section
/-! DEFINITION. The catalogue of objects (R13, R53, R198, R255, R278, R310, R330, R356, R392, R411, R441, R463, R490, R510,
R528, R547): type, access, aggregation, roles, default, range, and the arches and views that hold each (R465-R471). -/

namespace Sys2Proof.Machine

/-- The types of R466; U and I by their bytes, CRS by its courses. -/
inductive OType where
  | bool
  | u (bytes : Nat)
  | i (bytes : Nat)
  | crs (n : Nat)
  | ticks
  | str
  | dom
deriving DecidableEq, Repr

/-- The access kinds of R467; sticky is RW that 1 clears. -/
inductive OAcc where
  | co
  | ro
  | rw
  | sticky
  | wo
  | rws
deriving DecidableEq, Repr

/-- The aggregation rules of R471; `own` is not aggregated. -/
inductive OAgg where
  | sum
  | or
  | min
  | max
  | all
  | same
  | own
  | fanout
  | fields
deriving DecidableEq, Repr

/-- One object. Roles are 0 Tenant, 1 Operator, 2 Custodian; a 0 among the readers says that a slice view reads it. -/
structure ObjDef where
  type : OType
  acc : OAcc
  agg : OAgg
  rd : List Nat
  wr : List Nat
  dflt : ObjVal
  /-- the range of a number that is written, and the status of a value outside it -/
  lo : Nat
  hi : Nat
  status : Nat
  /-- it is public (R469) -/
  pub : Bool
  /-- the arches that hold it: device, bay, stone -/
  device : Bool
  bay : Bool
  stone : Bool
deriving DecidableEq, Repr

/-- Bytes of a value of a fixed-length type (R466). -/
def OType.size : OType → Option Nat
  | .bool => some 1
  | .u n => some n
  | .i n => some n
  | .crs n => some (3 * ceilDiv n 2)
  | .ticks => some 8
  | .str => none
  | .dom => none

/-- The largest number of a type. -/
def OType.top : OType → Nat
  | .bool => 1
  | .u n => 2 ^ (8 * n) - 1
  | .i n => 2 ^ (8 * n) - 1
  | .crs n => 2 ^ (12 * n) - 1
  | .ticks => 2 ^ 60 - 1
  | .str => 0
  | .dom => 0

/-- A device object with the roles of R468. -/
def obj (t : OType) (a : OAcc) (g : OAgg) : ObjDef :=
  { type := t, acc := a, agg := g, rd := [1, 2], wr := [1], dflt := .num 0, lo := 0, hi := t.top, status := 0x010F,
    pub := false, device := true, bay := false, stone := false }

/-- A number the device keeps. -/
def roNum (n : Nat) (g : OAgg) : ObjDef := obj (.u n) .ro g

/-- A stored number with its default and range. -/
def rwsNum (n : Nat) (g : OAgg) (d lo hi : Nat) : ObjDef := { obj (.u n) .rws g with dflt := .num d, lo := lo, hi := hi }

/-- Readable by every role, without a session (R469). -/
def ObjDef.public (d : ObjDef) : ObjDef := { d with rd := [0, 1, 2], pub := true }

/-- A slice view reads it. -/
def ObjDef.viewed (d : ObjDef) : ObjDef := { d with rd := [0, 1, 2] }

/-- Written by the roles given. -/
def ObjDef.by (d : ObjDef) (wr : List Nat) : ObjDef := { d with wr := wr }

/-- Held by bays too, or by bays and stones. -/
def ObjDef.onBays (d : ObjDef) : ObjDef := { d with bay := true }
def ObjDef.onStones (d : ObjDef) : ObjDef := { d with bay := true, stone := true }

/-- Octets with the default empty. -/
def domOf (a : OAcc) (g : OAgg) : ObjDef := { obj .dom a g with dflt := .bytes [] }

/-- The objects of a Gyine port (R441). -/
def portDef (sub : Nat) : Option ObjDef :=
  match sub with
  | 1 => some (roNum 1 .all)
  | 2 => some (roNum 1 .all)
  | 3 => some (roNum 1 .all)
  | 4 => some (domOf .ro .all)
  | 5 => some { obj .bool .rws .same with dflt := .num 1 }
  | 6 => some (rwsNum 1 .same 0 0 1)
  | 7 => some (roNum 8 .sum)
  | 8 => some (roNum 8 .sum)
  | 9 => some (roNum 8 .sum)
  | 10 => some (roNum 4 .sum)
  | 11 => some (roNum 4 .sum)
  | 12 => some (roNum 4 .sum)
  | _ => none

/-- An allotment (R411): written by Operators, read through the slice view too. -/
def allotDef (bytes : Nat) (g : OAgg) (hi : Nat) : ObjDef := { rwsNum bytes g 0 0 hi with rd := [0, 1, 2], status := 0x0907 }

/-- The objects of a slice's index (R411). -/
def sliceDef (sub : Nat) : Option ObjDef :=
  match sub with
  | 1 => some (roNum 1 .same).viewed
  | 2 => some (roNum 2 .same).viewed
  | 3 => some (roNum 1 .same).viewed
  | 4 => some (allotDef 2 .sum 0xFFFF)
  | 5 => some (allotDef 4 .sum u32Max)
  | 6 => some (allotDef 2 .same 0xFFFF)
  | 7 => some (allotDef 2 .same 240)
  | 8 => some (allotDef 1 .same 13)
  | 9 => some (allotDef 8 .sum u64Max)
  | 10 => some (allotDef 8 .sum u64Max)
  | 11 => some (allotDef 4 .sum u32Max)
  | 12 => some (allotDef 1 .same 24)
  | 13 => some (allotDef 2 .same 0xFFFF)
  | 14 => some (allotDef 2 .same 0xFFFF)
  | 15 => some (allotDef 4 .sum u32Max)
  | 16 => some (allotDef 4 .sum u32Max)
  | 17 => some (allotDef 8 .sum u64Max)
  | 18 => some (allotDef 2 .same 0xFFFF)
  | 19 => some (roNum 4 .or).viewed
  | 20 => some { (obj .bool .rws .same).viewed.by [0, 2] with status := 0x0907 }
  | 21 => some { (domOf .rws .same).viewed.by [0, 2] with status := 0x0907 }
  | 22 => some ((domOf .wo .fanout).by [2])
  | 23 => some (domOf .ro .all).viewed
  | 24 => some (roNum 2 .same).viewed
  | 25 => some { (obj (.u 2) .wo .fanout).by [0, 1] with status := 0x0907 }
  | _ => none

/-- The objects of an error ring (R510). A Tenant reaches its own ring through 0x5100 and writes ACK, OVERFLOW and
FIRST_CLEAR there. -/
def ringDef (slices bays : Bool) (sub : Nat) : Option ObjDef :=
  let base : Option ObjDef := match sub with
    | 1 => some (domOf .ro .own)
    | 2 => some (roNum 1 .own)
    | 3 => some ((obj (.u 1) .wo .own).by (if slices then [0, 1] else [1]))
    | 4 => some ((obj .bool .sticky .own).by (if slices then [0, 1] else [1]))
    | 5 => some (roNum 4 .own)
    | 6 => some (domOf .ro .own)
    | 7 => some ((obj .bool .wo .own).by (if slices then [0, 1] else [1]))
    | 8 => some (obj (.u 4) .rw .own)
    | _ => none
  base.map fun d => { d with bay := bays, rd := if slices then [0, 1, 2] else d.rd }

/-- Identity, store and the field network (R490). -/
def baseDef (index sub : Nat) : Option ObjDef :=
  match index, sub with
  | 0x1000, 1 => some (obj .str .co .same).public
  | 0x1000, 2 => some (obj .str .co .same).public
  | 0x1000, 3 => some (obj .str .co .same).public
  | 0x1000, 4 => some (obj (.u 1) .co .same).public
  | 0x1000, 5 => some (obj .dom .co .all).public
  | 0x1000, 6 => some (roNum 4 .same).public
  | 0x1000, 7 => some (obj (.u 4) .co .same).public
  | 0x1000, 8 => some (obj (.u 2) .co .same).public
  | 0x1001, 1 => some { obj .str .rws .all with dflt := .bytes [] }
  | 0x1010, 1 => some ((obj (.u 2) .wo .fanout).by [1, 2])
  | 0x1010, 2 => some (roNum 1 .max)
  | 0x1010, 3 => some (roNum 4 .sum)
  | 0x1011, 1 => some ((obj (.u 2) .wo .fanout).by [2])
  | 0x1011, 2 => some (roNum 1 .max)
  | 0x1100, 1 => some (rwsNum 1 .all 127 1 127)
  | 0x1100, 2 => some (rwsNum 1 .all 5 1 5)
  | 0x1100, 3 => some (rwsNum 2 .same 1000 0 10000)
  | 0x1100, 4 => some (roNum 1 .all)
  | 0x1101, 1 => some ((rwsNum 2 .same 60 5 3600).by [2])
  | 0x1101, 2 => some (roNum 1 .all)
  | 0x1101, 3 => some (roNum 4 .sum)
  | 0x1103, 1 => some ((domOf .wo .fanout).by [2])
  | 0x1103, 2 => some ((domOf .wo .fanout).by [2])
  | 0x1104, 1 => some ((obj (.u 4) .wo .own).by [2])
  | _, _ => none

/-- Queues, arches and groups (R13, R441, R463). -/
def archDef (index sub : Nat) : Option ObjDef :=
  match index, sub with
  | 0x1120, 1 => some (roNum 8 .sum).viewed
  | 0x1120, 2 => some (roNum 8 .sum).viewed
  | 0x1120, 3 => some (roNum 8 .sum).viewed
  | 0x1120, 4 => some (roNum 8 .sum).viewed
  | 0x1121, 1 => some (domOf .ro .all).viewed
  | 0x2000, 1 => some (roNum 1 .own).viewed.onStones
  | 0x2000, 2 => some (roNum 2 .own).viewed.onStones
  | 0x2000, 3 => some (obj .bool .ro .own).viewed.onStones
  | 0x2000, 4 => some (obj (.crs 8) .ro .own).viewed.onStones
  | 0x2000, 5 => some (obj .bool .ro .own).public
  | 0x2000, 6 => some (roNum 1 .all)
  | 0x2001, 1 => some (domOf .ro .own).onBays
  | 0x2001, 2 => some (roNum 2 .sum).onBays
  | 0x2001, 3 => some { domOf .ro .own with device := false, bay := true }
  | 0x2002, 1 => some (roNum 1 .all)
  | 0x2002, 2 => some (roNum 1 .own)
  | 0x2002, 3 => some (roNum 1 .own)
  | 0x2002, 4 => some (roNum 4 .same)
  | 0x2002, 5 => some (rwsNum 1 .all 128 0 255)
  | 0x2002, 6 => some ((domOf .rws .same).by [2])
  | 0x2002, 7 => some { obj (.u 1) .wo .own with hi := 63 }
  | _, _ => none

/-- Time, floor, fallbacks and Mason (R53, R198, R255). -/
def workDef (index sub : Nat) : Option ObjDef :=
  match index, sub with
  | 0x3000, 1 => some (obj .ticks .ro .own).public
  | 0x3000, 2 => some (roNum 1 .all).public
  | 0x3000, 3 => some (roNum 4 .sum)
  | 0x3000, 4 => some ((rwsNum 8 .same 0 0 u64Max).by [2])
  | 0x3000, 5 => some (obj .ticks .ro .same)
  | 0x3000, 6 => some (roNum 1 .max)
  | 0x3001, 1 => some (rwsNum 1 .same 1 0 3)
  | 0x3001, 2 => some (obj .bool .sticky .or)
  | 0x3001, 3 => some (domOf .ro .all).viewed
  | 0x3002, n => if 1 ≤ n ∧ n ≤ 9 then some (roNum 8 .sum).viewed else none
  | 0x3003, n => if 1 ≤ n ∧ n ≤ 8 then some (roNum 4 .all) else none
  | 0x3004, 1 => some (roNum 2 .sum)
  | 0x3400, 1 => some (rwsNum 1 .same 80 50 95)
  | 0x3400, 2 => some (rwsNum 4 .same 4000 80 65536)
  | 0x3400, 3 => some (rwsNum 1 .same 1 0 4)
  | 0x3400, 4 => some (roNum 4 .sum)
  | 0x3400, 5 => some (roNum 8 .sum)
  | 0x3400, 6 => some (roNum 8 .sum)
  | 0x3400, 7 => some (roNum 8 .sum)
  | 0x3400, 8 => some (roNum 8 .sum)
  | 0x3402, 1 => some (roNum 8 .sum).viewed
  | 0x3402, 2 => some (roNum 8 .sum).viewed
  | 0x3800, 1 => some { domOf .ro .own with rd := [1] }
  | 0x3800, 2 => some (domOf .ro .sum).viewed
  | 0x3800, 3 => some ((domOf .wo .fanout).by [0, 1])
  | 0x3801, 1 => some (rwsNum 4 .same 25000000 0 u32Max)
  | 0x3801, 2 => some (rwsNum 4 .same 64 0 u32Max)
  | 0x3801, 3 => some (rwsNum 4 .same 90 0 u32Max)
  | 0x3801, 4 => some (rwsNum 4 .same 85 0 u32Max)
  | 0x3801, 5 => some (rwsNum 4 .same 600 0 u32Max)
  | _, _ => none

/-- Errors and power (R510, R528). The idle times are 0 or from 25 ticks on. -/
def powerDef (index sub : Nat) : Option ObjDef :=
  match index, sub with
  | 0x5000, 1 => some (roNum 1 .max).public.onStones
  | 0x5000, 2 => some (roNum 8 .sum).onStones
  | 0x5000, 3 => some (roNum 2 .or).public.onStones
  | 0x5000, 4 => some (obj .ticks .ro .max).onStones
  | 0x5102, 1 => some (roNum 4 .or).onStones
  | 0x5800, 1 => some (roNum 4 .sum).public
  | 0x5800, 2 => some (roNum 4 .max)
  | 0x5800, 3 => some (roNum 1 .min).public
  | 0x5800, 4 => some (roNum 2 .min)
  | 0x5800, 5 => some (roNum 2 .min)
  | 0x5800, 6 => some (roNum 1 .all)
  | 0x5800, 7 => some (roNum 4 .sum)
  | 0x5800, 8 => some (roNum 4 .sum)
  | 0x5801, 1 => some (domOf .ro .own)
  | 0x5801, 2 => some (rwsNum 4 .same 250 0 u32Max)
  | 0x5801, 3 => some (rwsNum 4 .same 25000 0 u32Max)
  | 0x5801, 4 => some (rwsNum 4 .same 25000000 0 u32Max)
  | 0x5801, 5 => some (rwsNum 4 .same 250000 0 u32Max)
  | 0x5801, 6 => some (rwsNum 4 .same 2500 0 u32Max)
  | 0x5801, 7 => some (roNum 8 .sum)
  | 0x5802, 1 => some (obj (.i 4) .ro .max).public
  | 0x5802, 2 => some (domOf .ro .own)
  | _, _ => none

/-- Memory, Keystone, translation, Hod, Sett, digest, ledger, store (R278, R310, R330, R356, R392). -/
def unitDef (index sub : Nat) : Option ObjDef :=
  match index, sub with
  | 0x6000, 1 => some (roNum 8 .sum)
  | 0x6000, 2 => some (roNum 8 .sum)
  | 0x6000, 3 => some (roNum 2 .min)
  | 0x6000, 4 => some (roNum 1 .all)
  | 0x6000, 5 => some (roNum 2 .sum)
  | 0x6000, 6 => some (roNum 2 .max)
  | 0x6001, 1 => some (roNum 8 .sum).onBays
  | 0x6001, 2 => some (roNum 8 .sum).onBays
  | 0x6001, 3 => some (roNum 8 .sum).viewed
  | 0x6001, 4 => some (roNum 8 .sum).viewed
  | 0x6001, 5 => some (roNum 8 .sum)
  | 0x6001, 6 => some (roNum 8 .sum)
  | 0x6001, 7 => some (roNum 8 .sum)
  | 0x6002, 1 => some (roNum 2 .all)
  | 0x6002, 2 => some (rwsNum 4 .same 86400 3600 604800)
  | 0x6100, 1 => some (roNum 1 .max).viewed.onBays
  | 0x6100, 2 => some (roNum 8 .sum).viewed.onBays
  | 0x6100, 3 => some (roNum 8 .sum).viewed.onBays
  | 0x6100, 4 => some (roNum 8 .sum).viewed.onBays
  | 0x6100, 5 => some (roNum 8 .sum).viewed.onBays
  | 0x6100, 6 => some (roNum 8 .sum).viewed.onBays
  | 0x6100, 7 => some (roNum 4 .sum).viewed.onBays
  | 0x6100, 8 => some (roNum 4 .sum).viewed.onBays
  | 0x6100, 9 => some (roNum 8 .sum).viewed.onBays
  | 0x6100, 10 => some (rwsNum 1 .same 75 25 90)
  | 0x6101, 1 => some (domOf .ro .all).viewed
  | 0x6101, 2 => some (roNum 4 .min).viewed
  | 0x6200, 1 => some (roNum 8 .sum).onBays
  | 0x6200, 2 => some (roNum 8 .sum).onBays
  | 0x6200, 3 => some (roNum 8 .sum).onBays
  | 0x6200, 4 => some (roNum 8 .sum).viewed
  | 0x6200, 5 => some (roNum 2 .max).onBays
  | 0x6300, 1 => some (roNum 2 .sum).viewed.onBays
  | 0x6300, 2 => some (roNum 8 .sum).viewed.onBays
  | 0x6300, 3 => some (roNum 8 .sum).viewed.onBays
  | 0x6300, 4 => some (roNum 8 .sum).viewed.onBays
  | 0x6301, 1 => some (roNum 8 .sum).onBays
  | 0x6301, 2 => some (roNum 8 .sum).onBays
  | 0x6301, 3 => some (roNum 8 .sum).onBays
  | 0x6301, 4 => some (roNum 8 .sum).viewed.onBays
  | 0x6301, 5 => some (roNum 8 .sum).onBays
  | 0x6301, 6 => some (roNum 2 .sum).onBays
  | 0x6340, 1 => some (roNum 8 .sum).onBays
  | 0x6340, 2 => some (roNum 8 .sum).onBays
  | 0x6340, 3 => some (roNum 2 .sum).viewed
  | 0x6350, 1 => some (roNum 8 .sum).viewed
  | 0x6350, 2 => some { roNum 8 .same with dflt := .num u64Max }
  | 0x6350, 3 => some (roNum 8 .sum)
  | 0x6350, 4 => some (roNum 8 .sum)
  | 0x6350, 5 => some (obj .bool .sticky .or)
  | 0x6350, 6 => some (roNum 8 .sum).viewed
  | 0x6350, 7 => some ((rwsNum 1 .same 10 1 50).by [2])
  | 0x6350, 8 => some ((rwsNum 1 .same 50 10 100).by [2])
  | 0x6350, 9 => some (roNum 8 .same)
  | 0x6360, 1 => some (roNum 8 .sum)
  | 0x6360, 2 => some (roNum 8 .sum)
  | 0x6360, 3 => some (roNum 2 .min)
  | 0x6360, 4 => some (roNum 1 .max)
  | 0x6360, 5 => some { roNum 2 .all with dflt := .num 1000 }
  | 0x6360, 6 => some { roNum 2 .all with dflt := .num 1000 }
  | _, _ => none

/-- Trust (R547). -/
def trustDef (index sub : Nat) : Option ObjDef :=
  match index, sub with
  | 0x7000, 1 => some (roNum 1 .same)
  | 0x7000, 2 => some (roNum 1 .same)
  | 0x7000, 3 => some ((obj (.u 1) .wo .fanout).by [2])
  | 0x7000, 4 => some (roNum 1 .min)
  | 0x7000, 5 => some ((obj (.u 1) .wo .fanout).by [2])
  | 0x7000, 6 => some (obj .bool .ro .or)
  | 0x7001, 1 => some (domOf .ro .all).viewed
  | 0x7001, 2 => some (domOf .ro .all).viewed
  | 0x7001, 3 => some (domOf .ro .all)
  | 0x7002, 1 => some (roNum 4 .min)
  | 0x7002, 2 => some (obj .bool .sticky .or)
  | 0x7002, 3 => some { roNum 1 .min with dflt := .num 64 }
  | 0x7010, 1 => some (roNum 1 .all)
  | 0x7010, 2 => some ((domOf .wo .fanout).by [2])
  | 0x7010, 3 => some ((rwsNum 4 .same 600 60 86400).by [2])
  | 0x7010, 4 => some (roNum 1 .all)
  | 0x7020, 1 => some ((domOf .rws .same).by [2])
  | 0x7020, 2 => some (domOf .ro .all)
  | 0x7020, 3 => some ((domOf .wo .own).by [2])
  | 0x7020, 4 => some (roNum 1 .max).public
  | _, _ => none

/-- The definition of an object, or none where no chapter defines it (R465). -/
def objDef (index sub : Nat) : Option ObjDef :=
  if index < 0x1110 then baseDef index sub
  else if index ≤ 0x1117 then portDef sub
  else if index < 0x3000 then archDef index sub
  else if 0x3420 ≤ index ∧ index ≤ 0x342F then (if sub < 256 then some { domOf .ro .fields with rd := [0, 1, 2] } else none)
  else if index < 0x4000 then workDef index sub
  else if index ≤ 0x43FF then sliceDef sub
  else if index = 0x5100 then ringDef true true sub
  else if index = 0x5101 then ringDef false false sub
  else if index < 0x6000 then powerDef index sub
  else if index < 0x7000 then unitDef index sub
  else trustDef index sub

/-- The numbers of a range that its bounds do not say: data rates, heartbeat periods and idle times (R490, R528). -/
def extraRange (index sub v : Nat) : Bool :=
  if index = 0x1100 ∧ sub = 2 then v != 3
  else if index = 0x1100 ∧ sub = 3 then v == 0 || decide (100 ≤ v)
  else if index = 0x5801 ∧ 2 ≤ sub ∧ sub ≤ 6 then v == 0 || decide (25 ≤ v)
  else true

/-! ### Roles and windows (R397, R412, R468) -/

/-- A context record or slice index that this Tenant's window holds; every other object is within by its roles. -/
def State.inWindow (s : State) (sl index sub : Nat) : Bool :=
  if 0x3420 ≤ index ∧ index ≤ 0x342F then
    (s.ctxOf ((index - 0x3420) * 256 + sub)).any fun c => c.slice == sl
  else if 0x4000 ≤ index ∧ index ≤ 0x43FF then index == 0x4000 + sl
  else true

/-- What a Tenant binding of a slice reaches: 0, SLICE_WINDOW or SLICE_ROLE. Its own index is inside its window, whatever
it may write there (R17, R406, R412). -/
def State.tenantReach (s : State) (sl : Nat) (a : ObjAddr) (write : Bool) : Nat :=
  match objDef a.index a.sub with
  | none => 0x0903
  | some d =>
    let sees := d.rd.contains 0 || (write && d.wr.contains 0)
    if a.index = 0x4000 + sl ∧ a.path.isEmpty then
      (if write ∧ (d.acc = .rws ∨ d.acc = .wo) ∧ !(d.wr.contains 0) then 0x0904 else 0)
    else if !sees ∨ !(s.inWindow sl a.index a.sub) ∨ !a.path.isEmpty then 0x0903
    else if write ∧ (d.acc = .rws ∨ d.acc = .wo ∨ d.acc = .rw ∨ d.acc = .sticky) ∧ !(d.wr.contains 0) then 0x0903
    else 0

/-- What a role reaches: 0 when the object is absent or the role reaches it, else SLICE_ROLE; a write of an object that no
role writes is refused later (R467, R468). -/
def roleReach (role : Nat) (a : ObjAddr) (write : Bool) : Nat :=
  match objDef a.index a.sub with
  | none => 0
  | some d =>
    if write then (if d.acc = .co ∨ d.acc = .ro ∨ d.wr.contains role then 0 else 0x0904)
    else if d.rd.contains role ∨ d.acc = .wo then 0 else 0x0904

/-- Check 5 of R448 on an object access (R397). -/
def State.objReach (s : State) (role sl : Nat) (a : ObjAddr) (write : Bool) : Nat :=
  if role = 0 then s.tenantReach sl a write else roleReach role a write

/-- The address in PARAM of an object command, and whether its path is well formed (R470). -/
def paramAddr (p : List Byte) : ObjAddr × Bool :=
  let n := beNat (slice p 3 1)
  let cs := unpackBytes (fitList 12 0 (slice p 4 12))
  (⟨beNat (p.take 2), beNat (slice p 2 1), (cs.take n).map (·.toNat)⟩,
    decide (n ≤ 8) && (cs.drop n).all fun c => c == 0xFFF)

end Sys2Proof.Machine
end

