-- ==== Sys2Proof/Machine/Signing.lean ====
section
/-! DEFINITION. The key engine's dual signatures (R530, R538) and the hash trees of the ledger and the seals (R375, R377,
R380). -/

namespace Sys2Proof.Machine

/-! ### Dual signatures (R538, R546) -/

/-- Signatures a lower tree gives, and all that DEVICE_HSS gives. -/
def hssTreeSize : Nat := 2 ^ 15
def hssTotal : Nat := 2 ^ 30

/-- HSS_REMAINING. -/
def State.hssLeft (s : State) : Nat := hssTotal - s.trust.hssNext

/-- The key engine can sign: signatures remain, the tree of the next index exists, and debug has not closed it
(R538, R546). -/
def State.canSign (s : State) : Bool :=
  decide (s.hssLeft ≠ 0) && decide (s.trust.hssNext / hssTreeSize ≤ s.trust.hssTree) && decide (s.trust.debug ≠ 2) &&
    !s.trust.gated

/-- Use one leaf index: its block of 1,024 is reserved first; HSS_LOW is set below 2^20; the next lower tree is wanted
when 16,384 leaves are left. -/
def State.useLeaf (s : State) : State :=
  let n := s.trust.hssNext
  let t := { s.trust with
    hssReserved := max s.trust.hssReserved ((n / 1024 + 1) * 1024)
    hssNext := n + 1
    hssPending := s.trust.hssPending || (decide (hssTreeSize / 2 ≤ (n + 1) % hssTreeSize) && decide (s.trust.hssTree = n / hssTreeSize)) }
  let s1 : State := { s with trust := t }
  if hssTotal - (n + 1) < 2 ^ 20 then s1.setObj 0x7002 2 [] 0 (.num 1) else s1

/-- The two signatures over a body: ECDSA under the key of a measurement, then HSS (R377, R537, R540). -/
def State.signatures (s : State) (meas body : List Byte) : List Byte :=
  fitList 96 0 (Config.ecdsaSign meas body) ++ fitList 3284 0 (Config.hssSign s.trust.hssNext body)

/-! ### Hash trees (R375, R380) -/

/-- H of two nodes. -/
def nodeHash (a b : List Byte) : List Byte := Config.sha384 ((0x01 : Byte) :: (a ++ b))

/-- The leaf of a byte string. -/
def leafHash (r : List Byte) : List Byte := Config.sha384 ((0x00 : Byte) :: r)

/-- The largest power of two below `n`, for `n` at least 2. -/
def splitAt (n : Nat) : Nat := 2 ^ Nat.log2 (n - 1)

/-- mth over leaves; `fuel` bounds the depth. -/
def mth : Nat → List (List Byte) → List Byte
  | 0, _ => []
  | fuel + 1, ls =>
    match ls with
    | [] => []
    | [l] => l
    | l :: t =>
      let k := splitAt (l :: t).length
      nodeHash (mth fuel ((l :: t).take k)) (mth fuel ((l :: t).drop k))

/-- The root of leaves. -/
def rootOf (ls : List (List Byte)) : List Byte := mth (ls.length + 1) ls

/-- The audit path of leaf `m`, from the leaf up, as path_ok consumes it (R380, R381). -/
def auditPath : Nat → Nat → List (List Byte) → List (List Byte)
  | 0, _, _ => []
  | fuel + 1, m, ls =>
    if ls.length ≤ 1 then []
    else
      let k := splitAt ls.length
      if m < k then auditPath fuel m (ls.take k) ++ [rootOf (ls.drop k)]
      else auditPath fuel (m - k) (ls.drop k) ++ [rootOf (ls.take k)]

end Sys2Proof.Machine
end

