-- ==== Sys2Proof/Machine/Ledger.lean ====
section
/-! DEFINITION. The Lesal ledger (14): records (R371-R374, R408, R519), segments and seals (R375-R379), proofs and reading
(R380, R382), and the egress of answers (R373, R458). -/

namespace Sys2Proof.Machine

/-! ### Records (R371-R373) -/

/-- Bytes of the write buffer in use. -/
def LedSt.used (l : LedSt) : Nat := sumNat (l.buffer.map List.length)

/-- The size of the write buffer, 192 KiB (R373). -/
def bufferSize : Nat := 196608

/-- Answered items whose record has not entered, in order of answer tick, then ingress sequence (R373). -/
def State.unrecorded (s : State) : List (Item × Answer) :=
  let xs := s.items.filterMap fun i => if i.recorded then none else i.answer.map fun a => (i, a)
  sortBy (fun (x y : Item × Answer) => x.2.tick < y.2.tick || (x.2.tick == y.2.tick && x.1.seq < y.1.seq)) xs

/-- Credits of a slice's LEDGER_RATE bucket, 25,000,000 to a byte; a bucket not listed is full (R408). -/
def State.bucketOf (s : State) (sl : Nat) : Nat :=
  let rate := s.objNum (0x4000 + sl) 17 [] 0 0
  min (rate * 25000000) (tgetD sl (rate * 25000000) s.host.bucket)

/-- The slice's bucket admits a record. -/
def State.bucketAdmits (s : State) (sl n : Nat) : Bool := decide (n * 25000000 ≤ s.bucketOf sl)

/-- Add a record to the slice's open segment; a segment of 65,536 records closes (R375). -/
def LedSt.addRecord (l : LedSt) (sl gen : Nat) (tick now : Tick) (r : List Byte) : LedSt :=
  let here := fun (g : Segment) => g.slice == sl && g.gen == gen
  let seg := match l.opened.find? here with
    | some g => { g with records := g.records ++ [r], lastTick := tick }
    | none => ({ slice := sl, gen := gen, seq := 0, records := [r], firstTick := tick, lastTick := tick, closedAt := none } : Segment)
  let rest := l.opened.filter fun g => !(here g)
  if 65536 ≤ seg.records.length then { l with opened := rest, closed := l.closed ++ [{ seg with closedAt := some now }] }
  else { l with opened := rest ++ [seg] }

/-- Pause and resume of table-store programs by the fill of the buffer (R374). -/
def LedSt.notePause (l : LedSt) : LedSt :=
  { l with paused := if bufferSize * 3 < l.used * 4 then true else if l.used * 2 < bufferSize then false else l.paused }

/-- LEDGER_RECORD_ENTER: the first record whose slice's bucket admits it enters once its input hash is ready; its append
is acknowledged at once while the save is armed (R373, R408, R519). -/
def execLedgerRecordEnter (s : State) : Out :=
  .next <|
    match s.unrecorded.find? fun x => s.bucketAdmits x.1.slice (ledgerRecord x.1 x.2).length with
    | none => s
    | some (i, a) =>
      let r := ledgerRecord i a
      if !i.hashReady ∨ bufferSize < s.led.used + r.length then s
      else
        let s1 := (s.bump 0x6350 1 [] i.slice).updItem i.seq fun i => { i with
          recorded := true, acked := decide (s.power.buttress = 1) }
        let l := (s1.led.addRecord i.slice i.gen a.tick s1.now r)
        { s1 with
          led := ({ l with buffer := l.buffer ++ [r] } : LedSt).notePause
          host := { s1.host with bucket := tset i.slice (s1.bucketOf i.slice - r.length * 25000000) s1.host.bucket } }

/-- LEDGER_SPACE_LOW when free space falls below LEDGER_WARN percent (R391). -/
def State.noteSpace (s : State) : State :=
  if s.led.free * 100 < s.led.capacity * s.objNum 0x6350 7 [] 0 10 then s.setObj 0x6350 5 [] 0 (.num 1) else s

/-- LEDGER_NAND_PROGRAM: the oldest record of the buffer is programmed to NAND, and is acknowledged then if it was not
before (R373, R391, R519). A full ledger takes none. -/
def execLedgerNandProgram (s : State) : Out :=
  .next <|
    match s.led.buffer with
    | [] => s
    | r :: rest =>
      if s.led.free < r.length ∨ s.power.save.isSome then s
      else
        let l := { s.led with buffer := rest, free := s.led.free - r.length, written := s.led.written + r.length }
        let mine := fun (i : Item) => i.recorded && (i.answer.any fun a => ledgerRecord i a == r)
        ({ s with
          led := l.notePause
          items := mapIf mine (fun i => { i with acked := true }) s.items } : State).noteSpace

/-! ### Segments (R375, R376) -/

/-- Close the open segments that satisfy `p`. -/
def LedSt.closeIf (l : LedSt) (p : Segment → Bool) (now : Tick) : LedSt :=
  { l with
    opened := l.opened.filter fun g => !(p g)
    closed := l.closed ++ (l.opened.filter p).map fun g => { g with closedAt := some now } }

/-- Close every open segment of a slice (R375). -/
def State.closeSegs (s : State) (sl : Nat) : State := { s with led := s.led.closeIf (fun g => g.slice == sl) s.now }

/-- What the turn from a whole second to the next tick leaves for the seal of that second: the epoch values, and at a
member that does not lead, its closures for the leader (R377). -/
def State.secondOver (s : State) : State :=
  if s.now % 25000000 ≠ 0 then s
  else
    let s1 : State := { s with led := { s.led with epoch := (s.objNum 0x3000 4 [] 0 0, s.time.epochTick) } }
    if s.group.grouped ∧ s.group.leader ≠ s.group.node then s1.tell s.group.leader (.closures s.now s.led.closed) else s1

/-- SEGMENT_CLOSE_SECOND: a tick that is a multiple of 25,000,000 closes every open segment. -/
def execSegmentCloseSecond (s : State) : Out :=
  .next (if s.now % 25000000 = 0 then { s with led := s.led.closeIf (fun _ => true) s.now } else s)

/-- The leaves of a segment. -/
def Segment.leaves (g : Segment) : List (List Byte) := g.records.map leafHash

/-- A segment entry (R376). -/
def Segment.entry (g : Segment) : List Byte :=
  natBytes 2 0x0100 ++ natBytes 2 g.slice ++ natBytes 2 g.gen ++ natBytes 2 0 ++ natBytes 8 g.seq ++
    natBytes 4 g.records.length ++ natBytes 4 0 ++ natBytes 8 g.firstTick ++ natBytes 8 g.lastTick ++
    fitList 48 0 (rootOf g.leaves) ++ natBytes 8 0

/-! ### Seals (R377, R378) -/

/-- This device makes the seals: it is in no group, or it leads it (R377). -/
def State.leads (s : State) : Bool := !s.group.grouped || s.group.leader == s.group.node

/-- Give the segments of a seal their numbers, per slice and consecutive (R376, R377). -/
def numberSegs : List Segment → List (Nat × Nat) → List Segment × List (Nat × Nat)
  | [], m => ([], m)
  | g :: t, m =>
    let n := tgetD g.slice 0 m
    let (r, m') := numberSegs t (tset g.slice (n + 1) m)
    ({ g with seq := n } :: r, m')

/-- The body of a seal (R377). -/
def State.sealBody (s : State) (t : Tick) (segs : List Segment) : List Byte :=
  let l := s.led
  let first := decide (l.nextSeal = 0)
  let flags := (if l.restart then 1 else 0) + (if l.leaderChange then 2 else 0) + (if first then 4 else 0)
  natBytes 4 0x5345414C ++ natBytes 2 1 ++ natBytes 2 flags ++ natBytes 8 l.nextSeal ++ natBytes 8 t ++
    natBytes 8 l.epoch.1 ++ natBytes 8 l.epoch.2 ++ fitList 16 0 Config.serial ++
    (if first then natBytes 48 0 else fitList 48 0 (Config.sha384 l.head)) ++ natBytes 4 segs.length ++
    (if segs.isEmpty then natBytes 48 0 else fitList 48 0 (rootOf (segs.map fun g => leafHash g.entry))) ++ natBytes 4 0

/-- Every other running member has reported its closures of tick `t` (R377). -/
def State.closuresIn (s : State) (t : Tick) : Bool := s.others.all fun n => (tget n s.group.closures).any fun e => e.1 == t

/-- The segments closed by tick `t` on any member and not covered before, in member order (R377, R378). -/
def State.dueSegs (s : State) (t : Tick) : List Segment :=
  let due := fun (g : Segment) => g.closedAt.any fun c => decide (c ≤ t)
  let of := fun (n : Nat) =>
    if n = s.group.node then s.led.closed.filter due else ((tget n s.group.closures).map (·.2)).getD []
  if s.group.grouped then s.group.members.flatMap fun m => of m.node else s.led.closed.filter due

/-- SEAL_MAKE: the leader makes the seal for the last tick T that is a multiple of 25,000,000, once tick T is over and every
member has reported its closures: it covers every segment closed by then and not covered before, by slice, then closing
tick, then member order, and goes to every member (R377, R378). The first seal comes after the first READY (R389). A pause
defers it (R15). -/
def execSealMake (s : State) : Out :=
  .next <|
    let t := s.now / 25000000 * 25000000
    if s.paused ∨ !s.leads ∨ !s.power.ready ∨ !s.canSign ∨ s.now ≤ t ∨ t = 0 ∨ t ≤ s.led.sealTick ∨ !(s.closuresIn t) then s
    else
      let due := fun (g : Segment) => g.closedAt.any fun c => decide (c ≤ t)
      let ord := fun (x y : Segment) => x.slice < y.slice || (x.slice == y.slice && x.closedAt.getD 0 < y.closedAt.getD 0)
      let (segs, seqs) := numberSegs (sortBy ord (s.dueSegs t)) s.led.segSeq
      let body := s.sealBody t segs
      let made : Seal := { seq := s.led.nextSeal, tick := t, body := body, bytes := body ++ s.signatures s.trust.run.measurement body,
                           segs := segs, written := false }
      let l := { s.led with
        closed := s.led.closed.filter fun g => !(due g)
        segSeq := seqs, seals := s.led.seals ++ [made], nextSeal := s.led.nextSeal + 1, head := body, sealTick := t,
        restart := false, leaderChange := false }
      (({ s with led := l } : State).tellAll (.sealed made)).useLeaf

/-! ### Proofs and reading (R380, R382, R385) -/

/-- The seals that have been written. -/
def LedSt.sealed (l : LedSt) : List Seal := l.seals.filter Seal.written

/-- The record of an item identifier and answer tick in a segment: its leaf index. -/
def Segment.leafOf (g : Segment) (itemId tick : Nat) : Option Nat :=
  g.records.findIdx? fun r => beNat ((r.drop 8).take 8) == itemId && beNat ((r.drop 24).take 8) == tick

/-- A count byte and the hashes of a path. -/
def pathBytes (p : List (List Byte)) : List Byte := natBytes 1 p.length ++ p.flatMap fun h => fitList 48 0 h

/-- The proof of leaf `m` of entry `e` of a seal (R380). -/
def proofBytes (x : Seal) (e m : Nat) (g : Segment) : List Byte :=
  let r := nth g.records m []
  let ls := g.leaves
  let es := x.segs.map fun g => leafHash g.entry
  natBytes 2 1 ++ natBytes 2 r.length ++ r ++ natBytes 4 m ++ pathBytes (auditPath (ls.length + 1) m ls) ++ g.entry ++
    natBytes 4 e ++ pathBytes (auditPath (es.length + 1) e es) ++ x.bytes

/-- The proof of a slice's record, if a written seal covers it. -/
def State.proofOf (s : State) (sl itemId tick : Nat) : Option (List Byte) :=
  s.led.sealed.findSome? fun x =>
    (List.range x.segs.length).findSome? fun e => do
      let g ← x.segs[e]?
      if g.slice ≠ sl then none
      let m ← g.leafOf itemId tick
      return proofBytes x e m g

/-- A record of the slice exists and is not yet sealed. -/
def State.recordPending (s : State) (sl itemId tick : Nat) : Bool :=
  let has := fun (g : Segment) => g.slice == sl && (g.leafOf itemId tick).isSome
  s.led.opened.any has || s.led.closed.any has || s.led.seals.any (fun x => !x.written && x.segs.any has) ||
    s.unrecorded.any fun x => x.1.slice == sl && x.1.itemId == itemId && x.2.tick == tick

/-- Remove a waiting command. -/
def State.unwait (s : State) (w : Waiting) : State :=
  { s with host := { s.host with waiting := s.host.waiting.filter fun x => x != w } }

/-- A seal for tick `t` has been written: complete what waited for it (R379, R380). -/
def State.sealedNow (t : Tick) (s : State) (w : Waiting) : State :=
  match w with
  | .sealNow h sl c => if c ≤ t then (s.unwait w).done sl h else s
  | .proof h sl itemId tick =>
    match s.proofOf sl itemId tick with
    | some b => (s.unwait w).finish sl h 0 0 b
    | none => s
  | _ => s

/-- SEAL_WRITE: the oldest seal that is not written is written at a tick after T (R377). -/
def execSealWrite (s : State) : Out :=
  .next <|
    match s.led.seals.find? fun x => !x.written with
    | none => s
    | some x =>
      if s.paused ∨ s.now ≤ x.tick ∨ s.power.save.isSome then s
      else
        let s1 : State := { s with led := { s.led with
          seals := mapIf (fun y => y.seq == x.seq) (fun y => { y with written := true }) s.led.seals
          free := s.led.free - x.bytes.length
          sealSeq := some x.seq } }
        (s1.host.waiting.foldl (State.sealedNow x.tick) s1).noteSpace

/-- A whole-partition sanitise or format of a partition runs (R388). -/
def State.partitionBusy (s : State) (p : Nat) : Bool := s.st.erase.any fun e => e.partition == p && e.scope == 0

/-- LEDGER_PROOF (R380). -/
def execLedgerProof (h : CmdHdr) (itemId answerTick : Nat) (s : State) : Out :=
  .next <| s.managed (.ledgerProof h itemId answerTick) h 0x0051 tenantRole fun t b =>
    if t.partitionBusy 0 then t.fail b.slice h 0x0825
    else match t.proofOf b.slice itemId answerTick with
      | some r => t.finish b.slice h 0 0 r
      | none =>
        if t.recordPending b.slice itemId answerTick then t.wait (.proof h b.slice itemId answerTick)
        else t.fail b.slice h 0x0810

/-- LEDGER_SEAL_NOW (R379). -/
def execLedgerSealNow (h : CmdHdr) (s : State) : Out :=
  .next <| s.managed (.ledgerSealNow h) h 0x0052 tenantRole fun t b =>
    if t.partitionBusy 0 then t.fail b.slice h 0x0825
    else if t.led.opened.any fun g => g.slice == b.slice then
      (t.closeSegs b.slice).wait (.sealNow h b.slice t.now)
    else t.done b.slice h

/-- The sealed segments of a slice. -/
def State.sealedSegs (s : State) (sl : Nat) : List Segment :=
  s.led.sealed.flatMap fun x => x.segs.filter fun g => g.slice == sl

/-- The lowest seal still held; everything before it has been released (R387). -/
def LedSt.lowestSeal (l : LedSt) : Nat := (l.seals.map (·.seq)).foldl min l.nextSeal

/-- What LEDGER_READ finds: the items, or a code (R382). -/
def State.ledgerRange (s : State) (sl kind count first seqNo : Nat) : Except Nat (List Byte) :=
  let inSeq := fun (n : Nat) => decide (seqNo ≤ n ∧ n < seqNo + count)
  let rel := tgetD sl 0 s.led.relSegs
  match kind with
  | 0 =>
    if seqNo < rel then .error 0x0811
    else match (s.sealedSegs sl).find? fun g => g.seq == seqNo with
      | none => .error 0x0810
      | some g =>
        let rs := slice g.records first count
        if rs.isEmpty then .error 0x0810 else .ok rs.flatten
  | 1 =>
    if seqNo < rel ∧ 0 < count then .error 0x0811
    else
      let gs := (s.sealedSegs sl).filter fun g => inSeq g.seq
      if gs.isEmpty then .error 0x0810 else .ok (gs.flatMap Segment.entry)
  | 2 =>
    if seqNo < s.led.lowestSeal ∧ 0 < count then .error 0x0811
    else
      let xs := s.led.sealed.filter fun x => inSeq x.seq
      if xs.isEmpty then .error 0x0810 else .ok (xs.flatMap Seal.bytes)
  | _ => .error 0x010F

/-- LEDGER_READ: records and segment entries for a Tenant, seals for any role (R382, R460). -/
def execLedgerRead (h : CmdHdr) (kind count firstLeaf seqNo : Nat) (s : State) : Out :=
  .next <| s.managed (.ledgerRead h kind count firstLeaf seqNo) h 0x0050 (if kind = 2 then anyRole else tenantRole) fun t b =>
    if t.partitionBusy 0 then t.fail b.slice h 0x0825
    else match t.ledgerRange b.slice kind count firstLeaf seqNo with
      | .ok r => t.finish b.slice h 0 0 r
      | .error c => t.fail b.slice h c

/-! ### Egress (R373, R458) -/

/-- In a group a G item's answer waits for its mirror (R50). -/
def State.mirrorWaits (s : State) (i : Item) : Bool := s.group.grouped && i.cls == 0 && !i.mirrored

/-- The release watermark: every answer of an item numbered at or below it has left (R50). -/
def State.watermarkNow (s : State) : Nat :=
  ((s.items.filter fun i => !i.sent).map fun i => i.seq - 1).foldl min (s.nextSeq - 1)

/-- ANSWER_EGRESS: the first answer of an AQ, by answer tick then ingress sequence, leaves once its record is
acknowledged and, in a group, mirrored (R373, R458). -/
def execAnswerEgress (sl aq : Nat) (s : State) : Out :=
  .next <|
    let xs := s.items.filterMap fun i => if i.sent ∨ i.slice ≠ sl ∨ s.aqOf i ≠ aq then none else i.answer.map fun a => (i, a)
    let ord := fun (x y : Item × Answer) => x.2.tick < y.2.tick || (x.2.tick == y.2.tick && x.1.seq < y.1.seq)
    match (sortBy ord xs).head? with
    | none => s
    | some (i, a) =>
      if !i.acked ∨ s.mirrorWaits i ∨ s.power.frozen then s
      else
        let s1 : State := { s with
          host := { s.host with answers := s.host.answers ++ [answerCapsule aq i a] }
          items := (mapIf (fun x => x.seq == i.seq) (fun x => { x with sent := true }) s.items).filter fun x =>
            !(x.seq == i.seq && x.stage == .done) }
        if s.group.grouped then
          ({ s1 with group := { s1.group with watermark := s1.watermarkNow } } : State).tellAll (.watermark s1.watermarkNow)
        else s1

end Sys2Proof.Machine
end

