-- ==== Sys2Proof/Machine/Members.lean ====
section
/-! DEFINITION. What the members of a group tell each other: mirrored items, states and answers (R20, R50-R52), closures and
seals (R377, R378), commands that every member carries out (R84, R359, R401, R471) and invalidates (R327). The spec gives
these capsules their virtual channels and route sequence numbers (R420, R425) but no layout, which is therefore opaque
(assumption 99: DESIGN CHOICE). -/

namespace Sys2Proof

/-- The bytes of a capsule between members: its source, its route sequence number and its message. -/
opaque Config.memberBytes : Nat → Nat → Machine.MemberMsg → List Byte

/-- The source, route sequence number and message that bytes from a member spell. -/
opaque Config.memberRead : List Byte → Option (Nat × Nat × Machine.MemberMsg)

namespace Machine

/-- The virtual channel of a message (R420). -/
def MemberMsg.vc : MemberMsg → Nat
  | .item _ => 2
  | .put _ _ _ => 2
  | .answer _ _ _ _ => 1
  | .putAck _ => 1
  | .answerAck _ => 1
  | .applied _ _ _ _ _ => 1
  | .command _ => 0
  | .watermark _ => 3
  | .closures _ _ => 3
  | .sealed _ => 3
  | .invalidate _ => 3
  | .portDown _ => 3

/-! ### Replicas (R20, R50-R52) -/

/-- Change the mirror of an item of a member. -/
def State.updMirror (s : State) (node seq : Nat) (f : Mirror → Mirror) : State :=
  { s with group := { s.group with mirrors := mapIf (fun m => m.node == node && m.item.seq == seq) f s.group.mirrors } }

/-- The mirror of an item of a member. -/
def State.mirrorOf (s : State) (node seq : Nat) : Option Mirror := s.group.mirrors.find? fun m => m.node == node && m.item.seq == seq

/-- A mirror is of no more use once its answer has left and its record is sealed. -/
def State.dropMirrors (s : State) : State :=
  let spent := fun (m : Mirror) => m.released.isSome && m.covered && decide (m.item.seq ≤ tgetD m.node 0 s.group.watermarks)
  { s with group := { s.group with mirrors := s.group.mirrors.filter fun m => !(spent m) } }

/-- Register an item of a member; one that is registered again brings its decoded key fields (R51). -/
def State.registerItem (s : State) (node : Nat) (i : Item) : State :=
  if (s.mirrorOf node i.seq).isSome then s.updMirror node i.seq fun m => { m with item := { m.item with
    rowCourses := i.rowCourses, rowKnown := i.rowKnown } }
  else { s with group := { s.group with mirrors := s.group.mirrors ++ [{ node := node, item := i, released := none }] } }

/-- A mirrored answer: with a result the mirrored state becomes visible here too. -/
def State.takeAnswer (s : State) (node seq cause : Nat) (a : AnswerOut) (record : List Byte) : State :=
  let s1 := s.updMirror node seq fun m => { m with released := some a, record := record }
  match s.mirrorOf node seq with
  | some m => if cause = 0 ∧ m.item.putStage ≠ 0 then s1.commitPut m.item else s1
  | none => s1

/-! ### Seals (R377, R378) -/

/-- The same records of the same slice and generation. -/
def Segment.same (a b : Segment) : Bool := a.slice == b.slice && a.gen == b.gen && a.records == b.records

/-- A seal of the leader: to be written here, and the head of the chain; what it covers waits no more. -/
def LedSt.takeSeal (l : LedSt) (x : Seal) : LedSt :=
  if x.seq < l.nextSeal then l
  else { l with
    seals := l.seals ++ [{ x with written := false }]
    closed := l.closed.filter fun g => !(x.segs.any (Segment.same g))
    segSeq := x.segs.foldl (fun m g => tset g.slice (max (g.seq + 1) (tgetD g.slice 0 m)) m) l.segSeq
    nextSeal := x.seq + 1, head := x.body, sealTick := x.tick, restart := false, leaderChange := false }

/-- The mirrored records that a seal covers. -/
def State.coverMirrors (s : State) (x : Seal) : State :=
  let held := x.segs.flatMap (·.records)
  ({ s with group := { s.group with
    mirrors := mapIf (fun m => m.released.isSome && held.contains m.record) (fun m => { m with covered := true }) s.group.mirrors } } :
    State).dropMirrors

/-! ### Commands of the group (R84, R359, R471) -/

/-- The header of a row written from a capsule. -/
def srcHeader : ObjSrc → Option CmdHdr
  | .capsule h => some h
  | .canfd => none

/-- The header and opcode of a command that a group carries out on every member. -/
def groupHeader (i : Instr) : Option (CmdHdr × Nat) :=
  let write := fun (src : ObjSrc) => (srcHeader src).map fun h => (h, 0x0011)
  match i with
  | .queueCreate h _ _ _ _ => some (h, 0x0002)
  | .queueDelete h _ => some (h, 0x0003)
  | .queueReset h _ => some (h, 0x0004)
  | .sliceCreate h _ _ => some (h, 0x0060)
  | .sliceReset h _ => some (h, 0x0061)
  | .sliceRemove h _ => some (h, 0x0062)
  | .sliceBind h _ _ _ => some (h, 0x0063)
  | .sliceUnbind h _ => some (h, 0x0064)
  | .stateClear h _ => some (h, 0x0065)
  | .pipelineLoad h _ => some (h, 0x0020)
  | .pipelineUnload h _ => some (h, 0x0021)
  | .tableCreate h _ _ _ _ => some (h, 0x0023)
  | .tableDrop h _ => some (h, 0x0024)
  | .ksCreate h _ => some (h, 0x0030)
  | .ksDrop h _ => some (h, 0x0031)
  | .ksInsert h _ _ _ => some (h, 0x0032)
  | .ksDelete h _ _ => some (h, 0x0033)
  | .ksLoad h _ _ _ => some (h, 0x0034)
  | .dgKeyLoad h _ _ _ => some (h, 0x0040)
  | .dgKeyClear h _ => some (h, 0x0041)
  | .fwStage h _ _ _ => some (h, 0x0071)
  | .fwActivate h => some (h, 0x0072)
  | .objWrite h _ _ => some (h, 0x0011)
  | .pinRequest src _ _ => write src
  | .memberLeave src _ => write src
  | .fwStageData src _ => write src
  | .svnCommit src _ => write src
  | .vendorKeyRevoke src _ => write src
  | .sliceKek src _ _ => write src
  | .canfdKeyOperator src _ => write src
  | .canfdKeyCustodian src _ => write src
  | .custodianBind src _ => write src
  | .debugUnlock src _ => write src
  | .epochSecond src _ => write src
  | .allotmentWrite src _ _ _ => write src
  | .overflowClear src _ _ => write src
  | .store src _ => write src
  | .restore src _ => write src
  | .ringAck src _ _ => write src
  | .ringOverflowClear src _ _ => write src
  | .firstClear src _ _ => write src
  | _ => none

/-- A member has carried out a command: it is waited for no more, the next member may start where they go one by one, and a
code of its own is the group's outcome. -/
def State.memberApplied (s : State) (node slice qid cid status detail : Nat) : State :=
  let mine := fun (f : Fan) => f.slice == slice && f.qid == qid && f.cid == cid
  let out := fun (c : Completion) => c.slice == slice && c.qid == qid && c.cid == cid && c.status == 0 && !c.tx
  let stops := fun (f : Fan) => f.serial.isSome && status != 0
  let fans := (mapIf mine (fun f => { f with left := if stops f then [] else f.left.erase node, started := false }) s.group.fans).filter
    fun f => !f.left.isEmpty
  let unposted := (s.group.fans.find? mine).bind fun f => if stops f then (f.serial.bind groupHeader).map (·.1) else none
  let amend := fun (c : Completion) => mkCompletion c.queue c.slice c.cid status c.gen c.qid c.sqHead 0 detail [] c.port
  let t : State := { s with
    group := { s.group with fans := fans }
    host := if status = 0 then s.host else { s.host with completions := mapIf out amend s.host.completions } }
  match unposted with
  | some h => if s.host.completions.any out then t else t.finish slice h status detail []
  | none => t

/-- A completion waits for other members. -/
def State.fanning (s : State) (c : Completion) : Bool := s.group.fans.any fun f => f.slice == c.slice && f.qid == c.qid && f.cid == c.cid

/-! ### Messages -/

/-- A message of a member reaches this one. What the last report of a member's ports brings about is the row
MEMBER_LOSS_REPORT (R431). -/
def State.memberIn (s : State) (src : Nat) (m : MemberMsg) : State :=
  match m with
  | .item i => s.registerItem src i
  | .put q space area =>
    (s.updMirror src q fun m => { m with item := { m.item with putStage := 1, putSpace := space, putArea := area } }).tell src (.putAck q)
  | .putAck q => s.replicaAck q
  | .answer q cause a record => (s.takeAnswer src q cause a record).tell src (.answerAck q)
  | .answerAck q => s.mirrorAck q
  | .watermark n =>
    ({ s with group := { s.group with watermarks := tset src n s.group.watermarks } } : State).dropMirrors
  | .closures t segs => { s with group := { s.group with closures := tset src (t, segs) s.group.closures } }
  | .sealed x => ({ s with led := s.led.takeSeal x } : State).coverMirrors x
  | .command i => { s with group := { s.group with inbox := s.group.inbox ++ [(src, i)] } }
  | .applied slice qid cid status detail => s.memberApplied src slice qid cid status detail
  | .invalidate i => { s with memx := { s.memx with invals := s.memx.invals ++ [{ i with bays := List.range 17 }] } }
  | .portDown _ => s

/-- A capsule from a member; one whose route sequence number this member has accepted before is discarded (R425). -/
def State.memberCapsule (s : State) (img : List Byte) : State :=
  match Config.memberRead img with
  | none => s
  | some (src, n, m) =>
    if s.group.seen.contains (src, n) then s
    else ({ s with group := { s.group with seen := s.group.seen ++ [(src, n)] } } : State).memberIn src m

/-- The outcome here of a command that came from a member goes back to it. -/
def State.replyMember (s : State) : State :=
  match s.host.completions.findIdx? fun c => !c.tx && decide (64 ≤ c.port) with
  | none => s
  | some k =>
    let s1 : State := { s with host := { s.host with completions := s.host.completions.modify k fun c => { c with tx := true } } }
    match s.host.completions[k]? with
    | some c => s1.tell (c.port - 64) (.applied c.slice c.qid c.cid c.status c.detail)
    | none => s1

/-- A member that has gone drops out of what waits for it, and nothing is kept for it (R471). -/
def GroupSt.forget (g : GroupSt) (node : Nat) : GroupSt :=
  { g with
    outbox := g.outbox.filter fun e => e.1 != node
    fans := (g.fans.map fun f => { f with left := f.left.erase node }).filter fun f => !f.left.isEmpty
    closures := tdel node g.closures }

end Machine

end Sys2Proof
end

