-- ==== Sys2Proof/Machine/Encoding.lean ====
section
/-! DEFINITION. The 36-bit words of Chisel (08): which row a word spells, with the fields and operand ranges its encoding
admits (R204, R212-R234), and the check of a kernel's words at load (R97). -/

namespace Sys2Proof.Machine

/-- The fields of a word in the R format; the other formats lie over them (R204). -/
structure WordFields where
  op : Nat
  g : Nat
  rd : Fin 32
  ra : Fin 32
  rb : Fin 32
  fn : Nat
  imm17 : Nat
  imm22 : Nat
  off26 : Nat
deriving DecidableEq, Repr

/-- The fields of a word. -/
def wordFields (w : Nat) : WordFields where
  op := fieldOf w 35 30
  g := fieldOf w 29 27
  rd := Fin.ofNat 32 (fieldOf w 26 22)
  ra := Fin.ofNat 32 (fieldOf w 21 17)
  rb := Fin.ofNat 32 (fieldOf w 16 12)
  fn := fieldOf w 11 0
  imm17 := fieldOf w 16 0
  imm22 := fieldOf w 21 0
  off26 := fieldOf w 25 0

/-- What the check at load needs of a word: its row of the table, whether it is a transfer and a direct one's offset, the
base register, offset and courses of a work-area access, whether only supervisor mode defines it. -/
structure Spelt where
  row : String
  transfer : Bool
  off : Option Int
  access : Option (Int × Nat)
  supervisor : Bool
deriving DecidableEq, Repr

/-- A row whose encoding holds under a condition. -/
def okRow (b : Bool) (m : String) : Option Spelt :=
  if b then some { row := m, transfer := false, off := none, access := none, supervisor := false } else none

/-- A field that names a vector register, or a predicate (R204). -/
def vecOk (r : Fin 32) : Bool := decide (r.val < 16)
def predOk (r : Fin 32) : Bool := decide (r.val < 8)

def WordFields.dz (f : WordFields) : Bool := f.rd == 0
def WordFields.az (f : WordFields) : Bool := f.ra == 0
def WordFields.bz (f : WordFields) : Bool := f.rb == 0
def WordFields.v3 (f : WordFields) : Bool := vecOk f.rd && vecOk f.ra && vecOk f.rb
def WordFields.v2 (f : WordFields) : Bool := vecOk f.rd && vecOk f.ra
def WordFields.p3 (f : WordFields) : Bool := predOk f.rd && predOk f.ra && predOk f.rb
def WordFields.pair3 (f : WordFields) : Bool := pairOk f.rd && pairOk f.ra && pairOk f.rb
def WordFields.pair2 (f : WordFields) : Bool := pairOk f.rd && pairOk f.ra && f.bz

/-- Scalar ALU, OP 0x01 (R213). -/
def decScalar (f : WordFields) : Option Spelt :=
  match f.fn with
  | 0x000 => okRow true "ADD"
  | 0x001 => okRow true "SUB"
  | 0x002 => okRow true "ADDS"
  | 0x003 => okRow true "SUBS"
  | 0x004 => okRow true "MUL"
  | 0x005 => okRow true "MULH"
  | 0x006 => okRow true "MULHU"
  | 0x007 => okRow true "AND"
  | 0x008 => okRow true "OR"
  | 0x009 => okRow true "XOR"
  | 0x00A => okRow true "ANDN"
  | 0x00B => okRow true "SHL"
  | 0x00C => okRow true "SHR"
  | 0x00D => okRow true "SAR"
  | 0x00E => okRow true "MIN"
  | 0x00F => okRow true "MAX"
  | 0x010 => okRow true "MINU"
  | 0x011 => okRow true "MAXU"
  | 0x012 => okRow f.bz "POPC"
  | 0x013 => okRow f.bz "CLZ"
  | n =>
    if n / 16 = 2 then okRow (f.bz && inRange 1 4 (n % 16)) "SEXT"
    else if n / 16 = 3 then okRow (f.bz && inRange 1 4 (n % 16)) "ZEXT"
    else none

/-- Immediates, OP 0x02 to 0x08 (R214). -/
def decImm (f : WordFields) : Option Spelt :=
  let z := fieldOf f.imm17 14 6 == 0
  match f.op with
  | 0x02 => okRow true "ADDI"
  | 0x03 => okRow true "ANDI"
  | 0x04 => okRow true "ORI"
  | 0x05 => okRow true "XORI"
  | 0x06 => match fieldOf f.imm17 16 15 with
    | 0 => okRow z "SHLI"
    | 1 => okRow z "SHRI"
    | 2 => okRow z "SARI"
    | _ => none
  | 0x07 => okRow true "LI"
  | _ => okRow (fieldOf f.imm22 21 20 == 0) "LIH"

/-- Compares and predicate operations, OP 0x09 to 0x0B (R214). -/
def decPred (f : WordFields) : Option Spelt :=
  match f.op, f.fn with
  | 0x09, n => okRow (predOk f.rd && decide (n ≤ 5)) "CMP"
  | 0x0A, _ => okRow (predOk f.rd && decide (fieldOf f.imm17 16 14 ≤ 5)) "CMPI"
  | _, 0x000 => okRow f.p3 "PAND"
  | _, 0x001 => okRow f.p3 "POR"
  | _, 0x002 => okRow f.p3 "PXOR"
  | _, 0x003 => okRow f.p3 "PANDN"
  | _, 0x004 => okRow (predOk f.rd && predOk f.ra && f.bz) "PNOT"
  | _, 0x010 => okRow (predOk f.rd && f.bz) "PMOV"
  | _, 0x011 => okRow (predOk f.ra && f.bz) "PGET"
  | _, 0x012 => okRow (predOk f.ra && f.bz) "PPOP"
  | _, 0x013 => okRow (predOk f.ra && f.bz) "PFIRST"
  | _, _ => none

/-- Decimal, OP 0x10 to 0x12 (R215, R216). -/
def decDecimal (f : WordFields) : Option Spelt :=
  let cmpOk := predOk f.rd && pairOk f.ra && pairOk f.rb
  let m := f.imm17
  if f.op = 0x11 then
    okRow (fieldOf m 5 0 == 0 && dfitOk f.rd f.ra (fieldOf m 16 16 == 1) (fieldOf m 15 10) (fieldOf m 9 6)) "DFIT"
  else if f.op = 0x12 then
    okRow (fieldOf m 16 5 == 0 && pairOk f.rd && pairOk f.ra && decide (fieldOf m 4 0 ≤ 29)) "DSL"
  else match f.fn with
    | 0x000 => okRow f.pair3 "DADD"
    | 0x001 => okRow f.pair3 "DSUB"
    | 0x002 => okRow f.pair3 "DADD_C"
    | 0x003 => okRow f.pair3 "DMUL"
    | 0x004 => okRow (quadOk f.rd && pairOk f.ra && pairOk f.rb) "DMUL_W"
    | 0x005 => okRow f.pair2 "DABS"
    | 0x006 => okRow f.pair2 "DNEG"
    | 0x010 => okRow cmpOk "DCMP_EQ"
    | 0x011 => okRow cmpOk "DCMP_NE"
    | 0x012 => okRow cmpOk "DCMP_LT"
    | 0x013 => okRow cmpOk "DCMP_GE"
    | 0x040 => okRow (pairOk f.rd && f.bz) "DCVT_D"
    | n => match n / 16 with
      | 2 => okRow (f.pair2 && inRange 1 8 (n % 16)) "DEXT"
      | 3 => okRow (f.pair2 && inRange 1 8 (n % 16)) "DPACK"
      | 5 => okRow (dcvtOk (n % 16) f.rd f.ra && f.bz) "DCVT_I"
      | 6 => okRow (dcvtOk (n % 16) f.rd f.ra && f.bz) "DCVT_U"
      | _ => none

/-- Vector ALU, OP 0x18 (R218). -/
def decVector (f : WordFields) : Option Spelt :=
  let opx := fieldOf f.fn 8 2
  let pm := fieldOf f.fn 11 9
  if opx ≠ 9 ∧ pm ≠ 0 then none
  else match opx with
    | 0 => okRow f.v3 "VADD"
    | 1 => okRow f.v3 "VSUB"
    | 2 => okRow f.v3 "VMIN"
    | 3 => okRow f.v3 "VMAX"
    | 4 => okRow f.v3 "VMINU"
    | 5 => okRow f.v3 "VMAXU"
    | 6 => okRow f.v3 "VAND"
    | 7 => okRow f.v3 "VOR"
    | 8 => okRow f.v3 "VXOR"
    | 9 => okRow f.v3 "VSEL"
    | 10 => okRow f.v2 "VSHL"
    | 11 => okRow f.v2 "VSHR"
    | 12 => okRow f.v2 "VSAR"
    | 13 => okRow (vecOk f.rd && f.bz) "VBC"
    | 14 => okRow (vecOk f.ra) "VEXT"
    | 15 => okRow (vecOk f.ra && f.bz) "VREDADD"
    | 16 => okRow (f.v2 && f.bz && decide (2 ≤ fieldOf f.fn 1 0)) "VHASH"
    | _ => none

/-- Vector compares, gathers and bit streams, OP 0x19 to 0x1C (R219, R220). -/
def decStream (f : WordFields) : Option Spelt :=
  let e : Fin 4 := Fin.ofNat 4 (fieldOf f.fn 1 0)
  let w := fieldOf f.fn 10 4
  let z2 := fieldOf f.fn 2 2 == 0
  match f.op with
  | 0x19 => okRow (predOk f.rd && vecOk f.ra && vecOk f.rb && fieldOf f.fn 11 8 == 0 && decide (fieldOf f.fn 7 4 ≤ 9)
      && fieldOf f.fn 3 2 == 0) "VCMP"
  | 0x1A => okRow (vecOk f.rd && vecOk f.rb && fieldOf f.fn 9 2 == 0) (if fieldOf f.fn 10 10 = 0 then "VGATH" else "VDICT")
  | 0x1B => okRow (vecOk f.rd && z2 && widthOk e w) "VUNPK"
  | _ => okRow (vecOk f.rd && z2 && widthOk e w && fieldOf f.fn 11 11 == 0 && fieldOf f.fn 3 3 == 0) "VPACK"

/-- An access to the work area at a constant address, when its base is s0 (R97). -/
def Spelt.atBase (x : Spelt) (f : WordFields) (n : Nat) : Spelt :=
  { x with access := if f.az then some ((BitVec.ofNat 13 f.imm17).toInt, n) else none }

/-- Loads and stores, OP 0x20 to 0x29 (R221). -/
def decMemory (f : WordFields) : Option Spelt :=
  let n := fieldOf f.imm17 16 14
  let x := fieldOf f.imm17 13 13 == 1
  let ld := decide (n ≤ 4)
  let st := ld && !x
  let v := decide (n ≤ 3) && !x && vecOk f.rd
  match f.op with
  | 0x20 => (okRow ld "LS").map fun i => i.atBase f (n + 1)
  | 0x21 => (okRow st "SS").map fun i => i.atBase f (n + 1)
  | 0x22 => okRow ld "LT"
  | 0x23 => okRow ld "LM"
  | 0x24 => okRow st "SM"
  | 0x25 => (okRow v "VLS").map fun i => i.atBase f 64
  | 0x26 => (okRow v "VSS").map fun i => i.atBase f 64
  | 0x27 => okRow v "VLT"
  | 0x28 => okRow v "VLM"
  | _ => okRow v "VSM"

/-- Engine instructions, OP 0x30 to 0x34 (R226-R229). -/
def decEngine (f : WordFields) : Option Spelt :=
  match f.op with
  | 0x30 => okRow (f.bz && fieldOf f.fn 11 8 == 0 && inRange 1 30 f.rd.val) "KS_FIND"
  | 0x31 => match fieldOf f.fn 11 8 with
    | 0 => okRow f.dz "KS_INS"
    | 4 => okRow (f.dz && f.az) "KS_DEL"
    | _ => none
  | 0x32 => okRow (f.dz && fieldOf f.fn 11 3 == 0) "EMIT"
  | 0x33 => match f.fn with
    | 0 => okRow (f.dz && f.bz) "DG_SUB"
    | 1 => okRow (f.dz && f.az && f.bz) "DG_WAIT"
    | _ => none
  | _ => match f.fn with
    | 0 => okRow f.bz "TLOCK"
    | 1 => okRow (f.dz && f.bz) "TUNLOCK"
    | _ => none

/-- A transfer, direct when it has an offset. -/
def Spelt.jump (x : Spelt) (off : Option Int) : Spelt := { x with transfer := true, off := off }

/-- Control, OP 0x38 to 0x3D (R202, R225, R230). A read or a write of a register that only supervisor mode has marks the
word, whether or not supervisor mode may write it (R201; assumption 68: DEDUCED). -/
def decControl (quoin : Bool) (f : WordFields) : Option Spelt :=
  let noReg := f.dz && f.az && f.bz
  let num := fieldOf f.imm17 7 0
  let numZ := fieldOf f.imm17 16 8 == 0
  let sup := fun (x : Spelt) => { x with supervisor := decide (0x20 ≤ num) }
  match f.op with
  | 0x38 => (okRow (decide (fieldOf f.imm17 16 14 ≤ 5)) "BR").map fun i => i.jump (some (BitVec.ofNat 13 f.imm17).toInt)
  | 0x39 => (okRow true (if f.rd.val < 16 then "J" else "CALL")).map fun i => i.jump (some (BitVec.ofNat 26 f.off26).toInt)
  | 0x3A => match f.fn with
    | 0 => (okRow (f.dz && f.bz) "JR").map fun i => i.jump none
    | 1 => (okRow (f.dz && f.bz) "CALLR").map fun i => i.jump none
    | 2 => (okRow (f.dz && f.bz && f.ra == 31) "RET").map fun i => i.jump none
    | _ => none
  | 0x3B => match f.fn with
    | 0 => okRow noReg "NOP_INSTRUCTION"
    | 1 => okRow noReg "END"
    | 2 => okRow noReg "FENCE"
    | _ => none
  | 0x3C => (okRow (f.az && numZ && ctlReadable quoin num) "RDCTL").map sup
  | _ => (okRow (f.dz && numZ && (ctlWritable quoin num || (quoin && inRange 0x20 0x25 num))) "WRCTL").map sup

/-- Supervisor, OP 0x3F (R234). -/
def decSuper (f : WordFields) : Option Spelt :=
  (match f.fn with
    | 0x001 => okRow f.dz "TINV_A"
    | 0x002 => okRow (f.dz && f.az) "TINV_T"
    | 0x003 => okRow (f.dz && f.az && f.bz) "TINV_ALL"
    | 0x004 => okRow (f.dz && f.bz) "TSYNC"
    | 0x010 => okRow true "CRANGE_CLEAN"
    | 0x011 => okRow true "CRANGE_INV"
    | 0x012 => okRow true "CRANGE_CINV"
    | 0x013 => okRow true "CRANGE_ZERO"
    | 0x020 => okRow true "LEASE"
    | 0x021 => okRow (f.dz && f.bz) "SCRUB"
    | 0x030 => okRow (f.dz && f.az && f.bz) "BORROW"
    | 0x031 => okRow (f.dz && f.az && f.bz) "SRET"
    | _ => none).map fun (i : Spelt) => { i with supervisor := true }

/-- The row a word spells, by its opcode, on a Quoin core or on a stone (R212). A supervisor encoding is read on both, and
marked. -/
def decodeWord (quoin : Bool) (w : Nat) : Option Spelt :=
  let f := wordFields w
  if f.op = 0x01 then decScalar f
  else if 0x02 ≤ f.op ∧ f.op ≤ 0x08 then decImm f
  else if 0x09 ≤ f.op ∧ f.op ≤ 0x0B then decPred f
  else if 0x10 ≤ f.op ∧ f.op ≤ 0x12 then decDecimal f
  else if f.op = 0x18 then decVector f
  else if 0x19 ≤ f.op ∧ f.op ≤ 0x1C then decStream f
  else if 0x20 ≤ f.op ∧ f.op ≤ 0x29 then decMemory f
  else if 0x30 ≤ f.op ∧ f.op ≤ 0x34 then decEngine f
  else if 0x38 ≤ f.op ∧ f.op ≤ 0x3D then decControl quoin f
  else if f.op = 0x3F then decSuper f
  else none

/-- The check of the word at an index of a kernel of `n` words with `work` courses of work area; 0 when it passes (R97,
R201). -/
def checkWord (n work idx w : Nat) : Nat :=
  let sup : Bool := match decodeWord true w with
    | some i => i.supervisor
    | none => false
  if sup then 0x0321
  else match decodeWord false w with
    | none => 0x0320
    | some i =>
      let out : Bool := match i.off with
        | some o => decide ((idx : Int) + o < 0 ∨ (n : Int) ≤ (idx : Int) + o)
        | none => false
      let beyond : Bool := match i.access with
        | some (o, k) => decide (o < 0 ∨ (work : Int) < o + (k : Int))
        | none => false
      if out || (i.transfer && idx + 1 == n) then 0x0322 else if beyond then 0x0323 else 0

end Sys2Proof.Machine
end

