-- ==== Sys2Proof/Machine/ImageParse.lean ====
section
/-! DEFINITION. The parts of a pipeline image and the first four stages of a load (04): envelope, directory, signature and
sections (R86-R92, R96-R101, R103, R105, R106), with templates (R152-R157). A failure is its code and the course offset of
the failing course. -/

namespace Sys2Proof.Machine

/-- A failure of a load: code and course offset. -/
abbrev Load := Except (Nat × Nat)

/-- The first check that fails, in order. -/
def checkAll (l : List (Bool × Nat × Nat)) : Load Unit :=
  match l.find? (·.1) with
  | some (_, e) => .error e
  | none => .ok ()

/-- Course `k` as a number. -/
def crs (cs : List Course) (k : Nat) : Nat := (nth cs k 0).toNat

/-- `n` courses from `k` on as a number. -/
def crsAt (cs : List Course) (k n : Nat) : Nat := crsNat (slice cs k n)

/-- A check for each course of a range that must be zero (IMAGE_RESERVED). -/
def zeroCrs (cs : List Course) (k n : Nat) : List (Bool × Nat × Nat) :=
  (List.range n).map fun i => (crs cs (k + i) != 0, 0x0305, k + i)

/-! ### Stage 1: the envelope (R86-R88, R91, R30, R34) -/

/-- The envelope of an image of `bytes` bytes with courses `cs`. -/
def checkEnvelope (bytes : Nat) (cs : List Course) : Load Unit :=
  let n := cs.length
  let cls := crs cs 4 / 1024
  let d := crsAt cs 10 3
  let src := crs cs 13 / 1024
  let fb := crs cs 13 % 16
  let tr := crsAt cs (n - 4) 4
  checkAll ([
    (bytes % 3 != 0 || decide (n < 48) || decide (16777214 < n), 0x0301, 0),
    (crsAt cs 2 2 != n, 0x0301, 2),
    (tr % 2 ^ 32 != crc32c (packBytes (cs.take (n - 4))), 0x0302, n - 4),
    (crs cs (n - 4) != 0, 0x0305, n - 4),
    (tr / 2 ^ 32 != 0, 0x0305, n - 3),
    (crs cs 0 != 0x1A6, 0x0303, 0),
    (crs cs 1 != 1, 0x0304, 1),
    (cls == 3, 0x0402, 4),
    (if cls = 2 then d != 0 else decide (d = 0 ∨ 2 ^ 32 < d), 0x0401, 10),
    (crs cs 4 % 512 != 0, 0x0305, 4),
    (fieldOf (crs cs 13) 9 4 != 0, 0x0305, 13)] ++ zeroCrs cs 16 16 ++ [
    (src == 3 || (src == 0) != (cls == 2) || (fb == 0) != (src == 0) || decide (12 < fb), 0x0306, 13),
    (src != 2 && crsAt cs 14 2 != 0, 0x0306, 14)])

/-! ### Stage 2: the directory (R89, R90) -/

/-- A section: its type, offset and length in courses. -/
structure Section_ where
  kind : Nat
  off : Nat
  len : Nat
deriving DecidableEq, Repr

/-- The directory entries. -/
def sectionsOf (cs : List Course) : List Section_ :=
  (List.range (crs cs 5)).map fun i =>
    let e := 32 + 6 * i
    ⟨crs cs e, crsAt cs (e + 2) 2, crsAt cs (e + 4) 2⟩

/-- A section type that a class admits, with a signature exactly when SIGNED. -/
def typeAdmitted (cls : Nat) (signed : Bool) (t : Nat) : Bool :=
  decide (1 ≤ t ∧ t ≤ 8) && (t != 7 || cls != 2) && (t != 8 || signed)

/-- The directory of an image. -/
def checkDirectory (cs : List Course) : Load Unit :=
  let cls := crs cs 4 / 1024
  let signed := crs cs 4 / 512 % 2 == 1
  let count := crs cs 5
  let stop := cs.length - 4
  let ss := sectionsOf cs
  let has := fun (t : Nat) => ss.any fun x => x.kind == t
  let start := fun (i : Nat) => match i with
    | 0 => 32 + 6 * count
    | k + 1 => ((ss[k]?).map fun x => x.off + x.len).getD 0
  let idx := List.range count
  let at_ := fun (i : Nat) => nth ss i ⟨0, 0, 0⟩
  checkAll ([(decide (count < 2 ∨ 8 < count ∨ stop < 32 + 6 * count), 0x0307, 5)] ++
    idx.flatMap (fun i => [(!(typeAdmitted cls signed (at_ i).kind), 0x0307, 32 + 6 * i), (crs cs (33 + 6 * i) != 0, 0x0307, 33 + 6 * i)]) ++
    [(!(has 1) || !(has 6) || (cls != 2 && (!(has 4) || !(has 7))) || (signed && !(has 8)), 0x0307, 0)] ++
    idx.map (fun i => (decide (0 < i ∧ (at_ i).kind ≤ (at_ (i - 1)).kind), 0x0307, 32 + 6 * i)) ++
    idx.flatMap (fun i => [((at_ i).off != start i, 0x0307, 34 + 6 * i),
      (decide ((at_ i).len % 2 = 1 ∨ (at_ i).len < 2 ∨ stop < (at_ i).off + (at_ i).len), 0x0307, 36 + 6 * i)]) ++
    [(start count != stop, 0x0307, 30 + 6 * count)])

/-! ### Stage 3: the signature (R105) -/

/-- The verification key of a number from 1 to 8 (R105, R411). -/
def State.verifyKey (s : State) (sl k : Nat) : Option (List Byte) :=
  let ks := s.objBytes (0x4000 + sl) 21 [] 0
  if 1 ≤ k ∧ k ≤ 8 ∧ 97 * k ≤ ks.length then some (slice ks (97 * (k - 1)) 97) else none

/-- The signature of an image, or that one is required. -/
def State.checkSignature (s : State) (sl : Nat) (cs : List Course) : Load Unit :=
  match (sectionsOf cs).find? fun x => x.kind == 8 with
  | none => checkAll [(s.objNum (0x4000 + sl) 20 [] 0 0 != 0, 0x0353, 4)]
  | some x =>
    let key := s.verifyKey sl (crs cs (x.off + 1))
    let ok := Config.ecdsaVerify (key.getD []) (packBytes (cs.take x.off)) (packBytes (slice cs (x.off + 2) 64))
    checkAll [(x.len != 66, 0x0308, x.off), (crs cs x.off != 1, 0x0350, x.off), (key.isNone, 0x0351, x.off + 1),
      (!ok, 0x0352, x.off + 2)]

/-! ### Stage 4: sections (R92, R96, R98-R101, R103, R106) -/

/-- A count of courses that a section still holds, or SECTION_LENGTH where it ends. -/
def room (pos n stop : Nat) : Load Unit := checkAll [(decide (stop < pos + n), 0x0308, pos)]

/-- Operator records from a position on. -/
def parseOps (cs : List Course) (stop : Nat) : Nat → Nat → Load (List Operator × Nat)
  | 0, pos => .ok ([], pos)
  | n + 1, pos => do
    room pos 4 stop
    let ports := crs cs (pos + 1)
    let len := crs cs (pos + 2)
    checkAll [(crs cs pos % 64 != 0, 0x0305, pos),
      (decide (8 < ports / 256 ∨ 8 < ports / 16 % 16 ∨ ports % 16 ≠ 0), 0x0305, pos + 1),
      (decide (len % 2 = 1 ∨ 4094 < len), 0x0308, pos + 2), (crs cs (pos + 3) != 0, 0x0305, pos + 3)]
    room (pos + 4) len stop
    let o : Operator := { code := crs cs pos / 64, nin := ports / 256, nout := ports / 16 % 16,
                          params := slice cs (pos + 4) len, at_ := pos + 4 }
    let (os, p) ← parseOps cs stop n (pos + 4 + len)
    return (o :: os, p)

/-- The edge records of a GRAPH section. -/
def edgesAt (cs : List Course) (pos n : Nat) : List Edge :=
  (List.range n).map fun i =>
    let e := pos + 4 * i
    ⟨crs cs e, crs cs (e + 1), crs cs (e + 2), crs cs (e + 3)⟩

/-- The GRAPH section (R92). -/
def parseGraph (cs : List Course) (x : Section_) : Load (List Operator × List Edge) := do
  let stop := x.off + x.len
  let n := crs cs x.off
  let m := crs cs (x.off + 1)
  checkAll [(decide (n = 0 ∨ 1024 < n), 0x0308, x.off)]
  let (ops, pos) ← parseOps cs stop n (x.off + 2)
  checkAll ((List.range m).map fun i => (decide (stop < pos + 4 * i + 4), 0x0308, pos + 4 * i))
  checkAll [(pos + 4 * m != stop, 0x0308, pos + 4 * m)]
  return (ops, edgesAt cs pos m)

/-- Kernel records from a position on (R96). -/
def parseKernels (cs : List Course) (stop : Nat) : Nat → Nat → Load (List Kernel × Nat)
  | 0, pos => .ok ([], pos)
  | n + 1, pos => do
    room pos 8 stop
    let len := crsAt cs pos 2
    checkAll [(decide (len = 0 ∨ 65536 < len), 0x0308, pos), (crsAt cs (pos + 2) 2 == 0, 0x0305, pos + 2),
      (crsAt cs (pos + 4) 2 == 0, 0x0305, pos + 4), (decide (1024 < crs cs (pos + 6)), 0x0305, pos + 6),
      (crs cs (pos + 7) % 2048 != 0, 0x0305, pos + 7)]
    room (pos + 8) (evenUp (3 * len)) stop
    checkAll [(len % 2 == 1 && crs cs (pos + 8 + 3 * len) != 0, 0x0305, pos + 8 + 3 * len)]
    let k : Kernel := { code := (List.range len).map fun i => crsAt cs (pos + 8 + 3 * i) 3
                        budget := crsAt cs (pos + 2) 2, cycleBound := crsAt cs (pos + 4) 2
                        scratch := crs cs (pos + 6), predict := crs cs (pos + 7) / 2048 == 1, at_ := pos }
    let (ks, p) ← parseKernels cs stop n (pos + 8 + evenUp (3 * len))
    return (k :: ks, p)

/-- A section that opens with a count of 1 to `most` and a reserved course, and fills its length. -/
def counted {α : Type} (cs : List Course) (x : Section_) (most : Nat) (parse : Nat → Nat → Nat → Load (List α × Nat)) :
    Load (List α) := do
  let stop := x.off + x.len
  checkAll [(decide (crs cs x.off = 0 ∨ most < crs cs x.off), 0x0308, x.off), (crs cs (x.off + 1) != 0, 0x0305, x.off + 1)]
  let (l, pos) ← parse stop (crs cs x.off) (x.off + 2)
  checkAll [(pos != stop, 0x0308, pos)]
  return l

/-- The CONSTANTS section (R98). -/
def parseConstants (cs : List Course) (x : Section_) : Load (List Course) := do
  let n := crsAt cs x.off 2
  checkAll [(decide (n % 2 = 1 ∨ n < 2 ∨ 1048576 < n), 0x0308, x.off)]
  room (x.off + 2) n (x.off + x.len)
  checkAll [(n + 2 != x.len, 0x0308, x.off + 2 + n)]
  return slice cs (x.off + 2) n

/-! ### Templates (R152-R157) -/

/-- The bytes of a template's TAG: as many as its own bits give (R157, R160). -/
def tagBytes (bs : List Byte) : List Byte :=
  match bs with
  | b0 :: b1 :: _ =>
    if b0.toNat % 32 ≠ 31 then bs.take 1 else if b1.toNat < 128 then bs.take 2 else bs.take 3
  | _ => bs

/-- A TAG of two courses is well formed (R157). -/
def tagOk (bs : List Byte) : Bool :=
  let t := tagBytes bs
  nth bs 0 0 != 0 && (bs.drop t.length).all (· == 0) && (t.length != 3 || decide ((nth bs 2 0).toNat < 128))

/-- A field record as it stands; a type that is invalid reads as CODE, and is checked beside it. -/
def fieldAt (cs : List Course) (p : Nat) : TField where
  kind := fieldOf (crs cs p) 11 9
  charset := fieldOf (crs cs p) 8 6
  pform := fieldOf (crs cs p) 5 4
  plen := fieldOf (crs cs p) 3 0
  required := decide (2048 ≤ crs cs (p + 1))
  bit := crs cs (p + 1) % 256
  maxLen := crs cs (p + 2)
  conv := crs cs (p + 3) / 256
  recScale := crs cs (p + 3) % 256
  outType := (typeOf (nth cs (p + 4) 0) (nth cs (p + 5) 0)).getD tCode
  tag := tagBytes (packBytes (slice cs (p + 6) 2))

/-- A CHARSET and CONV pair of R156. -/
def convPair (charset conv : Nat) : Bool :=
  match conv with
  | 0 => true
  | 6 => true
  | 2 => charset == 1 || charset == 2
  | _ => charset == 1 || charset == 2 || charset == 3

/-- The kind of output type of a conversion (R156). -/
def convKind (conv : Nat) : Nat :=
  match conv with
  | 0 => 5
  | 1 => 2
  | 2 => 2
  | 3 => 0
  | 4 => 1
  | _ => 4

/-- The largest value of a digit conversion fits its output type, or a BYTES output holds the greatest byte length
(R157). -/
def convFits (r : TField) : Bool :=
  let digits := if r.conv = 2 then r.maxLen - 1 else r.maxLen
  let v := 10 ^ digits - 1
  let t := r.outType
  match r.conv with
  | 0 => decide ((if r.kind = 2 then 24 else unitBytes r.charset r.maxLen) ≤ t.param)
  | 3 => decide (v < 2 ^ (12 * t.n - 1))
  | 4 => decide (v < 2 ^ (12 * t.n))
  | 5 => decide (v < 4096)
  | 6 => true
  | _ => decide ((rescale r.recScale t.param v).natAbs < 1000 ^ t.n)

/-- The depth of a TLV_TAG below its TLV record; 0 where its PARENT is no earlier TLV or constructed TLV_TAG. -/
def tagDepth (fs : List TField) : Nat → Nat → Nat
  | 0, _ => 0
  | n + 1, k =>
    match fs[k]? with
    | none => 0
    | some r =>
      if k ≤ r.bit then 0
      else match fs[r.bit]? with
        | none => 0
        | some p =>
          if p.kind = 3 then 1
          else if p.kind = 4 ∧ (nth p.tag 0 0).getLsbD 5 then
            (match tagDepth fs n r.bit with
              | 0 => 0
              | d => d + 1)
          else 0

/-- PFORM and PLEN of a record (R157). -/
def prefixOk (r : TField) : Bool :=
  if r.kind = 1 ∨ r.kind = 3 then inRange 1 (if r.pform = 3 then 2 else 4) r.plen else r.pform == 0 && r.plen == 0

/-- A BIT is admitted on a record (R157). -/
def bitOk (fs : List TField) (k : Nat) (r : TField) : Bool :=
  if r.kind = 4 then true
  else if r.bit = 0 then !r.required
  else
    let map := fs.findIdx? fun x => x.kind == 2
    let seen := (fs.take k).any fun x => x.kind != 4 && x.bit == r.bit
    r.bit != 1 && r.bit != 65 && r.bit != 129 && decide (r.bit ≤ 192) && !seen &&
      (match map with
        | some m => decide (m < k)
        | none => false)

/-- The checks of a field record at image course `p`, in course order. -/
def fieldChecks (cs : List Course) (fs : List TField) (k p : Nat) : List (Bool × Nat × Nat) :=
  let r := nth fs k (fieldAt cs p)
  let bytes := packBytes (slice cs (p + 6) 2)
  let depth := tagDepth fs 5 k
  let bad := fun (b : Bool) (i : Nat) => (b, 0x0330, p + i)
  [bad (decide (5 ≤ r.kind ∨ 4 ≤ r.charset) || !(prefixOk r) || (r.kind == 3 && r.charset != 0)
      || (r.kind == 2 && (fs.take k).any fun x => x.kind == 2)) 0,
   bad (fieldOf (crs cs (p + 1)) 10 8 != 0 || !(bitOk fs k r)
      || (r.kind == 4 && (depth == 0 || decide (4 < depth)))) 1,
   bad (if r.kind = 2 then r.maxLen != 0 else r.maxLen == 0) 2,
   bad (decide (7 ≤ r.conv) || !(convPair r.charset r.conv) || (r.kind == 2 && r.conv != 0 && r.conv != 6)
      || (if r.conv = 1 ∨ r.conv = 2 then decide (18 < r.recScale) else r.recScale != 0)) 3,
   bad (if r.conv = 6 then crsAt cs (p + 4) 2 != 0
      else (typeOf (nth cs (p + 4) 0) (nth cs (p + 5) 0)).isNone || r.outType.kind != convKind r.conv || !(convFits r)) 4,
   bad (if r.kind = 4 then !(tagOk bytes) else bytes.any (· != 0)) 6]

/-- A template of `n` courses at image course `p` (R152, R157). -/
def parseTemplate (cs : List Course) (p n : Nat) : Load Template := do
  let count := crs cs (p + 1)
  let fs := (List.range count).map fun k => fieldAt cs (p + 10 + 8 * k)
  let outs := fs.filter fun r => r.conv != 6
  let typed := (List.range count).all fun k =>
    (nth fs k (fieldAt cs p)).conv == 6 || (typeOf (nth cs (p + 14 + 8 * k) 0) (nth cs (p + 15 + 8 * k) 0)).isSome
  let bad := fun (b : Bool) (i : Nat) => (b, 0x0330, p + i)
  let courses := crs cs (p + 3)
  checkAll ([bad (crs cs p != 0x7A3) 0, bad (decide (count = 0 ∨ 255 < count ∨ n ≠ 10 + 8 * count)) 1,
    bad (decide (crs cs (p + 2) = 0 ∨ crs cs (p + 2) ≠ outs.length)) 2,
    bad (decide (courses = 0 ∨ 4096 < courses) || (typed && courses != rowSize (outs.map (·.outType)))) 3,
    bad (decide (crsAt cs (p + 4) 2 = 0 ∨ 16383 < crsAt cs (p + 4) 2)) 4, bad (crs cs (p + 6) % 2048 != 0) 6,
    bad (crs cs (p + 7) != 0) 7, bad (crs cs (p + 8) != 0) 8, bad (crs cs (p + 9) != 0) 9] ++
    (List.range count).flatMap fun k => fieldChecks cs fs k (p + 10 + 8 * k))
  return { rowCourses := courses, maxRecord := crsAt cs (p + 4) 2,
           trail := decide (2048 ≤ crs cs (p + 6)), fields := fs }

/-- Template records from a position on (R99). -/
def parseTemplates (cs : List Course) (stop : Nat) : Nat → Nat → Load (List Template × Nat)
  | 0, pos => .ok ([], pos)
  | n + 1, pos => do
    room pos 2 stop
    let len := crsAt cs pos 2
    room (pos + 2) len stop
    checkAll [(decide (len < 10), 0x0330, pos)]
    let t ← parseTemplate cs (pos + 2) len
    let (ts, p) ← parseTemplates cs stop n (pos + 2 + len)
    return (t :: ts, p)

/-! ### KEYSTONE, BOUNDS, FALLBACK -/

/-- Keystone declarations from a position on (R100); `seen` are the LOCALs before. -/
def parseDecls (cs : List Course) (stop : Nat) : Nat → Nat → List Nat → Load (List KsDecl × Nat)
  | 0, pos, _ => .ok ([], pos)
  | n + 1, pos, seen => do
    room pos 8 stop
    let loc := crs cs pos
    let c1 := crs cs (pos + 1)
    let mode := c1 / 1024
    let key := c1 % 16
    checkAll ([(decide (255 < loc) || seen.contains loc, 0x0338, pos),
      (fieldOf c1 9 4 != 0, 0x0305, pos + 1),
      (mode == 3 || key == 0 || decide ((if mode = 2 then 4 else 8) < key), 0x0338, pos + 1),
      (crs cs (pos + 4) % 2048 != 0, 0x0305, pos + 4)] ++ zeroCrs cs (pos + 5) 3)
    let d : KsDecl := { loc := loc, mode := mode, key := key, table := crsAt cs (pos + 2) 2,
                        write := decide (2048 ≤ crs cs (pos + 4)), at_ := pos }
    let (ds, p) ← parseDecls cs stop n (pos + 8) (loc :: seen)
    return (d :: ds, p)

/-- The BOUNDS section of a class (R101). -/
def parseBounds (cs : List Course) (x : Section_) (cls : Nat) : Load Bounds := do
  let p := x.off
  let b : Bounds := { rate := crsAt cs p 3, burst := crsAt cs (p + 3) 2, flowBurst := crs cs (p + 5)
                      stoneCycles := crsAt cs (p + 6) 3, keySearches := crs cs (p + 9), hbmLines := crsAt cs (p + 10) 2
                      quarryBytes := crsAt cs (p + 12) 2, digestBytes := crsAt cs (p + 14) 2
                      ledgerBytes := crsAt cs (p + 16) 2, service := crsAt cs (p + 18) 2 }
  let range := fun (n hi : Nat) => if cls = 0 then decide (n = 0 ∨ hi < n) else n != 0
  checkAll ([(x.len != 24, 0x0308, p), (range b.rate (2 ^ 32 - 1), 0x0340, p), (range b.burst 16777215, 0x0340, p + 3),
    (range b.flowBurst 4095, 0x0340, p + 5), (cls == 2 && b.ledgerBytes != 0, 0x0340, p + 16),
    ((b.service == 0) != (cls == 2), 0x0340, p + 18)] ++ zeroCrs cs (p + 20) 4)
  return b

/-- Copy entries from a position on (R103). -/
def parseCopies (cs : List Course) (stop : Nat) : Nat → Nat → Load (List CopyEntry)
  | 0, pos => do
    checkAll [(pos != stop, 0x0308, pos)]
    return []
  | n + 1, pos => do
    room pos 4 stop
    checkAll [(decide (crs cs (pos + 1) = 0 ∨ 64 < crs cs (pos + 1)), 0x0348, pos + 1), (crs cs (pos + 3) != 0, 0x0305, pos + 3)]
    let es ← parseCopies cs stop n (pos + 4)
    return ⟨crs cs pos, crs cs (pos + 1), crs cs (pos + 2)⟩ :: es

/-- The FALLBACK section (R103). Inner lengths that do not fill its LENGTH are SECTION_LENGTH, as R108 has it of every
section (assumption 97: DESIGN CHOICE). -/
def parseFallback (cs : List Course) (x : Section_) : Load (List Course × List CopyEntry) := do
  let n := crs cs x.off
  let m := crs cs (x.off + 1)
  checkAll [(decide (n % 2 = 1 ∨ n < 2 ∨ 256 < n), 0x0348, x.off), (decide (32 < m), 0x0348, x.off + 1)]
  room (x.off + 2) n (x.off + x.len)
  let es ← parseCopies cs (x.off + x.len) m (x.off + 2 + n)
  return (slice cs (x.off + 2) n, es)

/-- One section into the image, by its type. -/
def parseSection (cs : List Course) (im : Image) (x : Section_) : Load Image :=
  match x.kind with
  | 1 => do
    let (ops, edges) ← parseGraph cs x
    return { im with ops := ops, edges := edges }
  | 2 => do
    let ks ← counted cs x 4095 (parseKernels cs)
    return { im with kernels := ks }
  | 3 => do
    let c ← parseConstants cs x
    return { im with constants := c }
  | 4 => do
    let ts ← counted cs x 64 (parseTemplates cs)
    return { im with templates := ts }
  | 5 => do
    let ds ← counted cs x 256 fun stop n pos => parseDecls cs stop n pos []
    return { im with decls := ds }
  | 6 => do
    let b ← parseBounds cs x im.cls
    return { im with bounds := b }
  | 7 => do
    let (a, es) ← parseFallback cs x
    return { im with fallback := a, copies := es }
  | _ => .ok im

/-- The header's fields of an image, its sections still empty (R87). -/
def headerOf (cs : List Course) : Image where
  cls := crs cs 4 / 1024
  pipelineId := crsAt cs 6 2
  version := crsAt cs 8 2
  deadline := crsAt cs 10 3
  flowSrc := crs cs 13 / 1024
  flowBytes := crs cs 13 % 16
  flowOffset := crsAt cs 14 2
  ops := []
  edges := []
  kernels := []
  constants := []
  templates := []
  decls := []
  bounds := ⟨0, 0, 0, 0, 0, 0, 0, 0, 0, 0⟩
  fallback := []
  copies := []

/-- Sections in directory order. -/
def parseSections (cs : List Course) : Image → List Section_ → Load Image
  | im, [] => .ok im
  | im, x :: t => do
    let im1 ← parseSection cs im x
    parseSections cs im1 t

/-- Stages 1 to 4 of a load (R106). -/
def State.parseImage (s : State) (sl : Nat) (data : List Byte) : Load Image := do
  let cs := unpackBytes data
  checkEnvelope data.length cs
  checkDirectory cs
  s.checkSignature sl cs
  parseSections cs (headerOf cs) (sectionsOf cs)

end Sys2Proof.Machine
end

