-- ==== Sys2Proof/Machine/ImageCheck.lean ====
section
/-! DEFINITION. Stage 5 of a load (04, 05): the cross-checks of R564 in their twelve steps. -/

namespace Sys2Proof.Machine

/-- The course of an operator's record. -/
def Operator.recAt (o : Operator) : Nat := o.at_ - 4

/-- Operators with their numbers. -/
def Image.numbered (im : Image) : List (Nat × Operator) := (List.range im.ops.length).zip im.ops

/-- The course of the first edge record: after the last operator. -/
def Image.edgeBase (im : Image) : Nat := ((im.ops.getLast?).map fun o => o.at_ + o.params.length).getD 0

/-! ### Steps 1 to 3 (R93, R94, R121) -/

/-- The port counts of an operator code (R121, R133). -/
def Operator.portsOk (o : Operator) : Bool :=
  let io := fun (i n : Nat) => o.nin == i && o.nout == n
  match o.code with
  | 0x01 => io 0 1
  | 0x02 => io 0 1
  | 0x04 => inRange 1 8 o.nin && inRange 1 8 o.nout
  | 0x05 => io 1 2
  | 0x0A => o.nout == 1 && inRange 1 2 o.nin && (decide (o.params.length < 4) || (o.par2 2 == 0) == (o.nin == 2))
  | 0x0B => io 2 1
  | 0x12 => inRange 2 8 o.nin && o.nout == 1
  | 0x13 => o.nin == 1 && inRange 2 8 o.nout
  | c => if [0x11, 0x15, 0x16, 0x17, 0x18].contains c then io 1 0 else io 1 1

/-- An edge against the operators and ports it names, at its record. -/
def edgeChecks (im : Image) (p : Nat) (e : Edge) : List (Bool × Nat × Nat) :=
  let outs := ((im.ops[e.src]?).map (·.nout)).getD 0
  let ins := ((im.ops[e.dst]?).map (·.nin)).getD 0
  [(decide (im.ops.length ≤ e.src), 0x0312, p), (decide (outs ≤ e.sport), 0x0312, p + 1),
   (decide (im.ops.length ≤ e.dst), 0x0312, p + 2), (decide (ins ≤ e.dport), 0x0312, p + 3)]

/-- Every input port has exactly one edge. -/
def inputChecks (im : Image) : List (Bool × Nat × Nat) :=
  im.numbered.flatMap fun (k, o) => (List.range o.nin).map fun p =>
    ((im.edges.filter fun e => e.dst == k && e.dport == p).length != 1, 0x0312, o.recAt + 1)

/-! ### Steps 4 to 6 (R90, R94) -/

/-- The graph has an operator of a code. -/
def Image.hasOp (im : Image) (c : Nat) : Bool := im.ops.any fun o => o.code == c

/-- The sections that the graph requires are present; a present one is never empty. -/
def sectionChecks (im : Image) : List (Bool × Nat × Nat) :=
  [(im.hasOp 0x04 && im.kernels.isEmpty, 0x0307, 0), ((im.hasOp 0x05 || im.hasOp 0x06) && im.templates.isEmpty, 0x0307, 0),
   ((im.hasOp 0x07 || im.hasOp 0x08) && im.decls.isEmpty, 0x0307, 0)]

/-- Operators reached from some along edges, forwards or backwards. -/
def reach (im : Image) (fwd : Bool) : Nat → List Nat → List Nat
  | 0, l => l
  | n + 1, l =>
    let next := im.edges.filterMap fun e =>
      let (a, b) := if fwd then (e.src, e.dst) else (e.dst, e.src)
      if l.contains a && !(l.contains b) then some b else none
    if next.isEmpty then l else reach im fwd n (l ++ next.eraseDups)

/-- The numbers of operators with some codes. -/
def Image.opsOf (im : Image) (cs : List Nat) : List Nat := (im.numbered.filter fun x => cs.contains x.2.code).map (·.1)

/-- Every operator is reached from a source and reaches a sink. -/
def reachChecks (im : Image) : List (Bool × Nat × Nat) :=
  let n := im.ops.length
  let down := reach im true n (im.opsOf [0x01, 0x02])
  let up := reach im false n (im.opsOf sinkCodes)
  im.numbered.map fun (k, o) => (!(down.contains k && up.contains k), 0x0314, o.recAt)

/-! ### Step 7: class rules (R95, R121) -/

/-- The codes only B class may use, and those it may not. -/
def bOnly : List Nat := [0x02, 0x09, 0x0B, 0x0C, 0x16]
def notB : List Nat := [0x0F, 0x10, 0x11, 0x15, 0x17]

/-- The first operator of some codes after `skip` of them breaks a rule. -/
def tooMany (im : Image) (cs : List Nat) (skip : Nat) : List (Bool × Nat × Nat) :=
  match (im.opsOf cs).drop skip with
  | k :: _ => [(true, 0x0315, ((im.ops[k]?).map Operator.recAt).getD 0)]
  | [] => []

/-- ITEM_IN's single output edge goes to a DECODE. -/
def itemDecodes (im : Image) : Bool :=
  match im.opsOf [0x01] with
  | [k] => match im.edges.filter fun e => e.src == k with
    | [e] => ((im.ops[e.dst]?).map (·.code)) == some 0x05
    | _ => false
  | _ => false

/-- The class rules in the order of R564 step 7. -/
def classChecks (im : Image) : List (Bool × Nat × Nat) :=
  let gd := im.cls != 2
  let none_ := fun (b : Bool) => (b, 0x0315, 0)
  let itemAt := (((im.opsOf [0x01]).head?).bind fun k => (im.ops[k]?).map Operator.recAt).getD 0
  (if gd then tooMany im [0x01] 1 ++ [(!(itemDecodes im), 0x0315, itemAt)] ++ tooMany im [0x15] 1 ++ [none_ (!(im.hasOp 0x15))] ++
      tooMany im [0x10] 1 ++ tooMany im [0x11] 1 ++ tooMany im [0x17] 1 ++ tooMany im bOnly 0
    else tooMany im [0x15] 0 ++ tooMany im [0x10, 0x11, 0x17] 0 ++ [none_ (!(im.hasOp 0x16) && !(im.hasOp 0x18))]) ++
  (if gd then im.kernels.map fun k => (k.predict, 0x0315, k.at_ + 7) else []) ++
  im.ops.map fun o => ((if gd then bOnly else notB).contains o.code, 0x0315, o.recAt)

/-! ### Step 8: parameters (R112-R148) -/

/-- A check at parameter course `k`: reserved bits, or anything else. -/
structure ParCheck where
  k : Nat
  bad : Bool
  code : Nat

/-- A reserved course or field that must be zero. -/
def parZero (k : Nat) (b : Bool) : ParCheck := ⟨k, b, 0x0305⟩

/-- GRAPH_PARAM. -/
def parBad (k : Nat) (b : Bool) : ParCheck := ⟨k, b, 0x0316⟩

/-- The parameter length of R121. -/
def Operator.parLen (o : Operator) : Nat :=
  match o.code with
  | 0x02 => 6 + evenUp (o.par 4) + 4 * o.par 5
  | 0x03 => 2 + 4 * o.par 0
  | 0x04 => 2 + 2 * o.nout
  | 0x08 => 4
  | 0x09 => 6
  | 0x0A => 10
  | 0x0B => 4
  | 0x0C => 2 + 2 * o.par 0
  | 0x0D => 2 + 2 * o.par 0
  | 0x0E => 2 + evenUp (o.par 0) + 2 * o.par 1
  | 0x0F => 8
  | 0x13 => 2 + 4 * (o.nout - 1)
  | 0x14 => 6 + evenUp (o.par 4)
  | 0x18 => 4
  | _ => 2

/-- A layout reference at course `k`. -/
def refCheck (im : Image) (o : Operator) (k : Nat) : ParCheck :=
  match im.layoutRef (nth o.params k 0) (nth o.params (k + 1) 0) with
  | .error c => ⟨k, true, c⟩
  | .ok _ => ⟨k, false, 0⟩

/-- A constant of `n` values of a type is invalid: it runs beyond CONSTANTS or a DEC value holds a non-limb. -/
def constBad (im : Image) (t : TypeDesc) (off n : Nat) : Bool :=
  decide (im.constants.length < off + n * t.size) ||
    (t.kind == 2 && (List.range n).any fun i => (decOf (slice im.constants (off + i * t.size) t.size)).isNone)

/-- The values of a set ascend strictly under R62. -/
def setAscends (im : Image) (t : TypeDesc) (off n : Nat) : Bool :=
  (List.range (n - 1)).all fun i =>
    match cmpField t (slice im.constants (off + i * t.size) t.size) (slice im.constants (off + (i + 1) * t.size) t.size) with
    | .ok .lt => true
    | _ => false

/-- One predicate term at course `b` over fields `ts` (R119). -/
def termChecks (im : Image) (o : Operator) (ts : List TypeDesc) (b : Nat) : List ParCheck :=
  let c0 := o.par b
  let op := c0 / 256
  let isField := c0 / 64 % 2 == 1
  let lhs := o.par (b + 1)
  let t := nth ts lhs tCode
  let f := o.par (b + 3) % 256
  let off := o.par2 (b + 2)
  let fieldBad := fun (k : Nat) => decide (ts.length ≤ k) || nth ts k tCode != t
  [parZero b (c0 % 64 != 0), parBad b (decide (8 < op) || (isField && (op == 6 || op == 8))),
   parBad (b + 1) (decide (ts.length ≤ lhs)),
   parZero (b + 2) (if op = 6 then off != 0 else if isField then decide (256 ≤ off) else decide (2 ^ 20 ≤ off))] ++
  (if op = 6 then []
   else if isField then [parBad (b + 3) (fieldBad f || (op == 7 && fieldBad (f + 1)))]
   else if op = 8 then
     let n := (nth im.constants off 0).toNat
     [parBad (b + 2) (decide (im.constants.length < off + 2) || n == 0 || constBad im t (off + 2) n || !(setAscends im t (off + 2) n)),
      parZero (b + 2) (nth im.constants (off + 1) 0 != 0)]
   else [parBad (b + 2) (constBad im t off (if op = 7 then 2 else 1))])

/-- `n` terms from course `b`. -/
def termsChecks (im : Image) (o : Operator) (ts : List TypeDesc) (b n : Nat) : List ParCheck :=
  (List.range n).flatMap fun i => termChecks im o ts (b + 4 * i)

/-- The slice's table of an identifier. -/
def State.tableOf (s : State) (sl id : Nat) : Option Table := s.tables.find? fun t => t.slice == sl && t.id == id

/-- A loaded context of the slice names a state space under another flow key (R142). -/
def State.spaceClash (s : State) (sl : Nat) (im : Image) (space : Nat) : Bool :=
  s.ctxs.any fun c => c.slice == sl && !(c.image.sameKey im) &&
    c.image.ops.any fun o => (o.code == 0x10 || o.code == 0x11) && o.par 1 == space

/-- The key fields of a Keystone operator: consecutive fields whose sizes sum exactly to the KEY length (R130). -/
def keyRunOk (ts : List TypeDesc) (first need : Nat) : Bool :=
  let ks := keyRun ts 9 first need
  decide (first + ks.length ≤ ts.length) && sumNat (ks.map fun k => (nth ts k tCode).size) == need

/-- The hash table of an identifier, as published. -/
def State.hashOf (s : State) (sl id : Nat) : Option HashTab := s.hashTables.find? fun t => t.slice == sl && t.id == id

/-- `n` fields from `first` lie in a layout. -/
def fieldsIn (ts : List TypeDesc) (first n : Nat) : Bool := decide (first + n ≤ ts.length)

/-- The parameter checks of an operator, in no order; `ts` are the fields of its inputs. -/
def State.parChecks (s : State) (sl : Nat) (im : Image) (k : Nat) (o : Operator) : List ParCheck :=
  let gd := im.cls != 2
  let t0 := ((im.inLayout k 0).map Layout.types).getD []
  let t1 := ((im.inLayout k 1).map Layout.types).getD []
  let has := fun (ts : List TypeDesc) (i : Nat) => fieldsIn ts i 1
  let kindOf := fun (i : Nat) => (nth t0 i tCode).kind
  match o.code with
  | 0x01 => [parZero 0 (o.par 0 % 1024 != 0), parBad 0 (decide (2 ≤ o.par 0 / 1024) || (gd && o.par 0 / 1024 != 0)), parZero 1 (o.par 1 != 0)]
  | 0x02 =>
    let ncol := o.par 4
    let tb := s.tableOf sl (o.par2 0)
    let cols := (tb.map (·.cols)).getD []
    let out := (im.layoutRef (nth o.params 2 0) (nth o.params 3 0)).toOption
    [parBad 0 tb.isNone, refCheck im o 2, parBad 4 (decide (ncol = 0 ∨ 255 < ncol)), parBad 5 (decide (16 < o.par 5))] ++
      ((List.range ncol).map fun i => parBad (6 + i) (decide (cols.length ≤ o.par (6 + i)))) ++
      [parZero (6 + ncol) (ncol % 2 == 1 && o.par (6 + ncol) != 0)] ++
      termsChecks im o ((out.map Layout.types).getD []) (6 + evenUp ncol) (o.par 5)
  | 0x03 => [parBad 0 (decide (o.par 0 = 0 ∨ 16 < o.par 0)), parZero 1 (o.par 1 != 0)] ++ termsChecks im o t0 2 (o.par 0)
  | 0x04 => [⟨0, decide (im.kernels.length ≤ o.par 0), 0x0324⟩, parZero 1 (o.par 1 != 0)] ++
      (List.range o.nout).map fun p => refCheck im o (2 + 2 * p)
  | 0x05 => [⟨0, decide (im.templates.length ≤ o.par 0), 0x0331⟩,
      parBad 1 (o.par 1 != 0xFFF && (!(has t0 (o.par 1)) || kindOf (o.par 1) != 5))]
  | 0x06 => [⟨0, decide (im.templates.length ≤ o.par 0), 0x0331⟩, parZero 1 (o.par 1 != 0)]
  | 0x09 => [parBad 0 (!(fieldsIn t0 (o.par 0) (o.par 1))), parBad 1 (decide (o.par 1 = 0 ∨ 8 < o.par 1)),
      parBad 4 (decide (o.par 4 = 0 ∨ 8 < o.par 4)), parZero 5 (o.par 5 != 0)]
  | 0x0A =>
    let id := o.par2 2
    let now := s.hashOf sl id
    let build := im.buildOf k
    let declared : Bool := match im.layoutRef (nth o.params 8 0) (nth o.params 9 0) with
      | .ok (.fields _) => true
      | _ => false
    let older : Bool := match now with
      | some h => decide (o.par 6 < h.chain)
      | none => false
    [parBad 0 (!(fieldsIn t0 (o.par 0) (o.par 1))), parBad 1 (decide (o.par 1 = 0 ∨ 8 < o.par 1)), parBad 2 (gd && id == 0),
      parBad 4 (decide (4 ≤ o.par 4)), parBad 5 (o.par 5 == 0), parBad 6 (decide (o.par 6 = 0 ∨ 8 < o.par 6) || (id != 0 && older))] ++
      (if id = 0 then [parZero 7 (o.par 7 != 0), parZero 8 (o.par 8 != 0), parZero 9 (o.par 9 != 0)]
       else [parBad 7 (declared && !(fieldsIn build.1 (o.par 7) (o.par 1))), refCheck im o 8, parBad 8 (o.par 8 / 256 == 2)])
  | 0x0B => [parBad 0 (!(fieldsIn t0 (o.par 0) (o.par 2))), parBad 1 (!(fieldsIn t1 (o.par 1) (o.par 2))),
      parBad 2 (decide (o.par 2 = 0 ∨ 8 < o.par 2)), parBad 3 (decide (3 ≤ o.par 3))]
  | 0x0E =>
    let nk := o.par 0
    let at_ := 2 + evenUp nk
    [parBad 0 (decide (8 < nk)), parBad 1 (decide (o.par 1 = 0 ∨ 32 < o.par 1)), parZero (2 + nk) (nk % 2 == 1 && o.par (2 + nk) != 0)] ++
      ((List.range nk).map fun i => parBad (2 + i) (!(has t0 (o.par (2 + i))))) ++
      (List.range (o.par 1)).flatMap fun i =>
        let a := at_ + 2 * i
        let fn := o.par a / 256
        let f := o.par (a + 1)
        [parZero a (o.par a % 256 != 0), parBad a (decide (7 ≤ fn)),
         parBad (a + 1) (if fn = 0 then f != 0 else !(has t0 f) || (fn == 2 && decide (4 ≤ kindOf f)))]
  | 0x0F =>
    let w := crsNat (o.params.take 3)
    let nb := o.par 3
    [parBad 0 (im.flowSrc == 0 || decide (w = 0 ∨ 2 ^ 32 < w) || (decide (1 ≤ nb ∧ nb ≤ 64) && w % nb != 0)), parBad 3 (decide (nb = 0 ∨ 64 < nb)),
     parBad 4 (decide (2 ≤ o.par 4)),
     parBad 5 (if o.par 4 = 0 then o.par 5 != 0 else !(has t0 (o.par 5)) || decide (3 ≤ kindOf (o.par 5))), parZero 7 (o.par 7 != 0)]
  | 0x12 => [parZero 0 (o.par 0 != 0), parZero 1 (o.par 1 != 0)]
  | 0x13 => [parZero 0 (o.par 0 != 0), parZero 1 (o.par 1 != 0)] ++ termsChecks im o t0 2 (o.nout - 1)
  | 0x14 =>
    let alg := o.par 0 / 256
    let verify := o.par 0 / 128 % 2 == 1
    let nf := o.par 4
    [parZero 0 (o.par 0 % 128 != 0), parBad 0 (decide (10 ≤ alg)), parBad 1 ((o.par 1 == 0xFFF) != decide (alg ≤ 4)),
     parBad 2 (!(tagLenOk alg (o.par 2))),
     parBad 3 (if verify then !(has t0 (o.par 3)) || kindOf (o.par 3) != 5 else o.par 3 != 0),
     parBad 4 (decide (nf = 0 ∨ 16 < nf)), parZero 5 (o.par 5 != 0), parZero (6 + nf) (nf % 2 == 1 && o.par (6 + nf) != 0)] ++
      (List.range nf).map fun i => parBad (6 + i) (!(has t0 (o.par (6 + i))))
  | 0x15 => [parZero 1 (o.par 1 != 0)]
  | 0x16 => [parZero 1 (o.par 1 != 0)]
  | 0x17 => [parBad 0 (decide (o.par 0 % 2 = 1 ∨ o.par 0 < 2 ∨ 64 < o.par 0) || decide (o.par 0 < rowSize t0)), parZero 1 (o.par 1 != 0)]
  | 0x18 => [parBad 0 (s.tableOf sl (o.par2 0)).isNone, parZero 2 (o.par 2 != 0), parZero 3 (o.par 3 != 0)]
  | c =>
    if c = 0x07 ∨ c = 0x08 then
      let d := im.decls.find? fun d => d.loc == o.par 0
      [parBad 0 d.isNone, parBad 1 (!(keyRunOk t0 (o.par 1) ((d.map (·.key)).getD 0)))] ++
        (if c = 0x08 then [parBad 2 (decide (2 ≤ o.par 2)), parZero 3 (o.par 3 != 0)] else [])
    else if c = 0x0C ∨ c = 0x0D then
      [parBad 0 (decide (o.par 0 = 0 ∨ 8 < o.par 0)), (if c = 0x0C then parZero 1 (o.par 1 != 0) else parBad 1 (o.par 1 == 0))] ++
        (List.range (o.par 0)).flatMap fun i =>
          [parBad (2 + 2 * i) (!(has t0 (o.par (2 + 2 * i)))), parZero (3 + 2 * i) (o.par (3 + 2 * i) % 1024 != 0)]
    else
      let twin := im.ops.filter fun x => (x.code == 0x10 || x.code == 0x11) && x.code != o.code
      [parBad 0 (decide (o.par 0 = 0 ∨ 4 < o.par 0) || twin.any fun x => x.par 0 != o.par 0),
       parBad 1 ((twin.any fun x => x.par 1 != o.par 1) || s.spaceClash sl im (o.par 1))]

/-- The first failing parameter check in course order, reserved bits first at a course; the length comes before all. -/
def State.parFail (s : State) (sl : Nat) (im : Image) (k : Nat) (o : Operator) : Option (Nat × Nat) :=
  if o.params.length ≠ o.parLen then some (0x0316, o.recAt + 2)
  else
    let bad := (s.parChecks sl im k o).filter (·.bad)
    let key := fun (c : ParCheck) => 2 * c.k + (if c.code = 0x0305 then 0 else 1)
    ((sortBy (fun a b => decide (key a < key b)) bad).head?).map fun c => (c.code, o.at_ + c.k)

/-- The layouts an operator accepts and derives (GRAPH_TYPE, R114, R110). -/
def State.typeFail (s : State) (sl : Nat) (im : Image) (k : Nat) (o : Operator) : Bool :=
  let l0 := im.inLayout k 0
  let t0 := (l0.map Layout.types).getD []
  let build := im.buildOf k
  let keys := fun (ts : List TypeDesc) (first n : Nat) => (ts.drop first).take n
  let tooWide : Bool := match im.outLayout k 0 with
    | some (.fields ts) => decide (255 < ts.length ∨ 4096 < rowSize ts)
    | _ => false
  match o.code with
  | 0x02 => (im.layoutRef (nth o.params 2 0) (nth o.params 3 0)).toOption != (s.tableOf sl (o.par2 0)).map fun t =>
      Layout.fields ((o.pars 6 (o.par 4)).map fun c => nth t.cols c tCode)
  | 0x05 => o.par 1 == 0xFFF && l0 != some (.fixed 0 0)
  | 0x06 => l0 != (im.templates[o.par 0]?).map fun t => Layout.fields t.types
  | 0x0A =>
    let feeder := (im.edges.find? fun e => e.dst == k && e.dport == 1).bind fun e => im.ops[e.src]?
    let now : Bool := match s.hashOf sl (o.par2 2) with
      | some h => h.layout != build.1 || h.keyField != o.par 7 || h.keyCount != o.par 1
      | none => false
    let source : Bool := if o.par2 2 = 0 then
        (match feeder with
          | some b => b.code != 0x09 || b.par 1 != o.par 1
          | none => true)
      else now
    source || keys t0 (o.par 0) (o.par 1) != keys build.1 build.2 (o.par 1) || tooWide
  | 0x0B =>
    let t1 := ((im.inLayout k 1).map Layout.types).getD []
    keys t0 (o.par 0) (o.par 2) != keys t1 (o.par 1) (o.par 2) || tooWide
  | 0x11 => l0 != some (.fixed 4 (o.par 0))
  | 0x12 => (List.range o.nin).any fun p => im.inLayout k p != l0
  | 0x15 => l0 != some (.fixed 6 0) && (o.par 0 % 2 == 1 || l0 != some (.fixed 2 (o.par 0 / 2)))
  | 0x18 => l0 != (s.tableOf sl (o.par2 0)).map fun t => Layout.fields t.cols
  | c => [0x08, 0x0E, 0x0F, 0x14].contains c && tooWide

/-- Step 8 over the operators in topological order; a failing layout is reported at the operator's parameters
(assumption 31: DEDUCED). -/
def State.opsFail (s : State) (sl : Nat) (im : Image) : List Nat → Load Unit
  | [] => .ok ()
  | k :: t =>
    match im.ops[k]? with
    | none => s.opsFail sl im t
    | some o =>
      match s.parFail sl im k o with
      | some e => .error e
      | none => if s.typeFail sl im k o then .error (0x0317, o.at_) else s.opsFail sl im t

/-! ### Steps 9 to 12 (R97, R100, R102, R103) -/

/-- Kernels word by word. -/
def kernelFail (im : Image) : Load Unit :=
  checkAll (im.kernels.flatMap fun k => ((List.range k.code.length).zip k.code).map fun (i, w) =>
    let c := checkWord k.code.length (k.scratch * 128) i w
    (c != 0, c, k.at_ + 8 + 3 * i))

/-- Keystone declarations against the slice's tables. -/
def State.declFail (s : State) (sl : Nat) (im : Image) : Load Unit :=
  checkAll (im.decls.flatMap fun d =>
    match s.ksTab sl d.table with
    | none => [(true, 0x0339, d.at_ + 2)]
    | some t => [(t.mode != d.mode || t.key != d.key, 0x033A, d.at_ + 1)])

/-- Declared bounds against the rest of the image (R102), at courses of the BOUNDS section. -/
def boundsFail (im : Image) (p : Nat) : Load Unit :=
  let b := im.bounds
  let maps := im.ops.filter fun o => o.code == 0x04
  let cyc := sumNat (maps.map fun o => ((im.kernels[o.par 0]?).map (·.cycleBound)).getD 0)
  let keys := (im.ops.filter fun o => o.code == 0x07 || o.code == 0x08).length
  let ext := sumNat ((im.ops.filter fun o => o.code == 0x17).map fun o => o.par 0)
  let gd := im.cls != 2
  checkAll [(decide (b.stoneCycles < cyc), 0x0341, p + 6), (decide (b.keySearches < keys), 0x0341, p + 9),
    (gd && decide (b.service < ceilDiv b.stoneCycles 80), 0x0341, p + 18), (gd && decide (im.deadline < b.service), 0x0341, p + 18),
    (gd && decide (b.ledgerBytes < 128 + ceilDiv (3 * ext) 2), 0x0341, p + 16)]

/-- The item row's template: that of the DECODE that ITEM_IN feeds (R95). -/
def Image.itemTemplate (im : Image) : Option Template := do
  let k ← (im.opsOf [0x01]).head?
  let e ← im.edges.find? fun e => e.src == k
  let o ← im.ops[e.dst]?
  im.templates[o.par 0]?

/-- The fallback record against the graph (R103), at courses of the FALLBACK section. -/
def fallbackFail (im : Image) (p : Nat) : Load Unit :=
  if im.cls = 2 then .ok ()
  else
    let n := im.fallback.length
    let row := ((im.itemTemplate).map (·.rowCourses)).getD 0
    let verdict := ((im.ops.find? fun o => o.code == 0x15).map fun o => o.par 0).getD 0
    let clash := fun (i : Nat) (e : CopyEntry) => (List.range im.copies.length).any fun j =>
      match im.copies[j]? with
      | some f => i != j && decide (e.dst < f.dst + f.len ∧ f.dst < e.dst + e.len)
      | none => false
    checkAll ((verdict != n, 0x034A, p) :: ((List.range im.copies.length).zip im.copies).map fun (i, e) =>
      (decide (row < e.src + e.len ∨ n < e.dst + e.len) || clash i e, 0x0349,
        p + 2 + n + 4 * i + if row < e.src + e.len then 0 else 2))

/-- Stage 5 (R564). `ss` is the directory. -/
def State.crossCheck (s : State) (sl : Nat) (im : Image) (ss : List Section_) : Load Unit := do
  let off := fun (k : Nat) => ((ss.find? fun x => x.kind == k).map (·.off)).getD 0
  checkAll (im.ops.map fun o => (decide (o.code = 0 ∨ 0x18 < o.code), 0x0310, o.recAt))
  checkAll (im.ops.map fun o => (!o.portsOk, 0x0311, o.recAt + 1))
  checkAll (((List.range im.edges.length).zip im.edges).flatMap fun (i, e) => edgeChecks im (im.edgeBase + 4 * i) e)
  checkAll (inputChecks im)
  checkAll (sectionChecks im)
  checkAll [(im.topo.length != im.ops.length, 0x0313, 0)]
  checkAll (reachChecks im)
  checkAll (classChecks im)
  s.opsFail sl im im.topo
  kernelFail im
  s.declFail sl im
  boundsFail im (off 6)
  fallbackFail im (off 7)

end Sys2Proof.Machine
end

