-- ==== Sys2Proof/Machine/Load.lean ====
section
/-! DEFINITION. The commands that load and unload a pipeline (R83, R106, R107), run a context (R116, R461) and create
and drop tables (R462). -/

namespace Sys2Proof.Machine

/-! ### PIPELINE_LOAD -/

/-- The lowest context number that names no loaded context (assumption 16: DESIGN CHOICE). -/
def State.freeContext (s : State) : Option Nat := (List.range 4096).find? fun n => (s.ctxOf n).isNone

/-- A new context of an image: its bucket is full (R35), a D- or B-class context is loaded at once (R83). -/
def newContext (num sl : Nat) (im : Image) : Context where
  num := num
  slice := sl
  image := im
  cls := im.cls
  state := 0
  overflow := false
  dAdm := 0
  w := 0
  g := 0
  credits := im.bounds.burst * oneToken
  order := 0
  nItems := 0
  nFallbacks := 0
  nDemoted := 0
  nMatchesDropped := 0
  nCaps := 0

/-- Ledger bytes a second of the G contexts of a slice (R408). -/
def State.ledgerLoad (s : State) (sl : Nat) : Nat :=
  rateSum (s.ctxs.filter fun c => c.cls == 0 && c.slice == sl) (·.ledger)

/-- The courses by which bound data grows when an image is loaded: hash tables it is the first to bind count twice from
then on (R194, R302). -/
def State.newlyBound (s : State) (sl : Nat) (im : Image) : Nat :=
  sumNat ((s.hashTables.filter fun t => t.slice == sl && im.bindsHash t.id && !(s.hashBound t)).map HashTab.courses) +
  2 * sumNat ((s.ks.tables.filter fun t => t.slice == sl && im.bindsKs t.id && !(s.ksDeclared t)).map KsTab.shadowCourses)

/-- The bound entries a bay holds take what an image of G or D class binds (R323). -/
def State.boundFits (s : State) (sl : Nat) (im : Image) : Bool :=
  im.cls == 2 || decide (s.boundEntriesBut (some sl) + boundPages (s.boundOnce sl + imageCourses im +
    sumNat ((s.hashTables.filter fun t => t.slice == sl && im.bindsHash t.id && !(s.hashBound t)).map HashTab.courses) +
    sumNat ((s.ks.tables.filter fun t => t.slice == sl && im.bindsKs t.id && !(s.ksDeclared t)).map KsTab.shadowCourses)) ≤ 8192)

/-- The slice's allotments hold the context (R106 stage 6, R408): memory, bound entries (R323), unreserved Mortar entries for one item or batch
of D or B class, an answer-table entry, and the ledger rate of G class, whose reservations are stage 7's (R174, R188). -/
def State.quotaFits (s : State) (sl : Nat) (im : Image) : Bool :=
  let allot := fun (k : Nat) => s.objNum (0x4000 + sl) k [] 0 0
  s.hbmFits sl (contextCourses im + s.newlyBound sl im) && s.boundFits sl im && (im.cls == 0 || decide (im.mEntries ≤ allot 14)) &&
    (im.cls == 2 || decide (0 < allot 15)) &&
    (im.cls != 0 || decide (s.ledgerLoad sl + im.bounds.rate * im.bounds.ledgerBytes ≤ allot 17))

/-- A table a G or D context names: a SCAN, an append or a probe names a table by the first parameters (R462). -/
def Image.names (im : Image) (id : Nat) : Bool :=
  im.cls != 2 && im.ops.any fun o => (o.code == 0x02 || o.code == 0x18) && o.par2 0 == id

/-- A load that binds a factor-1 table raises it to 2 (R196). -/
def State.raiseFactors (s : State) (sl : Nat) (im : Image) : State :=
  if s.group.grouped then
    { s with tables := mapIf (fun t => t.slice == sl && im.names t.id) (fun t => { t with factor := 2 }) s.tables }
  else s

/-- Stages 6 and 7: the state with the context, or the status and detail that refuse it (R106, R46, R192). -/
def State.place (s : State) (sl : Nat) (im : Image) : Except (Nat × Nat) (State × Nat) :=
  match s.freeContext with
  | none => .error (0x0360, 0)
  | some n =>
    if !(s.quotaFits sl im) then .error (0x0361, 0)
    else if im.cls ≠ 0 then
      .ok (({ s with ctxs := s.ctxs ++ [newContext n sl im] } : State).raiseFactors sl im, n)
    else if s.therm.floor then .error (0x0405, 0)
    else match s.admitCtx (newContext n sl im) with
      | .error t => .error (0x0362, t.code + t.ctx * 4096)
      | .ok t => if s.groupVerdict = 0 then .ok (t.raiseFactors sl im, n) else .error (0x0362, s.groupVerdict)

/-- All stages of a load (R106): the load is atomic (R107). -/
def State.loadImage (s : State) (sl : Nat) (data : List Byte) : Except (Nat × Nat) (State × Nat) := do
  let im ← s.parseImage sl data
  s.crossCheck sl im (sectionsOf (unpackBytes data))
  s.place sl im

/-- PIPELINE_LOAD (R106, R107): the detail is the context number, or the course offset of the failing course. -/
def execPipelineLoad (h : CmdHdr) (image : List Byte) (s : State) : Out :=
  .next <| s.managed (.pipelineLoad h image) h 0x0020 tenantRole fun t b =>
    match t.loadImage b.slice image with
    | .error (code, detail) => t.verdictSpent.finish b.slice h code detail []
    | .ok (u, n) => u.verdictSpent.finish b.slice h 0 n []

/-! ### PIPELINE_UNLOAD and CONTEXT_RUN -/

/-- A loaded context of the slice that is not being unloaded. -/
def State.ownCtx (s : State) (sl n : Nat) : Option Context := (s.ctxOf n).filter fun c => c.slice == sl && c.state != 3

/-- PIPELINE_UNLOAD (R83, R453): no new item is accepted; it completes when every accepted item has retired and every
run has ended. -/
def execPipelineUnload (h : CmdHdr) (ctx : Nat) (s : State) : Out :=
  .next <| s.managed (.pipelineUnload h ctx) h 0x0021 tenantRole fun t b =>
    match t.ownCtx b.slice ctx with
    | none => t.fail b.slice h 0x010E
    | some _ => ((t.wait (.unload h b.slice ctx)).updCtx ctx fun c => { c with state := 3 }).settleUnloads

/-- The RESULT_OUT operators of an image, with their queues (R146). -/
def Image.resultOuts (im : Image) : List (Nat × Nat) :=
  (im.numbered.filter fun x => x.2.code == 0x16).map fun x => (x.1, x.2.par 0)

/-- A new run: the tables and hash tables of the slice as they stand (R125, R133). -/
def State.newRun (s : State) (sl : Nat) (c : Context) (batches : List (List Byte)) : Run where
  num := s.nextRun
  slice := sl
  gen := s.genOf sl
  ctx := c.num
  start := s.now
  batches := batches
  work := workEmpty
  scans := s.tables.filter fun t => t.slice == sl
  probes := s.hashTables.filter fun t => t.slice == sl
  scanAt := []
  appends := []
  publishes := []
  granted := []
  results := c.image.resultOuts.map (·.1)
  outSeq := 0
  outRows := 0
  status := none
  finished := false

/-- The batch descriptors of the data (R457): 18 bytes each. -/
def batchesOf (n : Nat) (data : List Byte) : List (List Byte) := (List.range n).map fun k => slice data (18 * k) 18

/-- CONTEXT_RUN (R116, R453, R461): the run starts, and the command completes when it ends, with the run number. -/
def execContextRun (h : CmdHdr) (ctx batchCount : Nat) (data : List Byte) (s : State) : Out :=
  .next <| s.command (.contextRun h ctx batchCount data) h 0x0022 tenantRole fun t b =>
    match (t.ownCtx b.slice ctx).filter fun c => c.image.cls == 2 with
    | none => t.fail b.slice h 0x010E
    | some c =>
      let rq := fun (q : Nat) => t.host.queues.any fun x => x.slice == b.slice && x.qid == q && x.kind == 4
      if data.length ≠ 18 * batchCount then t.fail b.slice h 0x010F
      else if !(c.image.resultOuts.all fun x => rq x.2) then t.fail b.slice h 0x0106
      else
        let r := t.newRun b.slice c (batchesOf batchCount data)
        ({ t with runs := t.runs ++ [r], nextRun := t.nextRun + 1 } : State).wait (.run h b.slice r.num)

/-! ### Tables (R462) -/

/-- The type descriptors of a table's columns, two courses each. -/
def columnTypes (n : Nat) (types : List Byte) : Option (List TypeDesc) :=
  if types.length = 3 * n then typesFrom n (unpackBytes types) else none

/-- TABLE_CREATE (R462, R460): an empty table. -/
def execTableCreate (h : CmdHdr) (table columns factor : Nat) (types : List Byte) (s : State) : Out :=
  .next <| s.managed (.tableCreate h table columns factor types) h 0x0023 tenantRole fun t b =>
    if columns = 0 ∨ 255 < columns ∨ factor = 0 ∨ 2 < factor then t.fail b.slice h 0x010F
    else if (t.tableOf b.slice table).isSome then t.fail b.slice h 0x0110
    else match columnTypes columns types with
      | none => t.fail b.slice h 0x010F
      | some ts =>
        let tb : Table := { slice := b.slice, id := table, cols := ts, factor := factor,
                            columns := ts.map fun _ => [], pin := 0, pinOrder := 0 }
        ({ t with tables := t.tables ++ [tb] } : State).done b.slice h

/-- A graph scans a table or appends to it. -/
def Image.touches (im : Image) (id : Nat) : Bool := im.ops.any fun o => (o.code == 0x02 || o.code == 0x18) && o.par2 0 == id

/-- A table goes; the runs that read it or append to it end with TABLE_CHANGED (R125, R148, R462). -/
def State.dropTable (s : State) (sl id : Nat) : State :=
  let s1 : State := { s with tables := s.tables.filter fun x => !(x.slice == sl && x.id == id) }
  let rs := s1.runs.filter fun r => r.slice == sl && ((s1.ctxOf r.ctx).map fun c => c.image.touches id).getD false
  rs.foldl (fun (t : State) r => t.workError (.run r.num) 0x038C 0) s1

/-- TABLE_DROP (R462): refused while a loaded G or D context names the table. -/
def execTableDrop (h : CmdHdr) (table : Nat) (s : State) : Out :=
  .next <| s.managed (.tableDrop h table) h 0x0024 tenantRole fun t b =>
    if (t.tableOf b.slice table).isNone then t.fail b.slice h 0x0111
    else if t.ctxs.any fun c => c.slice == b.slice && c.image.names table then t.fail b.slice h 0x0112
    else (t.dropTable b.slice table).done b.slice h

end Sys2Proof.Machine
end

