-- ==== Sys2Proof/Machine/Mason.lean ====
section
/-! DEFINITION. Placement (07): bucket moves (R180-R182), the heat and the tiers of ashlars (R193-R195), and the migration
of mapped frames (R197). -/

namespace Sys2Proof.Machine

/-! ### Bucket moves (R181) -/

/-- The items of a bucket that hold a place in their flow. -/
def State.bucketItems (s : State) (k : Nat) : List Item := s.items.filter fun i => i.inFlow && flowBucket i.flowKey == k

/-- A load move of a bucket may start: every context with items in it has L at most 192 ticks, and no G item of it has
been through a move or a replay (R181, R182). -/
def State.bucketMovable (s : State) (k : Nat) : Bool :=
  let mirror := (s.admEnv s.floorRate).mirror
  (s.bucketItems k).all fun i =>
    (s.ctxOf i.ctx).all (fun c => decide (c.lockHold mirror ≤ 192)) && !(i.cls == 0 && (i.moved || decide (0 < i.replays)))

/-- BUCKET_LOAD_MOVE (R181): the loads are percent of a bay's capacity over the last 2,500 ticks. Items of a moving bucket
do not leave their queues. -/
def execBucketLoadMove (bucket dst srcLoad dstLoad : Nat) (s : State) : Out :=
  .next <|
    let src := s.bucketHome bucket
    let uMax := s.objNum 0x3400 1 [] 0 80
    let busy := fun (b : Nat) => s.mason.moves.any fun m => m.2.1 == b || s.bucketHome m.1 == b
    if 4096 ≤ bucket ∨ src = dst ∨ !(s.mason.warm.contains src) ∨ !(s.mason.warm.contains dst) ∨ !(s.bayLive dst)
        ∨ srcLoad ≤ uMax ∨ uMax ≤ dstLoad ∨ busy src ∨ busy dst ∨ !(s.bucketMovable bucket) then s
    else { s with mason := { s.mason with moves := s.mason.moves ++ [(bucket, dst, s.now)] } }

/-- A bucket has a new home: its map entry is rewritten, and its queued items follow in their order (R180). -/
def State.rehome (s : State) (bucket dst : Nat) : State :=
  let s1 : State := { s with
    mason := { s.mason with
      buckets := tset bucket dst s.mason.buckets
      moves := s.mason.moves.filter fun m => m.1 != bucket }
    items := mapIf (fun i => i.stage == .queued && flowBucket i.flowKey == bucket)
      (fun i => { i with bay := dst, moved := true }) s.items }
  s1.bump 0x3400 7 [] 0

/-- BUCKET_MOVE_HANDOVER (R181): no item of the bucket is in service any more. -/
def execBucketMoveHandover (bucket : Nat) (s : State) : Out :=
  .next <|
    match s.mason.moves.find? fun m => m.1 == bucket with
    | none => s
    | some m => if (s.bucketItems bucket).any fun i => i.stage == .inService then s else s.rehome bucket m.2.1

/-- The bay that takes a bucket of a lost bay: one of those that remain (assumption 9: DESIGN CHOICE). -/
def bayFor (bays : List Nat) (bucket dflt : Nat) : Nat := if bays.isEmpty then dflt else nth bays (bucket % bays.length) dflt

/-- Rehome every bucket of a lost bay on the remaining warm bays; a load move it takes part in ends (R182). -/
def State.rehomeAll (s : State) (bay : Nat) : State :=
  let homes := (List.range 4096).filter fun k => s.bucketHome k == bay
  let warm := s.mason.warm.filter fun b => b != bay
  let bays := if warm.isEmpty then s.liveBays.filter fun b => b != bay else warm
  let s1 : State := { s with mason := { s.mason with moves := s.mason.moves.filter fun m => m.2.1 != bay && s.bucketHome m.1 != bay } }
  homes.foldl (fun (t : State) k => t.rehome k (bayFor bays k bay)) s1

/-! ### Occupancy of HBM (R193-R195) -/

/-- Usable courses of HBM, after fenced pseudo-channels (R310). -/
def State.hbmCapacity (s : State) : Nat := hbmSize / 192 * (192 - s.memx.pch.length)

/-- Courses of HBM in use. -/
def State.hbmInUse (s : State) : Nat := sumNat (s.slices.map fun e => s.hbmUsed e.1)

/-- Percent thresholds of R193 over the capacity. -/
def State.hbmMark (s : State) (sub d : Nat) : Nat := s.hbmCapacity * s.objNum 0x3801 sub [] 0 d / 100
def State.hbmHigh (s : State) : Nat := s.hbmMark 3 90
def State.hbmLow (s : State) : Nat := s.hbmMark 4 85

/-- Courses of a table's ashlars in a tier of memory. -/
def Table.coursesIn (t : Table) (tier : Nat) : Nat :=
  sumNat (t.columns.flatMap fun c => (c.filter fun a => a.tier == tier).map Ashlar.room)

/-- Courses of a table. -/
def Table.size (t : Table) : Nat := sumNat (t.columns.flatMap fun c => c.map Ashlar.room)

/-- Bound data: HBM in use that is not of tables (R194). -/
def State.boundInUse (s : State) : Nat := s.hbmInUse - sumNat (s.tables.map fun t => t.coursesIn 0)

/-- The pinned tables in the order of their requests. -/
def State.pinned (s : State) : List Table :=
  sortBy (fun a b => decide (a.pinOrder < b.pinOrder)) (s.tables.filter fun t => t.pin != 0)

/-- The tables whose pins are honoured: in order, while bound data and they stay within HBM_HIGH (R195). -/
def State.honoured (s : State) : List (Nat × Nat) :=
  (s.pinned.foldl (fun (acc : List (Nat × Nat) × Nat) t =>
    if acc.2 + t.size ≤ s.hbmHigh then (acc.1 ++ [(t.slice, t.id)], acc.2 + t.size) else acc) ([], s.boundInUse)).1

/-- PIN_STATE of a table (R198). -/
def State.pinState (s : State) (t : Table) : Nat := if t.pin = 0 then 0 else if s.honoured.contains (t.slice, t.id) then 1 else 2

/-- Pin or unpin a table (R195). -/
def State.pinTable (s : State) (sl id : Nat) (on : Bool) : State :=
  let next := ((s.tables.map (·.pinOrder)).foldl max 0) + 1
  let set := fun (t : Table) =>
    if !on then { t with pin := 0, pinOrder := 0 } else if t.pin = 0 then { t with pin := 1, pinOrder := next } else t
  { s with tables := mapIf (fun t => t.slice == sl && t.id == id) set s.tables }

/-! ### Heat and tiers (R193) -/

/-- Change every ashlar. -/
def State.mapAshlars (s : State) (f : Ashlar → Ashlar) : State :=
  { s with tables := s.tables.map fun t => { t with columns := t.columns.map fun c => c.map f } }

/-- One halving of a heat counter; an ashlar of the warm tier whose heat is 0 has been cold for one more period. -/
def Ashlar.cool (a : Ashlar) : Ashlar :=
  { a with heat := a.heat / 2, coldPeriods := if a.heat = 0 ∧ a.tier = 1 then a.coldPeriods + 1 else 0 }

/-- HEAT_PERIOD_HALVING (R193). -/
def execHeatPeriodHalving (s : State) : Out :=
  .next <|
    if s.now < s.mason.heatAt + s.objNum 0x3801 1 [] 0 25000000 then s
    else ({ s with mason := { s.mason with heatAt := s.now } } : State).mapAshlars Ashlar.cool

/-- The courses an ashlar takes in the store, Sett-compressed with no transform (R193; assumption 83: DESIGN CHOICE). -/
def Ashlar.storeRoom (a : Ashlar) : Nat := (settPackAll 0 0 65536 (a.courses.length + 1) a.courses).length

/-- The courses a table takes in the store (R193, R198). -/
def Table.storeCourses (t : Table) : Nat :=
  sumNat (t.columns.map fun c => sumNat ((c.filter fun a => a.tier == 2).map Ashlar.storeRoom))

/-- The courses that ashlars take in the table store (R193). -/
def State.storeTaken (s : State) : Nat := sumNat (s.tables.map Table.storeCourses)

/-- The free blocks of the table store, of 4,096 courses each: what neither namespaces nor ashlars take (R193, R383). -/
def State.tsFree (s : State) : Nat := s.st.free - ceilDiv s.storeTaken 4096

/-- A running SCAN has come to an ashlar of a table, or is about to (R193). -/
def State.scanWaits (s : State) (slice table col idx : Nat) : Bool :=
  s.runs.any fun r => r.slice == slice && !r.finished && (s.ctxOf r.ctx).any fun c =>
    (List.range c.image.ops.length).any fun k => match c.image.ops[k]? with
      | some o => o.code == 0x02 && o.par2 0 == table && !(r.work.fired.contains k) &&
          (o.pars 6 (o.par 4)).contains col && tgetD k 0 r.scanAt == idx
      | none => false

/-- An ashlar of a table by column and place. -/
def Table.ashlarAt (t : Table) (col idx : Nat) : Option Ashlar := (nth t.columns col [])[idx]?

/-- An unpinned ashlar of HBM that is colder than a heat. -/
def State.colder (s : State) (heat : Nat) : Bool :=
  s.tables.any fun t => !(s.honoured.contains (t.slice, t.id)) && t.columns.any fun c => c.any fun a => a.tier == 0 && decide (a.heat < heat)

/-- The rule of R193 or R195 under which an ashlar changes tier; `waits` says that a SCAN waits for it. -/
def State.mayMoveTier (s : State) (t : Table) (a : Ashlar) (waits : Bool) (tier : Nat) : Bool :=
  let pin := s.honoured.contains (t.slice, t.id)
  let demoting := decide (s.hbmHigh < s.hbmInUse) || (s.mason.demoting && decide (s.hbmLow < s.hbmInUse))
  let dramUsed := sumNat (s.tables.map fun x => x.coursesIn 1)
  let sliceDram := sumNat ((s.tables.filter fun x => x.slice == t.slice).map fun x => x.coursesIn 1)
  let dramFits := s.memx.dramState == 1 && decide (dramUsed + a.room ≤ s.memx.dramCap) &&
    decide (sliceDram + a.room ≤ s.objNum (0x4000 + t.slice) 10 [] 0 0)
  let promoted := pin || (decide (s.objNum 0x3801 2 [] 0 64 ≤ a.heat) && decide (s.hbmInUse < s.hbmHigh))
  match a.tier, tier with
  | 1, 0 => s.hbmFits t.slice a.room && promoted
  | 2, 0 => s.hbmFits t.slice a.room && (promoted || waits)
  | 0, 1 => !pin && demoting && !(s.colder a.heat) && dramFits
  | 2, 1 => waits && dramFits
  | 1, 2 => a.heat == 0 && decide (s.objNum 0x3801 5 [] 0 600 ≤ a.coldPeriods) &&
    decide (ceilDiv (s.storeTaken + a.storeRoom) 4096 ≤ s.st.free)
  | _, _ => false

/-- Put an ashlar in a tier. -/
def Table.setTier (t : Table) (col idx tier : Nat) : Table :=
  { t with columns := t.columns.set col ((nth t.columns col []).modify idx fun a => { a with tier := tier, coldPeriods := 0 }) }

/-- ASHLAR_TIER_MOVE (R193, R195). The copy's checks are verified first (R197): one that fails them stays where it is
(assumption 83: DESIGN CHOICE). -/
def execAshlarTierMove (slice table col idx tier : Nat) (s : State) : Out :=
  .next <|
    match s.tableOf slice table with
    | none => s
    | some t =>
      match t.ashlarAt col idx with
      | none => s
      | some a =>
        let sound : Bool := match ashlarRead s.dicts a.courses with
          | .ok _ => true
          | .error _ => false
        if !(s.mayMoveTier t a (s.scanWaits slice table col idx) tier) ∨ !sound then s
        else
          let set := fun (x : Table) => x.setTier col idx tier
          let s1 : State := { s with tables := mapIf (fun x => x.slice == slice && x.id == table) set s.tables }
          { s1 with mason := { s1.mason with
              demoting := if a.tier = 0 then decide (s1.hbmLow < s1.hbmInUse) else s1.mason.demoting } }

/-! ### Migration (R197, R328) -/

/-- The leaf entry that maps an address of a space: its address and level (R313, R318). -/
def State.leafAt (s : State) (va : Nat) : Nat → Nat → Nat → Option (Nat × Nat × List Course)
  | 0, _, _ => none
  | k + 1, table, level =>
    let at_ := table + 4 * vaIndex va level
    let e := s.memLoad at_ 4
    if !(pteBit e 11) then none
    else if pteBit e 10 then some (at_, level, e)
    else State.leafAt s va k (pteFrame e * 4096) (level - 1)

/-- Copy frames, course by course, and zero the old ones (R405). -/
def State.moveFrames (s : State) (src dst : Nat) : Nat → State
  | 0 => s
  | n + 1 =>
    let t := s.moveFrames src dst n
    (t.memStore ((dst + n) * 4096) (t.memLoad ((src + n) * 4096) 4096)).memStore ((src + n) * 4096) (List.replicate 4096 0)

/-- Translations of an address of a slice go from every bay and the hub, as the tsync makes certain (R327, R328). -/
def State.forgetVa (s : State) (slice va : Nat) : State :=
  let i : Inval := ⟨0, slice * 4096 + s.genOf slice, va, []⟩
  ((List.range 17).foldl (fun (t : State) b => t.invalidate b i) s).tellAll (.invalidate { i with bays := List.range 17 })

/-- The frames from one on lie in populated memory of the device; none is of a bound pair, lost or poisoned. -/
def State.framesFree (s : State) (frame n : Nat) : Bool :=
  let inside := fun (f : Nat) => decide (frame ≤ f ∧ f < frame + n)
  s.populated (frame * 4096) && s.populated ((frame + n) * 4096 - 1) &&
    !(s.memx.poison.any fun l => inside (l / 4096)) && !((List.range n).any fun k => s.frameLost (frame + k)) &&
    !(s.memx.bound.any fun p => decide ((frame ≤ p.1 ∧ p.1 < frame + n) ∨ (frame ≤ p.2 ∧ p.2 < frame + n)))

/-- MIGRATION (R197): the page that maps an address of a slice moves to another place; the caches are cleaned and
invalidated as Hod does (R294), the entry is rewritten with one store, and the translations go before the old frames are
freed. A Flow-bound page never moves within a device. -/
def execMigration (slice va dstFrame : Nat) (s : State) : Out :=
  .next <|
    let p := s.sliceSpace slice
    match (if p.inRange va ∧ (s.sliceOf slice).state ≠ 0 then s.leafAt va 6 p.root p.levels else none) with
    | none => s
    | some (at_, level, e) =>
      let n := 2 ^ (10 * (level - 1))
      let old := pteFrame e
      if fieldOf (nth e 0 0).toNat 9 8 = 2 ∨ !(s.framesFree old n) ∨ !(s.framesFree dstFrame n) ∨ dstFrame % n ≠ 0
          ∨ (dstFrame < old + n ∧ old < dstFrame + n) then s
      else
        let s1 := (s.cleanRange (old * 4096) (n * 4096)).invalidateRange (dstFrame * 4096) (n * 4096)
        let s2 := s1.moveFrames old dstFrame n
        let s3 := (s2.memStore at_ ([nth e 0 0] ++ natCrs 3 dstFrame)).forgetVa slice va
        let s4 := s3.invalidateRange (old * 4096) (n * 4096)
        { s4 with memx := { s4.memx with
            ftype := tset dstFrame (fieldOf (nth e 0 0).toNat 9 8) (tdel old s4.memx.ftype) } }

end Sys2Proof.Machine
end

