-- ==== Sys2Proof/Machine/Store.lean ====
section
/-! DEFINITION. The table store (R383-R386), sanitise and format (R387-R389), and the NAND below both partitions (R388,
R391). -/

namespace Sys2Proof.Machine

/-! ### Blocks (R383) -/

/-- Bytes of a block: 4,096 courses. -/
def tsBlockBytes : Nat := 6144

/-- STORE_QUOTA of a slice, its namespace. -/
def State.tsQuota (s : State) (sl : Nat) : Nat := s.objNum (0x4000 + sl) 11 [] 0 0

/-- A block of a slice; one never written, or trimmed, reads as zero. -/
def State.tsBlock (s : State) (sl k : Nat) : List Byte := tgetD (sl, k) (List.replicate tsBlockBytes 0) s.st.blocks

/-- Two block ranges overlap. -/
def rangesMeet (a n b m : Nat) : Bool := decide (a < b + m ∧ b < a + n)

/-- The slice, queue, range and kind (a write or trim) of a waiting store command. -/
def Waiting.tsRange : Waiting → Option (Nat × Nat × Nat × Nat × Bool)
  | .tsWrite h sl f n => some (sl, h.qid, f, n, true)
  | .tsTrim h sl f n => some (sl, h.qid, f, n, true)
  | .tsRead h sl f n => some (sl, h.qid, f, n, false)
  | _ => none

/-- Two store commands of one queue whose order is kept: their ranges overlap and one of them writes (R384). -/
def tsOrdered (a b : Waiting) : Bool :=
  match a.tsRange, b.tsRange with
  | some (sl, q, f, n, w), some (sl', q', f', n', w') => sl == sl' && q == q' && (w || w') && rangesMeet f n f' n'
  | _, _ => false

/-- An earlier waiting command holds this one back (R384). -/
def State.tsHeld (s : State) (w : Waiting) : Bool := (s.host.waiting.takeWhile fun x => x != w).any fun x => tsOrdered x w

/-- Complete a waiting store command that nothing holds back: a read, a trim, or a write whose blocks are all
programmed. -/
def State.tsComplete (s : State) (w : Waiting) : State :=
  if !(s.host.waiting.contains w) ∨ s.tsHeld w then s
  else match w with
    | .tsWrite h sl _ _ =>
      if s.st.writes.any fun x => x.slice == sl && x.gen == h.gen && x.qid == h.qid && x.cid == h.cid then s else (s.unwait w).done sl h
    | .tsRead h sl f n => (s.unwait w).finish sl h 0 0 ((List.range n).flatMap fun k => s.tsBlock sl (f + k))
    | .tsTrim h sl f n =>
      let mine := fun (k : Nat × Nat) => k.1 == sl && decide (f ≤ k.2 ∧ k.2 < f + n)
      let gone := (s.st.blocks.filter fun e => mine e.1).length
      let st := { s.st with blocks := s.st.blocks.filter fun e => !(mine e.1), free := s.st.free + gone }
      (({ s with st := st } : State).unwait w).done sl h
    | _ => s

/-- Complete what can complete, in the order of submission. -/
def State.tsSettle (s : State) : State := s.host.waiting.foldl State.tsComplete s

/-- A store command takes its place and runs as soon as its order lets it (R384). -/
def State.tsSubmit (s : State) (w : Waiting) : State := (s.wait w).tsSettle

/-- The checks of a store command: its partition and its range (R383, R388). -/
def State.tsChecked (s : State) (b : Binding) (h : CmdHdr) (first count : Nat) (go : State → State) : State :=
  if s.partitionBusy 1 then s.fail b.slice h 0x0825
  else if s.tsQuota b.slice < first + count then s.fail b.slice h 0x0820
  else go s

/-- TS_WRITE (R383): completes once every block is programmed. -/
def execTsWrite (h : CmdHdr) (first count : Nat) (data : List Byte) (s : State) : Out :=
  .next <| s.managed (.tsWrite h first count data) h 0x0053 tenantRole fun t b =>
    if t.partitionBusy 1 then t.fail b.slice h 0x0825
    else if data.length ≠ count * tsBlockBytes then t.fail b.slice h 0x0821
    else t.tsChecked b h first count fun t =>
      let fresh := (List.range count).filter fun k =>
        !(t.st.blocks.any fun e => e.1 == (b.slice, first + k)) &&
          !(t.st.writes.any fun x => x.slice == b.slice && x.block == first + k)
      let ws := (List.range count).map fun k =>
        (⟨b.slice, h.gen, first + k, h.qid, h.cid, slice data (k * tsBlockBytes) tsBlockBytes⟩ : TsWr)
      if t.tsFree < fresh.length then t.fail b.slice h 0x0822
      else ({ t with st := { t.st with writes := t.st.writes ++ ws, free := t.st.free - fresh.length } } : State).tsSubmit
        (.tsWrite h b.slice first count)

/-- TS_READ (R383, R384). -/
def execTsRead (h : CmdHdr) (first count : Nat) (s : State) : Out :=
  .next <| s.managed (.tsRead h first count) h 0x0054 tenantRole fun t b =>
    t.tsChecked b h first count fun t => t.tsSubmit (.tsRead h b.slice first count)

/-- TS_TRIM (R383, R384). -/
def execTsTrim (h : CmdHdr) (first count : Nat) (s : State) : Out :=
  .next <| s.managed (.tsTrim h first count) h 0x0055 tenantRole fun t b =>
    t.tsChecked b h first count fun t => t.tsSubmit (.tsTrim h b.slice first count)

/-- The waiting command of a block that is not programmed yet. -/
def State.writerOf (s : State) (x : TsWr) : Option Waiting :=
  s.host.waiting.find? fun w => match w with
    | .tsWrite h sl _ _ => sl == x.slice && h.gen == x.gen && h.qid == x.qid && h.cid == x.cid
    | _ => false

/-- TS_BLOCK_PROGRAMMED (R383, R374, R384): the oldest write of a block is programmed. Programs pause while the ledger
buffer is more than 75 % full. -/
def execTsBlockProgrammed (sl block : Nat) (s : State) : Out :=
  .next <|
    if s.led.paused ∨ s.partitionBusy 1 ∨ s.power.save.isSome then s
    else match s.st.writes.find? fun x => x.slice == sl && x.block == block with
      | none => s
      | some x =>
        if (s.writerOf x).any s.tsHeld then s
        else ({ s with st := { s.st with
          blocks := tset (sl, block) x.data s.st.blocks
          writes := s.st.writes.erase x
          wear := s.st.wear + 1 } } : State).tsSettle

/-! ### Sanitise and format (R387-R389) -/

/-- One partition of STORE_STATUS: what it is doing, and its progress. -/
def State.partitionStatus (s : State) (p : Nat) : List Byte :=
  match s.st.erase.find? fun e => e.partition == p with
  | some e => [Config.storeState (if e.format then 2 else 1), 0, 0, 0] ++ natBytes 4 e.progress
  | none => [Config.storeState 0, 0, 0, 0] ++ natBytes 4 1000

/-- STORE_STATUS (R460). -/
def execStoreStatus (h : CmdHdr) (s : State) : Out :=
  .next <| s.managed (.storeStatus h) h 0x0056 anyRole fun t b => t.finish b.slice h 0 0 (t.partitionStatus 0 ++ t.partitionStatus 1)

/-- Fail the waiting commands of a partition that becomes busy (R388). -/
def State.failPartition (p : Nat) (s : State) (w : Waiting) : State :=
  match w with
  | .proof h sl _ _ => if p = 0 then (s.unwait w).fail sl h 0x0825 else s
  | .tsWrite h sl _ _ => if p = 1 then (s.unwait w).fail sl h 0x0825 else s
  | .tsRead h sl _ _ => if p = 1 then (s.unwait w).fail sl h 0x0825 else s
  | .tsTrim h sl _ _ => if p = 1 then (s.unwait w).fail sl h 0x0825 else s
  | _ => s

/-- Start an erase of a partition; its command waits for the last unit (R388). -/
def State.startErase (s : State) (h : CmdHdr) (e : Erase) : State :=
  let s1 := if e.scope = 0 then s.host.waiting.foldl (State.failPartition e.partition) s else s
  let st := { s1.st with
    erase := s1.st.erase ++ [e]
    writes := if e.partition = 1 then [] else s1.st.writes
    sanitise := if e.format then s1.st.sanitise else 0
    format := if e.format then 0 else s1.st.format
    media := if e.mode = 1 ∧ e.partition = 1 then false else s1.st.media }
  let led := { s1.led with media := if e.mode = 1 ∧ e.partition = 0 then false else s1.led.media }
  { s1 with
    st := st
    led := led
    host := { s1.host with waiting := s1.host.waiting ++ [.erase h e.partition] } }

/-- A G- or D-class context is loaded. -/
def State.deadlineCtx (s : State) : Bool := s.ctxs.any fun c => c.image.cls != 2

/-- SANITISE (R387). -/
def execSanitise (h : CmdHdr) (partition scope mode sealSeq : Nat) (s : State) : Out :=
  .next <| s.managed (.sanitise h partition scope mode sealSeq) h 0x0057 anyRole fun t b =>
    if b.role ≠ 2 then t.fail b.slice h 0x0827
    else if 1 < partition ∨ 1 < scope ∨ 2 < mode ∨ (partition = 1 ∧ scope = 1) then t.fail b.slice h 0x010F
    else if t.st.erase.any fun e => e.partition == partition then t.fail b.slice h 0x0825
    else if mode = 1 ∧ scope = 1 then t.fail b.slice h 0x0826
    else if partition = 0 ∧ scope = 0 ∧ t.deadlineCtx then t.fail b.slice h 0x0813
    else if scope = 1 ∧ !(t.led.sealed.any fun x => x.seq == sealSeq) then t.fail b.slice h 0x0810
    else t.startErase h
      { partition := partition, format := false, scope := scope, mode := mode, sealSeq := sealSeq, progress := 0 }

/-- No ledger record is unreleased (R389). -/
def LedSt.allReleased (l : LedSt) : Bool :=
  l.buffer.isEmpty && l.opened.isEmpty && l.closed.isEmpty && l.seals.all fun x => x.segs.isEmpty

/-- FORMAT (R389). -/
def execFormat (h : CmdHdr) (partition : Nat) (s : State) : Out :=
  .next <| s.managed (.format h partition) h 0x0058 anyRole fun t b =>
    if b.role ≠ 2 then t.fail b.slice h 0x0827
    else if 1 < partition then t.fail b.slice h 0x010F
    else if t.st.erase.any fun e => e.partition == partition then t.fail b.slice h 0x0825
    else if partition = 0 ∧ !t.led.allReleased then t.fail b.slice h 0x0812
    else t.startErase h { partition := partition, format := true, scope := 0, mode := 0, sealSeq := 0, progress := 0 }

/-- LEDGER_CAPACITY (R391, R500): raw NAND × share ÷ bits per cell × 7/8 × 0.9, or 6/8 after the loss of a channel. -/
def ledgerCapacity (raw share : Nat) (lost : Bool) : Nat := raw * share * (if lost then 6 else 7) * 9 / 8000

/-- The seals an erase keeps: those not written, and from the anchor on in a prefix sanitise. -/
def Erase.keeps (e : Erase) (x : Seal) : Bool := !x.written || (decide (e.scope = 1) && decide (e.sealSeq ≤ x.seq))

/-- Records of a segment that are not on NAND yet. -/
def Segment.unprogrammed (buf : List (List Byte)) (g : Segment) : Segment := { g with records := g.records.filter buf.contains }

/-- The ledger after a sanitise (R387). -/
def LedSt.sanitised (l : LedSt) (e : Erase) : LedSt :=
  let kept := l.seals.filter e.keeps
  let rel := l.segSeq.map fun p =>
    (p.1, (kept.flatMap fun x => (x.segs.filter fun g => g.slice == p.1).map (·.seq)).foldl min p.2)
  let gone := sumNat ((l.seals.filter fun x => !(e.keeps x)).map fun x =>
    x.bytes.length + sumNat (x.segs.map fun g => sumNat (g.records.map List.length)))
  let left := fun (gs : List Segment) => (gs.map (Segment.unprogrammed l.buffer)).filter fun g => !g.records.isEmpty
  { l with
    seals := kept
    relSegs := rel
    released := if e.scope = 1 then e.sealSeq else l.released
    opened := if e.scope = 1 then l.opened else left l.opened
    closed := if e.scope = 1 then l.closed else left l.closed
    free := if e.scope = 1 then min l.capacity (l.free + gone) else l.capacity }

/-- The ledger after a format: the chain starts again, at the size LEDGER_SHARE gives (R389). -/
def LedSt.formatted (l : LedSt) (share : Nat) (lost : Bool) : LedSt :=
  let cap := ledgerCapacity l.raw share lost
  { l with
    segSeq := [], relSegs := [], seals := [], nextSeal := 0, sealSeq := none, head := [], restart := false,
    leaderChange := false, released := 0, share := share, capacity := cap, free := cap, media := true }

/-- An erase is done: what it leaves (R387, R389, R405). -/
def State.eraseEffect (s : State) (e : Erase) : State :=
  if e.partition = 0 then
    let share := s.objNum 0x6350 8 [] 0 50
    { s with led := if e.format then s.led.formatted share (!s.st.lostChannels.isEmpty) else s.led.sanitised e }
  else
    let wipe := fun (a : Ashlar) => if a.tier = 2 then { a with courses := a.courses.map fun _ => (0 : Course) } else a
    { s with
      st := { s.st with blocks := [], free := s.st.capacity, media := e.format || s.st.media }
      tables := s.tables.map fun t => { t with columns := t.columns.map fun c => c.map wipe } }

/-- Post the completion of an erase. -/
def State.eraseDone (p : Nat) (s : State) (w : Waiting) : State :=
  match w with
  | .erase h q => if p = q then (s.unwait w).done (((s.bindingOf h.pid).map (·.slice)).getD 0) h else s
  | _ => s

/-- ERASE_UNIT_DONE (R388): the progress is recorded in MRAM; at 1,000 parts per thousand the operation ends. -/
def execEraseUnitDone (partition thousandths : Nat) (s : State) : Out :=
  .next <|
    match s.st.erase.find? fun e => e.partition == partition with
    | none => s
    | some e =>
      let p := min 1000 (max e.progress thousandths)
      let s1 : State := { s with st := { s.st with
        erase := if p = 1000 then s.st.erase.filter fun x => x.partition != partition
          else mapIf (fun x => x.partition == partition) (fun x => { x with progress := p }) s.st.erase
        sanitise := if e.format then s.st.sanitise else p
        format := if e.format then p else s.st.format } }
      if p = 1000 then (s1.eraseEffect e).host.waiting.foldl (State.eraseDone partition) (s1.eraseEffect e) else s1

/-- NAND_PAGE_REFRESH (R391): a page is read again; one whose corrected errors approach the code's limit is rewritten,
with the same contents. -/
def execNandPageRefresh (page errors : Nat) (s : State) : Out :=
  .next { s with st := { s.st with
    refreshed := tset page s.now s.st.refreshed
    wear := s.st.wear + (if Config.nandLimit ≤ errors then 1 else 0) } }

end Sys2Proof.Machine
end

