-- ==== Sys2Proof/Machine/Faults.lean ====
section
/-! DEFINITION. The single faults of R497 and their recoveries: stones (R9), bays (R182, R276), memory channels (R302,
R303), ONFI channels (R500), digest lanes, Quoin pairs (R16), and failed transfers (R494). -/

namespace Sys2Proof.Machine

/-! ### Firings that a fault ends -/

/-- Put the tokens an operator took back in front of its ports. -/
def Work.untake (k : Work) (op : Nat) (ts : List Token) : Work :=
  ((List.range ts.length).zip ts).foldl (fun (w : Work) e => w.updPort op e.1 fun p => { p with toks := e.2 :: p.toks }) k

/-- A firing is lost with its stone: an item is to be replayed or falls back (R43); a run's firing is ready again with the
tokens it took, since its emissions leave only at its end (assumption 32: DEDUCED). -/
def State.firingLost (s : State) (u : CoreId) : State :=
  match (s.coreOf u).firing with
  | none => s
  | some f =>
    match f.w with
    | .item q => s.faultItem q
    | .run n =>
      let kernel := (((s.runOf n).bind fun r => s.ctxOf r.ctx).bind fun c => c.image.ops[f.op]?).map fun o => o.par 0
      let s1 := (s.dropFiring u).updWork f.w fun k => k.untake f.op f.inputs
      { s1 with mason := { s1.mason with ready := s1.mason.ready ++ [(⟨f.w, f.op, kernel.getD 0⟩ : Ready)] } }

/-- The bays that still take digest messages. -/
def State.otherBay (s : State) (bay : Nat) : Nat := ((s.liveBays.filter fun b => b != bay).head?).getD bay

/-- A digest message whose lane or bay is lost (R497): the item that asked is replayed or falls back, and so does a
kernel's; a run's operator has its message computed again on a bay. -/
def State.messageLost (s : State) (bay : Nat) (m : DgMsg) : State :=
  match m.core, m.w with
  | some (u, _), _ => s.firingLost u
  | none, some (.item q, _, _) => s.faultItem q
  | none, some (.run _, _, _) =>
    { s with dg := { s.dg with waiting := s.dg.waiting ++ [(bay, { m with done := 0, sinceStart := 0, hasRecord := false, saved := [] })] } }
  | none, none => s

/-! ### Bays (R182, R276, R497) -/

/-- The stones of a bay lose their firings, and every array of the bay goes. -/
def State.clearBay (s : State) (bay : Nat) : State :=
  let s1 := (s.coresOfBay bay).foldl State.firingLost s
  let inLane := (s1.dg.lanes.filter fun e => e.1.1 == bay).map (·.2)
  let queued := (s1.dg.waiting.filter fun e => e.1 == bay).map (·.2)
  let s2 : State := { s1 with
    cores := s1.cores.filter fun e => coreBay e.1 != some bay
    mason := { s1.mason with leases := s1.mason.leases.filter fun e => e.1.1 != bay }
    memx := { s1.memx with
      l2 := tdel bay s1.memx.l2, fills := s1.memx.fills.filter fun f => f.bay != bay,
      victims := s1.memx.victims.filter fun v => v.1 != bay, range := tdel bay s1.memx.range,
      walkCache := tdel bay s1.memx.walkCache, boundEntries := tdel bay s1.memx.boundEntries,
      invals := s1.memx.invals.map fun i => { i with bays := i.bays.erase bay } }
    hod := { s1.hod with ch := s1.hod.ch.filter fun e => e.1.1 != bay }
    dg := { s1.dg with
      lanes := s1.dg.lanes.filter fun e => e.1.1 != bay
      waiting := s1.dg.waiting.filter fun e => e.1 != bay }
    ks := { s1.ks with
      tables := s1.ks.tables.map fun t => { t with held := t.held.filter fun c => c.bank != bay }
      banks := tdel bay s1.ks.banks } }
  (inLane ++ queued).foldl (fun (t : State) m => t.messageLost (s.otherBay bay) m) s2

/-- Items in service on a bay are replayed or fall back (R182, R43). -/
def State.faultBay (s : State) (bay : Nat) : State :=
  (s.seqsOf fun i => i.stage == .inService && i.bay == bay && !i.faulted).foldl State.faultItem s

/-- A bay is lost: its buckets are rehomed, its Keystone copies are gone, and admission runs again without it
(R182, R276, R189). -/
def State.loseBay (s : State) (bay : Nat) : State :=
  if !(s.bayLive bay) then s
  else
    let s1 := (((s.clearBay bay).faultBay bay).rehomeAll bay)
    let s2 : State := { s1 with mason := { s1.mason with lostBays := s1.mason.lostBays ++ [bay] } }
    (s2.recovery 8 0 2 bay 0x0697 bay true).rerun .fault

/-- BAY_LOST (R182): the fabric or the L2 of a bay fails. -/
def execBayLost (bay : Nat) (s : State) : Out := .next (s.loseBay bay)

/-! ### Stones (R9, R497) -/

/-- The logical position a physical stone holds. -/
def State.positionOf (s : State) (bay slot : Nat) : Option Nat := (List.range 16).find? fun l => s.physSlot bay l == slot

/-- The spare of a bay is there and holds no position. -/
def State.spareFree (s : State) (bay : Nat) : Bool := s.stoneLive bay 16 && (s.positionOf bay 16).isNone

/-- The spare takes a failed stone's position: scrubbed, then leased to the failed stone's slice (R9, R183). -/
def State.useSpare (s : State) (bay l : Nat) (lease : Option (Nat × Tick)) : State :=
  let s1 := ({ s with mason := { s.mason with slots := tset (bay, l) 16 s.mason.slots } } : State).scrubStone bay 16
  match lease with
  | some (sl, _) => { s1 with mason := { s1.mason with leases := tset (bay, 16) (sl, s.now) s1.mason.leases } }
  | none => s1

/-- A stone is fenced (R9, R497). A second failure of the bay within 800 ticks is the loss of the bay; a second stone
lost while the spare is in use re-runs admission. -/
def State.fenceStone (s : State) (bay slot : Nat) : State :=
  let last := tget bay s.mason.stoneFaults
  let lease := s.leaseOf bay slot
  let s1 := s.firingLost (.stone bay slot)
  let s2 : State := { s1 with
    cores := tdel (.stone bay slot) s1.cores
    mason := { s1.mason with
      fencedStones := s1.mason.fencedStones ++ [(bay, slot)]
      leases := tdel (bay, slot) s1.mason.leases
      stoneFaults := tset bay s.now s1.mason.stoneFaults } }
  let s3 := s2.recovery 0 (bayRing bay) 3 (bay * 32 + slot) 0x0690 slot true
  if (last.map fun t => decide (s.now ≤ t + 800)).getD false then s3.loseBay bay
  else match s.positionOf bay slot, s.spareFree bay && slot != 16 with
    | some l, true => s3.useSpare bay l lease
    | some _, false => s3.rerun .fault
    | none, _ => s3

/-- STONE_FAULT (R497): a residue or parity check of a stone's datapath fails. -/
def execStoneFault (bay slot : Nat) (s : State) : Out := .next (if s.stoneLive bay slot then s.fenceStone bay slot else s)

/-- A core awaits a delivery: a memory access, a search or a digest. -/
def State.awaitsDelivery (s : State) (u : CoreId) : Bool :=
  (s.coreOf u).access.isSome || (s.ks.searches.any fun x => x.core.map (·.1) == some u) ||
    (s.dg.lanes.any fun e => e.2.core.map (·.1) == some u) || s.dg.waiting.any fun e => e.2.core.map (·.1) == some u

/-- STONE_HANG_TIMEOUT (R497): a stone holds a firing and neither retires nor awaits a delivery for 50 ticks. -/
def execStoneHangTimeout (bay slot : Nat) (s : State) : Out :=
  .next <|
    let u := CoreId.stone bay slot
    if s.stoneLive bay slot ∧ (s.coreOf u).firing.isSome ∧ !(s.awaitsDelivery u) then s.fenceStone bay slot else s

/-! ### Memory channels (R302, R303) -/

/-- Segment k of a table is rows 1,048,576 × k and on of every column, 256 ashlars of 4,096 rows. The leader gives it a
home device and, at factor 2, a replica on another (R196); the spec states no rule of the spread, and the model takes the
members present in turn (assumption 64: DESIGN CHOICE). -/
def State.segmentDevices (s : State) (t : Table) (k : Nat) : Nat × Option Nat :=
  let ms := (s.group.members.filter Member.present).map (·.node)
  let at_ := fun (i : Nat) => nth ms (i % ms.length) s.group.node
  (at_ (t.id + k), if t.factor = 2 ∧ 2 ≤ ms.length then some (at_ (t.id + k + 1)) else none)

/-- The segment of an ashlar of a table has a copy on another device too. -/
def State.ashlarReplicated (s : State) (t : Table) (i : Nat) : Bool :=
  s.group.grouped && (s.segmentDevices t (i / 256)).2.isSome

/-- An ashlar of HBM whose frame has failed: restored from a replica, else poisoned (R302). Frames hold no ashlar by a
published rule, so a free bit says which ashlars lay there (assumption 52: DEDUCED). -/
def Ashlar.lostFrame (a : Ashlar) (hit replica : Bool) : Ashlar :=
  if a.tier = 0 ∧ hit ∧ !replica then { a with tier := 3, coldPeriods := 0 } else a

/-- The ashlars of a table after a failure of frames of HBM; `free` says which were hit. -/
def Table.lostFrames (t : Table) (replica : Nat → Bool) (free : Nat) : Table :=
  { t with columns := t.columns.mapIdx fun c as =>
      as.mapIdx fun i a => a.lostFrame (free.testBit (c + t.columns.length * i)) (replica i) }

/-- PCH_FAILED (R302): the frames of the pseudo-channel are withdrawn; bound pairs are served by their surviving frames, a
frame with no other copy reads as poisoned, and a second failure re-runs admission. -/
def execPchFailed (pch : Nat) (s : State) : Out :=
  .next <|
    if 192 ≤ pch ∨ s.memx.pch.contains pch then s
    else
      let s1 : State := { s with
        memx := { s.memx with pch := s.memx.pch ++ [pch] }
        tables := s.tables.mapIdx fun k t => t.lostFrames (s.ashlarReplicated t) (Config.freeValue (s.free + k))
        free := s.free + s.tables.length }
      let s2 := s1.recovery 4 0 5 pch 0x0694 0 true
      if 2 ≤ s2.memx.pch.length then s2.rerun .fault else s2

/-- An ashlar of the warm tier after its loss: restored from a replica into HBM, else poisoned (R303). -/
def Ashlar.withdrawn (a : Ashlar) (replica : Bool) : Ashlar :=
  if a.tier = 1 then { a with tier := if replica then 0 else 3, coldPeriods := 0 } else a

/-- DRAM_CHANNEL_LOST (R303): the warm tier is withdrawn. -/
def execDramChannelLost (ch : Nat) (s : State) : Out :=
  .next <|
    if 8 ≤ ch ∨ s.memx.dramState ≠ 1 then s
    else
      let lose := fun (t : Table) =>
        { t with columns := t.columns.map fun c => c.mapIdx fun i a => a.withdrawn (s.ashlarReplicated t i) }
      let s1 : State := { s with memx := { s.memx with dramState := 3 }, tables := s.tables.map lose }
      s1.recovery 5 0 6 ch 0x0695 0 true

/-! ### ONFI channels (R500) -/

/-- ONFI_CHANNEL_LOST (R500): new stripes carry six data pages where they carried seven, and admission re-runs. -/
def execOnfiChannelLost (ch : Nat) (s : State) : Out :=
  .next <|
    if 8 ≤ ch ∨ s.st.lostChannels.contains ch then s
    else
      let first := s.st.lostChannels.isEmpty
      let fall := fun (n : Nat) => if first then n * 6 / 7 else n
      let s1 : State := { s with
        st := { s.st with lostChannels := s.st.lostChannels ++ [ch], capacity := fall s.st.capacity, free := fall s.st.free }
        led := { s.led with capacity := fall s.led.capacity, free := fall s.led.free } }
      (s1.recovery 6 0 7 ch 0x0696 ch true).rerun .fault

/-! ### Digest lanes, Quoin pairs, transfers -/

/-- DIGEST_LANE_FAULT (R497): a lane's output has failed its internal check twice; it is fenced. -/
def execDigestLaneFault (bay lane : Nat) (s : State) : Out :=
  .next <|
    if !(s.bayLive bay) ∨ 4 ≤ lane ∨ s.mason.fencedLanes.contains (bay, lane) then s
    else
      let m := tget (bay, lane) s.dg.lanes
      let s1 : State := { s with
        mason := { s.mason with fencedLanes := s.mason.fencedLanes ++ [(bay, lane)] }
        dg := { s.dg with lanes := tdel (bay, lane) s.dg.lanes } }
      let s2 := match m with
        | some x => s1.messageLost bay x
        | none => s1
      s2.recovery 9 (bayRing bay) 2 bay 0x0699 lane true

/-- QUOIN_MISMATCH (R16): the two cores of a pair disagree, and the pair is fenced. -/
def execQuoinMismatch (pair : Nat) (s : State) : Out := .next (if pair < 2 then s.fencePair pair else s)

/-- The unit of a path that fails too often (R494). -/
def State.failPath (s : State) (u : CoreId) : State :=
  match u with
  | .stone b k => if s.stoneLive b k then s.fenceStone b k else s
  | .quoin p => s.fencePair p

/-- A transfer of a core has failed: three within a second on one path are a failure of its unit (R494). -/
def State.transferFailed (s : State) (u : CoreId) : State :=
  let ts := (tgetD u [] s.err.transfers).filter fun t => decide (s.now < t + 25000000)
  let s1 : State := { s with err := { s.err with transfers := tset u (ts ++ [s.now]) s.err.transfers } }
  let s2 := s1.coreFault u 0x0686 0 none
  if 2 ≤ ts.length then s2.failPath u else s2

/-- An error in the recording path (R509): the record is lost, RECORD_PATH is set in the parent unit, and a RECORD_PATH
record there names the failed ring's unit: the bay for a stone, the hub for a bay or a slice ring, whose unit is the hub that
holds it (assumption 100: DEDUCED), the plinth for the hub. The plinth's own ring only sets its STICKY. -/
def State.recordLost (s : State) (ring : Nat) (stone held : Option Nat) : State :=
  let s1 : State := match held with
    | some k => { s with err := { s.err with
        rings := tupd ring ringEmpty (fun r => { r with recs := r.recs.eraseIdx k }) s.err.rings } }
    | none => s
  let bay := decide (2 ≤ ring ∧ ring < 32)
  match stone with
  | some k => if bay then s1.record ring 3 ((ring - 2) * 32 + k) 0x0688 0 else s1
  | none =>
    if ring = 1 then s1.stick 1 4
    else if ring = 0 then s1.record 1 0 0 0x0688 0
    else if bay then s1.record 0 2 (ring - 2) 0x0688 0
    else s1.record 0 0 0 0x0688 0

/-- The failed transfer of a ledger record: its sender holds it and sends it as a new transfer, so that its answer waits
in egress (R494, R373). -/
def State.ledgerTransferFailed (s : State) (seq : Nat) : State :=
  match s.itemOf seq with
  | some i => if i.answer.isSome && !i.recorded then s.record 0 0 0 0x0686 0 else s
  | none => s

/-- TRANSFER_REPLAY (R494): receipts one to three of a transfer are replayed; the fourth fails the transfer. -/
def execTransferReplay (x : Transfer494) (attempt : Nat) (s : State) : Out :=
  .next <|
    if attempt ≠ 4 then s
    else match x with
      | .core u => if (s.coreOf u).firing.isSome ∨ coreBay u = none then s.transferFailed u else s
      | .ledgerRecord seq => s.ledgerTransferFailed seq
      | .errorRecord ring stone held => s.recordLost ring stone held

end Sys2Proof.Machine
end

