-- ==== Sys2Proof/Machine/Queues.lean ====
section
/-! DEFINITION. The commands on queues (R442, R443, R460, R461). -/

namespace Sys2Proof.Machine

/-- NOP (R460). -/
def execNop (h : CmdHdr) (s : State) : Out := .next <| s.command (.nop h) h 0x0001 anyRole fun t b => t.done b.slice h

/-- Queues of a slice that count against QUEUES (R443). -/
def State.queuesUsed (s : State) (sl : Nat) : Nat :=
  (s.host.queues.filter fun q => q.slice == sl && q.qid != 0 && (q.kind == 0 || q.kind == 2)).length

/-- The queue named as a pair exists and is of the kind asked; QID 0 is its own CQ (R443, R461). -/
def State.pairFits (s : State) (sl kind pair : Nat) : Bool :=
  match kind with
  | 0 => pair == 0 || s.host.queues.any fun q => q.slice == sl && q.qid == pair && q.kind == 1
  | 2 => s.host.queues.any fun q => q.slice == sl && q.qid == pair && q.kind == 3
  | _ => pair == 0

/-- QUEUE_CREATE (R461). The management slice has no QUEUES allotment and no limit (assumption 34: DEDUCED). -/
def execQueueCreate (h : CmdHdr) (qid kind pair depth : Nat) (s : State) : Out :=
  .next <| s.managed (.queueCreate h qid kind pair depth) h 0x0002 anyRole fun t b =>
    let depthOk := if kind = 0 then decide (2 ≤ depth ∧ depth ≤ 4096) else depth == 0
    if qid = 0 ∨ 4095 < qid ∨ 4 < kind ∨ !depthOk then t.fail b.slice h 0x010A
    else if (t.queueOf b.slice qid).isSome ∨ !(t.pairFits b.slice kind pair) then t.fail b.slice h 0x010A
    else if (kind = 0 ∨ kind = 2) ∧ b.slice ≠ 0 ∧ t.objNum (0x4000 + b.slice) 18 [] 0 0 ≤ t.queuesUsed b.slice then
      t.fail b.slice h 0x010C
    else
      let q : Queue := { slice := b.slice, qid := qid, kind := kind, pair := pair, depth := depth, accepted := 0, outstanding := [] }
      ({ t with host := { t.host with queues := t.host.queues ++ [q] } } : State).done b.slice h

/-- A running run delivers to a result queue. -/
def State.rqInUse (s : State) (sl qid : Nat) : Bool :=
  s.runs.any fun r => r.slice == sl && (s.ctxOf r.ctx).any fun c => c.image.resultOuts.any fun x => x.2 == qid

/-- A queue is in use: outstanding commands, items whose answers have not left, result capsules of a running run, or a
queue paired to it (R461). -/
def State.queueBusy (s : State) (q : Queue) : Bool :=
  !q.outstanding.isEmpty || (s.items.any fun i => i.slice == q.slice && i.iq == q.qid && !i.sent) ||
    (q.kind == 4 && s.rqInUse q.slice q.qid) ||
    s.host.queues.any fun r => r.slice == q.slice && r.qid != 0 && r.pair == q.qid && (r.kind == 0 || r.kind == 2)

/-- QUEUE_DELETE (R461). -/
def execQueueDelete (h : CmdHdr) (qid : Nat) (s : State) : Out :=
  .next <| s.managed (.queueDelete h qid) h 0x0003 anyRole fun t b =>
    if qid = 0 then t.fail b.slice h 0x010A
    else match t.queueOf b.slice qid with
      | none => t.fail b.slice h 0x0106
      | some q =>
        if t.queueBusy q then t.fail b.slice h 0x010B
        else
          let keep := fun (r : Queue) => !(r.slice == b.slice && r.qid == qid)
          ({ t with host := { t.host with queues := t.host.queues.filter keep } } : State).done b.slice h

end Sys2Proof.Machine
end

