-- ==== Sys2Proof/Machine/Slices.lean ====
section
/-! DEFINITION. Slices and tenants (15): creation, bindings, generation raises and their outcomes (R400-R404), removal,
and the clearing of state spaces (R410). -/

namespace Sys2Proof.Machine

/-! ### The raise (R400-R402) -/

/-- Nothing tagged with a generation of a slice remains (R400). -/
def State.untagged (s : State) (sl v : Nat) : Bool :=
  !(s.items.any fun i => i.slice == sl && i.gen == v) && !(s.runs.any fun r => r.slice == sl && r.gen == v) &&
    !(s.hod.ch.any fun e => e.2.status == 1 && !e.2.firmware && e.2.slice == sl && e.2.gen == v) &&
    !(s.st.writes.any fun x => x.slice == sl && x.gen == v) &&
    !(s.host.completions.any fun c => c.slice == sl && c.gen == v && !c.tx) &&
    !(s.host.answers.any fun a => a.slice == sl && a.gen == v && !a.tx) &&
    !(s.group.mirrors.any fun m => m.item.slice == sl && m.item.gen == v) &&
    !(s.host.waiting.any fun w => w.hdr.gen == v && (s.bindingOf w.hdr.pid).any fun b => b.slice == sl)

/-- An item not yet answered: its firing ends, and nothing of it is committed; its entry, lock and ingress copy return when
the arbiter discards its answer (R402, R23). -/
def State.discardItem (s : State) (seq : Nat) : State :=
  match s.itemOf seq with
  | none => s
  | some i =>
    ((s.endFirings (.item seq)).recordSlice i.slice i.ctx 0x090C (endInfo seq 0) none).updItem seq fun i => { i with
      ended := true, work := workEmpty, mortar := 0, drawn := none, verdict := none, verdictTick := none,
      putStage := if i.putStage = 0 then 0 else 3, windowPuts := [], appends := [] }

/-- An answered item of the old generation: its tokens and firings go, its STATE_PUT stays on its way (R401, R402). -/
def State.endAnswered (s : State) (seq : Nat) : State :=
  ((s.updItem seq fun i => { i with ended := true, work := workEmpty, mortar := 0, drawn := none }).endFirings (.item seq)).retire seq

/-- A run of the old generation ends and commits nothing; its completion is discarded (R402). -/
def State.discardRun (s : State) (num : Nat) : State :=
  match s.runOf num with
  | none => s
  | some r =>
    let mine := fun (w : Waiting) => match w with
      | .run _ _ n => n == num
      | _ => false
    let s1 := (s.endFirings (.run num)).recordSlice r.slice r.ctx 0x090C 0 none
    { s1 with
      runs := s1.runs.filter fun x => x.num != num
      host := { s1.host with waiting := s1.host.waiting.filter fun w => !(mine w) } }

/-- Translations of a slice and generation go from every bay and the hub (R400, R327). -/
def State.forgetTag (s : State) (sl gen : Nat) : State :=
  (List.range 17).foldl (fun (t : State) b => t.invalidate b (⟨1, sl * 4096 + gen, 0, []⟩ : Inval)) s

/-- The work of a slice meets the outcomes of R402. -/
def State.retireSlice (s : State) (sl : Nat) : State :=
  let s1 := (s.seqsOf fun i => i.slice == sl && i.answer.isNone).foldl State.discardItem s
  let s2 := (s1.seqsOf fun i => i.slice == sl && i.stage != .done).foldl State.endAnswered s1
  let s3 := ((s2.runs.filter fun r => r.slice == sl).map (·.num)).foldl State.discardRun s2
  let s4 := (s3.hodRetire sl).closeSegs sl
  { s4 with
    ks := { s4.ks with searches := s4.ks.searches.filter fun x => x.slice != sl }
    dg := { s4.dg with
      lanes := s4.dg.lanes.filter fun e => e.2.slice != sl
      waiting := s4.dg.waiting.filter fun e => e.2.slice != sl }
    group := { s4.group with mirrors := s4.group.mirrors.filter fun m => !(m.item.slice == sl && m.released.isNone) }
    quoin := { s4.quoin with
      held := s4.quoin.held.filter fun i => !(s4.host.accepted.any fun a => a.slice == sl && a.row == some i) }
    host := { s4.host with
      accepted := s4.host.accepted.filter fun a => a.slice != sl
      waiting := s4.host.waiting.filter fun w => match w with
        | .ksEnter _ x _ _ _ _ => x != sl
        | _ => true
      queues := mapIf (fun q => q.slice == sl) (fun q => { q with outstanding := [] }) s4.host.queues } }

/-- The generation rises, if nothing is tagged with its next value (R400, R401). -/
def State.tryRaise (s : State) (sl : Nat) : State :=
  match (s.sliceOf sl).resetting with
  | none => s
  | some r =>
    let v := (s.genOf sl + 1) % 4096
    if r.raised ∨ !(s.untagged sl v) then s
    else ((s.forgetTag sl v).retireSlice sl).updSlice sl fun x => { x with gen := v, resetting := some { r with raised := true } }

/-- A reset or removal starts (R398, R401). -/
def State.startRaise (s : State) (sl : Nat) (r : Raise) : State :=
  (s.updSlice sl fun x => { x with state := if r.remove then 3 else 2, resetting := some r }).tryRaise sl

/-! ### The end of a reset or removal (R403, R404) -/

/-- Every entry of the table of R402 has reached its outcome: no old item is left unretired, and every Keystone update
of the slice is committed. -/
def State.drained (s : State) (sl : Nat) : Bool :=
  !(s.items.any fun i => i.slice == sl && i.gen != s.genOf sl && i.stage != .done) &&
    !(s.ks.tables.any fun t => t.slice == sl && !t.queue.isEmpty)

/-- What a removal waits for beside (R401, R404): released answers have left, their segments are sealed, and the writes of
the namespace are done. -/
def State.removable (s : State) (sl : Nat) : Bool :=
  !(s.items.any fun i => i.slice == sl) && !(s.led.opened.any fun g => g.slice == sl) &&
    !(s.led.closed.any fun g => g.slice == sl) && !(s.led.seals.any fun x => !x.written && x.segs.any fun g => g.slice == sl) &&
    !(s.st.writes.any fun x => x.slice == sl)

/-- The frames under a table of a space, with the table's own: first frame and count of each. -/
def State.framesUnder (s : State) : Nat → Nat → List (Nat × Nat)
  | 0, _ => []
  | k + 1, frame =>
    (frame, 1) :: (List.range 1024).flatMap fun i =>
      let e := s.memLoad (frame * 4096 + 4 * i) 4
      if !(pteBit e 11) then []
      else if pteBit e 10 then [(pteFrame e, 2 ^ (10 * k))]
      else if s.populated (pteFrame e * 4096) then State.framesUnder s k (pteFrame e) else []

/-- ZERO over frames, and over the partner of a bound frame; the caches hold nothing of them any more (R404, R405, R306). -/
def State.zeroFrames (s : State) (fs : List (Nat × Nat)) : State :=
  let s1 := fs.foldl (fun (t : State) f => t.invalidateRange (f.1 * 4096) (f.2 * 4096)) s
  let all := fs ++ fs.flatMap fun f => (s1.memx.bound.filter fun p => f.1 ≤ p.1 ∧ p.1 < f.1 + f.2).map fun p => (p.2, 1)
  let hit := fun (frame : Nat) => all.any fun f => decide (f.1 ≤ frame ∧ frame < f.1 + f.2)
  { s1 with
    mem := s1.mem.filter fun c => !(hit (c.1 / 6144))
    memx := { s1.memx with
      poison := s1.memx.poison.filter fun l => !(hit (l / 4096))
      ftype := s1.memx.ftype.filter fun e => !(hit e.1)
      bound := s1.memx.bound.filter fun p => !(hit p.1) } }

/-- The steps of a removal (R404), in their order. -/
def State.removeSlice (s : State) (sl : Nat) : State :=
  let x := s.sliceOf sl
  let s1 := ({ s with ctxs := s.ctxs.filter fun c => c.slice != sl } : State).trimAdmission
  let gone := (s1.st.blocks.filter fun e => e.1.1 == sl).length
  let s2 : State := { s1 with
    ks := { s1.ks with tables := s1.ks.tables.filter fun t => t.slice != sl }
    hashTables := s1.hashTables.filter fun t => t.slice != sl
    tables := s1.tables.filter fun t => t.slice != sl
    flowState := s1.flowState.filter fun f => f.slice != sl
    windows := s1.windows.filter fun w => w.slice != sl
    dg := { s1.dg with slots := s1.dg.slots.filter fun k => k.slice != sl }
    st := { s1.st with blocks := s1.st.blocks.filter fun e => e.1.1 != sl, free := s1.st.free + gone }
    bindings := s1.bindings.filter fun b => b.slice != sl
    host := { s1.host with queues := s1.host.queues.filter fun q => q.slice != sl, bucket := tdel sl s1.host.bucket }
    mason := { s1.mason with leases := s1.mason.leases.filter fun e => e.2.1 != sl } }
  let s3 := if x.levels = 0 then s2 else s2.zeroFrames (s2.framesUnder x.levels (x.root / 4096))
  { s3 with
    objs := s3.objs.filter fun e => e.1.index != 0x4000 + sl
    slices := tset sl { sliceAbsent with gen := x.gen } s3.slices }

/-- SLICE_RESET_DRAINED (R403, R404): the completion of a reset carries the new generation and is its first; a removal
leaves the slice ABSENT. -/
def execSliceResetDrained (slice : Nat) (s : State) : Out :=
  .next <|
    match (s.sliceOf slice).resetting with
    | none => s
    | some r =>
      if !r.raised then s.tryRaise slice
      else if !(s.drained slice) ∨ (r.remove ∧ !(s.removable slice)) then s
      else if r.remove then (s.removeSlice slice).done r.home r.h
      else
        let t := s.updSlice slice fun x => { x with state := 1, resetting := none }
        if r.home = slice ∨ r.h.gen = t.genOf r.home then t.postAs r.home r.h (t.genOf slice) 0 0 [] else t

/-! ### Commands on slices (R398, R399) -/

/-- QUEUE_RESET (R453, R400): it resets the whole slice. -/
def execQueueReset (h : CmdHdr) (qid : Nat) (s : State) : Out :=
  .next <| s.managed (.queueReset h qid) h 0x0004 anyRole fun t b =>
    if (t.queueOf b.slice qid).isNone then t.fail b.slice h 0x0106
    else t.startRaise b.slice { h := h, home := b.slice, remove := false, raised := false }

/-- SLICE_CREATE (R399, R400): every allotment zero, the generation one higher. Its root page, the frame of the slice's
number, and the order of the refusals are the model's choices (assumptions 19 and 101: DESIGN CHOICE). -/
def execSliceCreate (h : CmdHdr) (slice levels : Nat) (s : State) : Out :=
  .next <| s.managed (.sliceCreate h slice levels) h 0x0060 operatorRole fun t b =>
    if slice = 0 ∨ 1024 ≤ slice then t.fail b.slice h 0x0907
    else if (t.sliceOf slice).state ≠ 0 then t.fail b.slice h 0x0906
    else if levels < 3 ∨ 5 < levels then t.fail b.slice h 0x0907
    else
      let gen := (t.genOf slice + 1) % 4096
      let x : SliceSt := { state := 1, gen := gen, levels := levels, root := slice * 4096, kek := none, pendingMask := 0, resetting := none }
      ({ t.forgetTag slice gen with slices := tset slice x t.slices } : State).done b.slice h

/-- SLICE_RESET (R401-R403). -/
def execSliceReset (h : CmdHdr) (slice : Nat) (s : State) : Out :=
  .next <| s.managed (.sliceReset h slice) h 0x0061 operatorRole fun t b =>
    if 1024 ≤ slice then t.fail b.slice h 0x0907
    else if (t.sliceOf slice).state ≠ 1 then t.fail b.slice h 0x0905
    else t.startRaise slice { h := h, home := b.slice, remove := false, raised := false }

/-- SLICE_REMOVE (R404): the management slice is never removed. -/
def execSliceRemove (h : CmdHdr) (slice : Nat) (s : State) : Out :=
  .next <| s.managed (.sliceRemove h slice) h 0x0062 operatorRole fun t b =>
    if slice = 0 ∨ 1024 ≤ slice then t.fail b.slice h 0x0907
    else if (t.sliceOf slice).state ≠ 1 then t.fail b.slice h 0x0905
    else t.startRaise slice { h := h, home := b.slice, remove := true, raised := false }

/-- The checks of a binding in the order listed: 0, or the status (R396). -/
def State.bindCheck (s : State) (pid slice role : Nat) : Nat :=
  if (s.bindingOf pid).isSome then 0x090A
  else if 16384 ≤ s.bindings.length then 0x090B
  else if 2 < role ∨ (role = 0 ∧ slice = 0) ∨ (role ≠ 0 ∧ slice ≠ 0) ∨ pid = 0 ∨ 2 ^ 20 ≤ pid ∨ 1024 ≤ slice
      ∨ (s.sliceOf slice).state ≠ 1 then 0x0907
  else 0

/-- Bind a process identifier (R395). -/
def State.bindPid (s : State) (pid slice role : Nat) : State :=
  { s with bindings := s.bindings ++ [(⟨pid, slice, role⟩ : Binding)] }

/-- SLICE_BIND (R395, R396). -/
def execSliceBind (h : CmdHdr) (pid slice role : Nat) (s : State) : Out :=
  .next <| s.managed (.sliceBind h pid slice role) h 0x0063 custodianRole fun t b =>
    let code := t.bindCheck pid slice role
    if code ≠ 0 then t.fail b.slice h code else (t.bindPid pid slice role).done b.slice h

/-- SLICE_UNBIND (R396): the last Custodian binding stays; later capsules of the process identifier are refused. The code for
a PID without a binding is the model's choice (assumption 101: DESIGN CHOICE). -/
def execSliceUnbind (h : CmdHdr) (pid : Nat) (s : State) : Out :=
  .next <| s.managed (.sliceUnbind h pid) h 0x0064 custodianRole fun t b =>
    match t.bindingOf pid with
    | none => t.fail b.slice h 0x0907
    | some x =>
      if x.role = 2 ∧ (t.bindings.filter fun y => y.role == 2).length = 1 then t.fail b.slice h 0x0904
      else ({ t with bindings := t.bindings.filter fun y => y.pid != pid } : State).done b.slice h

/-- An image names a state space: by a STATE_GET or a STATE_PUT (R141). -/
def Image.namesSpace (im : Image) (space : Nat) : Bool :=
  im.ops.any fun o => (o.code == 0x10 || o.code == 0x11) && o.par 1 == space

/-- STATE_CLEAR (R410): every flow of the space reads NEW afterwards. -/
def execStateClear (h : CmdHdr) (space : Nat) (s : State) : Out :=
  .next <| s.managed (.stateClear h space) h 0x0065 tenantRole fun t b =>
    if 4096 ≤ space then t.fail b.slice h 0x010F
    else if t.ctxs.any fun c => c.slice == b.slice && c.image.namesSpace space then t.fail b.slice h 0x0909
    else
      let keep := fun (f : FlowState) => !(f.slice == b.slice && f.space == space)
      ({ t with flowState := t.flowState.filter keep } : State).done b.slice h

end Sys2Proof.Machine
end

