-- ==== Sys2Proof/Machine/Allotments.lean ====
section
/-! DEFINITION. The allotments of a slice (R406-R409): their ranges, what the device can hold of each, what a slice holds,
and their writes. The subindexes are those of R411. -/

namespace Sys2Proof.Machine

/-- An allotment of this device's slice. -/
def State.allot (s : State) (sl sub : Nat) : Nat := s.objNum (0x4000 + sl) sub [] 0 0

/-- The largest value of an allotment, by its type or its stated range (R411). -/
def allotLimit (sub : Nat) : Option Nat :=
  match sub with
  | 4 => some 0xFFFF
  | 5 => some u32Max
  | 6 => some 0xFFFF
  | 7 => some 240
  | 8 => some 13
  | 9 => some u64Max
  | 10 => some u64Max
  | 11 => some u32Max
  | 12 => some 24
  | 13 => some 0xFFFF
  | 14 => some 0xFFFF
  | 15 => some u32Max
  | 16 => some u32Max
  | 17 => some u64Max
  | 18 => some 0xFFFF
  | _ => none

/-- The allotments whose aggregation is SUM (R411). -/
def allotSum (sub : Nat) : Bool := [4, 5, 9, 10, 11, 15, 16, 17].contains sub

/-- What the device can hold of an allotment for all slices together (R1, R8, R185, R281, R359, R409); weights, the
guaranteed searches and queues have no such total. -/
def State.allotCapacity (s : State) (sub : Nat) : Option Nat :=
  match sub with
  | 5 => some 524288
  | 8 => some 13
  | 9 => some s.hbmCapacity
  | 10 => some (if s.memx.dramState = 1 then s.memx.dramCap else 0)
  | 11 => some s.st.capacity
  | 12 => some 32
  | 13 => some 4096
  | 14 => some 16384
  | 15 => some 65536
  | 16 => some 131072
  | 17 => some (s.admEnv s.floorRate).ledger
  | _ => none

/-- The sum of an allotment over the other slices. -/
def State.allotOthers (s : State) (sl sub : Nat) : Nat :=
  sumNat (((s.slices.map (·.1)).filter fun n => n != sl && n != 0).map fun n => s.allot n sub)

/-- Unreserved Mortar entries of a slice on a bay (R174). -/
def State.sliceMortar (s : State) (sl b : Nat) : Nat := s.unreservedUsed b (· == sl)

/-- Running Hod channels of a slice on a bay. -/
def State.hodUsed (s : State) (sl b : Nat) : Nat :=
  (s.hod.ch.filter fun e => e.1.1 == b && e.2.status == 1 && !e.2.firmware && e.2.slice == sl).length

/-- Courses of DRAM a slice holds. -/
def State.dramUsed (s : State) (sl : Nat) : Nat :=
  sumNat ((s.tables.filter fun t => t.slice == sl).map fun t => t.coursesIn 1)

/-- What a slice holds of an allotment, in the units of the allotment (R407). -/
def State.allotHeld (s : State) (sl sub : Nat) : Nat :=
  match sub with
  | 4 => (s.mason.leases.filter fun e => e.2.1 == sl && decide (s.now < e.2.2 + 1250)).length
  | 5 => s.ksSliceUsed sl
  | 9 => s.hbmUsed sl
  | 10 => s.dramUsed sl
  | 11 => ((s.st.blocks.filter fun e => e.1.1 == sl).map fun e => e.1.2 + 1).foldl max 0
  | 12 => ((List.range 16).map (s.hodUsed sl)).foldl max 0
  | 13 => ((s.dg.slots.filter fun k => k.slice == sl).map fun k => k.slot + 1).foldl max 0
  | 14 => ((List.range 16).map (s.sliceMortar sl)).foldl max 0
  | 15 => s.sliceEntriesUsed sl
  | 16 => (s.sliceFlows sl).length
  | 18 => s.queuesUsed sl
  | _ => 0

/-- Bound data of a slice in HBM: its G contexts, flow and window state, and the hash tables they probe (R194). -/
def State.boundHbm (s : State) (sl : Nat) : Nat :=
  sumNat ((s.admitted.filter fun c => c.slice == sl).map fun c => contextCourses c.image) +
  2 * sumNat ((s.flowState.filter fun f => f.slice == sl).map fun f => f.area.length) +
  2 * sumNat ((s.windows.filter fun w => w.slice == sl).map fun w => w.courses.length) +
  2 * sumNat ((s.hashTables.filter fun t => t.slice == sl && s.hashBound t).map fun t => t.rows.length * imageSize t.layout) +
  2 * sumNat ((s.ks.tables.filter fun t => t.slice == sl && s.ksDeclared t).map KsTab.shadowCourses)

/-- What admitted G contexts of a slice reserve or bind of an allotment, where it can be counted (R407). -/
def State.allotBound (s : State) (sl sub : Nat) : Nat :=
  let gs := s.admitted.filter fun c => c.slice == sl
  if gs.isEmpty then 0
  else match sub with
    | 5 => sumNat ((s.ks.tables.filter fun t => t.slice == sl && s.gBound t).map fun t => t.held.length * t.capacity)
    | 9 => s.boundHbm sl
    | 13 => ((gs.flatMap fun c => (c.image.ops.filter fun o => o.code == 0x14 && o.par 1 != 0xFFF).map fun o => o.par 1 + 1)).foldl max 0
    | 15 => sumNat (gs.map Context.entries)
    | 16 => sumNat (gs.map Context.entries)
    | 17 => s.ledgerLoad sl
    | _ => 0

/-- The admitted contexts pass the tests of R187 as things stand. -/
def State.admissionPasses (s : State) : Bool := (s.tryAll (s.admEnv s.floorRate) s.ctxs s.admitted).code == 0

/-- The admitted contexts pass now and would not with another value (R407). -/
def State.admissionBreaks (s : State) (sl sub v : Nat) : Bool :=
  !s.admitted.isEmpty && s.admissionPasses && !(s.setObj (0x4000 + sl) sub [] 0 (.num v)).admissionPasses

/-- The reserved slots of a slice's key banks under a new guarantee (R271), and whether every bank has them free. -/
def State.keySlots (s : State) (sl v : Nat) : List KsPlan × Bool :=
  let plan := s.ks.plan.map fun p => if p.slice = sl then { p with slots := ceilDiv v (p.banks.length - 1) } else p
  let limit := s.objNum 0x6100 10 [] 0 75 * ksSlots s.floorRate
  (plan, (List.range 16).all fun b => decide (100 * sumNat ((plan.filter fun p => p.banks.contains b).map (·.slots)) ≤ limit))

/-- An increase does not fit the device (R406, R271). -/
def State.overCapacity (s : State) (sl sub v : Nat) : Bool :=
  (match s.allotCapacity sub with
    | some c => decide (c < s.allotOthers sl sub + v)
    | none => false) || (sub == 7 && !(s.keySlots sl v).2)

/-- The path under which the group total of a SUM allotment is kept: an entry no arch has (R12, R406). -/
def groupTotal : List Nat := [0xFFF]

/-- This device's share of a group total. It is what the slice holds and reserves here and a part of the rest; that part
depends on what the slice holds on other members, so it is a free value (R406, assumption 4: DESIGN CHOICE). -/
def State.groupShare (s : State) (sl sub v : Nat) : Nat :=
  let base := max (s.allotHeld sl sub) (s.allotBound sl sub)
  base + s.freeBits 64 % (v - base + 1)

/-- The value this device applies of a write. -/
def State.appliedAllot (s : State) (sl sub v : Nat) : Nat :=
  if s.group.grouped ∧ allotSum sub then s.groupShare sl sub v else v

/-- Put an allotment in force: what the slice holds beyond it is pending (R407). -/
def State.applyAllot (s : State) (sl sub v : Nat) : State :=
  let w := s.appliedAllot sl sub v
  let s0 := if s.group.grouped ∧ allotSum sub then
      (s.setObj (0x4000 + sl) sub groupTotal 0 (.num v)).advanceFree
    else s
  let s1 := s0.setObj (0x4000 + sl) sub [] 0 (.num w)
  let s2 := s1.updSlice sl fun x => { x with pendingMask := putBit x.pendingMask sub (decide (w < s1.allotHeld sl sub)) }
  if sub = 7 then { s2 with ks := { s2.ks with plan := (s2.keySlots sl v).1 } } else s2

/-- PENDING of a slice (R407): the decreases that something held still keeps from being whole. -/
def State.pendingOf (s : State) (sl : Nat) : Nat :=
  (List.range 19).foldl (fun m k =>
    if (s.sliceOf sl).pendingMask.testBit k && decide (s.allot sl k < s.allotHeld sl k) then withBit m k else m) 0

/-- A write of an allotment: the state, or the status that refuses it (R398, R406, R407, R411). -/
def State.writeAllot (s : State) (sl sub v : Nat) : Except Nat State :=
  match allotLimit sub with
  | none => .error 0x0907
  | some limit =>
    let old := if s.group.grouped ∧ allotSum sub then s.objNum (0x4000 + sl) sub groupTotal 0 0 else s.allot sl sub
    if sl = 0 ∨ 1024 ≤ sl ∨ limit < v then .error 0x0907
    else if (s.sliceOf sl).state ≠ 1 then .error 0x0905
    else if v < old ∧ (v < s.allotBound sl sub ∨ s.admissionBreaks sl sub v) then .error 0x0909
    else if old < v ∧ s.overCapacity sl sub (s.appliedAllot sl sub v) then .error 0x0908
    else .ok (s.applyAllot sl sub v)

end Sys2Proof.Machine
end

