-- ==== Sys2Proof/Machine/Trust.lean ====
section
/-! DEFINITION. Boot, identity and attestation (21): firmware images and their verification (R531-R533), staging and
activation (R543-R545), certificates and reports (R536-R541), key deliveries (R542), and debug (R546). -/

namespace Sys2Proof.Machine

/-! ### Images (R531-R533) -/

/-- The bytes of a signature pair: ECDSA, then HSS (R531). -/
def ecLen : Nat := 96
def hssLen : Nat := 3284

/-- The largest bank and stage (R531). -/
def bankSize : Nat := 0x4000000
def stageMax : Nat := 0x2000000

/-- Offset and code length of a stage. -/
def stageAt (b : List Byte) (k : Nat) : Nat × Nat := (beNat (slice b (16 + 8 * k) 4), beNat (slice b (20 + 8 * k) 4))

/-- What a stage's signatures cover: header and code. -/
def stageText (b : List Byte) (k : Nat) : List Byte := b.take 256 ++ slice b (stageAt b k).1 (stageAt b k).2

/-- A stage with its signatures lies inside the bytes of the bank, behind the header. -/
def stageFits (b : List Byte) (k : Nat) : Bool :=
  let (o, n) := stageAt b k
  decide (n ≤ stageMax) && decide (256 ≤ o) && decide (o + n + ecLen + hssLen ≤ min bankSize b.length)

/-- The header is well formed (R531). -/
def headerOk (b : List Byte) : Bool :=
  decide (256 ≤ b.length) && beNat (b.take 4) == 0x51465731 && beNat (slice b 4 2) == 1 && decide (beNat (slice b 6 1) ≤ 1) &&
    decide (beNat (slice b 7 1) ≤ 63) && beNat (slice b 14 2) == 0 && (slice b 197 59).all (fun x => x == 0) &&
    stageFits b 0 && stageFits b 1 && stageFits b 2

/-- Both signatures of a stage verify. -/
def stageSigned (b : List Byte) (k : Nat) : Bool :=
  let (o, n) := stageAt b k
  Config.ecdsaVerify (slice b 40 97) (stageText b k) (slice b (o + n) ecLen) &&
    Config.hssVerify (slice b 137 60) (stageText b k) (slice b (o + n + ecLen) hssLen)

/-- The counter a stage is held to: the larger of the fuses and their mirror (R532, R534). -/
def TrustSt.counter (t : TrustSt) : Nat := max t.otpSvn t.mramSvn

/-- The checks of R532 on the stages in order: 0, or the code of the first that fails. -/
def TrustSt.verify (t : TrustSt) (b : List Byte) : Nat :=
  if !(headerOk b) then 0x0A01
  else if t.revoked.testBit (beNat (slice b 6 1)) then 0x0A04
  else if Config.sha384 (slice b 40 97) ++ Config.sha384 (slice b 137 60) ≠ Config.vendorHash (beNat (slice b 6 1)) then 0x0A02
  else if !(stageSigned b 0) then 0x0A02
  else if beNat (slice b 7 1) < t.counter then 0x0A03
  else if !(stageSigned b 1) ∨ !(stageSigned b 2) then 0x0A02
  else 0

/-- A bank's bytes. -/
def TrustSt.bank (t : TrustSt) (k : Nat) : List Byte := (nth t.banks k (⟨[]⟩ : Bank)).bytes

/-- The bank that is not the boot bank. -/
def TrustSt.inactive (t : TrustSt) : Nat := 1 - t.bootBank

/-- FW_MEASUREMENT of stage measurements (R533). -/
def fwMeasurement (ms : List (List Byte)) : List Byte := Config.sha384 (Config.romMeasurement ++ ms.flatten)

/-- What runs when stage 0 comes from one image and the stages 1 and 2 from another (R533, R543). -/
def fwRunOf (b0 b : List Byte) (keySet0 : Nat) : FwRun :=
  let ms := [Config.sha384 (stageText b0 0), Config.sha384 (stageText b 1), Config.sha384 (stageText b 2)]
  { keySet0 := keySet0, keySet := beNat (slice b 6 1), svn := beNat (slice b 7 1), fwVersion := beNat (slice b 8 4),
    handover := beNat (slice b 12 2), stageMeas := ms, measurement := fwMeasurement ms }

/-- A bank boots whole. -/
def fwBoot (b : List Byte) : FwRun := fwRunOf b b (beNat (slice b 6 1))

/-! ### Certificates (R536, R537) -/

/-- The body of an IDENTITY_CERT for a measurement (R537). -/
def State.certBody (s : State) (meas : List Byte) : List Byte :=
  natBytes 4 0x49435254 ++ natBytes 2 1 ++ natBytes 2 0 ++ fitList 16 0 Config.serial ++ natBytes 8 s.trust.issueSeq ++
    fitList 48 0 meas ++ fitList 194 0 (Config.identityKeys meas) ++ natBytes 6 0

/-- The device holds an IDENTITY_CERT for a measurement. -/
def State.hasCert (s : State) (meas : List Byte) : Bool := s.trust.certs.any fun c => c.1 == meas

/-- Issue one, signed by ROOT_EC and DEVICE_HSS; the last 256 are kept. ROOT_EC is the key of no measurement. -/
def State.issueCert (s : State) (meas : List Byte) : State :=
  let body := s.certBody meas
  let cert := body ++ s.signatures [] body
  let cs := s.trust.certs ++ [(meas, cert)]
  ({ s with trust := { s.trust with certs := cs.drop (cs.length - 256), issueSeq := s.trust.issueSeq + 1 } } : State).useLeaf

/-- The current IDENTITY_CERT: the newest of the running measurement. -/
def State.identityCert (s : State) : List Byte :=
  ((s.trust.certs.reverse.find? fun c => c.1 == s.trust.run.measurement).map (·.2)).getD []

/-- IDENTITY_CERT_ISSUE (R537): the Quoin firmware starts under a measurement for which the device holds none, at boot or
on the standby pair during an activation. -/
def execIdentityCertIssue (s : State) : Out :=
  .next <|
    let meas := if s.trust.stageState = 4 then s.trust.next.measurement else s.trust.run.measurement
    if meas.isEmpty ∨ s.hasCert meas ∨ !s.canSign then s else s.issueCert meas

/-! ### Reports (R539, R540) -/

/-- The FLAGS of a report (R540); TRIAL from 800 ticks after the switch (R544). -/
def State.reportFlags (s : State) : Nat :=
  let t := s.trust
  (if t.fallback then 1 else 0) + (if t.otpSvn < t.run.svn then 2 else 0) +
    (if t.stageState = 5 ∧ t.switchAt + 800 ≤ s.now then 4 else 0) + (if t.plinthPending then 8 else 0)

/-- The body of a report. The hashes of the stored set and of the slice and binding tables run over byte forms the manual
does not give, so they are free values (assumption 4: DESIGN CHOICE). -/
def State.reportBody (s : State) (nonce : List Byte) : List Byte :=
  let t := s.trust
  natBytes 4 0x41545354 ++ natBytes 2 1 ++ natBytes 2 s.reportFlags ++ fitList 16 0 Config.serial ++
    natBytes 8 t.reportSeq ++ natBytes 8 s.now ++ fitList 48 0 nonce ++ fitList 48 0 Config.romMeasurement ++
    fitList 144 0 t.run.stageMeas.flatten ++ natBytes 48 (Config.freeValue s.free) ++
    natBytes 48 (Config.freeValue (s.free + 1)) ++ natBytes 4 t.run.fwVersion ++
    natBytes 1 t.run.svn ++ natBytes 1 t.otpSvn ++ natBytes 1 t.run.keySet ++ natBytes 1 0

/-- A report over a nonce: it takes a token, a report number and a leaf index. -/
def State.makeReport (s : State) (nonce : List Byte) : State × List Byte :=
  let body := s.reportBody nonce
  let report := body ++ s.signatures s.trust.run.measurement body ++ s.identityCert ++ Config.deviceCert
  (({ s with
      free := s.free + 2
      trust := { s.trust with tokens := s.trust.tokens - 1, reportSeq := s.trust.reportSeq + 1 } } : State).useLeaf, report)

/-- Answer a waiting ATTEST while more than 16 tokens remain (R539). -/
def State.attestNow (s : State) (w : Waiting) : State :=
  match w with
  | .attest h nonce =>
    match s.bindingOf h.pid with
    | none => s.unwait w
    | some b =>
      if s.trust.tokens ≤ 16 ∨ !s.canSign then s
      else
        let (t, r) := (s.unwait w).makeReport nonce
        t.finish b.slice h 0 0 r
  | _ => s

/-- ATTEST (R539, R540): it waits for a token and never fails by time. -/
def execAttest (h : CmdHdr) (nonce : List Byte) (s : State) : Out :=
  .next <| s.managed (.attest h nonce) h 0x0070 anyRole fun t b =>
    if nonce.length ≠ 48 then t.fail b.slice h 0x010F
    else if t.trust.debug = 2 ∨ t.trust.gated then t.fail b.slice h 0x0A0E
    else if t.hssLeft = 0 then t.fail b.slice h 0x0A0F
    else
      let w := Waiting.attest h nonce
      (t.wait w).attestNow w

/-- ATTEST_TOKEN_GAIN (R539): one token every 50,000,000 ticks, up to 64; a waiting ATTEST may take it. -/
def execAttestTokenGain (s : State) : Out :=
  .next <|
    if s.now < s.trust.lastToken + 50000000 then s
    else
      let s1 : State := { s with trust := { s.trust with
        tokens := min 64 (s.trust.tokens + 1), lastToken := s.trust.lastToken + 50000000 } }
      s1.host.waiting.foldl State.attestNow s1

/-! ### HSS trees (R538) -/

/-- HSS_TREE_GENERATE (R538): the next lower tree is ready. -/
def execHssTreeGenerate (s : State) : Out :=
  .next <|
    if s.trust.hssPending ∧ (s.trust.hssTree + 1) * hssTreeSize < hssTotal then
      { s with trust := { s.trust with hssTree := s.trust.hssTree + 1, hssPending := false } }
    else s

/-! ### Staging (R543) -/

/-- FW_STAGE_STATE as it reads: a trial shows 800 ticks after the switch (R544). -/
def State.fwStageState (s : State) : Nat :=
  if s.trust.stageState = 5 ∧ s.now < s.trust.switchAt + 800 then 4 else s.trust.stageState

/-- The inactive bank with other bytes. -/
def TrustSt.setInactive (t : TrustSt) (b : List Byte) : TrustSt := { t with banks := t.banks.set t.inactive ⟨b⟩ }

/-- The final write of a staging verifies the whole image (R543, R545). -/
def TrustSt.finishStage (t : TrustSt) : TrustSt × Nat :=
  let code := t.verify (t.bank t.inactive)
  ({ t with stageState := if code = 0 then 2 else 3, stagedMark := code == 0 }, code)

/-- A write of a staging from one of the two paths: the state and the status (R543). The inactive bank is in use while an
activation or a trial runs (assumption 35: DEDUCED). -/
def TrustSt.stage (t : TrustSt) (owner offset : Nat) (final : Bool) (data : List Byte) : TrustSt × Nat :=
  let starts := decide (offset = 0)
  if t.stageState = 4 ∨ t.stageState = 5 then (t, 0x0A05)
  else if !starts ∧ (t.stageState ≠ 1 ∨ t.stageOwner ≠ owner ∨ t.stageAt ≠ offset) then (t, 0x0A05)
  else if bankSize < offset + data.length then (t, 0x0A01)
  else
    let old := if starts then [] else t.bank t.inactive
    let t1 := { t.setInactive (old ++ data) with
      stageState := 1, stageOwner := owner, stageAt := offset + data.length,
      stagedMark := if starts then false else t.stagedMark }
    if final then t1.finishStage else (t1, 0)

/-- FW_STAGE (R543). -/
def execFwStage (h : CmdHdr) (offset : Nat) (final : Bool) (data : List Byte) (s : State) : Out :=
  .next <| s.managed (.fwStage h offset final data) h 0x0071 custodianRole fun t b =>
    let (x, code) := t.trust.stage 1 offset final data
    ({ t with trust := x } : State).fail b.slice h code

/-! ### Activation (R543-R545) -/

/-- What the standby pair would run: the stages 1 and 2 of the staged image with the running stage 0. -/
def TrustSt.nextRun (t : TrustSt) : FwRun :=
  let b := t.bank t.inactive
  let r := fwRunOf (t.bank t.bootBank) b t.run.keySet0
  let ms := [nth t.run.stageMeas 0 []] ++ r.stageMeas.drop 1
  { r with stageMeas := ms, measurement := fwMeasurement ms }

/-- FW_ACTIVATE (R543, R544): it completes at the switch (assumption 36: DEDUCED). -/
def execFwActivate (h : CmdHdr) (s : State) : Out :=
  .next <| s.managed (.fwActivate h) h 0x0072 custodianRole fun t b =>
    let next := t.trust.nextRun
    if t.trust.stageState ≠ 2 then t.fail b.slice h 0x0A06
    else if !(Config.handoverOk t.trust.run.handover next.handover) then t.fail b.slice h 0x0A07
    else ({ t with trust := { t.trust with stageState := 4, next := next } } : State).wait (.activate h)

/-- Complete the FW_ACTIVATE that waits. -/
def State.activated (s : State) (w : Waiting) : State :=
  match w with
  | .activate h => (s.unwait w).done 0 h
  | _ => s

/-- FW_STATE_COPY_DONE (R544): the switch, which pauses the management plane (R15). The standby pair, which holds an IDENTITY_CERT for its measurement unless no
signature is left, becomes active; the former active pair is standby on the old image. -/
def execFwStateCopyDone (s : State) : Out :=
  .next <|
    let t := s.trust
    if t.stageState ≠ 4 ∨ !s.quoin.standby ∨ !(s.hasCert t.next.measurement || !s.canSign) then s
    else
      let changed := Config.sha384 (stageText (t.bank t.inactive) 0) != nth t.run.stageMeas 0 []
      let s1 : State := { s with
        trust := { t with run := t.next, prev := t.run, stageState := 5, switchAt := s.now, plinthPending := changed }
        quoin := { s.quoin with active := 1 - s.quoin.active } }
      s1.startPause.host.waiting.foldl State.activated s1.startPause

/-- FW_TRIAL_EXPIRY (R544): the boot pointer moves; the standby pair restarts on the new image. -/
def execFwTrialExpiry (s : State) : Out :=
  .next <|
    if s.trust.stageState ≠ 5 ∨ s.now < s.trust.switchAt + s.objNum 0x7010 3 [] 0 600 * 25000000 then s
    else { s with
      trust := { s.trust with bootBank := s.trust.inactive, stageState := 0, stagedMark := false }
      quoin := { s.quoin with standby := false } }

/-- TRIAL_PAIR_FAILURE (R545): the trial pair fails, and is fenced under R16. -/
def execTrialPairFailure (s : State) : Out :=
  .next (if s.trust.stageState = 5 then s.fencePair s.quoin.active else s)

/-! ### Deliveries (R542) -/

/-- The body of the current IDENTITY_CERT. -/
def State.currentCertId (s : State) : List Byte := (Config.sha384 (s.identityCert.take 280)).take 8

/-- A delivery of a kind and target: the key, or the status (R542). -/
def State.openDelivery (s : State) (kind target len : Nat) (d : List Byte) : Except Nat (List Byte) :=
  if d.length ≠ 112 + len + 8 then .error 0x0A0A
  else if s.identityCert.isEmpty ∨ slice d 4 8 ≠ s.currentCertId then .error 0x0A0B
  else if beNat (d.take 1) ≠ 1 ∨ beNat (slice d 1 1) ≠ kind ∨ beNat (slice d 2 2) ≠ target ∨ beNat (slice d 109 3) ≠ 0 then
    .error 0x0A0A
  else match Config.kwpUnwrap (Config.deliveryKey s.trust.run.measurement (d.take 112)) (d.drop 112) with
    | none => .error 0x0A0A
    | some k => if k.length = len then .ok k else .error 0x0A0A

/-! ### Debug (R546) -/

/-- A new DEBUG_CHALLENGE. -/
def State.newChallenge (s : State) : State :=
  ({ s with trust := { s.trust with challenge := s.randomBytes 48 } } : State).advanceFree

/-- A token that opens debug. -/
def State.tokenOk (s : State) (d : List Byte) : Bool :=
  d.length == 176 && beNat (d.take 4) == 0x44424755 && beNat (slice d 4 2) == 1 && beNat (slice d 6 1) == 1 &&
    beNat (slice d 7 1) == 0 && slice d 8 16 == fitList 16 0 Config.serial && slice d 24 48 == s.trust.challenge &&
    beNat (slice d 72 8) == 0 && Config.ecdsaVerify (s.objBytes 0x7020 1 [] 0) (d.take 80) (slice d 80 96)

/-- The ledger buffer is programmed and every open segment closed and sealed (R546). -/
def State.flushLedger (s : State) : State :=
  let t := s.now
  let l0 := s.led.closeIf (fun _ => true) t
  let l1 := { l0 with
    buffer := [], free := l0.free - sumNat (l0.buffer.map List.length), written := l0.written + sumNat (l0.buffer.map List.length) }
  let s1 : State := { s with
    led := l1, items := mapIf (fun i => i.recorded) (fun i => { i with acked := true }) s.items }
  if l1.closed.isEmpty ∨ !s.canSign then s1
  else
    let (segs, seqs) := numberSegs l1.closed l1.segSeq
    let body := s1.sealBody t segs
    let made : Seal := { seq := l1.nextSeal, tick := t, body := body, bytes := body ++ s1.signatures s1.trust.run.measurement body,
                         segs := segs, written := true }
    let l2 := { l1 with
      closed := [], restart := false, leaderChange := false, segSeq := seqs, seals := (l1.seals.map fun x => { x with written := true }) ++ [made],
      nextSeal := l1.nextSeal + 1, sealSeq := some l1.nextSeal, head := body, sealTick := t, free := l1.free - made.bytes.length }
    ({ s1 with led := l2 } : State).useLeaf

/-- The generation of every slice rises (R546). -/
def State.raiseAll (s : State) : State :=
  (s.slices.map (·.1)).foldl (fun (t : State) n =>
    if (t.sliceOf n).state = 0 then t
    else (t.retireSlice n).updSlice n fun x => { x with gen := (x.gen + 1) % 4096 }) s

/-- A debug token: every attempt renews the challenge; a valid token starts the scrub (R546). -/
def State.tryUnlock (s : State) (d : List Byte) : State × Nat :=
  let t := s.newChallenge
  if !(s.tokenOk d) then (t, 0x0A0C)
  else if s.ctxs.any fun c => c.image.cls != 2 then (t, 0x0A0D)
  else
    let u : State := { t with trust := { t.trust with debug := 1 }, power := { t.power with frozen := true } }
    (u.flushLedger.raiseAll, 0)

/-- DEBUG_SCRUB_DONE (R546): every memory is zero, the derived keys are gone, and the seeds and key stores are gated off. -/
def execDebugScrubDone (s : State) : Out :=
  .next <|
    if s.trust.debug ≠ 1 then s
    else
      { s with
        mem := [], cores := [], ctxs := [], runs := [], flowState := [], windows := [], hashTables := [], tables := [], dicts := []
        ks := { s.ks with tables := [], searches := [], plan := [] }
        memx := { s.memx with poison := [], bound := [], l2 := [], fills := [], victims := [], range := [], zeroDone := [],
                              walkCache := [], boundEntries := [], ftype := [] }
        dg := { s.dg with slots := [], lanes := [], waiting := [] }
        slices := s.slices.map fun e => (e.1, { e.2 with kek := none })
        trust := { s.trust with debug := 2, gated := true } }

end Sys2Proof.Machine
end

