-- ==== Sys2Proof/Machine/Link.lean ====
section
/-! DEFINITION. The Gyine link (16, 17): flits and their check (R418, R419), virtual channels and credits (R420, R421),
sequence and retry (R422, R423), keep-alive (R424), lanes (R417), and capsules over flits (R425, R444, R445, R448, R449). -/

namespace Sys2Proof.Machine

/-! ### Flits (R418, R419) -/

/-- The fields of a header. -/
structure FlitHdr where
  type : Nat
  vc : Nat
  seq : Nat
  ack : Nat
  cvc : Nat
  credits : Nat
  sop : Bool
  eop : Bool
  pairs : Nat
  hub : Bool
  dest : Nat
  rsvd : Nat
deriving DecidableEq, Repr

/-- The 64-bit header. -/
def FlitHdr.word (h : FlitHdr) : Nat :=
  h.type * 2 ^ 60 + h.vc * 2 ^ 57 + h.seq * 2 ^ 45 + h.ack * 2 ^ 33 + h.cvc * 2 ^ 30 + h.credits * 2 ^ 22 +
    (if h.sop then 2 ^ 21 else 0) + (if h.eop then 2 ^ 20 else 0) + h.pairs * 2 ^ 13 + (if h.hub then 2 ^ 12 else 0) +
    h.dest * 2 ^ 6 + h.rsvd

/-- The header of a word. -/
def flitHdr (w : Nat) : FlitHdr :=
  { type := fieldOf w 63 60, vc := fieldOf w 59 57, seq := fieldOf w 56 45, ack := fieldOf w 44 33, cvc := fieldOf w 32 30,
    credits := fieldOf w 29 22, sop := w.testBit 21, eop := w.testBit 20, pairs := fieldOf w 19 13, hub := w.testBit 12,
    dest := fieldOf w 11 6, rsvd := fieldOf w 5 0 }

/-- A flit: header, payload of 240 bytes, check. -/
def flitBytes (h : FlitHdr) (payload : List Byte) : List Byte :=
  let b := natBytes 8 h.word ++ fitList 240 0 payload
  b ++ natBytes 8 (crc64 b)

/-- The header of a flit that passes its check and has no reserved TYPE, VC or bit; `none` is a flit that fails. -/
def readFlit (f : List Byte) : Option FlitHdr :=
  let h := flitHdr (beNat (f.take 8))
  if f.length = 256 ∧ beNat (f.drop 248) = crc64 (f.take 248) ∧ h.type ≤ 3 ∧ h.vc ≤ 4 ∧ h.rsvd = 0 then some h else none

/-- Sequence numbers are modulo 4,096. -/
def seqPrev (n : Nat) : Nat := (n + 4095) % 4096
def seqNext (n : Nat) : Nat := (n + 1) % 4096

/-! ### Credits (R420) -/

/-- The credits of a channel at INIT. -/
def initCredits : List (Nat × Nat) := [(0, 128), (1, 128), (2, 384), (3, 32), (4, 8)]

/-- The credits the next flit returns: a channel and at most 255. -/
def Port.returning (p : Port) : Nat × Nat :=
  match p.toReturn.find? fun e => e.2 != 0 with
  | some e => (e.1, min 255 e.2)
  | none => (0, 0)

/-- Take returned credits off the list. -/
def Port.returned (p : Port) (r : Nat × Nat) : Port := { p with toReturn := tupd r.1 0 (fun n => n - r.2) p.toReturn }

/-! ### Sending -/

/-- The hub answers or sleeps by its own decision; it has stopped during a save (R418, R424). -/
def State.hubAlive (s : State) : Bool := s.power.save.isNone

/-- A port that has a link (R426). -/
def Port.up (p : Port) : Bool := decide (2 ≤ p.state)

/-- The header fields common to every flit of a port; while the hub sleeps or has stopped no credit returns (R515). -/
def State.hdrOf (s : State) (p : Port) (type : Nat) : FlitHdr :=
  let r := if s.power.hubAsleep ∨ !s.hubAlive then (0, 0) else p.returning
  { type := type, vc := 0, seq := p.txSeq, ack := seqPrev p.rxExp, cvc := r.1, credits := r.2, sop := false, eop := false,
    pairs := 0, hub := s.hubAlive, dest := 0, rsvd := 0 }

/-- Put a flit on the wire. -/
def State.putFlit (s : State) (p : Nat) (h : FlitHdr) (payload : List Byte) : State :=
  s.updPort p fun x => { x.returned (h.cvc, h.credits) with lastTx := s.now, out := x.out ++ [flitBytes h payload] }

/-- Send a flit that carries no payload: IDLE 1, RETRY_REQ 2, INIT 3. -/
def State.sendPlain (s : State) (p type : Nat) : State := s.putFlit p (s.hdrOf (s.portOf p) type) []

/-- The header of a PAYLOAD flit. -/
def State.payloadHdr (s : State) (x : Port) (seq : Nat) (f : TxFlit) : FlitHdr :=
  { s.hdrOf x 0 with
    vc := f.vc, seq := seq, sop := f.sop, eop := f.eop, pairs := ceilDiv f.bytes.length 3, dest := f.dest }

/-- A SYNC_RESP is stamped with T3 as it leaves; the fraction of the tick is a free value (R437, assumption 4: DESIGN CHOICE). -/
def State.stampT3 (s : State) (f : TxFlit) : TxFlit :=
  if f.vc = 4 ∧ (nth f.bytes 0 0) = 2 then
    { f with bytes := f.bytes.take 22 ++ natBytes 9 (s.now * 64 + s.freeBits 6) ++ f.bytes.drop 31 }
  else f

/-- Send a new PAYLOAD flit: it takes a credit, a number, and a place in the replay buffer (R420, R422). -/
def State.sendNew (s : State) (p : Nat) (f0 : TxFlit) : State :=
  let x := s.portOf p
  let f := s.stampT3 f0
  let s1 := s.putFlit p (s.payloadHdr x x.txSeq f) f.bytes
  let s2 := s1.updPort p fun y => { y with
    replay := y.replay ++ [(x.txSeq, f)], txSeq := seqNext x.txSeq, credits := tupd f.vc 0 (fun n => n - 1) y.credits }
  (s2.advanceFree).bump (0x1110 + p) 7 [] 0

/-- A port may send a new PAYLOAD flit on a channel: it holds a credit, has room to replay it, and nothing to resend. -/
def Port.maySend (x : Port) (vc : Nat) : Bool :=
  decide (0 < tgetD vc 0 x.credits) && decide (x.replay.length < 1024) && x.resend.isEmpty

/-- The channels a round of twelve visits: CPL 4, CMD 4, DATA 3, MGMT 1 (R421). -/
def roundOf : List Nat := [1, 1, 1, 1, 0, 0, 0, 0, 2, 2, 2, 3]

/-- The head of a channel that may go: in HELLO and ATTEST only MGMT passes, in LEAVING no new capsule starts (R426). -/
def Port.head (x : Port) (vc : Nat) : Option TxFlit :=
  match tgetD vc [] x.txq with
  | [] => none
  | f :: _ =>
    if !(x.maySend vc) ∨ ((x.state = 2 ∨ x.state = 3) ∧ vc ≠ 3) ∨ (x.state = 5 ∧ f.sop) then none else some f

/-- The next channel in the order of R421, with the place of the round after it. -/
def Port.choose (x : Port) : Option (Nat × Nat) :=
  if (x.head 4).isSome then some (4, x.wrr)
  else
    let places := (List.range 12).map fun k => (x.wrr + k) % 12
    (places.find? fun k => (x.head (nth roundOf k 0)).isSome).map fun k => (nth roundOf k 0, (k + 1) % 12)

/-! ### Capsules that leave (R440, R444, R451, R458, R459) -/

/-- Flits of at most 240 bytes of an image; the first starts the capsule, the last ends it. -/
def flitsOf (vc dest : Nat) : Nat → Bool → List Byte → List TxFlit
  | 0, _, _ => []
  | n + 1, first, b =>
    if b.length ≤ 240 then [(⟨vc, first, true, dest, b⟩ : TxFlit)]
    else (⟨vc, first, false, dest, b.take 240⟩ : TxFlit) :: flitsOf vc dest n false (b.drop 240)

/-- The image of a capsule: completed to whole groups of three bytes (R444). -/
def capsuleImage (b : List Byte) : List Byte := b ++ List.replicate ((3 - b.length % 3) % 3) 0

/-- A capsule as flits. -/
def capsuleFlits (vc dest : Nat) (b : List Byte) : List TxFlit :=
  let i := capsuleImage b
  flitsOf vc dest (i.length / 240 + 1) true i

/-- Queue a capsule on a port. -/
def State.queueCapsule (s : State) (p vc dest : Nat) (b : List Byte) : State :=
  s.updPort p fun x => { x with txq := tupd vc [] (fun l => l ++ capsuleFlits vc dest b) x.txq }

/-- The bytes of a completion (R451). -/
def Completion.bytes (c : Completion) : List Byte :=
  completionBytes c.cid c.status c.gen c.qid c.sqHead c.resultLen c.detail ++ natBytes 4 c.check

/-- Bytes with their CRC-32C. -/
def withCrc (b : List Byte) : List Byte := b ++ natBytes 4 (crc32c b)

/-- The bytes of an answer (R458). -/
def AnswerOut.bytes (a : AnswerOut) : List Byte :=
  withCrc (natBytes 2 2 ++ natBytes 2 a.aq ++ natBytes 2 a.ctx ++ natBytes 2 a.gen ++ natBytes 8 a.itemId ++ natBytes 8 a.arrival ++
    natBytes 8 a.tick ++ natBytes 2 a.flags.toNat ++ natBytes 2 a.status ++ natBytes 2 a.answer.length ++ natBytes 2 0 ++
    packBytes a.answer)

/-- The bytes of a result capsule (R459). -/
def ResultOut.bytes (r : ResultOut) : List Byte :=
  withCrc (natBytes 2 (if r.last then 4 else 3) ++ natBytes 2 r.rq ++ natBytes 2 r.ctx ++ natBytes 2 r.gen ++ natBytes 4 r.run ++
    natBytes 4 r.seq ++ natBytes 2 r.rows.length ++ natBytes 2 r.rowCourses ++ natBytes 2 r.status ++
    natBytes 6 r.total ++ packBytes r.rows.flatten)

/-- The port a capsule leaves on: its own while that is JOINED, otherwise the other host-facing one (R440). -/
def State.hostPort (s : State) (p : Nat) : Option Nat :=
  let live := fun (k : Nat) => (s.portOf k).state == 4 && (s.portOf k).role == 1
  if live p then some p else (List.range 8).find? live

/-- Hand the next result, answer or completion whose port this is to the port: results go before the completion of their
run. -/
def State.pullOutput (s : State) (p : Nat) : State :=
  let mine := fun (q : Nat) => s.hostPort q == some p
  match s.host.results.findIdx? (fun r => !r.tx && mine 0), s.host.answers.findIdx? (fun a => !a.tx && mine a.port),
      s.host.completions.findIdx? (fun c => !c.tx && decide (c.port < 64) && !(s.fanning c) && mine c.port) with
  | some k, _, _ =>
    let b := ((s.host.results[k]?).map ResultOut.bytes).getD []
    ({ s with host := { s.host with results := s.host.results.modify k fun r => { r with tx := true } } } : State).queueCapsule p 1 0 b
  | none, some k, _ =>
    let b := ((s.host.answers[k]?).map AnswerOut.bytes).getD []
    ({ s with host := { s.host with answers := s.host.answers.modify k fun r => { r with tx := true } } } : State).queueCapsule p 1 0 b
  | none, none, some k =>
    let b := ((s.host.completions[k]?).map Completion.bytes).getD []
    let hs := { s.host with completions := s.host.completions.modify k fun r => { r with tx := true } }
    ({ s with host := hs } : State).queueCapsule p 1 0 b
  | none, none, none => s

/-- Hand the next message for a member that this port is the way to, to the port, with its route sequence number (R425). -/
def State.pullMember (s : State) (p : Nat) : State :=
  let s0 := s.replyMember
  match s0.group.outbox.findIdx? fun e => tget e.1 s0.group.routes == some p with
  | none => s0
  | some k => match s0.group.outbox[k]? with
    | none => s0
    | some (n, m) =>
      let q := tgetD n 0 s0.group.sentSeq
      let g := { s0.group with outbox := s0.group.outbox.eraseIdx k, sentSeq := tset n (q + 1) s0.group.sentSeq }
      ({ s0 with group := g } : State).queueCapsule p m.vc n (Config.memberBytes s0.group.node q m)

/-- Send the flit of the order of R421: a retransmission with its own number and credit, then new flits. -/
def State.sendNext (s : State) (p : Nat) : State :=
  let x := s.portOf p
  match x.resend with
  | n :: rest =>
    let s1 := s.updPort p fun y => { y with resend := rest }
    match tget n x.replay with
    | none => s1
    | some f => (s1.putFlit p (s1.payloadHdr x n f) f.bytes).bump (0x1110 + p) 9 [] 0
  | [] =>
    match x.choose with
    | none => s
    | some (vc, w) =>
      match x.head vc with
      | none => s
      | some f =>
        (s.updPort p fun y => { y with wrr := w, txq := tupd vc [] (fun l => l.drop 1) y.txq }).sendNew p f

/-- FLIT_SEND (R421). A stopped or sleeping hub sends no PAYLOAD flit (R520, R515). -/
def execFlitSend (port : Nat) (s : State) : Out :=
  .next <|
    let x := s.portOf port
    if 8 ≤ port ∨ !x.up ∨ s.power.hubAsleep ∨ s.power.frozen then s
    else
      let s1 := if x.state = 4 ∧ x.role = 1 ∧ (tgetD 1 [] x.txq).isEmpty then s.pullOutput port
        else if x.state = 4 ∧ x.role = 2 ∧ x.txq.all (fun e => e.2.isEmpty) then s.pullMember port else s
      s1.sendNext port

/-- IDLE_KEEPALIVE_SEND (R424): 25 ticks without a flit; the plinth sends it when the hub cannot. -/
def execIdleKeepaliveSend (port : Nat) (s : State) : Out :=
  .next <|
    let x := s.portOf port
    if 8 ≤ port ∨ !x.up ∨ s.now < x.lastTx + 25 then s else s.sendPlain port 1

/-! ### Lanes and ports going down (R417, R424, R440) -/

/-- The lanes a port moves to: the pair without a faulty lane, else the lowest good lane. -/
def lanesFor (faulty : List Nat) : List Nat :=
  let good := fun (l : Nat) => !(faulty.contains l)
  if good 0 ∧ good 1 then [0, 1] else if good 2 ∧ good 3 then [2, 3]
  else ((List.range 4).find? good).toList

/-- The exposures of ports, lanes and members end when they are back (R497). -/
def State.settlePorts (s : State) : State :=
  let ps := (List.range 8).map s.portOf
  let bits := [(1, ps.all fun x => !x.up || x.lanes.length == 4), (2, ps.all fun x => x.role != 1 || x.state == 4),
    (3, ps.all fun x => x.role != 2 || x.state == 4), (12, s.group.members.all fun m => m.state != 0)]
  { s with err := { s.err with
      exposed := bits.foldl (fun (n : Nat) e => if e.2 then withoutBits n (2 ^ e.1) else n) s.err.exposed } }

/-- A port enters DARK with an empty link; what it is for and what it has sent stay (R424, R426). -/
def State.darken (s : State) (p : Nat) (held : Bool) : State :=
  s.updPort p fun x => { portReset with
    since := s.now, held := held, role := x.role, partner := x.partner, partnerNode := x.partnerNode,
    partnerCaps := x.partnerCaps, out := x.out }

/-- The flits a port still held: not acknowledged, then not sent. -/
def Port.unsent (x : Port) : List TxFlit := x.replay.map (·.2) ++ ((x.txq.filter fun e => e.1 != 4).flatMap (·.2))

/-- Put flits in front of a port's queues (R440). -/
def State.resendOn (s : State) (p : Nat) (fs : List TxFlit) : State :=
  s.updPort p fun x => { x with
    txq := fs.foldr (fun f l => tupd f.vc [] (fun q => f :: q) l) x.txq }

/-- A member-facing port that goes down is reported to the leader and to the deputy (R431). -/
def State.reportDown (s : State) (partner : Nat) : State :=
  ([s.group.leader, s.group.deputy].eraseDups.filter fun n => s.group.grouped && n != s.group.node && n != partner).foldl
    (fun (t : State) n => t.tell n (.portDown partner)) s

/-- A port goes down (R424): a host-facing port's flits leave through the other one; a member-facing port's are held for
the new routes, and its partner is reported (R431, R440). -/
def State.portDown (s : State) (p : Nat) : State :=
  let x := s.portOf p
  let s1 := (s.darken p false).bumpBy (0x1110 + p) 10 [] 0 u32Max 1
  let s2 := if x.role = 2 then s1.recovery 3 0 4 (p + 56) 0x0692 p true else s1.recovery 2 0 4 (p + 56) 0x0692 p true
  if x.role = 2 then
    ({ s2 with group := { s2.group with heldTx := s2.group.heldTx ++ x.unsent } } : State).reportDown x.partnerNode |>.rerun .group
  else match s2.hostPort p with
    | some q => s2.resendOn q x.unsent
    | none => s2

/-- LANE_FAULT (R417). -/
def execLaneFault (port lane : Nat) (s : State) : Out :=
  .next <|
    let x := s.portOf port
    if 8 ≤ port ∨ !x.up ∨ !(x.lanes.contains lane) then s
    else
      let faulty := x.faulty ++ [lane]
      let lanes := lanesFor faulty
      if lanes.isEmpty then s.portDown port
      else
        let s1 := (s.updPort port fun y => { y with lanes := lanes, faulty := faulty }).bumpBy (0x1110 + port) 11 [] 0 u32Max 1
        s1.recovery 1 0 4 (port + 8 * lane) 0x0691 lane true

/-- KEEPALIVE_MISS (R424): an interval of 25 ticks is over; without a good flit it is a miss, and the eighth in a row takes
the port down. -/
def execKeepaliveMiss (port : Nat) (s : State) : Out :=
  .next <|
    let x := s.portOf port
    if 8 ≤ port ∨ !x.up ∨ s.now < x.intervalStart + 25 then s
    else if x.goodInInterval then
      s.updPort port fun y => { y with misses := 0, goodInInterval := false, intervalStart := s.now }
    else if 7 ≤ x.misses then s.portDown port
    else s.updPort port fun y => { y with misses := y.misses + 1, intervalStart := s.now }

/-! ### Receiving (R420, R422, R424) -/

/-- An acknowledged number and every one before it leave the replay buffer. -/
def Port.acked (x : Port) (n : Nat) : Port :=
  match x.replay.findIdx? fun e => e.1 == n with
  | none => x
  | some k =>
    let gone := (x.replay.take (k + 1)).map (·.1)
    { x with replay := x.replay.drop (k + 1), resend := x.resend.filter fun m => !(gone.contains m) }

/-- A flit that passes its check counts for keep-alive, acknowledges and returns credits (R420, R422, R424). -/
def Port.heard (x : Port) (h : FlitHdr) : Port :=
  { x.acked h.ack with goodInInterval := true, credits := tupd h.cvc 0 (fun n => n + h.credits) x.credits }

/-- A member-facing port that hears HUB 0 reports the partner's hub as stopped, and the member is lost (R424, R431). -/
def FlitHdr.stopped (h : FlitHdr) (s : State) (p : Nat) : Bool := !h.hub && s.group.grouped && (s.portOf p).role == 2

/-- A failing check or an unexpected number: one RETRY_REQ, and every flit is discarded until the expected one comes. -/
def State.askRetry (s : State) (p : Nat) : State :=
  if (s.portOf p).retrySent.isSome then s
  else (s.sendPlain p 2).updPort p fun x => { x with retrySent := some s.now }

/-- A flit that fails its check is counted (R419, R422). -/
def State.badFlit (s : State) (p : Nat) : State := (s.bump (0x1110 + p) 8 [] 0).askRetry p

/-- The port retrains, keeping its replay buffer and its credits (R423). -/
def State.retrain (s : State) (p : Nat) : State :=
  s.updPort p fun x => { x with
    state := 1, since := s.now, retrain := some x.state, trained := false, initSeen := false, retryCount := 0, retrySent := none }

/-- The sixteenth request at the same ACK without progress retrains the port; every other resends what follows it (R422,
R423). -/
def State.retryAsked (s : State) (p : Nat) (h : FlitHdr) : State :=
  let x := s.portOf p
  let n := if x.retryAck = h.ack then x.retryCount + 1 else 1
  let s1 := s.updPort p fun y => { y with retryAck := h.ack, retryCount := n, resend := y.replay.map (·.1) }
  if 16 ≤ n then s1.retrain p else s1

/-- RETRY_REQ_RESEND (R422): a RETRY_REQ that brought nothing in 25 ticks is sent again. -/
def execRetryReqResend (port : Nat) (s : State) : Out :=
  .next <|
    let x := s.portOf port
    if port < 8 ∧ x.up ∧ x.retrySent.any (fun t => decide (t + 25 ≤ s.now)) then
      (s.sendPlain port 2).updPort port fun y => { y with retrySent := some s.now }
    else s

/-! ### Command capsules (R444-R449, R452) -/

/-- The roles a command code reaches; none for a reserved code (R460). A ledger read of seals is open to any role. -/
def opRoles (op : Nat) (param : List Byte) : Option (List Nat) :=
  if [0x0001, 0x0002, 0x0003, 0x0004, 0x0010, 0x0011, 0x0056, 0x0070].contains op then some anyRole
  else if op = 0x0050 then some (if (nth param 0 0) = 2 then anyRole else tenantRole)
  else if [0x0020, 0x0021, 0x0022, 0x0023, 0x0024, 0x0030, 0x0031, 0x0032, 0x0033, 0x0034, 0x0035, 0x0040, 0x0041, 0x0051,
      0x0052, 0x0053, 0x0054, 0x0055, 0x0065, 0x0080].contains op then some tenantRole
  else if [0x0060, 0x0061, 0x0062].contains op then some operatorRole
  else if [0x0057, 0x0058, 0x0063, 0x0064, 0x0071, 0x0072].contains op then some custodianRole
  else none

/-- The bits of PARAM a command uses, 16 bytes as one number (R460). -/
def paramMask (op : Nat) : Nat :=
  let from0 := fun (n : Nat) => (2 ^ (8 * n) - 1) * 2 ^ (8 * (16 - n))
  match op with
  | 0x0002 => 0xFFFFFF00FFFFFFFF0000000000000000
  | 0x0003 => from0 2
  | 0x0004 => from0 2
  | 0x0010 => from0 16
  | 0x0011 => from0 16
  | 0x0021 => from0 2
  | 0x0022 => 0xFFFF0000FFFFFFFF0000000000000000
  | 0x0023 => from0 5
  | 0x0024 => from0 3
  | 0x0030 => from0 12
  | 0x0031 => from0 3
  | 0x0032 => from0 5
  | 0x0033 => from0 5
  | 0x0034 => from0 5
  | 0x0035 => from0 7
  | 0x0040 => from0 3
  | 0x0041 => from0 2
  | 0x0050 => 0xFF00FFFFFFFFFFFFFFFFFFFFFFFFFFFF
  | 0x0051 => from0 16
  | 0x0053 => from0 8
  | 0x0054 => from0 8
  | 0x0055 => from0 8
  | 0x0057 => 0xFFFFFF0000000000FFFFFFFFFFFFFFFF
  | 0x0058 => from0 1
  | 0x0060 => from0 3
  | 0x0061 => from0 2
  | 0x0062 => from0 2
  | 0x0063 => 0x0FFFFFFFFFFF00000000000000000000
  | 0x0064 => 0x0FFFFF00000000000000000000000000
  | 0x0065 => from0 2
  | 0x0071 => 0xFFFFFFFF010000000000000000000000
  | 0x0080 => from0 2
  | _ => 0

/-- The first byte of the header with a reserved bit set (R445). -/
def reservedAt (img : List Byte) : Option Nat :=
  let op := beNat (img.take 2)
  let flags := beNat (slice img 2 2)
  if fieldOf flags 14 8 ≠ 0 then some 2
  else if fieldOf flags 7 0 ≠ 0 then some 3
  else if (opRoles op []).isNone then none
  else
    let bad := withoutBits (beNat (fitList 16 0 (slice img 16 16))) (paramMask op)
    ((List.range 16).find? fun k => fieldOf bad (127 - 8 * k) (120 - 8 * k) != 0).map fun k => 16 + k

/-- The header of a capsule image. -/
def capsuleHdr (img : List Byte) : CmdHdr where
  fence := (beNat (slice img 2 2)).testBit 15
  pid := beNat (slice img 4 4) / 4096
  gen := beNat (slice img 4 4) % 4096
  cid := beNat (slice img 8 2)
  qid := beNat (slice img 10 2)
  descs := (List.range 4).map fun k => beNat (slice img (32 + 8 * k) 8)

/-- Checks 1 to 7 of R448 on the header: 0, or the status with its detail. -/
def State.arrivalChecks (s : State) (img : List Byte) : Nat × Nat :=
  let h := capsuleHdr img
  let op := beNat (img.take 2)
  match reservedAt img with
  | some k => (0x0101, k)
  | none =>
    if 0x4000000 < beNat (slice img 12 4) then (0x0102, 12)
    else match s.bindingOf h.pid with
      | none => (0x0901, 4)
      | some b =>
        if h.gen ≠ s.genOf b.slice then (0x0902, 6)
        else match opRoles op (slice img 16 16) with
          | none => (0x0105, 0)
          | some roles =>
            let reach := if op = 0x0010 ∨ op = 0x0011 then
              s.objReach b.role b.slice (paramAddr (slice img 16 16)).1 (op == 0x0011) else 0
            if !(roles.contains b.role) then (0x0904, 0)
            else if reach ≠ 0 then (reach, 16)
            else match s.queueOf b.slice h.qid with
              | none => (0x0106, 10)
              | some q =>
                if q.kind ≠ (if op = 0x0080 then 2 else 0) then (0x0107, 10)
                else if q.kind = 0 ∧ q.outstanding.contains h.cid then (0x0108, 8)
                else if q.kind = 0 ∧ q.depth ≤ q.outstanding.length + 1 then (0x0109, 10)
                else (0, 0)

/-- The length checks of R449: 0, or the status. -/
def lengthChecks (img : List Byte) : Nat :=
  let n := 64 + beNat (slice img 12 4)
  let e := 3 * ceilDiv n 3
  if img.length < e then 0x0103 else if e < img.length then 0x0104
  else if (img.drop n).all (fun x => x == 0) then 0 else 0x0101

/-- A refusal, posted for a port. -/
def State.refuseOn (s : State) (p : Nat) (h : CmdHdr) (status detail : Nat) : State :=
  let t := s.refuse h status detail
  { t with host := { t.host with
      completions := t.host.completions.modify (t.host.completions.length - 1) fun c => { c with port := p } } }

/-- Accept a capsule that has passed its length checks: a command becomes outstanding (R446, R448, R450). -/
def State.acceptCapsule (s : State) (p : Nat) (img : List Byte) : State :=
  let h := capsuleHdr img
  let op := beNat (img.take 2)
  match s.bindingOf h.pid with
  | none => s
  | some b =>
    let a : Accepted := ⟨h.pid, b.role, b.slice, h.qid, h.cid, op, p, none⟩
    let s1 : State := { s with host := { s.host with accepted := s.host.accepted ++ [a] } }
    if op = 0x0080 then s1
    else match s1.queueOf b.slice h.qid with
      | none => s1
      | some q =>
        let q' := { q with outstanding := q.outstanding ++ [h.cid], accepted := q.accepted + 1 }
        ({ s1 with host := { s1.host with
            queues := putQueue q' s1.host.queues
            cmdPort := tset (b.slice, h.qid, h.cid) p s1.host.cmdPort } } : State).bump 0x1120 1 [] b.slice

/-- Payload of a capsule on a channel of a host-facing port: checks 1 to 7 at its first flit, checks 8 at its last. A header
cut short is read with zeros. -/
def State.takeCommand (s : State) (p : Nat) (h : FlitHdr) (bytes : List Byte) : State :=
  let x := s.portOf p
  let setAsm := fun (b : List Byte) (d : List Nat) (t : State) => t.updPort p fun y => { y with asm := tset h.vc b y.asm, discard := d }
  let img := (if h.sop then [] else tgetD h.vc [] x.asm) ++ bytes
  let first := if h.sop then s.arrivalChecks (fitList (max 64 img.length) 0 img) else (0, 0)
  let dropped := !h.sop && x.discard.contains h.vc
  let others := x.discard.filter fun v => v != h.vc
  if dropped then (if h.eop then setAsm [] others s else s)
  else if first.1 ≠ 0 then
    (setAsm [] (if h.eop then others else h.vc :: others) s).refuseOn p (capsuleHdr (fitList 64 0 img)) first.1 first.2
  else if !h.eop then setAsm img others s
  else
    let code := lengthChecks img
    let t := setAsm [] others s
    if code ≠ 0 then t.refuseOn p (capsuleHdr (fitList 64 0 img)) code img.length else t.acceptCapsule p img

/-- A flit for another member goes on toward it when its capsule is whole, so that capsules of a channel never interleave
(R421, R425). -/
def State.passFlit (s : State) (p : Nat) (h : FlitHdr) (bytes : List Byte) : State :=
  let f : TxFlit := ⟨h.vc, h.sop, h.eop, h.dest, bytes⟩
  let x := s.portOf p
  let fs := (if h.sop then [] else tgetD h.vc [] x.transit) ++ [f]
  if !h.eop then s.updPort p fun y => { y with transit := tset h.vc fs y.transit }
  else
    let s1 := s.updPort p fun y => { y with transit := tset h.vc [] y.transit }
    match tget h.dest s.group.routes with
    | none => { s1 with group := { s1.group with heldTx := s1.group.heldTx ++ fs } }
    | some q => s1.updPort q fun y => { y with txq := tupd h.vc [] (fun l => l ++ fs) y.txq }

/-- Payload of a capsule from a member (R425). -/
def State.takeMember (s : State) (p : Nat) (h : FlitHdr) (bytes : List Byte) : State :=
  let img := (if h.sop then [] else tgetD h.vc [] (s.portOf p).asm) ++ bytes
  let s1 := s.updPort p fun y => { y with asm := tset h.vc (if h.eop then [] else img) y.asm }
  if h.eop then s1.memberCapsule img else s1

/-- What an accepted flit carries: on to another member, into a command or item capsule of a host-facing port, or a message
of a member. The messages of discovery and of time are the commands of their own rows. -/
def State.takePayload (s : State) (p : Nat) (h : FlitHdr) (bytes : List Byte) : State :=
  let x := s.portOf p
  if x.state ≠ 4 then s
  else if s.group.grouped ∧ h.dest ≠ s.group.node then s.passFlit p h bytes
  else if x.role = 1 ∧ (h.vc = 0 ∨ h.vc = 2 ∨ h.vc = 3) then s.takeCommand p h bytes
  else if x.role = 2 ∧ s.group.grouped ∧ h.vc ≤ 3 then s.takeMember p h bytes
  else s

/-- A PAYLOAD flit that passes its check: taken in sequence, or asked for again (R422). -/
def State.takePayloadFlit (s : State) (p : Nat) (h : FlitHdr) (flit : List Byte) : State :=
  let s1 := s.updPort p fun x => x.heard h
  if h.seq ≠ (s1.portOf p).rxExp ∨ h.pairs = 0 ∨ 80 < h.pairs then s1.askRetry p
  else
    let s2 := s1.updPort p fun y => { y with
      rxExp := seqNext y.rxExp, retrySent := none, toReturn := tupd h.vc 0 (fun n => n + 1) y.toReturn }
    s2.takePayload p h (slice flit 8 (3 * h.pairs))

end Sys2Proof.Machine
end

