-- ==== Sys2Proof/Machine/Thermal.lean ====
section
/-! DEFINITION. Throttle steps (R272, R273), the thermal floor (R46-R49) and the 110 °C trip (R499). -/

namespace Sys2Proof.Machine

/-! ### Steps (R272, R273) -/

/-- The threshold of a throttle step, in °C. -/
def stepThreshold (k : Nat) : Int :=
  match k with
  | 1 => 85
  | 2 => 90
  | _ => 95

/-- The step a temperature calls for. -/
def stepFor (t : Int) : Nat := if 95 ≤ t then 3 else if 90 ≤ t then 2 else if 85 ≤ t then 1 else 0

/-- Since when a temperature is at least 3 °C below the threshold of each step. -/
def coolMarks (bay : Nat) (temp : Int) (now : Tick) (l : List (Nat × Tick)) : List (Nat × Tick) :=
  [1, 2, 3].foldl (fun (acc : List (Nat × Tick)) k =>
    if temp + 3 ≤ stepThreshold k then (if (tget (bay * 4 + k) acc).isSome then acc else acc ++ [(bay * 4 + k, now)])
    else tdel (bay * 4 + k) acc) l

/-- The step after a report: slower at once, faster by one step after 2,500 ticks of cool. -/
def State.nextStep (s : State) (bay : Nat) (temp : Int) : Nat :=
  let k := s.stepOf bay
  if k < stepFor temp then stepFor temp
  else if k ≠ 0 ∧ ((tget (bay * 4 + k) s.therm.coolSince).map fun t => decide (t + 2500 ≤ s.now)).getD false then k - 1
  else k

/-! ### The thermal floor (R46-R49) -/

/-- A live bay is at a step below THERMAL_FLOOR_RATE. -/
def State.belowFloor (s : State) : Bool := decide (s.floorRate < s.worstStep)

/-- Every live bay's temperature is at least 3 °C below the threshold of the step that caused the condition (R49). -/
def State.floorCools (s : State) : Bool :=
  s.therm.temps.all fun e => !(s.bayLive e.1) || decide (e.2 + 3 ≤ stepThreshold s.therm.floorStep)

/-- While the condition of R46 persists, since when every live bay has been cool without a break (R49). -/
def State.floorWatch (s : State) : State :=
  if s.therm.floor then
    { s with therm := { s.therm with floorCool := if s.floorCools then some (s.therm.floorCool.getD s.now) else none } }
  else s

/-- The condition of R46 begins: THERMAL_FLOOR is set, B dispatch stops (R46). -/
def State.enterFloor (s : State) (bay : Nat) : State :=
  let s1 := (s.setObj 0x3001 2 [] 0 (.num 1)).stick (bayRing bay) 5
  { s1 with therm := { s1.therm with floor := true, bSuspended := true, floorStep := s.worstStep, floorCool := none } }

/-- After a report: the condition begins, or persists with its recomputation (R47); its end is timed (R49). -/
def State.floorCheck (s : State) (bay : Nat) : State :=
  (if s.belowFloor then (if s.therm.floor then s else s.enterFloor bay).atRiskNow
   else if s.therm.floor then s.atRiskNow else s).floorWatch

/-- THROTTLE_STEP_CHANGE (R273): the bay reports its junction temperature; the bank runs at the new step from its next
frame. -/
def execThrottleStepChange (bay : Nat) (temp : Int) (s : State) : Out :=
  .next <|
    if !(s.bayLive bay) then s
    else
      let s1 : State := { s with therm := { s.therm with
        temps := tset bay temp s.therm.temps, coolSince := coolMarks bay temp s.now s.therm.coolSince } }
      let s2 : State := { s1 with therm := { s1.therm with steps := tset bay (s1.nextStep bay temp) s1.therm.steps } }
      s2.floorCheck bay

/-- THERMAL_FLOOR_EXIT (R49): every bay is back at the floor, and has been cool for a second. -/
def execThermalFloorExit (s : State) : Out :=
  .next <|
    if s.therm.floor ∧ !s.belowFloor ∧ s.floorCools ∧ (s.therm.floorCool.map fun t => decide (t + 25000000 ≤ s.now)).getD false then
      { s with therm := { s.therm with floor := false, bSuspended := false, shedding := false, atRisk := [], floorCool := none } }
    else s

/-! ### The trip (R499) -/

/-- THERMAL_TRIP (R499): at 110 °C a bay is powered off at once and is lost. -/
def execThermalTrip (bay : Nat) (temp : Int) (s : State) : Out :=
  .next <|
    if !(s.bayLive bay) ∨ temp < 110 then s
    else
      let s1 := (s.record 0 2 bay 0x0698 0).loseBay bay
      let s2 := s1.setBayPower bay ⟨3, s.now, none⟩
      ({ s2 with therm := { s2.therm with
          temps := tset bay temp s2.therm.temps, tripped := tset bay none s2.therm.tripped } } : State).floorWatch

/-- The exposures of fenced units end when the last of their kind is back (R497). -/
def State.settleExposed (s : State) : State :=
  let bits := [(0, s.mason.fencedStones.isEmpty), (8, s.mason.lostBays.isEmpty), (9, s.mason.fencedLanes.isEmpty),
    (10, s.hod.settFenced.isEmpty)]
  { s with err := { s.err with
      exposed := bits.foldl (fun (n : Nat) e => if e.2 then withoutBits n (2 ^ e.1) else n) s.err.exposed } }

/-- A bay is powered up again: its fenced units have run their self-tests and rejoin when these passed (R498). -/
def State.unfenceBay (s : State) (bay : Nat) : State :=
  ({ s with
    mason := { s.mason with
      fencedStones := s.mason.fencedStones.filter fun e => e.1 != bay
      fencedLanes := s.mason.fencedLanes.filter fun e => e.1 != bay
      slots := s.mason.slots.filter fun e => e.1.1 != bay
      stoneFaults := tdel bay s.mason.stoneFaults }
    hod := { s.hod with settFenced := s.hod.settFenced.erase bay, settFails := tdel bay s.hod.settFails } } : State).settleExposed

/-- BAY_REOFFER (R499): a tripped bay below 95 °C for a second with a passing self-test is offered to Mason again. -/
def execBayReoffer (bay : Nat) (temp : Int) (selfTest : Bool) (s : State) : Out :=
  .next <|
    match tget bay s.therm.tripped with
    | none => s
    | some since =>
      if 95 ≤ temp then { s with therm := { s.therm with tripped := tset bay none s.therm.tripped } }
      else
        let t0 := since.getD s.now
        if selfTest ∧ t0 + 25000000 ≤ s.now then
          let s1 : State := { s with
            mason := { s.mason with lostBays := s.mason.lostBays.filter fun b => b != bay }
            therm := { s.therm with
              tripped := tdel bay s.therm.tripped, temps := tset bay temp s.therm.temps, steps := tdel bay s.therm.steps } }
          s1.floorWatch.unfenceBay bay
        else { s with therm := { s.therm with tripped := tset bay (some t0) s.therm.tripped } }

end Sys2Proof.Machine
end

