-- ==== Sys2Proof/Machine/ObjValues.lean ====
section
/-! DEFINITION. What every object reads as at this device, its bays and its stones, for the device itself or through a slice
view (R13, R17, R53, R198, R199, R278, R310, R330, R356, R392, R411, R441, R463, R471, R474, R490, R510, R528, R547). -/

namespace Sys2Proof.Machine

/-! ### Arches (R12, R470) -/

/-- An addressed arch: the group, a group nested in it, this device, a bay, a logical stone, or something of another
member. -/
inductive Arch where
  | group
  | nested (g : List Nat)
  | device
  | bay (b : Nat)
  | stone (b l : Nat)
  | other
deriving DecidableEq, Repr

/-- The child of a group at depth `d` in which a member lies: a nested group, or the member itself. -/
def Member.childKey (d : Nat) (m : Member) : Bool × Nat :=
  match m.path[d]? with
  | some g => (true, g)
  | none => (false, m.node)

/-- The children of a group in child order, the order of their first members, each with its members (R12, R13; assumption
54: DESIGN CHOICE). -/
def State.groupChildren (s : State) (g : List Nat) : List ((Bool × Nat) × List Member) :=
  let ms := s.group.members.filter fun m => m.path.take g.length == g
  (ms.map (Member.childKey g.length)).eraseDups.map fun k => (k, ms.filter fun m => m.childKey g.length == k)

/-- The place of a child among the children of a group. -/
def State.childIndex (s : State) (g : List Nat) (k : Bool × Nat) : Nat := ((s.groupChildren g).findIdx? fun c => c.1 == k).getD 0

/-- The arch path of this device from the top arch (R12, R13). -/
def State.archEntries (s : State) : List Nat :=
  match (if s.group.grouped then s.group.members.find? fun m => m.node == s.group.node else none) with
  | some m => (List.range (m.path.length + 1)).map fun d => s.childIndex (m.path.take d) (m.childKey d)
  | none => []

/-- A path below this device. -/
def localArch (path : List Nat) : Option Arch :=
  match path with
  | [] => some .device
  | [b] => if b < 16 then some (.bay b) else none
  | [b, l] => if b < 16 ∧ l < 16 then some (.stone b l) else none
  | _ => none

/-- The arch a path names below a group (R12). -/
def State.groupArch (s : State) : List Nat → List Nat → Option Arch
  | [], g => some (if g.isEmpty then .group else .nested g)
  | k :: rest, g =>
    match (s.groupChildren g)[k]? with
    | some ((true, n), ms) => if ms.any fun m => m.state != 0 then State.groupArch s rest (g ++ [n]) else none
    | some ((false, n), ms) =>
      if n = s.group.node then localArch rest
      else if (ms.any fun m => m.state != 0) ∧ (localArch rest).isSome then some .other
      else none
    | none => none

/-- The arch a path names: in band from the group or the single device, over CAN FD from the device (R12, R487). -/
def State.resolve (s : State) (canfd : Bool) (path : List Nat) : Option Arch :=
  if 8 < path.length then none
  else if canfd ∨ !s.group.grouped then localArch path
  else s.groupArch path []

/-- The entries of an arch's path from the top arch. -/
def State.pathOf (s : State) (a : Arch) : List Nat :=
  match a with
  | .bay b => s.archEntries ++ [b]
  | .stone b l => s.archEntries ++ [b, l]
  | .device => s.archEntries
  | .nested g => (List.range g.length).map fun d => s.childIndex (g.take d) (true, nth g d 0)
  | _ => []

/-- ARCH_PATH: eight courses, unused entries all ones. -/
def archCourses (path : List Nat) : List Course := fitList 8 0xFFF (path.map fun n => BitVec.ofNat 12 n)

/-! ### Counters (R471, R473, R474) -/

/-- A bay or stone index in a counter's path that the read leaves out: a lost bay takes no part. -/
def State.leftOut (s : State) (path : List Nat) : Bool := path.head?.any fun b => s.mason.lostBays.contains b

/-- A counter at an arch, for the device or through a slice view. -/
def State.counter (s : State) (index sub : Nat) (at_ : List Nat) (view : Option Nat) : Nat :=
  sumNat ((s.objs.filter fun e => e.1.index == index && e.1.sub == sub && e.1.path.take at_.length == at_ &&
    (at_ != [] || !(s.leftOut e.1.path)) && view.all fun n => e.1.slice == n).map fun e => e.2.toNat)

/-! ### Lists (R474) -/

/-- Characters as octets. -/
def textBytes (t : String) : List Byte := t.toList.map fun c => BitVec.ofNat 8 c.toNat

/-- The context record (R199): its class is the one it runs in; an admitted context at risk reads STATE 2. -/
def Context.recordBytes (c : Context) (atRisk : Bool) : List Byte :=
  let n60 := fun (n : Nat) => natCrs 5 (min (2 ^ 60 - 1) n)
  let st := if atRisk ∧ c.state = 1 then 2 else c.state
  let state := [BitVec.ofNat 12 (c.cls * 1024 + st * 256 + (if c.overflow then 128 else 0))]
  let wg := if c.w = 0 then [0] else [BitVec.ofNat 12 ((c.w - 1) * 256 + c.g)]
  packBytes (state ++ natCrs 1 c.slice ++ natCrs 2 c.image.pipelineId ++ natCrs 3 c.image.deadline ++ natCrs 3 c.dAdm ++ wg ++
    natCrs 1 c.image.mEntries ++ n60 c.nItems ++ n60 c.nFallbacks ++ n60 c.nDemoted ++ n60 c.nMatchesDropped ++ n60 c.nCaps ++
    List.replicate 11 0)

/-- The contexts of a reading in order of their numbers. -/
def State.viewCtxs (s : State) (view : Option Nat) : List Context :=
  sortBy (fun a b => decide (a.num < b.num)) (s.ctxs.filter fun c => view.all fun n => c.slice == n)

/-- KS_TABLES (R278). -/
def KsTab.entryBytes (t : KsTab) : List Byte :=
  packBytes (natCrs 2 t.id ++ [BitVec.ofNat 12 (t.mode * 1024 + t.key)] ++ natCrs 2 t.capacity ++ natCrs 2 t.count ++
    natCrs 1 t.copies ++ [0])

/-- The entry of a table in TABLE_PLACEMENT (R198); the widths of its fields are the model's (assumption 37: DESIGN CHOICE). -/
def State.placementBytes (s : State) (t : Table) : List Byte :=
  natBytes 3 t.id ++ natBytes 8 (t.coursesIn 0) ++ natBytes 8 (t.coursesIn 1) ++ natBytes 8 t.storeCourses ++
    natBytes 1 (s.pinState t)

/-- The queues of a slice with its admin queue, by QID. -/
def State.queuesOf (s : State) (sl : Nat) : List Queue :=
  let own := s.host.queues.filter fun q => q.slice == sl && q.qid != 0
  sortBy (fun a b => decide (a.qid < b.qid)) ((s.queueOf sl 0).toList ++ own)

/-- QUEUE_LIST (R463). -/
def Queue.entryBytes (q : Queue) : List Byte :=
  natBytes 2 q.qid ++ natBytes 1 q.kind ++ natBytes 2 q.pair ++ natBytes 2 q.depth ++ natBytes 2 (min 65535 q.outstanding.length)

/-- The slices that exist. -/
def State.sliceNums (s : State) : List Nat :=
  sortBy (fun a b => decide (a < b)) ((s.slices.filter fun e => e.2.state != 0).map (·.1))

/-- Context numbers, two bytes each. -/
def numBytes (ns : List Nat) : List Byte := ns.flatMap fun n => natBytes 2 n

/-! ### Rings (R510) -/

/-- The ring an object of 0x5100 or 0x5101 names. -/
def ringAt (index : Nat) (a : Arch) (view : Option Nat) : Nat :=
  if index = 0x5101 then 1
  else match view, a with
    | some n, _ => 32 + n
    | none, .bay b => bayRing b
    | none, _ => 0

/-- An object of a ring. -/
def Ring.value (r : Ring) (sub : Nat) (slice : Bool) : ObjVal :=
  match sub with
  | 1 => .bytes (r.recs.flatMap Rec.bytes)
  | 2 => .num r.count
  | 4 => .num (if r.overflow then 1 else 0)
  | 5 => .num r.lost
  | 6 => .bytes ((r.first.map fun x => packBytes x.courses).getD [])
  | 8 => .num (if slice then 0 else r.sticky)
  | _ => .num 0

/-! ### Structure and health -/

/-- CHILD_STATE of a bay under a device: fenced when lost, sleeping in retention or off (R13, R513). -/
def State.bayChild (s : State) (b : Nat) : Nat :=
  if s.mason.lostBays.contains b then 3 else if 2 ≤ (s.bayPower b).state then 2 else 1

/-- The spare of a bay holds a logical position. -/
def State.spareUsed (s : State) (b : Nat) : Bool := s.mason.slots.any fun e => e.1.1 == b && e.2 == 16

/-- CHILD_STATE of a child of a group: a device's own; a nested group runs while a member of it does (R13). -/
def childStateOf (c : (Bool × Nat) × List Member) : Nat :=
  if c.1.1 then (if c.2.any fun m => m.state == 1 then 1 else ((c.2.map (·.state)).foldl max 0)) else ((c.2.head?).map (·.state)).getD 0

/-- A number of an arch's structure (R13, R17). -/
def State.archValue (s : State) (a : Arch) (view : Option Nat) (sub : Nat) : ObjVal :=
  match sub with
  | 1 => .num (match a with
      | .stone _ _ => 0
      | .bay _ => 1
      | .group => 3
      | .nested _ => 3
      | _ => if view.isSome ∧ s.group.grouped then 3 else 2)
  | 2 => .num (if view.isSome then 0 else match a with
      | .stone _ _ => 0
      | .bay b => (s.activeStones b).length
      | .group => ((s.groupChildren []).filter fun c => childStateOf c != 0 && childStateOf c != 3).length
      | .nested g => ((s.groupChildren g).filter fun c => childStateOf c != 0 && childStateOf c != 3).length
      | _ => s.liveBays.length)
  | 3 => .num (if view.isSome then 1 else 0)
  | 4 => .bytes (packBytes (archCourses (if view.isSome then [] else s.pathOf a)))
  | 5 => .num (match a with
      | .group => if s.group.formed then 1 else 0
      | .nested _ => if s.group.formed then 1 else 0
      | _ => if s.power.ready then 1 else 0)
  | _ => .num (s.quoin.active + (if s.quoin.standby then 4 else 0) + (if s.paused then 8 else 0))

/-- CHILD_STATE, SPARES_IN_USE and STONE_SLOTS (R13). -/
def State.childValue (s : State) (a : Arch) (sub : Nat) : ObjVal :=
  match sub, a with
  | 1, .bay b => .bytes ((List.range 16).map fun l => if s.stoneLive b (s.physSlot b l) then 1 else 3)
  | 1, .group => .bytes ((s.groupChildren []).map fun c => BitVec.ofNat 8 (childStateOf c))
  | 1, .nested g => .bytes ((s.groupChildren g).map fun c => BitVec.ofNat 8 (childStateOf c))
  | 1, _ => .bytes ((List.range 16).map fun b => BitVec.ofNat 8 (s.bayChild b))
  | 2, .bay b => .num (if s.spareUsed b then 1 else 0)
  | 2, _ => .num (s.liveBays.filter s.spareUsed).length
  | _, .bay b => .bytes ((List.range 16).map fun l => BitVec.ofNat 8 (s.physSlot b l))
  | _, _ => .bytes []

/-- TOPOLOGY from the member-facing ports (R430). -/
def State.topology (s : State) : Nat :=
  if !s.group.grouped then 0
  else
    let n := ((List.range 8).filter fun p => (s.portOf p).role == 2).length
    if n = 0 then 3 else if n ≤ 2 then 1 else 2

/-- EXPOSED_CLASSES of an arch: of a bay its fenced stones (row 0), its loss (8), its fenced lanes (9) and compressor (10);
of a stone whether its position has none (R7, R497, R510). -/
def State.exposedAt (s : State) (a : Arch) : Nat :=
  match a with
  | .bay b =>
    (if s.mason.fencedStones.any fun e => e.1 == b then 1 else 0) + (if s.mason.lostBays.contains b then 2 ^ 8 else 0) +
      (if s.mason.fencedLanes.any fun e => e.1 == b then 2 ^ 9 else 0) + (if s.hod.settFenced.contains b then 2 ^ 10 else 0)
  | .stone b l => if s.stoneLive b (s.physSlot b l) then 0 else 1
  | _ => s.err.exposed % 0x4000

/-- HEALTH (R510): 2 while a fault class has no recovery left: a bay without its spare, a single host port, one Quoin pair, or
the internal oscillator alone. A bay and a stone answer for their own exposures. -/
def State.health (s : State) (a : Arch) : Nat :=
  let x := s.exposedAt a
  let device := !(a matches .bay _ || a matches .stone _ _)
  if device ∧ (!s.therm.atRisk.isEmpty ∨ s.err.doubleFault ∨ s.hssLeft = 0) then 3
  else if [0, 2, 11, 13].any fun k => x.testBit k then 2
  else if x ≠ 0 then 1
  else 0

/-- Junction temperature of a bay, in °C (R528). -/
def State.tempOf (s : State) (b : Nat) : Int := (tget b s.therm.temps).getD (Config.bayTemp b)

/-- The largest junction temperature of the bays, in °C (R528). -/
def State.hottest (s : State) : Int := ((List.range 16).map s.tempOf).foldl max (s.tempOf 0)

/-- The pin THERM_N: low while TJ_MAX is at or above 85 °C (R558). -/
def State.thermN (s : State) : Bool := decide (s.hottest < 85)

/-- STICKY_SUMMARY over an arch and the arches below it (R510). -/
def State.stickySummary (s : State) (a : Arch) : Nat :=
  match a with
  | .bay b => (s.ringOf (bayRing b)).sticky
  | .stone _ _ => 0
  | _ => (s.liveBays.map fun b => (s.ringOf (bayRing b)).sticky).foldl (· ||| ·) ((s.ringOf 0).sticky ||| (s.ringOf 1).sticky)

/-! ### Values -/

/-- A bay's figure, or its sum or largest over the live bays. -/
def State.overBays (s : State) (a : Arch) (most : Bool) (f : Nat → Nat) : Nat :=
  match a with
  | .bay b => f b
  | _ => if most then (s.liveBays.map f).foldl max 0 else sumNat (s.liveBays.map f)

/-- Keystone positions that tables hold in a bank, all copies (R278). -/
def State.ksPositions (s : State) (view : Option Nat) (b : Nat) : Nat :=
  sumNat ((s.ks.tables.filter fun (t : KsTab) => view.all fun n => t.slice == n).map fun t =>
    (t.held.filter fun c => c.bank == b).length * t.capacity)

/-- Running Hod channels of a bay. -/
def State.hodActive (s : State) (view : Option Nat) (b : Nat) : Nat :=
  (s.hod.ch.filter fun e => e.1.1 == b && e.2.status == 1 && view.all fun n => e.2.slice == n && !e.2.firmware).length

/-- The objects of a slice's index (R411). -/
def State.sliceValue (s : State) (sl sub : Nat) : ObjVal :=
  match sub with
  | 1 => .num (if sl = 0 then 1 else (s.sliceOf sl).state)
  | 2 => .num (s.genOf sl)
  | 3 => .num (s.sliceOf sl).levels
  | 19 => .num (s.pendingOf sl)
  | 20 => .num (s.objNum (0x4000 + sl) 20 [] 0 0)
  | 21 => .bytes (s.objBytes (0x4000 + sl) 21 [] 0)
  | 23 =>
    let cs := sortBy (fun (a b : Context) => decide (a.order < b.order)) (s.ctxs.filter fun c =>
      c.slice == sl && c.state == 2 && c.image.cls == 0 && c.cls == 1)
    .bytes (numBytes (cs.map (·.num)))
  | 24 => .num (s.bindings.filter fun b => b.slice == sl).length
  | _ => .num (s.allot sl sub)

/-- The objects of a port (R441). -/
def State.portValue (s : State) (p sub : Nat) : ObjVal :=
  let x := s.portOf p
  match sub with
  | 1 => .num x.state
  | 2 => .num x.lanes.length
  | 3 => .num x.role
  | 4 => .bytes x.partner
  | 5 => .num (s.objNum (0x1110 + p) 5 [] 0 1)
  | 6 => .num (s.objNum (0x1110 + p) 6 [] 0 (fieldOf s.power.mediumStrap p p))
  | _ => .num (s.counter (0x1110 + p) sub [] none)

/-- The path of an arch below this device. -/
def Arch.below (a : Arch) : List Nat :=
  match a with
  | .bay b => [b]
  | .stone b l => [b, l]
  | _ => []

/-- A value that is held, or the default of its object. -/
def State.heldValue (s : State) (index sub : Nat) : ObjVal :=
  match tget (⟨index, sub, [], 0⟩ : ObjKey) s.objs with
  | some v => v
  | none => ((objDef index sub).map (·.dflt)).getD (.num 0)

/-- Identity, store, field network, queues, group and time. -/
def State.lowValue (s : State) (view : Option Nat) (index sub : Nat) : ObjVal :=
  match index, sub with
  | 0x1000, 1 => .bytes (textBytes "Ecnel")
  | 0x1000, 2 => .bytes (textBytes "Saraetar S4812")
  | 0x1000, 3 => .bytes (textBytes "ECN-S4812-A0")
  | 0x1000, 4 => .num 0
  | 0x1000, 5 => .bytes (fitList 16 0 Config.serial)
  | 0x1000, 6 => .num s.trust.run.fwVersion
  | 0x1000, 7 => .num Config.romVersion
  | 0x1000, 8 => .num 1
  | 0x1010, 2 => .num s.stored.status
  | 0x1011, 2 => .num s.stored.restoreStatus
  | 0x1100, 4 => .num s.can.busState
  | 0x1101, 2 => .num s.can.role
  | 0x1121, _ => .bytes (match view with
      | some n => (s.queuesOf n).flatMap Queue.entryBytes
      | none => s.sliceNums.flatMap fun n => (s.queuesOf n).flatMap Queue.entryBytes)
  | 0x2002, 1 => .num s.group.node
  | 0x2002, 2 => .num s.group.leader
  | 0x2002, 3 => .num s.topology
  | 0x2002, 4 => .num s.group.epoch
  | 0x3000, 1 => .num s.now
  | 0x3000, 2 => .num s.time.ppsState
  | 0x3000, 5 => .num s.time.epochTick
  | 0x3000, 6 => .num s.time.refState
  | 0x3001, 3 => .bytes (numBytes (s.therm.atRisk.filter fun n => view.all fun sl => (s.ctxOf n).any fun c => c.slice == sl))
  | 0x3003, k => .num (if (s.portOf (k - 1)).state = 4 then (s.portOf (k - 1)).latency else 0)
  | 0x3004, _ => .num (s.mason.warm.filter fun b => decide ((s.bayPower b).state ≤ 1)).length
  | 0x3400, 4 => .num s.activeFlows.length
  | 0x3800, 1 => .bytes ((List.range 4096).flatMap fun b =>
      [BitVec.ofNat 8 (s.bucketHome b), BitVec.ofNat 8 s.group.node, BitVec.ofNat 8 ((s.bucketReplica b).getD 0xFF)])
  | 0x3800, 2 =>
    let ts := s.tables.filter fun t => view.all fun n => t.slice == n
    .bytes ((sortBy (fun (a b : Table) => decide (a.id < b.id)) ts).flatMap s.placementBytes)
  | _, _ => s.heldValue index sub

/-- Power and the units. -/
def State.highValue (s : State) (a : Arch) (view : Option Nat) (index sub : Nat) : ObjVal :=
  match index, sub with
  | 0x5000, 1 => .num (s.health a)
  | 0x5000, 3 => .num (s.exposedAt a)
  | 0x5000, 4 => .num (match a with
      | .bay b => s.objNum 0x5000 4 [b] 0 0
      | .stone _ _ => 0
      | _ => s.err.lastFault)
  | 0x5102, _ => .num (s.stickySummary a)
  | 0x5800, 1 => .num (powerNow s.now)
  | 0x5800, 2 => .num s.power.peak
  | 0x5800, 3 => .num s.power.buttress
  | 0x5800, 4 => .num s.power.vholdMv
  | 0x5800, 5 => .num (min 65535 s.power.capUf)
  | 0x5800, 6 => .num s.power.lastSave
  | 0x5800, 8 => .num s.power.restored
  | 0x5801, 1 => .bytes ((List.range 16).map fun b => BitVec.ofNat 8 (s.bayPower b).state)
  | 0x5802, 1 => .num (wrapTo 32 (s.hottest * 100))
  | 0x5802, 2 => .bytes ((List.range 16).flatMap fun b => natBytes 2 (wrapTo 16 (s.tempOf b * 10)))
  | 0x6000, 1 => .num s.hbmCapacity
  | 0x6000, 2 => .num s.memx.dramCap
  | 0x6000, 3 => .num s.memx.dramRate
  | 0x6000, 4 => .num s.memx.dramState
  | 0x6000, 5 => .num s.memx.pch.length
  | 0x6000, 6 => .num s.memx.peak
  | 0x6002, 1 => .num (sumNat ((s.memx.range.filter fun e => !e.2.queue.isEmpty).map fun e => 2 ^ e.1))
  | 0x6100, 1 => .num (match view with
      | none => s.overBays a true s.stepOf
      | some n => (((s.ks.plan.filter fun (p : KsPlan) => p.slice == n).flatMap (·.banks)).map s.stepOf).foldl max 0)
  | 0x6100, 8 => .num (s.overBays a false (s.ksPositions view))
  | 0x6101, 1 =>
    let ts := s.ks.tables.filter fun (t : KsTab) => view.all fun n => t.slice == n
    .bytes ((sortBy (fun (a b : KsTab) => decide (a.id < b.id)) ts).flatMap KsTab.entryBytes)
  | 0x6101, 2 =>
    let ks := match view with
      | some n => [ksEight s.ks.plan n]
      | none => s.ks.plan.map fun (p : KsPlan) => ksEight s.ks.plan p.slice
    .num (ks.foldl min (ks.headD 0))
  | 0x6200, 5 => .num (s.overBays a true fun _ => s.boundEntriesBut none)
  | 0x6300, 1 => .num (s.overBays a false (s.hodActive view))
  | 0x6301, 6 => .num (s.overBays a false fun b => if s.hod.settFenced.contains b then 1 else 0)
  | 0x6340, 3 => .num (s.dg.slots.filter fun k => view.all fun n => k.slice == n).length
  | 0x6350, 2 => .num (s.led.sealSeq.getD u64Max)
  | 0x6350, 3 => .num s.led.capacity
  | 0x6350, 4 => .num s.led.free
  | 0x6350, 6 => .num (s.counter 0x6350 6 [] (some (view.getD 0)))
  | 0x6350, 9 => .num s.led.released
  | 0x6360, 1 => .num s.st.capacity
  | 0x6360, 2 => .num s.tsFree
  | 0x6360, 3 => .num s.st.nandRate
  | 0x6360, 4 => .num s.st.wear
  | 0x6360, 5 => .num s.st.sanitise
  | 0x6360, 6 => .num s.st.format
  | 0x7000, 1 => .num s.trust.run.keySet
  | 0x7000, 2 => .num s.trust.revoked
  | 0x7000, 4 => .num s.trust.otpSvn
  | 0x7000, 6 => .num (if s.trust.fallback then 1 else 0)
  | 0x7001, 1 => .bytes Config.deviceCert
  | 0x7001, 2 => .bytes s.identityCert
  | 0x7001, 3 => .bytes (s.trust.certs.flatMap (·.2))
  | 0x7002, 1 => .num s.hssLeft
  | 0x7002, 3 => .num s.trust.tokens
  | 0x7010, 1 => .num s.fwStageState
  | 0x7010, 4 => .num s.trust.bootBank
  | 0x7020, 2 => .bytes s.trust.challenge
  | 0x7020, 4 => .num s.trust.debug
  | _, _ => s.heldValue index sub

/-- An object that counts (R471): SUM with access RO, and no value computed from other state. -/
def isCounter (index sub : Nat) : Bool :=
  [(0x1010, 3), (0x1101, 3), (0x3000, 3), (0x5000, 2), (0x5800, 7), (0x5801, 7), (0x6301, 1), (0x6301, 2), (0x6301, 3), (0x6301, 4),
    (0x6301, 5), (0x6340, 1), (0x6340, 2), (0x6350, 1)].contains (index, sub) ||
  index == 0x1120 || index == 0x3002 || index == 0x3402 || (index == 0x3400 && decide (5 ≤ sub)) || index == 0x6001 ||
  (index == 0x6100 && sub != 1 && sub != 8 && sub != 10) || (index == 0x6200 && sub != 5) || (index == 0x6300 && sub != 1)

/-- What an object reads as at an arch of this device. -/
def State.objValue (s : State) (a : Arch) (view : Option Nat) (index sub : Nat) : ObjVal :=
  if isCounter index sub then .num (s.counter index sub a.below view)
  else if 0x1110 ≤ index ∧ index ≤ 0x1117 then s.portValue (index - 0x1110) sub
  else if index = 0x2000 then s.archValue a view sub
  else if index = 0x2001 then s.childValue a sub
  else if 0x3420 ≤ index ∧ index ≤ 0x342F then
    .bytes (((s.ctxOf ((index - 0x3420) * 256 + sub)).map fun c => c.recordBytes (s.therm.atRisk.contains c.num)).getD [])
  else if 0x4000 ≤ index ∧ index ≤ 0x43FF then s.sliceValue (index - 0x4000) sub
  else if index = 0x5100 ∨ index = 0x5101 then (s.ringOf (ringAt index a view)).value sub view.isSome
  else if index < 0x5000 then s.lowValue view index sub
  else s.highValue a view index sub

/-- The bytes of a value of a type (R466); a number beyond the type's limit reads as the limit (R471). -/
def ObjVal.encode (v : ObjVal) (t : OType) : List Byte :=
  match t.size, v with
  | some n, .num k => natBytes n (min t.top k)
  | _, .bytes b => b
  | none, .num _ => []

/-- A read leaves a lost bay out (R473). -/
def State.partialRead (s : State) (a : Arch) (d : ObjDef) : Bool :=
  a == .device && d.bay && [OAgg.sum, .or, .min, .max, .same].contains d.agg && !s.mason.lostBays.isEmpty

end Sys2Proof.Machine
end

