-- ==== Sys2Proof/Machine/Idle.lean ====
section
/-! DEFINITION. What keeps a bay, the hub and the memories from their low-power states (R513-R516), and what each tick adds
to the power state. -/

namespace Sys2Proof.Machine

/-- A core of a bay holds a firing, an access or stores that are not acknowledged. -/
def Core.active (c : Core) : Bool := c.firing.isSome || c.access.isSome || c.storesOut != 0 || !c.evict.isEmpty

/-- Engine operations of a bay: searches, digests, Hod channels, range operations. -/
def State.engineBusy (s : State) (b : Nat) : Bool :=
  s.ks.searches.any (fun x => x.bay == b) || s.dg.lanes.any (fun e => e.1.1 == b) || s.dg.waiting.any (fun e => e.1 == b) ||
    s.hod.ch.any (fun e => e.1.1 == b && e.2.status == 1) || s.memx.range.any fun e => e.1 == b && !e.2.queue.isEmpty

/-- A bay has a ready firing, an engine operation or an outstanding memory operation (R513). -/
def State.bayBusy (s : State) (b : Nat) : Bool :=
  s.mason.ready.any (fun r => s.workBay r.w == b) || s.engineBusy b || s.memx.fills.any (fun f => f.bay == b) ||
    s.cores.any fun e => coreBay e.1 == some b && e.2.active

/-- Every bay is in retention or off; a lost bay serves nothing. -/
def State.baysAsleep (s : State) : Bool := s.liveBays.all fun b => decide (2 ≤ (s.bayPower b).state)

/-- An HBM or DRAM operation is outstanding (R516). -/
def State.memBusy (s : State) : Bool :=
  !s.memx.fills.isEmpty || s.hod.ch.any (fun e => e.2.status == 1) || s.memx.range.any (fun e => !e.2.queue.isEmpty) ||
    s.cores.any fun e => e.2.access.isSome || e.2.storesOut != 0

/-- A command is outstanding. -/
def State.commandsOut (s : State) : Bool :=
  !s.host.accepted.isEmpty || !s.host.waiting.isEmpty || s.host.queues.any fun q => !q.outstanding.isEmpty

/-- What keeps the hub awake (R515). -/
def State.hubBusy (s : State) : Bool :=
  s.ctxs.any (fun c => c.image.cls != 2) || s.commandsOut || !s.baysAsleep || s.hod.ch.any (fun e => e.2.status == 1) ||
    s.memx.range.any (fun e => !e.2.queue.isEmpty) || !s.st.writes.isEmpty

/-- One tick of the power state: a busy unit's idle time starts again; POWER_PEAK follows POWER_NOW (R513-R516, R528). -/
def State.powerTick (s : State) : PowerSt :=
  let t := s.now + 1
  let busy := (List.range 16).filter s.bayBusy
  { s.power with
    bays := busy.foldl (fun l b => tupd b (⟨0, 0, none⟩ : BayPower) (fun p => { p with idleSince := t }) l) s.power.bays
    hubIdle := if s.hubBusy then t else s.power.hubIdle
    memIdle := if s.memBusy ∨ !s.baysAsleep then t else s.power.memIdle
    peak := max s.power.peak (powerNow t) }

end Sys2Proof.Machine
end

