-- ==== Sys2Proof/Machine/Time.lean ====
section
/-! DEFINITION. Device time (02, 22): the tick and what happens at every tick (R24, R35, R408), the reference (R25, R554),
PPS (R26, R27, R29, R555), and TIME_MARK (R28). -/

namespace Sys2Proof.Machine

/-! ### What each tick adds -/

/-- The token bucket of a G context gains ρ credits up to β tokens (R35). -/
def Context.gain (c : Context) : Context :=
  if c.image.cls = 0 then { c with credits := min (c.image.bounds.burst * oneToken) (c.credits + c.image.bounds.rate) } else c

/-- The LEDGER_RATE bucket of a slice gains a tick's worth, up to one second (R408). -/
def State.gainBucket (s : State) (e : Nat × Nat) : Nat × Nat :=
  let rate := s.objNum (0x4000 + e.1) 17 [] 0 0
  (e.1, min (rate * second) (e.2 + rate))

/-- The bay random registers advance once per bay cycle, 40 cycles to a tick (R293). -/
def State.turnLfsrs (s : State) : List (Nat × Nat) := (List.range 16).map fun b => (b, lfsrSteps 40 (s.lfsrOf b))

/-- A D item at the head of its flow is stalled for Mortar entries (R175). -/
def State.mortarStalled (s : State) : Bool :=
  (s.items.any fun i => i.cls != 0 && s.flowHead i &&
    (s.ctxOf i.ctx).any fun c => (s.mortarDraw (s.bucketHome (flowBucket i.flowKey)) i c).isNone) ||
  s.runs.any fun r => s.runLive r && (s.ctxOf r.ctx).any fun c =>
    ((List.range c.image.ops.length).any fun k => ((c.image.ops[k]?).map (·.code)) == some 0x01 && decide (tgetD k 0 r.scanAt < r.batches.length)) &&
      (s.batchBay r.slice c.image.mEntries).isNone

/-- The slices with an answer that waits to leave (R373). -/
def State.waitingSlices (s : State) : List Nat := ((s.items.filter fun i => i.answer.isSome && !i.sent).map (·.slice)).eraseDups

/-- The counts of ticks of R175 and R373: a slice's own, and the device's under slice 0. -/
def State.countTick (s : State) : State :=
  let s1 := if s.mortarStalled then s.bump 0x3400 6 [] 0 else s
  let sl := s1.waitingSlices
  let s2 := sl.foldl (fun (t : State) n => t.bump 0x6350 6 [] n) s1
  if sl.isEmpty then s2 else s2.bump 0x6350 6 [] 0

/-- PPS_OUT rises at every whole second and stays high for 2,500,000 ticks (R27, R555). -/
def TimeSt.ppsOut (t : TimeSt) : TimeSt :=
  { t with ppsOutSince :=
      if t.count % second = 0 then some t.count
      else t.ppsOutSince.filter fun a => t.count < a + 2500000 }

/-- A parity error of the tick count: one copy is repaired, both are recovered from the shadow count (R495). -/
def State.countParity (s : State) (badCopies : Nat) : State :=
  if badCopies = 0 then s
  else if badCopies = 1 then s.record 1 1 0 0x0685 0
  else
    let s1 := s.doubleFault
    { s1 with time := { s1.time with refState := 1 } }

/-- What one tick does by itself (R24); a G pool takes the stones it still lacks as they become free (R184). -/
def State.tick (s : State) (badCopies : Nat) : State :=
  let s0 := (s.countParity badCopies).secondOver
  let s1 := s0.countTick.fillPools
  { s1 with
    time := ({ s1.time with count := s1.time.count + 1 } : TimeSt).ppsOut
    ctxs := s1.ctxs.map Context.gain
    host := { s1.host with bucket := s1.host.bucket.map s1.gainBucket }
    memx := { s1.memx with lfsr := s1.turnLfsrs }
    power := s1.powerTick }

/-! ### The reference (R25, R554) -/

/-- REFCLK_LOST: the count goes on from the internal oscillator. -/
def execRefclkLost (s : State) : Out :=
  .next <|
    if s.time.refState = 1 then s
    else ({ s with time := { s.time with refState := 1 } } : State).recovery 13 1 1 0 0x069C 0 true

/-- REFCLK_RESTORED: the count changes back without a step. -/
def execRefclkRestored (s : State) : Out :=
  .next { s with
    time := { s.time with refState := 0 }
    err := { s.err with exposed := withoutBits s.err.exposed (2 ^ 13) } }

/-! ### PPS (R26, R27, R29) -/

/-- Ticks from the present tick to the whole second nearest to it. -/
def ppsError (now : Tick) : Int :=
  let r : Nat := now % second
  if r ≤ second / 2 then -(r : Int) else ((second - r : Nat) : Int)

/-- The device follows PPS_IN: it is in no group, or leads it (R29). -/
def State.ppsLeads (s : State) : Bool := !s.group.grouped || s.group.leader == s.group.node

/-- A valid edge: the first before READY steps the count forward to a whole second; later ones set the slew. PPS_STATE is
locked within one tick, else acquiring (assumption 33: DEDUCED). The edge's tick is EPOCH_TICK when one is due. -/
def State.ppsValid (s : State) : State :=
  let step := !s.time.aligned && !s.power.ready
  let count := if step then ceilDiv s.now second * second else s.now
  let e := ppsError count
  { s with time := { s.time with
      count := count
      slew := if s.ppsLeads then e else s.time.slew
      ppsSeen := true
      ppsLast := count
      aligned := s.time.aligned || step
      ppsMisses := 0
      ppsState := if e.natAbs ≤ 1 then 2 else 1
      epochArmed := false
      epochTick := if s.time.epochArmed then count else s.time.epochTick
      ppsOutSince := if step then some count else s.time.ppsOutSince } }

/-- An edge that is invalid or missing: counted; the third in a row is holdover. -/
def State.ppsBad (s : State) : State :=
  let s1 := s.bumpBy 0x3000 3 [] 0 u32Max 1
  let n := s1.time.ppsMisses + 1
  { s1 with time := { s1.time with ppsMisses := n, ppsState := if 3 ≤ n then 3 else s1.time.ppsState } }

/-- PPS_IN_EDGE (R27): valid within 2,500 ticks of the expected tick, or as the first edge after power-up. -/
def execPpsInEdge (s : State) : Out :=
  .next (if !s.time.ppsSeen ∨ (ppsError s.now).natAbs ≤ 2500 then s.ppsValid else s.ppsBad)

/-- PPS_EDGE_MISSED (R27): the window of an expected edge closes without one. -/
def execPpsEdgeMissed (s : State) : Out :=
  .next (if s.time.ppsSeen ∧ s.now % second = 2501 ∧ s.time.ppsLast + 5001 < s.now then s.ppsBad else s)

/-! ### TIME_MARK (R28) -/

/-- The newest valid mark, or 0. -/
def TimeSt.newest (t : TimeSt) : Tick := ((t.marks.filter (·.valid)).map (·.tick)).foldl max 0

/-- A mark is due: a second has passed since the newest one (assumption 92: DEDUCED). -/
def TimeSt.markDue (t : TimeSt) : Bool := decide (t.newest + second ≤ t.count)

/-- A mark goes to the slots in turn, complete or cut short. -/
def TimeSt.mark (t : TimeSt) (valid : Bool) : TimeSt :=
  { t with marks := t.marks.set t.markNext ⟨t.count, valid⟩, markNext := 1 - t.markNext }

/-- TIME_MARK_WRITE: every second the count goes to the two slots in turn. -/
def execTimeMarkWrite (s : State) : Out :=
  .next <| if s.time.markDue then { s with time := s.time.mark true } else s

/-- A power loss while a mark is due finds its write complete, not begun, or cut short with a failing check (R28): which
is a free value. -/
def TimeSt.cut (t : TimeSt) (free : Nat) : TimeSt :=
  if !t.markDue ∨ free % 3 = 0 then t else t.mark (free % 3 == 1)

/-- The tick at which the count resumes without a save set: the larger valid mark plus 50,000,001, or 0 (R28). -/
def TimeSt.resume (t : TimeSt) : Tick :=
  match t.marks.filter (·.valid) with
  | [] => 0
  | ms => (ms.map (·.tick)).foldl max 0 + 50000001

end Sys2Proof.Machine
end

