-- ==== Sys2Proof/Machine/Group.lean ====
section
/-! DEFINITION. Discovery and groups (16): training and port states (R423, R426), HELLO (R427), attestation of a partner
(R428, R541), time exchanges (R437, R438), membership, routes and elections (R429-R436), and the takeover by a replica
(R50-R52). -/

namespace Sys2Proof.Machine

/-! ### Membership as held here (R12, R432) -/

/-- LEADER_PRIORITY of this device. -/
def State.leaderPriority (s : State) : Nat := s.objNum 0x2002 5 [] 0 128

/-- This device as a member of its group. -/
def State.selfMember (s : State) : Member :=
  { node := s.group.node, serial := fitList 16 0 Config.serial, state := 1, priority := s.leaderPriority, eligible := true }

/-- The election order: the higher priority, then the lower node identifier (R432). -/
def Member.before (a b : Member) : Bool := b.priority < a.priority || (a.priority == b.priority && a.node < b.node)

/-- The running eligible members in election order. -/
def GroupSt.order (g : GroupSt) : List Member := sortBy Member.before (g.members.filter fun m => m.state == 1 && m.eligible)

/-- The first eligible member but one; none leaves the node as it is. -/
def GroupSt.nextAfter (g : GroupSt) (leader : Nat) : Nat :=
  ((g.order.find? fun m => m.node != leader).map (·.node)).getD leader

/-- The deputy is the next member in election order. -/
def GroupSt.setDeputy (g : GroupSt) : GroupSt := { g with deputy := g.nextAfter g.leader }

/-- Change a member. -/
def GroupSt.setMember (g : GroupSt) (m : Member) : GroupSt :=
  { g with members :=
      if g.members.any fun x => x.serial == m.serial then mapIf (fun x => x.serial == m.serial) (fun _ => m) g.members
      else g.members ++ [m] }

/-- The member of a node identifier. -/
def GroupSt.memberAt (g : GroupSt) (node : Nat) : Option Member := g.members.find? fun m => m.node == node && m.present

/-! ### Training (R423, R426) -/

/-- A DARK port that may train: PORT_ENABLE is 1 and the port is not held. -/
def State.mayTrain (s : State) (p : Nat) : Bool :=
  let x := s.portOf p
  decide (p < 8) && x.state == 0 && !x.held && s.objNum (0x1110 + p) 5 [] 0 1 == 1

/-- A DARK port enters TRAINING with a new link: numbers from 0 and the credits of INIT (R420, R422). -/
def State.startTraining (s : State) (p : Nat) : State :=
  s.updPort p fun x => { x with
    state := 1, since := s.now, trained := false, initSeen := false, retrain := none, txSeq := 0, rxExp := 0,
    credits := initCredits, lastTx := s.now, intervalStart := s.now, misses := 0 }

/-- SIGNAL_DETECT (R426). -/
def execSignalDetect (port : Nat) (s : State) : Out := .next (if s.mayTrain port then s.startTraining port else s)

/-- PORT_TRAINING_RETRY (R426): a DARK port tries again every second. -/
def execPortTrainingRetry (port : Nat) (s : State) : Out :=
  .next (if s.mayTrain port ∧ (s.portOf port).since + second ≤ s.now then s.startTraining port else s)

/-- The HELLO of this device on a port (R427). -/
def State.helloBytes (s : State) (p : Nat) (nonce : List Byte) : List Byte :=
  let hosts := ((List.range 8).filter fun k => (s.portOf k).role == 1).length
  natBytes 2 1 ++ natBytes 1 0 ++ natBytes 1 p ++ fitList 16 0 Config.serial ++ packBytes (archCourses s.archEntries) ++
    natBytes 4 s.trust.run.fwVersion ++
    natBytes 4 ((if s.group.grouped then 1 else 0) + 2 + (if hosts = 2 then 4 else 0)) ++
    natBytes 1 (if s.group.grouped then s.group.node else 0xFF) ++ natBytes 1 (s.portOf p).lanes.length ++ natBytes 6 0 ++ nonce

/-- DEST of a discovery or time message on a port. -/
def State.facing (s : State) (p : Nat) : Nat :=
  let n := (s.portOf p).partnerNode
  if s.group.grouped ∧ n < 64 then n else 0

/-- A port whose PMD is trained and whose INIT has come: it returns to the state it retrained from, or enters HELLO and
sends its HELLO with a new nonce. -/
def State.finishTraining (s : State) (p : Nat) : State :=
  let x := s.portOf p
  if x.state ≠ 1 ∨ !x.trained ∨ !x.initSeen then s
  else match x.retrain with
    | some st => s.updPort p fun y => { y with state := st, since := s.now, retrain := none, resend := y.replay.map (·.1) }
    | none =>
      let nonce := s.randomBytes 48
      let s1 := s.updPort p fun y => { y with
        state := 2, since := s.now, nonce := nonce, attested := false }
      (s1.queueCapsule p 3 (s1.facing p) (s1.helloBytes p nonce)).advanceFree

/-- PORT_TRAINED (R426, R417): PMD trained and FEC locked on the four lanes; INIT goes out. -/
def execPortTrained (port : Nat) (s : State) : Out :=
  .next <|
    if 8 ≤ port ∨ (s.portOf port).state ≠ 1 ∨ (s.portOf port).trained then s
    else
      let s1 := s.updPort port fun x => { x with trained := true, lanes := [0, 1, 2, 3], faulty := [] }
      (s1.sendPlain port 3).finishTraining port

/-- PORT_STATE_TIMEOUT (R423, R426): training after 0.5 s, retraining after 500 ticks, HELLO after 10 ms, ATTEST after
100 ms; a failed ATTEST holds the port. -/
def execPortStateTimeout (port : Nat) (s : State) : Out :=
  .next <|
    let x := s.portOf port
    if 8 ≤ port then s
    else if x.state = 1 ∧ x.retrain.isSome then (if x.since + 500 ≤ s.now then s.portDown port else s)
    else if x.state = 1 then (if x.since + 12500000 ≤ s.now then s.darken port false else s)
    else if x.state = 2 then (if x.since + 250000 ≤ s.now then s.darken port false else s)
    else if x.state = 3 ∧ !x.attested then (if x.since + 2500000 ≤ s.now then s.darken port true else s)
    else s

/-! ### Losing a member (R50-R52, R431, R432) -/

/-- The answer of a mirror again, with REISSUED (R41, R50). -/
def AnswerOut.again (a : AnswerOut) : AnswerOut := { a with flags := a.flags ||| 0x080, tx := false }

/-- The mirrored ledger record of a lost member's answer enters this device's ledger, unless a seal covers the primary's
(R52). -/
def State.adoptRecord (s : State) (x : Mirror) (a : AnswerOut) : State :=
  if x.covered then s
  else
    let l := s.led.addRecord x.item.slice x.item.gen a.tick s.now x.record
    ({ s with led := ({ l with buffer := l.buffer ++ [x.record] } : LedSt).notePause } : State).bump 0x6350 1 [] x.item.slice

/-- A replica takes over what it holds of a lost member: a mirrored answer above the watermark is reissued; another item
is answered here, from the replicated flow state, a D item by the fallback FAULT (R50-R52). -/
def State.takeOver (s : State) (x : Mirror) : State :=
  match x.released with
  | some a =>
    let s1 := s.adoptRecord x a
    if x.item.seq ≤ tgetD x.node 0 s1.group.watermarks then s1
    else
      ({ s1 with host := { s1.host with answers := s1.host.answers ++ [a.again] } } : State).bump 0x3002 8 [] x.item.slice
  | none =>
    let i : Item := { x.item.again (s.bucketHome (flowBucket x.item.flowKey)) with
      seq := s.nextSeq, stage := .queued, replays := 0, cause := if x.item.cls = 0 then x.item.cause else 4 }
    { s with items := s.items ++ [i], nextSeq := s.nextSeq + 1 }

/-- A joining or leaving member divides the SUM totals again, each share as at a write (R406). -/
def State.redivide (s : State) : State :=
  (s.objs.filter fun e => e.1.path == groupTotal).foldl
    (fun (t : State) e => t.applyAllot (e.1.index - 0x4000) e.1.sub e.2.toNat) s

/-- A member is declared lost: its record, the leader's election, new routes, the capsules held for it, the takeover, and
admission again over the remaining members (R431, R432, R436). A join in progress is abandoned (R434). -/
def State.declareLoss (s : State) (node : Nat) : State :=
  match s.group.memberAt node with
  | none => s
  | some _ =>
    let was := s.group
    let g0 := { was with
      members := mapIf (fun m => m.node == node || m.state == 4) (fun m => { m with state := 0 }) was.members
      leaving := was.leaving.filter fun n => n != node
      routes := tdel node was.routes }
    let lead := if was.leader = node then was.deputy else was.leader
    let g1 := { g0 with leader := lead, epoch := if lead = was.node then min u32Max (was.epoch + 1) else was.epoch }
    let s1 : State := { s with
      group := { (g1.setDeputy).forget node with mirrors := was.mirrors.filter fun x => x.node != node, heldTx := [] }
      led := if was.leader = node ∧ lead = was.node then { s.led with leaderChange := true } else s.led }
    let mine := was.mirrors.filter fun x => x.node == node
    let s2 := mine.foldl State.takeOver (s1.recovery 12 0 11 node 0x069B node true)
    let s3 := if mine.isEmpty then s2 else s2.stick 0 8
    let send := fun (t : State) (f : TxFlit) =>
      match tget f.dest t.group.routes with
      | none => t
      | some q => t.updPort q fun y => { y with txq := tupd f.vc [] (fun l => l ++ [f]) y.txq }
    ((was.heldTx.foldl send s3).redivide).rerun .group

/-- This device declares losses: it leads, or is the deputy of a lost leader (R431, R432). -/
def State.declares (s : State) (node : Nat) : Bool :=
  s.group.grouped && node != s.group.node &&
    (s.group.leader == s.group.node || (s.group.leader == node && s.group.deputy == s.group.node))

/-- MEMBER_LOSS_REPORT (R431): the last report of a member's facing ports reaches the leader or the deputy. -/
def execMemberLossReport (node : Nat) (s : State) : Out := .next (if s.declares node then s.declareLoss node else s)

/-- PROBE_TIMEOUT (R431): a probe over every remaining route stays unanswered for 100 ticks. -/
def execProbeTimeout (node : Nat) (s : State) : Out := .next (if s.declares node then s.declareLoss node else s)

/-- A member-facing port that hears HUB 0 (R424): the member is lost at once. -/
def State.heardStop (s : State) (p : Nat) (h : FlitHdr) : State :=
  if h.stopped s p then s.declareLoss (s.portOf p).partnerNode else s

/-! ### Flits received (R422-R424, R515) -/

/-- The hub can take a flit: a port with a link, and no save (R520). -/
def State.hears (s : State) (p : Nat) : Bool := decide (p < 8) && (s.portOf p).up && s.hubAlive

/-- One PAYLOAD flit at an awake hub. -/
def State.payloadIn (s : State) (p : Nat) (flit : List Byte) : State :=
  match readFlit flit with
  | none => s.badFlit p
  | some h => if h.type = 0 then (s.takePayloadFlit p h flit).heardStop p h else s

/-- FLIT_RECEIVE_PAYLOAD (R422, R515): while the hub sleeps the flit is held in the port's buffer. -/
def execFlitReceivePayload (port : Nat) (flit : List Byte) (s : State) : Out :=
  .next <|
    if !(s.hears port) ∨ s.power.frozen then s
    else if s.power.hubAsleep ∨ !(s.portOf port).heldFlits.isEmpty then s.updPort port fun x => { x with heldFlits := x.heldFlits ++ [flit] }
    else s.payloadIn port flit

/-- IDLE_FLIT_RECEIVE (R422, R424): it keeps the port alive, acknowledges and returns credits; HUB 0 reports a stopped hub. -/
def execIdleFlitReceive (port : Nat) (flit : List Byte) (s : State) : Out :=
  .next <|
    if !(s.hears port) then s
    else match readFlit flit with
      | none => s.badFlit port
      | some h => if h.type = 1 then (s.updPort port fun x => x.heard h).heardStop port h else s

/-- RETRY_REQ_RECEIVE (R422, R423). -/
def execRetryReqReceive (port : Nat) (flit : List Byte) (s : State) : Out :=
  .next <|
    if !(s.hears port) then s
    else match readFlit flit with
      | none => s.badFlit port
      | some h => if h.type = 2 then ((s.updPort port fun x => x.heard h).retryAsked port h).heardStop port h else s

/-- INIT_RECEIVE (R420, R423): the partner's expected number; of a retraining the sender resends from it. -/
def execInitReceive (port : Nat) (flit : List Byte) (s : State) : Out :=
  .next <|
    if 8 ≤ port ∨ (s.portOf port).state ≠ 1 then s
    else match readFlit flit with
      | none => s.bump (0x1110 + port) 8 [] 0
      | some h =>
        if h.type ≠ 3 then s
        else
          let s1 := s.updPort port fun x =>
            let y := if x.retrain.isSome then x.acked h.ack else x
            { y with initSeen := true, goodInInterval := true }
          s1.finishTraining port

/-! ### HELLO (R427, R429) -/

/-- A HELLO with no reserved value and no reserved bit. -/
def helloOk (m : List Byte) : Bool :=
  m.length == 96 && beNat (m.take 2) == 1 && decide (beNat (slice m 2 1) ≤ 1) && decide (beNat (slice m 36 4) ≤ 7) &&
    (decide (beNat (slice m 40 1) ≤ 63) || beNat (slice m 40 1) == 0xFF) &&
    [1, 2, 4].contains (beNat (slice m 41 1)) && (slice m 42 6).all fun b => b == 0

/-- Our report over the partner's nonce; with no token or no signature left none is sent (R428, R538, R539). -/
def State.sendReport (s : State) (p : Nat) : State :=
  if s.trust.tokens = 0 ∨ !s.canSign ∨ s.trust.gated then s
  else
    let (t, r) := s.makeReport (s.portOf p).partnerNonce
    t.queueCapsule p 3 (t.facing p) r

/-- HELLO (R427): a refused message returns the port to DARK; an accepted one names the partner and starts ATTEST. A device
that the adapter lists receives its identifier in the adapter's HELLO (R429). -/
def execHello (port : Nat) (msg : List Byte) (s : State) : Out :=
  .next <|
    if 8 ≤ port ∨ (s.portOf port).state ≠ 2 then s
    else if !(helloOk msg) then s.darken port false
    else
      let role := if beNat (slice msg 2 1) = 1 then 1 else 2
      let node := beNat (slice msg 40 1)
      let s1 := s.updPort port fun x => { x with
        state := 3, since := s.now, role := role, partner := slice msg 4 16, partnerNode := node,
        partnerNonce := slice msg 48 48, partnerCaps := beNat (slice msg 36 4),
        partnerPath := ((unpackBytes (slice msg 20 12)).takeWhile fun c => c != 0xFFF).map (·.toNat) }
      let s2 : State :=
        if role = 1 ∧ node ≤ 63 ∧ s1.group.grouped then { s1 with group := { s1.group with node := node } } else s1
      s2.sendReport port

/-! ### Attestation of a partner (R428, R541) -/

/-- A report that a verifier must accept over its own nonce (R540, R541). -/
def reportOk (nonce r : List Byte) : Bool :=
  let body := r.take 384
  let icert := slice r (384 + ecLen + hssLen) 3660
  let dcert := slice r (384 + ecLen + hssLen + 3660) 3564
  let ibody := icert.take 280
  let hssKey := slice dcert 121 60
  r.length == 10988 && beNat (body.take 4) == 0x41545354 && beNat (slice body 4 2) == 1 &&
    Config.ecdsaVerify (slice ibody 80 97) body (slice r 384 ecLen) &&
    Config.hssVerify hssKey body (slice r (384 + ecLen) hssLen) &&
    Config.ecdsaVerify (slice dcert 24 97) ibody (slice icert 280 ecLen) &&
    Config.hssVerify hssKey ibody (slice icert (280 + ecLen) hssLen) && Config.vendorSigned dcert &&
    slice body 8 16 == slice ibody 8 16 && slice body 8 16 == slice dcert 8 16 &&
    slice ibody 32 48 == Config.sha384 (slice body 88 192) && slice body 40 48 == nonce

/-- GROUP_MEMBERS lists a serial number. -/
def State.listsMember (s : State) (serial : List Byte) : Bool :=
  let d := s.objBytes 0x2002 6 [] 0
  (List.range (d.length / 16)).any fun k => slice d (16 * k) 16 == serial

/-- A verification that fails: counted, recorded, and the port is DARK until PORT_ENABLE is rewritten (R426, R428). -/
def State.attestFailed (s : State) (p : Nat) : State :=
  (((s.bumpBy (0x1110 + p) 12 [] 0 u32Max 1).record 0 4 (p + 56) 0x0693 (p * 2 ^ 24)).darken p true)

/-- ATTEST_REPORT_RECEIVE (R428): a host-facing port is JOINED; a device partner waits for the join of R434, unless it is
a running member already. -/
def execAttestReportReceive (port : Nat) (report : List Byte) (s : State) : Out :=
  .next <|
    let x := s.portOf port
    if 8 ≤ port ∨ x.state ≠ 3 then s
    else if !(reportOk x.nonce report) then s.attestFailed port
    else if x.role = 2 ∧ !(s.listsMember (slice report 8 16)) then s.attestFailed port
    else
      let known := s.group.grouped && s.group.members.any fun m => m.serial == x.partner && m.state == 1
      let s1 := s.updPort port fun y => { y with
        attested := true, state := if x.role = 1 ∨ known then 4 else 3, since := s.now }
      let joining : Member := { node := x.partnerNode, serial := x.partner, state := 4, priority := 128,
                                eligible := x.partnerCaps.testBit 1 }
      let s2 : State :=
        if x.role = 2 ∧ s1.group.grouped ∧ !known then { s1 with group := s1.group.setMember joining } else s1
      s2.settlePorts

/-! ### Time exchanges (R437, R438) -/

/-- A time message (R437). -/
def syncBytes (type seq t1 t2 t3 : Nat) : List Byte :=
  natBytes 1 type ++ natBytes 1 0 ++ natBytes 2 seq ++ natBytes 9 t1 ++ natBytes 9 t2 ++ natBytes 9 t3 ++ natBytes 1 0

/-- A time stamp in 1/64 tick. -/
def State.stamp (s : State) (frac : Nat) : Nat := s.now * 64 + frac % 64

/-- A well-formed time message of a type. -/
def syncOk (type : Nat) (m : List Byte) : Bool :=
  m.length == 32 && beNat (m.take 1) == type && beNat (slice m 1 1) == 0 && beNat (slice m 31 1) == 0 &&
    decide (beNat (slice m 4 9) < 2 ^ 66) && decide (beNat (slice m 13 9) < 2 ^ 66) && decide (beNat (slice m 22 9) < 2 ^ 66)

/-- SYNC_REQ_SEND (R437, R438): every 2,500 ticks on a JOINED port. -/
def execSyncReqSend (port frac : Nat) (s : State) : Out :=
  .next <|
    let x := s.portOf port
    if 8 ≤ port ∨ x.state ≠ 4 ∨ s.power.hubAsleep ∨ s.power.frozen ∨ !(x.maySend 4) ∨
        x.syncAt.any (fun t => decide (s.now < t + 2500)) then s
    else
      let n := (x.syncSeq + 1) % 65536
      let s1 := s.updPort port fun y => { y with syncSeq := n, syncAt := some s.now, syncT1 := some (s.stamp frac) }
      (capsuleFlits 4 (s.facing port) (syncBytes 1 n (s.stamp frac) 0 0)).foldl (fun (t : State) f => t.sendNew port f) s1

/-- SYNC_REQ_RECEIVE (R437): T2 is stamped at receipt, T3 as the response leaves. -/
def execSyncReqReceive (port frac : Nat) (msg : List Byte) (s : State) : Out :=
  .next <|
    if 8 ≤ port ∨ (s.portOf port).state ≠ 4 ∨ !(syncOk 1 msg) ∨ s.power.hubAsleep ∨ s.power.frozen then s
    else
      let r := syncBytes 2 (beNat (slice msg 2 2)) (beNat (slice msg 4 9)) (s.stamp frac) 0
      s.queueCapsule port 4 (s.facing port) r

/-- The port of this member's time parent: the first hop of its route to the leader. -/
def State.parentPort (s : State) : Option Nat :=
  if s.group.grouped ∧ s.group.leader ≠ s.group.node then tget s.group.leader s.group.routes else none

/-- SYNC_RESP_RECEIVE (R437, R438): T4 is stamped at receipt. LINK_LATENCY is the delay in whole ticks, rounded up; only
toward the time parent does the member slew. A response to an older request is ignored. -/
def execSyncRespReceive (port frac : Nat) (msg : List Byte) (s : State) : Out :=
  .next <|
    let x := s.portOf port
    match x.syncT1 with
    | none => s
    | some t1 =>
      if 8 ≤ port ∨ x.state ≠ 4 ∨ !(syncOk 2 msg) ∨ beNat (slice msg 2 2) ≠ x.syncSeq then s
      else
        let t1 : Int := (t1 : Int)
        let t2 : Int := (beNat (slice msg 13 9) : Int)
        let t3 : Int := (beNat (slice msg 22 9) : Int)
        let t4 : Int := (s.stamp frac : Int)
        let offset := ((t2 - t1) - (t4 - t3)) / 2
        let delay := ((t4 - t1) - (t3 - t2)) / 2
        let s1 := s.updPort port fun y => { y with latency := ((delay + 63) / 64).toNat, syncT1 := none }
        if s.parentPort = some port then { s1 with time := { s1.time with slew := offset / 64 } } else s1

/-! ### Routes, joins and leaves (R430, R433-R436) -/

/-- ROUTE_EPOCH_UPDATE (R430): the member uses the new routes. A running member without a route is lost, and its replicas
here take over (R431). λ of R186 comes with the routes as a free value (assumption 4: DESIGN CHOICE). -/
def execRouteEpochUpdate (epoch : Nat) (routes : List (Nat × Nat)) (s : State) : Out :=
  .next <|
    let mine := s.group.leader == s.group.node
    if !s.group.grouped ∨ epoch < s.group.epoch ∨ (epoch = s.group.epoch ∧ !mine) then s
    else
      let rs := routes.filter fun e => decide (e.2 < 8) && (s.portOf e.2).role == 2
      let gone := s.group.members.filter fun m => m.state == 1 && m.node != s.group.node && !(rs.any fun e => e.1 == m.node)
      let s1 : State := { s with group := { s.group with epoch := min u32Max epoch, routes := rs, lambda_ := s.freeBits 32 } }
      let s2 := (gone.map (·.node)).foldl State.declareLoss s1.advanceFree
      { s2 with group := { s2.group with epoch := max s2.group.epoch (min u32Max epoch) } }

/-- The JOINED member-facing ports enter LEAVING. -/
def State.leavePorts (s : State) : State :=
  let set := fun (x : Port) => if x.role = 2 ∧ x.state = 4 then { x with state := 5, since := s.now } else x
  { s with ports := s.ports.map fun e => (e.1, set e.2) }

/-- MINORITY_DETECTED (R433): the arbiter releases nothing from here on. -/
def execMinorityDetected (s : State) : Out :=
  .next (if s.group.grouped then ({ s with group := { s.group with minority := true } } : State).leavePorts else s)

/-- The attested ports facing a member enter JOINED, and its route starts at the first of them. -/
def State.joinPorts (s : State) (serial : List Byte) (node : Nat) : State :=
  let mine := fun (p : Nat) => (s.portOf p).role == 2 && (s.portOf p).attested && (s.portOf p).partner == serial
  let ps := (List.range 8).filter mine
  let set := fun (t : State) (p : Nat) =>
    t.updPort p fun x => { x with state := if x.state = 3 then 4 else x.state, partnerNode := node, since := s.now }
  let s1 := ps.foldl set s
  match ps with
  | [] => s1
  | p :: _ => { s1 with group := { s1.group with routes := tset node p s1.group.routes } }

/-- The node identifier of a member: its former one when that is free, else the one offered (R429). -/
def State.nodeFor (s : State) (serial : List Byte) (offered : Nat) : Nat :=
  match s.group.members.find? fun m => m.serial == serial with
  | some m => if s.group.members.any fun x => x.node == m.node && x.present && x.serial != serial then offered else m.node
  | none => offered

/-- The nested groups that hold a device with an ARCH_PATH: at most five below the top group (R10, R12). -/
def Port.groupPath (x : Port) : List Nat := x.partnerPath.dropLast.take 5

/-- Another device joins the group of this one; a device that was single starts a group with it. Until the group is formed
with its 16 members the first eligible member leads; from then on the role stays (R10, R432, R434). -/
def State.admitMember (s : State) (node : Nat) (serial : List Byte) : State :=
  let forms := !s.group.grouped
  let g0 := if forms then { s.group with grouped := true, members := [s.selfMember] } else s.group
  let s0 : State := { s with group := g0 }
  let n := s0.nodeFor serial node
  let facing := ((List.range 8).find? fun p => (s.portOf p).partner == serial).map s.portOf
  let m : Member := { node := n, serial := serial, state := 1, priority := 128, eligible := facing.all fun x => x.partnerCaps.testBit 1,
                      path := (facing.map Port.groupPath).getD [] }
  let g1 := g0.setMember m
  let lead := if g0.formed then g1.leader else (g1.order.head?.map (·.node)).getD g1.node
  let g2 := { g1 with leader := lead, formed := g0.formed || decide (16 ≤ (g1.members.filter Member.present).length) }
  let g3 := { g2.setDeputy with epoch := if g2.leader = g2.node then min u32Max (g2.epoch + 1) else g2.epoch }
  ((({ s0 with group := g3 } : State).joinPorts serial n).settlePorts.redivide).rerun .group

/-- This device joins a group: its identifier, one forward step of its count where that is behind (R29), the members it
faces, and its ports. The leader's identifier, whether the group has been formed, and the nested groups that hold this
device come with the group's configuration, as free values (assumption 4: DESIGN CHOICE). -/
def State.joinGroup (s : State) (node count : Nat) : State :=
  let time := if s.now ≤ count then ({ s.time with count := count } : TimeSt).ppsOut else s.time
  let others := (((List.range 8).map s.portOf).filter fun x => x.role == 2 && x.attested).map fun x =>
    ({ node := x.partnerNode, serial := x.partner, state := 1, priority := 128, eligible := x.partnerCaps.testBit 1,
       path := x.groupPath } : Member)
  let lead := s.freeBits 6
  let g0 := { s.group with
    grouped := true, formed := (s.freeBits 7).testBit 6, node := node, minority := false, leaving := []
    leader := if lead = node then (node + 1) % 64 else lead }
  let above := (List.range (Config.freeValue (s.free + 1) % 6)).map fun k => Config.freeValue (s.free + 1 + k) % 64
  let g1 := { ({ s with group := g0 } : State).selfMember with path := above }
  let g2 := (others ++ [g1]).foldl GroupSt.setMember { g0 with members := [] }
  let s1 : State := { s with time := time, group := g2.setDeputy, free := s.free + 7 }
  ((others.foldl (fun (t : State) m => t.joinPorts m.serial m.node) s1).settlePorts).rerun .group

/-- A group may take a device: at most 64 in all, each with an identifier of its own (R10, R429). -/
def State.roomFor (s : State) (node : Nat) (serial : List Byte) : Bool :=
  let ms := s.group.members.filter fun m => m.present && m.serial != serial
  decide (ms.length < 64) && !(ms.any fun m => m.node == s.nodeFor serial node)

/-- MEMBER_JOIN (R434): of this device, while it is in no group and holds no answer-table entry, or of another one, once a
port has attested it or through another member. A device whose count is ahead slews toward the group's and joins once the
two agree within a tick (R29). -/
def execMemberJoin (node : Nat) (serial : List Byte) (count : Nat) (s : State) : Out :=
  .next <|
    if 64 ≤ node then s
    else if serial = fitList 16 0 Config.serial then
      (if s.group.grouped ∨ s.entriesUsed ≠ 0 then s
       else if count + 1 < s.now then { s with time := { s.time with slew := (count : Int) - (s.now : Int) } }
       else s.joinGroup node count)
    else if !(s.listsMember serial) ∨ s.group.minority ∨ !(s.roomFor node serial) then s
    else s.admitMember node serial

/-- A write of MEMBER_LEAVE (R435): CHILD_STATE of the member reads 5 until its leave completes. -/
def State.memberLeave (s : State) (node : Nat) : State :=
  match s.group.memberAt node with
  | none => s
  | some m =>
    let g := { s.group.setMember { m with state := 5 } with leaving := s.group.leaving ++ [node] }
    let s1 : State := { s with group := g }
    if node = s.group.node then s1.leavePorts else s1

/-- LEAVE_DRAIN_COMPLETE (R435, R436): the leaving device's member-facing ports go DARK and it is in no group; for the
others the member is gone and admission runs again. -/
def execLeaveDrainComplete (node : Nat) (s : State) : Out :=
  .next <|
    if !s.group.grouped ∨ !(s.group.leaving.contains node) then s
    else if node = s.group.node then
      let ps := (List.range 8).filter fun p => (s.portOf p).role == 2 && (s.portOf p).up
      let s1 := ps.foldl (fun (t : State) p => t.darken p false) s
      let g := { s1.group with
        grouped := false, formed := false, node := 0, leader := 0, deputy := 0, routes := [], members := [], mirrors := [], leaving := [],
        heldTx := [], minority := false, outbox := [], inbox := [], fans := [], closures := [] }
      ({ s1 with group := g } : State).rerun .group
    else
      let g0 := { s.group.forget node with
        members := s.group.members.filter fun m => m.node != node || !m.present
        leaving := s.group.leaving.filter fun n => n != node, routes := tdel node s.group.routes }
      let g1 := if g0.leader = node then { g0 with leader := g0.deputy } else g0
      let g2 := { g1.setDeputy with epoch := if g1.leader = g1.node then min u32Max (g1.epoch + 1) else g1.epoch }
      ({ s with group := g2 } : State).redivide.rerun .group

end Sys2Proof.Machine
end

