-- ==== Sys2Proof/Machine/Objects.lean ====
section
/-! DEFINITION. Object accesses (18): reads and writes by arch, role and view (R465-R478), the effect each written object
has, store and restore (R479-R481), and the rows of OBJ_READ, OBJ_WRITE and the objects with rows of their own. -/

namespace Sys2Proof.Machine

/-- A refused access: its status in band and its code of R478. -/
abbrev ObjErr := Nat × Nat

/-- PARAM_RANGE with a code of R478 (R477). -/
def objErr (code : Nat) : ObjErr := (0x010F, code)

/-! ### Reads (R471-R474) -/

/-- The object an access names at an arch; none is absent there (R470). -/
def State.objAt (s : State) (a : Arch) (index sub : Nat) : Option ObjDef :=
  match objDef index sub with
  | none => none
  | some d =>
    let held := match a with
      | .bay _ => d.bay
      | .stone _ _ => d.stone
      | .other => true
      | _ => d.device
    let there := if d.agg = .fields then (s.ctxOf ((index - 0x3420) * 256 + sub)).isSome else true
    if held && there then some d else none

/-- Octets of another member's value: free values of the length of the type, or of a free length (assumption 4: DESIGN CHOICE). -/
def State.freeObj (s : State) (t : OType) : List Byte :=
  match t.size with
  | some n => natBytes n (Config.freeValue s.free % (t.top + 1))
  | none => natBytes (Config.freeValue s.free) (Config.freeValue (s.free + 1))

/-- One child's part in a read of the group: its index, the STATE of R472, and its value when that is 0. -/
structure ChildPart where
  child : Nat
  state : Nat
  value : List Byte
deriving DecidableEq, Repr

/-- STATE of R472 of a child: absent, fenced or lost, or one that answers. -/
def partOf (c : (Bool × Nat) × List Member) : Nat := if childStateOf c = 0 then 1 else if childStateOf c = 3 then 2 else 0

/-- The parts of the children of a group in child order, and the free values taken: this device's part is its own value, that
of another member, or of a nested group, a free value (R471, R473). -/
def State.childParts (s : State) (g : List Nat) (t : OType) (own : List Byte) : List ChildPart × Nat :=
  let cs := s.groupChildren g
  ((List.range cs.length).zip cs).foldl (fun (acc : List ChildPart × Nat) e =>
    let free := ({ s with free := acc.2 } : State).freeObj t
    if partOf e.2 ≠ 0 then (acc.1 ++ [⟨e.1, partOf e.2, []⟩], acc.2)
    else if e.2.1 = (false, s.group.node) then (acc.1 ++ [⟨e.1, 0, own⟩], acc.2)
    else (acc.1 ++ [⟨e.1, 0, free⟩], acc.2 + 2)) ([], s.free)

/-- An entry of an ALL list (R472). -/
def ChildPart.entry (p : ChildPart) : List Byte := natBytes 1 p.child ++ natBytes 1 p.state ++ natBytes 4 p.value.length ++ p.value

/-- A number of a type as it compares: I types are signed (R466). -/
def OType.order (t : OType) (v : List Byte) : Int :=
  match t with
  | .i n => signedOf (8 * n) (beNat v)
  | _ => (beNat v : Int)

/-- The value of the least, or greatest, part. -/
def OType.extreme (t : OType) (most : Bool) (vs : List (List Byte)) : List Byte :=
  vs.foldl (fun (acc : List Byte) v =>
    if most then (if t.order acc < t.order v then v else acc) else (if t.order v < t.order acc then v else acc)) (vs.headD [])

/-- Two context records joined by the rules of R199: counters are sums that saturate, OVERFLOW is the or, and the other
fields those of the first. -/
def joinRecords (a b : List Byte) : List Byte :=
  let x := unpackBytes a
  let y := unpackBytes b
  let first := (nth x 0 0) ||| ((nth y 0 0) &&& 0x080)
  let sum := fun (k : Nat) => natCrs 5 (min (2 ^ 60 - 1) (crsNat (slice x k 5) + crsNat (slice y k 5)))
  packBytes (first :: slice x 1 11 ++ ([12, 17, 22, 27, 32].flatMap sum) ++ List.replicate 11 0)

/-- A group-level value by its rule, and MISMATCH (R471, R472). `lead` is the leader's own part. -/
def groupValue (d : ObjDef) (parts : List ChildPart) (lead : List Byte) : List Byte × Bool :=
  let vs := (parts.filter fun p => p.state == 0).map (·.value)
  let size := d.type.size.getD 0
  match d.agg with
  | .sum => (natBytes size (min d.type.top (sumNat (vs.map beNat))), false)
  | .or => (natBytes size ((vs.map beNat).foldl (· ||| ·) 0), false)
  | .min => (d.type.extreme false vs, false)
  | .max => (d.type.extreme true vs, false)
  | .all => (parts.flatMap ChildPart.entry, false)
  | .same => (vs.headD [], vs.any fun v => v != vs.headD [])
  | .fields => ((vs.drop 1).foldl joinRecords (vs.headD []), false)
  | .own => (lead, false)
  | .fanout => ([], false)

/-- Another child takes part in a read of the group. -/
def State.othersRun (s : State) (g : List Nat) : Bool :=
  (s.groupChildren g).any fun c => c.1 != (false, s.group.node) && partOf c == 0

/-- Octets with a rule that adds lists, or the joined list of a slice view: what the other members hold is not known, so
the list is this device's alone, or a free value (R474). -/
def joinsLists (d : ObjDef) (view : Option Nat) : Bool :=
  d.type.size.isNone && (d.agg == .sum || (d.agg == .all && view.isSome))

/-- A read at the group (R471-R474): the value, the flags of R477, and the state with the free values taken. -/
def State.readGroup (s : State) (g : List Nat) (view : Option Nat) (d : ObjDef) (own : List Byte) : List Byte × Nat × State :=
  let lost := (s.groupChildren g).any fun c => partOf c == 2
  let partial_ := lost && [OAgg.sum, .or, .min, .max, .same].contains d.agg
  let t := if d.agg = .fields then OType.crs 48 else d.type
  let (parts, n) := s.childParts g t own
  let leads := s.group.leader == s.group.node
  if d.agg = .own then
    (if leads then (own, 0, s) else (s.freeObj d.type, 0, { s with free := s.free + 2 }))
  else if joinsLists d view then
    (if s.othersRun g then (s.freeObj d.type, if lost then 2 else 0, { s with free := s.free + 2 }) else (own, if lost then 2 else 0, s))
  else
    let (v, differ) := groupValue d parts own
    (v, (if differ then 1 else 0) + (if partial_ then 2 else 0), { s with free := n })

/-- The group total of a SUM allotment, once written (R406). -/
def State.groupAllot (s : State) (index sub : Nat) : Option Nat :=
  if 0x4000 ≤ index ∧ index ≤ 0x43FF ∧ allotSum sub then
    (tget (⟨index, sub, groupTotal, 0⟩ : ObjKey) s.objs).map ObjVal.toNat
  else none

/-- The value, the flags of R477, and the state with the free values taken. A group total reads as it was written (R406). -/
def State.readAt (s : State) (a : Arch) (view : Option Nat) (d : ObjDef) (index sub : Nat) : List Byte × Nat × State :=
  let own := (s.objValue a view index sub).encode d.type
  let flags := if s.partialRead a d then 2 else 0
  match a with
  | .other => (s.freeObj d.type, 0, { s with free := s.free + 2 })
  | .group => match s.groupAllot index sub with
    | some v => ((ObjVal.num v).encode d.type, 0, s)
    | none => s.readGroup [] view d own
  | .nested g => s.readGroup g view d own
  | _ => (own, flags, s)

/-- The allotments of slice 0 (R411). -/
def zeroAllot (index sub : Nat) : Bool := index == 0x4000 && decide (4 ≤ sub ∧ sub ≤ 18)

/-- A read after its role check (R467, R470). -/
def State.readObj (s : State) (canfd : Bool) (view : Option Nat) (a : ObjAddr) : Except ObjErr (List Byte × Nat × State) :=
  match s.resolve canfd a.path with
  | none => .error (objErr 0x06)
  | some at_ =>
    match s.objAt at_ a.index a.sub with
    | none => .error (objErr 0x01)
    | some d =>
      if d.acc = .wo then .error (objErr 0x03)
      else if zeroAllot a.index a.sub then .error (0x0907, 0x01)
      else .ok (s.readAt at_ view d a.index a.sub)

/-! ### Store and restore (R479-R481) -/

/-- The stored part of the configuration as it stands: every RWS value, the slices and the bindings (R399, R479, R526). -/
def State.rwsObjs (s : State) : List (ObjKey × ObjVal) :=
  s.objs.filter fun e => (objDef e.1.index e.1.sub).any fun d => d.acc == .rws

def State.storedNow (s : State) : StoredSet := { objs := s.rwsObjs, slices := s.slices, bindings := s.bindings }

/-- A store starts: its snapshot is of the present tick. -/
def State.startStore (s : State) : State := { s with stored := { s.stored with snapshot := some s.storedNow, status := 1 } }

/-- Put a set in the place that is not current, and make it current. -/
def StoreCfg.commit (c : StoreCfg) (x : StoredSet) : StoreCfg :=
  { c with sets := c.sets.set (1 - c.current) (some x), current := 1 - c.current }

/-- A set of defaults. -/
def StoreCfg.defaults (c : StoreCfg) : StoredSet :=
  let old := match nth c.sets c.current none with
    | some x => x.objs.filter fun e => decide (0x7000 ≤ e.1.index ∧ e.1.index ≤ 0x73FF)
    | none => []
  { objs := old, slices := [], bindings := [] }

/-- Complete an in-band write of STORE. -/
def State.storeAnswered (s : State) (w : Waiting) : State :=
  match w with
  | .store h =>
    match s.bindingOf h.pid with
    | some b => (s.unwait w).done b.slice h
    | none => s.unwait w
  | _ => s

/-! ### CAN FD frames (R482-R484) -/

/-- The payload lengths of CAN FD frames. -/
def canSizes : List Nat := [0, 1, 2, 3, 4, 5, 6, 7, 8, 12, 16, 20, 24, 32, 48, 64]

/-- The smallest size that holds `n` bytes. -/
def canSize (n : Nat) : Nat := (canSizes.find? fun k => decide (n ≤ k)).getD 64

/-- A frame: identifier, and contents padded to the smallest size. -/
def canFrame (function node : Nat) (b : List Byte) : List Byte := natBytes 2 (function * 128 + node) ++ fitList (canSize b.length) 0 b

/-- Send a frame; a controller that is bus off sends nothing. -/
def State.canSend (s : State) (function : Nat) (b : List Byte) : State :=
  if s.can.busState = 2 then s else { s with can := { s.can with out := s.can.out ++ [canFrame function s.can.node b] } }

/-- A RESPONSE frame about an object: CS, index and subindex, contents. -/
def State.canReply (s : State) (cs : Nat) (a : ObjAddr) (b : List Byte) : State :=
  s.canSend 6 (natBytes 1 cs ++ natBytes 2 a.index ++ natBytes 1 a.sub ++ b)

/-- ABORT with a code of R478. -/
def State.canAbort (s : State) (a : ObjAddr) (code : Nat) : State := s.canReply 0x87 a (natBytes 1 code)

/-! ### Effects of writes -/

/-- PORT_ENABLE (R426): 0 takes the port down at once; every write lets a held port try again. -/
def State.portEnable (s : State) (p v : Nat) : State :=
  if v = 0 then (s.darken p false).settlePorts else s.updPort p fun x => { x with held := false }

/-- A stored value takes effect (R185, R189, R426). -/
def State.afterRws (s : State) (index sub v : Nat) : State :=
  if index = 0x3400 ∧ sub ≤ 3 then s.rerun .config
  else if index = 0x3001 ∧ sub = 1 then
    (s.rerunRate).floorCheck ((s.liveBays.find? fun b => s.stepOf b == s.worstStep).getD 0)
  else if 0x1110 ≤ index ∧ index ≤ 0x1117 ∧ sub = 5 then s.portEnable (index - 0x1110) v
  else if index = 0x2002 ∧ sub = 5 then
    let set := fun (m : Member) => { m with priority := v }
    { s with group := { s.group with members := mapIf (fun m => m.node == s.group.node) set s.group.members } }
  else s

/-- Octet strings with a stated form: whole entries, at most so many (R105, R411, R441, R547). -/
def domForm (index sub n : Nat) : Bool :=
  if index = 0x2002 ∧ sub = 6 then n % 16 == 0 && decide (n ≤ 1024)
  else if 0x4000 ≤ index ∧ index ≤ 0x43FF ∧ sub = 21 then n % 97 == 0 && decide (n ≤ 776)
  else if index = 0x7020 ∧ sub = 1 then n == 0 || n == 97
  else true

/-- Drop the oldest records that ACK frees; a translation fault is freed whole (R504, R510). -/
def ackRecs : Nat → List Rec → List Rec
  | _, [] => []
  | n, r :: t => if n = 0 ∨ n < r.count then r :: t else ackRecs (n - r.count) t

/-- A write to a ring (R507, R508, R510). -/
def Ring.write (r : Ring) (sub v : Nat) : Ring :=
  match sub with
  | 3 => { r with recs := ackRecs v r.recs }
  | 4 => if v = 1 then { r with overflow := false, lost := 0 } else r
  | 7 => if v = 1 then { r with first := none } else r
  | _ => { r with sticky := withoutBits r.sticky v }

/-- A write of a ring by number. -/
def State.writeRing (s : State) (n sub v : Nat) : State :=
  { s with err := { s.err with rings := tset n ((s.ringOf n).write sub v) s.err.rings } }

/-- PIN_REQUEST (R195, R198): three bytes of TABLE_ID and one of pin or unpin, for a table of the slice. -/
def State.writePin (s : State) (sl : Nat) (v : List Byte) : Except ObjErr State :=
  let id := beNat (v.take 3)
  let on := beNat (slice v 3 1)
  if v.length ≠ 4 then .error (objErr 0x04)
  else if 1 < on ∨ !(s.tables.any fun t => t.slice == sl && t.id == id) then .error (objErr 0x05)
  else .ok (s.pinTable sl id (on == 1))

/-- A delivery to a slice or a CAN FD key (R489, R542); the key store is gated off after a debug unlock (R546). -/
def State.writeKey (s : State) (kind target len : Nat) (v : List Byte) : Except ObjErr (List Byte) :=
  if s.trust.gated then .error (0x0A0A, 0x05)
  else match s.openDelivery kind target len v with
    | .ok k => .ok k
    | .error c => .error (c, 0x05)

/-- SVN_COMMIT (R534). -/
def State.commitSvn (s : State) (v : Nat) : Except ObjErr State :=
  if v < s.trust.counter then .error (0x0A03, 0x05)
  else if v ≠ s.trust.run.svn then .error (objErr 0x05)
  else .ok { s with trust := { s.trust with mramSvn := v, otpSvn := v } }

/-- VENDOR_KEY_REVOKE (R535). -/
def State.revokeKey (s : State) (v : Nat) : Except ObjErr State :=
  if v ≠ 0x5A then .error (objErr 0x05)
  else if s.trust.run.keySet0 ≠ 1 ∨ s.trust.run.keySet ≠ 1 then .error (0x0A09, 0x05)
  else .ok { s with trust := { s.trust with revoked := withBit s.trust.revoked 0 } }

/-- FW_STAGE_DATA (R543): offset, final bit, data. -/
def State.stageData (s : State) (v : List Byte) : Except ObjErr State :=
  if v.length < 5 ∨ 1 < beNat (slice v 4 1) then .error (objErr 0x05)
  else
    let (t, code) := s.trust.stage 2 (beNat (v.take 4)) (beNat (slice v 4 1) == 1) (v.drop 5)
    if code = 0 then .ok { s with trust := t } else .error (code, 0x05)

/-- OVERFLOW_CLEAR (R411). -/
def State.clearOverflow (s : State) (sl ctx : Nat) : Except ObjErr State :=
  if s.ctxs.any fun c => c.num == ctx && c.slice == sl then .ok (s.updCtx ctx fun c => { c with overflow := false })
  else .error (0x0907, 0x05)

/-- EPOCH_SECOND (R29, R54). -/
def State.writeEpoch (s : State) (v : Nat) : Except ObjErr State :=
  if s.time.ppsState = 0 then .error (0x0404, 0x05)
  else
    let t := s.setObj 0x3000 4 [] 0 (.num v)
    .ok { t with time := { t.time with epochArmed := true } }

/-- STORE and RESTORE (R479, R481). -/
def State.writeStore (s : State) (restore : Bool) (v : Nat) : Except ObjErr State :=
  if v ≠ (if restore then 0x6C64 else 0x7365) then .error (objErr 0x0A)
  else if s.stored.status = 1 then .error (objErr 0x09)
  else if restore then .ok { s with stored := { s.stored.commit s.stored.defaults with restoreStatus := 2 } }
  else .ok s.startStore

/-- A write to a slice's index (R406, R407, R411, R542). -/
def State.writeSlice (s : State) (sl sub : Nat) (v : List Byte) : Except ObjErr State :=
  if sub = 22 then
    (if sl = 0 ∨ (s.sliceOf sl).state = 0 then .error (0x0907, 0x05)
     else (s.writeKey 1 sl 32 v).map fun k => s.updSlice sl fun x => { x with kek := some k })
  else if sub = 25 then s.clearOverflow sl (beNat v)
  else if sub = 20 then .ok (s.setObj (0x4000 + sl) 20 [] 0 (.num (beNat v)))
  else if sub = 21 then .ok (s.setObj (0x4000 + sl) 21 [] 0 (.bytes v))
  else match s.writeAllot sl sub (beNat v) with
    | .ok t => .ok t
    | .error c => .error (c, 0x05)

/-- CUSTODIAN_BIND (R489): only in a Custodian session of the field network. -/
def State.writeBind (s : State) (canfd : Bool) (v : Nat) : Except ObjErr State :=
  if !canfd then .error (0x0904, 0x08)
  else
    let code := s.bindCheck v 0 2
    if code ≠ 0 then .error (code, 0x05) else .ok (s.bindPid v 0 2)

/-- Apply a write that has passed the checks of R466 and R467. `sl` is the slice of the binding. -/
def State.applyWrite (s : State) (canfd : Bool) (at_ : Arch) (view : Option Nat) (sl : Nat) (d : ObjDef) (a : ObjAddr)
    (v : List Byte) : Except ObjErr State :=
  let n := beNat v
  match a.index, a.sub with
  | 0x1010, _ => s.writeStore false n
  | 0x1011, _ => s.writeStore true n
  | 0x1103, 1 => (s.writeKey 2 0 48 v).map fun k => { s with can := { s.can with keyOperator := k } }
  | 0x1103, _ => (s.writeKey 3 0 48 v).map fun k => { s with can := { s.can with keyCustodian := k } }
  | 0x1104, _ => s.writeBind canfd n
  | 0x2002, 7 => if (s.group.memberAt n).isSome then .ok (s.memberLeave n) else .error (objErr 0x05)
  | 0x3000, _ => s.writeEpoch n
  | 0x3800, _ => s.writePin sl v
  | 0x5100, sub => .ok (s.writeRing (ringAt 0x5100 at_ view) sub n)
  | 0x5101, sub => .ok (s.writeRing 1 sub n)
  | 0x7000, 3 => s.revokeKey n
  | 0x7000, _ => s.commitSvn n
  | 0x7010, 2 => s.stageData v
  | 0x7020, 3 =>
    let (t, code) := s.tryUnlock v
    if code = 0 then .ok t else .error (code, 0x05)
  | index, sub =>
    if 0x4000 ≤ index ∧ index ≤ 0x43FF then s.writeSlice (index - 0x4000) sub v
    else if d.acc = .sticky then .ok (if n = 1 then s.setObj index sub [] 0 (.num 0) else s)
    else match d.type.size with
      | some _ => .ok ((s.setObj index sub [] 0 (.num n)).afterRws index sub n)
      | none => .ok (s.setObj index sub [] 0 (.bytes v))

/-- Ill-formed UTF-8: a lead or continuation byte out of place, an overlong form, a surrogate, or beyond the last code point. -/
def utf8Ok : Nat → List Byte → Bool
  | _, [] => true
  | 0, _ => false
  | fuel + 1, b :: t =>
    let x := b.toNat
    let cont := fun (k : Nat) (lo hi : Nat) =>
      decide (k ≤ t.length) && (t.take k).all (fun c => c.toNat / 64 == 2) && decide (lo ≤ (nth t 0 0).toNat) &&
        decide ((nth t 0 0).toNat ≤ hi) && utf8Ok fuel (t.drop k)
    if x < 0x80 then utf8Ok fuel t
    else if 0xC2 ≤ x ∧ x ≤ 0xDF then cont 1 0x80 0xBF
    else if x = 0xE0 then cont 2 0xA0 0xBF
    else if x = 0xED then cont 2 0x80 0x9F
    else if 0xE1 ≤ x ∧ x ≤ 0xEF then cont 2 0x80 0xBF
    else if x = 0xF0 then cont 3 0x90 0xBF
    else if x = 0xF4 then cont 3 0x80 0x8F
    else if 0xF1 ≤ x ∧ x ≤ 0xF3 then cont 3 0x80 0xBF
    else false

/-- The checks of a written value against its type and range: 0, or the code of R478 (R466). -/
def ObjDef.valueCode (d : ObjDef) (index sub : Nat) (v : List Byte) : Nat :=
  match d.type.size with
  | some n =>
    if v.length ≠ n then 0x04
    else if d.type.top < beNat v ∨ beNat v < d.lo ∨ d.hi < beNat v ∨ !(extraRange index sub (beNat v)) then 0x05
    else 0
  | none =>
    if d.type = .str then (if 64 < v.length then 0x04 else if utf8Ok v.length v then 0 else 0x05)
    else if 0x1000000 < v.length then 0x04
    else if domForm index sub v.length then 0 else 0x05

/-- A group. -/
def Arch.isGroup : Arch → Bool
  | .group => true
  | .nested _ => true
  | _ => false

/-- A write at this arch does not reach this device: it is of another member, of a nested group that does not hold this
device, or a group's own value that its leader holds (R471). -/
def State.passesBy (s : State) (a : Arch) (d : ObjDef) : Bool :=
  match a with
  | .other => true
  | .group => d.agg == .own && s.group.leader != s.group.node
  | .nested g => (d.agg == .own && s.group.leader != s.group.node) ||
      !(s.group.members.any fun m => m.node == s.group.node && m.path.take g.length == g)
  | _ => false

/-- A SUM allotment is written at group level only (R406). -/
def State.belowGroup (s : State) (at_ : Arch) (index sub : Nat) : Bool :=
  s.group.grouped && at_ != .group && decide (0x4000 ≤ index ∧ index ≤ 0x43FF) && allotSum sub

/-- A write after its role check (R466, R467, R470, R471); one that would step the device time after READY is refused as
such (R54). What goes to another member alone changes nothing here. -/
def State.writeObj (s : State) (canfd : Bool) (view : Option Nat) (sl : Nat) (a : ObjAddr) (v : List Byte) :
    Except ObjErr State :=
  match s.resolve canfd a.path with
  | none => .error (objErr 0x06)
  | some at_ =>
    match s.objAt at_ a.index a.sub with
    | none => .error (objErr 0x01)
    | some d =>
      let code := d.valueCode a.index a.sub v
      if a.index = 0x3000 ∧ a.sub = 1 ∧ s.power.ready ∧ code = 0 ∧ beNat v ≠ s.now then .error (0x0403, 0x02)
      else if d.acc = .co ∨ d.acc = .ro then .error (objErr 0x02)
      else if zeroAllot a.index a.sub ∨ s.belowGroup at_ a.index a.sub then .error (0x0907, 0x05)
      else if code = 0x05 then .error (d.status, 0x05)
      else if code ≠ 0 then .error (objErr code)
      else if at_.isGroup ∧ d.agg = .all then .error (objErr 0x07)
      else if s.passesBy at_ d then .ok s
      else s.applyWrite canfd at_ view sl d a v

/-! ### In band (R448, R477) -/

/-- An object command whose binding does not reach the object is refused (R397, R448). -/
def State.objRefused (s : State) (h : CmdHdr) (op : Nat) (a : ObjAddr) : Option State :=
  if (s.acceptedFrom h op).isSome ∨ s.power.frozen then none
  else match s.bindingOf h.pid with
    | none => none
    | some b =>
      let code := s.objReach b.role b.slice a (op == 0x0011)
      if h.gen = s.genOf b.slice ∧ code ≠ 0 then some (s.refuse h code 16) else none

/-- The slice view of a binding. -/
def Binding.view (b : Binding) : Option Nat := if b.role = 0 then some b.slice else none

/-- DETAIL of R477. -/
def objDetail (code flags : Nat) (v : List Byte) : Nat :=
  code * 2 ^ 56 + flags * 2 ^ 48 + (if v.length ≤ 4 then beNat v else 0)

/-- A public object (R469). -/
def isPublic (a : ObjAddr) : Bool := (objDef a.index a.sub).any fun d => d.pub

/-- A read by capsule; a pause holds the read of an object that is not public (R15, R476). -/
def State.bandRead (s : State) (h : CmdHdr) (a : ObjAddr) : State :=
  match s.objRefused h 0x0010 a with
  | some t => t
  | none =>
    if s.paused ∧ !(isPublic a) then s.holdCommand (.objRead h a) h 0x0010 anyRole
    else s.command (.objRead h a) h 0x0010 anyRole fun t b =>
      match t.awake.readObj false b.view a with
      | .ok (v, flags, u) => u.finish b.slice h 0 (objDetail 0 flags v) v
      | .error (status, code) => t.finish b.slice h status (objDetail code 0 []) []

/-- A write by capsule, the row `i`; a pause holds it (R15). The write of STORE completes when STORE_STATUS is done or
failed (R479). A refused debug token renews the challenge all the same (R546). -/
def State.bandWrite (s : State) (i : Instr) (h : CmdHdr) (a : ObjAddr) (v : List Byte) : State :=
  match s.objRefused h 0x0011 a with
  | some t => t
  | none => s.managed i h 0x0011 anyRole fun t b =>
    match t.awake.writeObj false b.view b.slice a v with
    | .ok u => if a.index = 0x1010 then u.wait (.store h) else u.postAs b.slice h h.gen 0 0 []
    | .error (status, code) =>
      let u := if a.index = 0x7020 ∧ a.sub = 3 ∧ 0x0A00 < status then t.newChallenge else t
      u.finish b.slice h status (objDetail code 0 []) []

/-! ### Over CAN FD (R486-R489) -/

/-- The session ends (R487, R488). -/
def State.endSession (s : State) : State := { s with can := { s.can with role := 0, path := [], challenge := none } }

/-- A request counts for SESSION_IDLE (R488). -/
def State.touched (s : State) : State := { s with can := { s.can with lastRequest := s.now } }

/-- An open transfer that a request of another kind displaces ends with SEGMENT_ABORTED (R486). -/
def State.displace (s : State) : State :=
  match s.can.transfer with
  | none => s
  | some x => ({ s with can := { s.can with transfer := none } } : State).canAbort x.addr 0x14

/-- What a CAN FD access may not do: 0, SESSION_REQUIRED or OBJECT_ROLE (R478, R488, R489). -/
def State.canReach (s : State) (a : ObjAddr) (write : Bool) : Nat :=
  match objDef a.index a.sub with
  | none => 0
  | some d =>
    if !write ∧ d.pub then 0
    else if write ∧ a.index = 0x1103 ∧ a.sub = 2 ∧ s.can.keyCustodian.isEmpty then 0
    else if s.can.role = 0 then 0x10
    else if roleReach s.can.role a write ≠ 0 then 0x08
    else 0

/-- A held access waits while the hub cannot serve it: from the freeze of a save on only public objects answer (R476). -/
def State.canHeld (s : State) (a : ObjAddr) (write : Bool) : Bool :=
  s.power.frozen && (write || !((objDef a.index a.sub).any fun d => d.pub))

/-- A pause holds every access but the read of a public object (R15, R476). -/
def State.canWaits (s : State) (a : ObjAddr) (write : Bool) : Bool := s.paused && (write || !(isPublic a))

/-- The address a frame names, on the path of the node (R484, R487). -/
def State.canAddr (s : State) (a : ObjAddr) : ObjAddr := { a with path := s.can.path }

/-- The value of a read over CAN FD, or the code of R478. -/
def State.canRead (s : State) (a : ObjAddr) : Except Nat (List Byte × State) :=
  let code := s.canReach a false
  if code ≠ 0 then .error code
  else
    let t := if (objDef a.index a.sub).any (fun d => d.pub) then s else s.awake
    match t.readObj true none a with
    | .ok (v, _, u) => .ok (v, u)
    | .error (_, c) => .error c

/-- Apply a value that has arrived over CAN FD and answer it; the answer to STORE waits (R479, R484). -/
def State.canWrite (s : State) (a : ObjAddr) (v : List Byte) : State :=
  let code := s.canReach a true
  if code ≠ 0 then s.canAbort a code
  else match s.awake.writeObj true none 0 a v with
    | .ok u =>
      if a.index = 0x1010 then { u with can := { u.can with storeWait := true } } else u.canReply 0x82 a []
    | .error (status, c) =>
      (if a.index = 0x7020 ∧ a.sub = 3 ∧ 0x0A00 < status then s.newChallenge else s).canAbort a c

/-- A request from the field network reaches the controller. -/
def State.canHears (s : State) : Bool := decide (s.can.busState ≠ 2)

/-- A write from either side, the row `i`. -/
def State.writeFrom (s : State) (i : Instr) (src : ObjSrc) (a : ObjAddr) (v : List Byte) : State :=
  match src with
  | .capsule h => s.bandWrite i h a v
  | .canfd =>
    let a := s.canAddr a
    if s.canHears ∧ s.canWaits a true then s.hold i
    else if !s.canHears ∨ s.canHeld a true then s else (s.displace.touched).canWrite a v

/-! ### Rows (R477, and the objects with rows of their own) -/

/-- OBJ_READ (R477). -/
def execObjRead (h : CmdHdr) (a : ObjAddr) (s : State) : Out := .next (s.bandRead h a)

/-- OBJ_WRITE (R477). -/
def execObjWrite (h : CmdHdr) (a : ObjAddr) (value : List Byte) (s : State) : Out :=
  .next (s.bandWrite (.objWrite h a value) h a value)

/-- PIN_REQUEST (R195). -/
def execPinRequest (src : ObjSrc) (table pin : Nat) (s : State) : Out :=
  .next (s.writeFrom (.pinRequest src table pin) src ⟨0x3800, 3, []⟩ (natBytes 3 table ++ natBytes 1 (min 255 pin)))

/-- MEMBER_LEAVE (R435): an identifier beyond a byte is out of range. -/
def execMemberLeave (src : ObjSrc) (node : Nat) (s : State) : Out :=
  .next (s.writeFrom (.memberLeave src node) src ⟨0x2002, 7, []⟩ (natBytes 1 (min 255 node)))

/-- FW_STAGE_DATA (R543). -/
def execFwStageData (src : ObjSrc) (value : List Byte) (s : State) : Out := .next (s.writeFrom (.fwStageData src value) src ⟨0x7010, 2, []⟩ value)

/-- SVN_COMMIT (R534). -/
def execSvnCommit (src : ObjSrc) (svn : Nat) (s : State) : Out :=
  .next (s.writeFrom (.svnCommit src svn) src ⟨0x7000, 5, []⟩ (natBytes 1 (min 255 svn)))

/-- VENDOR_KEY_REVOKE (R535). -/
def execVendorKeyRevoke (src : ObjSrc) (value : Nat) (s : State) : Out :=
  .next (s.writeFrom (.vendorKeyRevoke src value) src ⟨0x7000, 3, []⟩ (natBytes 1 (min 255 value)))

/-- SLICE_KEK (R411, R542). -/
def execSliceKek (src : ObjSrc) (slice : Nat) (delivery : List Byte) (s : State) : Out :=
  .next (if slice < 1024 then s.writeFrom (.sliceKek src slice delivery) src ⟨0x4000 + slice, 22, []⟩ delivery else s)

/-- CANFD_KEY_OPERATOR (R489, R542). -/
def execCanfdKeyOperator (src : ObjSrc) (delivery : List Byte) (s : State) : Out :=
  .next (s.writeFrom (.canfdKeyOperator src delivery) src ⟨0x1103, 1, []⟩ delivery)

/-- CANFD_KEY_CUSTODIAN (R489, R542): the first write needs no session. -/
def execCanfdKeyCustodian (src : ObjSrc) (delivery : List Byte) (s : State) : Out :=
  .next (s.writeFrom (.canfdKeyCustodian src delivery) src ⟨0x1103, 2, []⟩ delivery)

/-- CUSTODIAN_BIND (R489). -/
def execCustodianBind (src : ObjSrc) (value : Nat) (s : State) : Out :=
  .next (s.writeFrom (.custodianBind src value) src ⟨0x1104, 1, []⟩ (natBytes 4 (min u32Max value)))

/-- DEBUG_UNLOCK (R546). -/
def execDebugUnlock (src : ObjSrc) (token : List Byte) (s : State) : Out := .next (s.writeFrom (.debugUnlock src token) src ⟨0x7020, 3, []⟩ token)

/-- EPOCH_SECOND (R29). -/
def execEpochSecond (src : ObjSrc) (value : Nat) (s : State) : Out :=
  .next (s.writeFrom (.epochSecond src value) src ⟨0x3000, 4, []⟩ (natBytes 8 (min u64Max value)))

/-- ALLOTMENT_WRITE (R406, R407): a value beyond its type is beyond its range. -/
def execAllotmentWrite (src : ObjSrc) (slice sub value : Nat) (s : State) : Out :=
  .next <|
    match (sliceDef sub).bind fun d => d.type.size with
    | some n =>
      if slice < 1024 ∧ 4 ≤ sub ∧ sub ≤ 18 then
        s.writeFrom (.allotmentWrite src slice sub value) src ⟨0x4000 + slice, sub, []⟩ (natBytes n (min (256 ^ n - 1) value))
      else s
    | none => s

/-- OVERFLOW_CLEAR (R411). -/
def execOverflowClear (src : ObjSrc) (slice ctx : Nat) (s : State) : Out :=
  .next (if slice < 1024 then s.writeFrom (.overflowClear src slice ctx) src ⟨0x4000 + slice, 25, []⟩ (natBytes 2 (min 65535 ctx)) else s)

/-- STORE (R479). -/
def execStore (src : ObjSrc) (value : Nat) (s : State) : Out :=
  .next (s.writeFrom (.store src value) src ⟨0x1010, 1, []⟩ (natBytes 2 (min 65535 value)))

/-- STORE_MRAM_DONE (R480): the set is written and its marker last, or the write has failed. -/
def execStoreMramDone (ok : Bool) (s : State) : Out :=
  .next <|
    match s.stored.snapshot with
    | none => s
    | some x =>
      let cfg := if ok then { s.stored.commit x with status := 2 } else { s.stored with status := 3 }
      let s1 : State := { s with stored := { cfg with snapshot := none } }
      let s2 := if ok then s1.bumpBy 0x1010 3 [] 0 u32Max 1 else s1
      let s3 := if s2.can.storeWait then
          ({ s2 with can := { s2.can with storeWait := false } } : State).canReply 0x82 ⟨0x1010, 1, []⟩ []
        else s2
      s3.host.waiting.foldl State.storeAnswered s3

/-- RESTORE (R481). -/
def execRestore (src : ObjSrc) (value : Nat) (s : State) : Out :=
  .next (s.writeFrom (.restore src value) src ⟨0x1011, 1, []⟩ (natBytes 2 (min 65535 value)))

/-- An object of a ring (R510). -/
def ringIndex (a : ObjAddr) : Bool := a.index == 0x5100 || a.index == 0x5101

/-- RING_ACK (R510). -/
def execRingAck (src : ObjSrc) (a : ObjAddr) (n : Nat) (s : State) : Out :=
  .next (if ringIndex a then s.writeFrom (.ringAck src a n) src ⟨a.index, 3, a.path⟩ (natBytes 1 (min 255 n)) else s)

/-- RING_OVERFLOW_CLEAR (R510). -/
def execRingOverflowClear (src : ObjSrc) (a : ObjAddr) (v : Nat) (s : State) : Out :=
  .next (if ringIndex a then s.writeFrom (.ringOverflowClear src a v) src ⟨a.index, 4, a.path⟩ (natBytes 1 (min 255 v)) else s)

/-- FIRST_CLEAR (R510). -/
def execFirstClear (src : ObjSrc) (a : ObjAddr) (v : Nat) (s : State) : Out :=
  .next (if ringIndex a then s.writeFrom (.firstClear src a v) src ⟨a.index, 7, a.path⟩ (natBytes 1 (min 255 v)) else s)

/-- COALESCE_ENTRY_CLOSE (R505): the entries of a ring close 25 ticks after their TIME. -/
def execCoalesceEntryClose (ring : Nat) (s : State) : Out :=
  .next { s with err := { s.err with
    rings := s.err.rings.map fun e =>
      if e.1 = ring then (e.1, { e.2 with coal := e.2.coal.filter fun c => decide (s.now < c.time + 25) }) else e } }

end Sys2Proof.Machine
end

