-- ==== Sys2Proof/Machine/CanFd.lean ====
section
/-! DEFINITION. The CAN FD controller (18): requests and segmented transfers (R484-R486), the path (R487), sessions (R488),
HEARTBEAT (R483) and the error counters of ISO 11898-1 (R482). A request is the payload of a REQUEST frame that carries this
node. A controller that is bus off hears nothing and sends nothing. -/

namespace Sys2Proof.Machine

/-! ### Requests (R484, R485) -/

/-- The object a request names, on the path of the node. -/
def State.frameAddr (s : State) (f : List Byte) : ObjAddr := ⟨beNat (slice f 1 2), beNat (slice f 3 1), s.can.path⟩

/-- The type of an object travels in READ and WRITE: its length; none for STR and DOM, and for an absent object. -/
def fixedSize (a : ObjAddr) : Option Nat := (objDef a.index a.sub).bind fun d => d.type.size

/-- An object of type STR or DOM. -/
def segmented (a : ObjAddr) : Bool := (objDef a.index a.sub).any fun d => d.type.size.isNone

/-- A request that is heard: an open transfer that it displaces ends, the session stays in use, and it is served. -/
def State.serve (s : State) (f : State → State) : Out := .next (if s.canHears then f s.displace.touched else s)

/-- A request about an object, the row `i`: served now, held by a pause of the management plane (R15), or by the freeze of
a save (R476). -/
def State.serveObj (s : State) (i : Instr) (f : List Byte) (write : Bool) (go : ObjAddr → State → State) : Out :=
  let a := s.frameAddr f
  if s.canHears ∧ s.canWaits a write then .next (s.hold i) else if s.canHeld a write then .next s else s.serve (go a)

/-- READ (R485). -/
def execRead (frame : List Byte) (s : State) : Out :=
  s.serveObj (.read frame) frame false fun a t =>
    match t.canRead a with
    | .error code => t.canAbort a code
    | .ok (v, u) => if segmented a then t.canAbort a 0x04 else u.canReply 0x81 a v

/-- WRITE (R485): the frame is the smallest that holds 4 bytes and the value. -/
def execWrite (frame : List Byte) (s : State) : Out :=
  s.serveObj (.write frame) frame true fun a t =>
    let code := t.canReach a true
    if code ≠ 0 then t.canAbort a code
    else if segmented a then t.canAbort a 0x04
    else match fixedSize a with
      | none => t.canAbort a 0x01
      | some n => if frame.length ≠ canSize (4 + n) then t.canAbort a 0x04 else t.canWrite a (slice frame 4 n)

/-! ### Segmented transfers (R486) -/

/-- The value bytes of a segment. -/
def segBytes : Nat := 62

/-- The number of segments of a value. -/
def segCount (total : Nat) : Nat := (total + segBytes - 1) / segBytes

/-- The bytes of segment `k`. -/
def segSize (total k : Nat) : Nat := min segBytes (total - segBytes * k)

/-- Replace the open transfer. -/
def State.setTransfer (s : State) (x : Option Transfer) : State := { s with can := { s.can with transfer := x } }

/-- End the open transfer with a code. -/
def State.endTransfer (s : State) (x : Transfer) (code : Nat) : State := (s.setTransfer none).canAbort x.addr code

/-- Send up to 16 segments from `acked` on. -/
def State.sendSegments (s : State) (x : Transfer) : State :=
  let n := min 16 (segCount x.total - x.acked)
  let t := (List.range n).foldl (fun (u : State) i =>
    u.canSend 6 (natBytes 1 0x85 ++ natBytes 1 ((x.acked + i) % 256) ++ slice x.data (segBytes * (x.acked + i)) (segSize x.total (x.acked + i)))) s
  t.setTransfer (if n = 0 then none else some { x with nextSeq := x.acked + n, last := s.now })

/-- SEG_READ (R486): the value as it stands, then its first segments. -/
def execSegRead (frame : List Byte) (s : State) : Out :=
  s.serveObj (.segRead frame) frame false fun a t =>
    match t.canRead a with
    | .error code => t.canAbort a code
    | .ok (v, u) =>
      if !(segmented a) then t.canAbort a 0x04
      else (u.canReply 0x83 a (natBytes 4 v.length)).sendSegments
        { writing := false, addr := a, total := v.length, data := v, nextSeq := 0, acked := 0, last := s.now }

/-- Why no transfer opens that writes an object: 0, or the code of R478. -/
def State.segRefusal (s : State) (a : ObjAddr) (total : Nat) : Nat :=
  let code := s.canReach a true
  if code ≠ 0 then code
  else match s.resolve true a.path with
    | none => 0x06
    | some at_ => if (s.objAt at_ a.index a.sub).isNone then 0x01
      else if !(segmented a) ∨ 1048576 < total then 0x04 else 0

/-- All bytes of a written value have arrived: it is applied. -/
def State.segApply (s : State) (x : Transfer) : State :=
  let t := s.setTransfer none
  if x.data.length < x.total then s else t.canWrite x.addr x.data

/-- SEG_WRITE (R486). -/
def execSegWrite (frame : List Byte) (s : State) : Out :=
  s.serveObj (.segWrite frame) frame true fun a t =>
    let total := beNat (slice frame 4 4)
    let code := t.segRefusal a total
    if code ≠ 0 then t.canAbort a code
    else
      let x : Transfer := { writing := true, addr := a, total := total, data := [], nextSeq := 0, acked := 0, last := s.now }
      ((t.canReply 0x84 a []).setTransfer (some x)).segApply x

/-- SEG_DATA (R486): the segment in sequence is taken; the device acknowledges every 16th and the last. -/
def execSegData (frame : List Byte) (s : State) : Out :=
  match s.can.transfer with
  | some x =>
    if !x.writing then s.serve id
    else if s.canHears ∧ s.paused then .next (s.hold (.segData frame))
    else if !s.canHears ∨ s.power.frozen then .next s
    else
      let n := segSize x.total x.nextSeq
      let t := s.touched
      if beNat (slice frame 1 1) ≠ x.nextSeq % 256 ∨ frame.length ≠ canSize (2 + n) then .next (t.endTransfer x 0x13)
      else
        let y := { x with data := x.data ++ slice frame 2 n, nextSeq := x.nextSeq + 1, last := s.now }
        let ack := y.nextSeq % 16 = 0 ∨ y.total ≤ y.data.length
        let u := if ack then t.canSend 6 (natBytes 1 0x86 ++ natBytes 1 (x.nextSeq % 256)) else t
        .next ((u.setTransfer (some { y with acked := if ack then y.nextSeq else y.acked })).segApply y)
  | none => s.serve id

/-- The segments a client has received in order, from an acknowledgement of a SEQ among those it may have seen. -/
def Transfer.ackedTo (x : Transfer) (seq : Nat) : Option Nat :=
  (List.range (x.nextSeq - x.acked + 1)).findSome? fun i =>
    if (x.acked + i + 255) % 256 = seq % 256 then some (x.acked + i) else none

/-- SEG_ACK (R486): the device goes on from the segment that follows the acknowledged one. -/
def execSegAck (frame : List Byte) (s : State) : Out :=
  match s.can.transfer with
  | some x =>
    if x.writing then s.serve id
    else if !s.canHears then .next s
    else match x.ackedTo (beNat (slice frame 1 1)) with
      | none => .next (s.touched.setTransfer (some { x with last := s.now }))
      | some k => .next (s.touched.sendSegments { x with acked := k })
  | none => s.serve id

/-- ABORT of a client (R484, R478): the transfer it aborts ends, and the answer says CLIENT_ABORT. -/
def execAbort (frame : List Byte) (s : State) : Out :=
  .next <|
    if !s.canHears then s
    else (s.touched.setTransfer none).canAbort (s.frameAddr frame) 0x16

/-- SEGMENT_TIMEOUT (R486): no frame for 1 s. -/
def execSegmentTimeout (s : State) : Out :=
  .next <|
    match s.can.transfer with
    | some x => if x.last + second ≤ s.now then s.endTransfer x 0x15 else s
    | none => s

/-! ### Path and sessions (R487, R488) -/

/-- PATH (R487). -/
def execPath (frame : List Byte) (s : State) : Out :=
  s.serve fun t =>
    let n := beNat (slice frame 1 1)
    let cs := unpackBytes (fitList 12 0 (slice frame 2 12))
    if 8 < n ∨ (cs.drop n).any (fun c => c != 0xFFF) then t.canAbort ⟨0, 0, []⟩ 0x06
    else ({ t with can := { t.can with path := (cs.take n).map fun c => c.toNat } } : State).canSend 6 (natBytes 1 0x88)

/-- The key of a session role. -/
def State.roleKey (s : State) (role : Nat) : List Byte :=
  if role = 1 then s.can.keyOperator else if role = 2 then s.can.keyCustodian else []

/-- SESSION_RESP: 0 or a code of R478. -/
def State.sessionResp (s : State) (code : Nat) : State := s.canSend 6 (natBytes 1 0x8A ++ natBytes 1 code)

/-- SESSION_OPEN (R488). -/
def execSessionOpen (frame : List Byte) (s : State) : Out :=
  s.serve fun t =>
    let role := beNat (slice frame 1 1)
    let u := t.endSession
    if u.can.lockedUntil.any fun k => decide (u.now < k) then u.sessionResp 0x12
    else if (u.roleKey role).isEmpty then u.sessionResp 0x11
    else
      let nonce := u.randomBytes 32
      (({ u with can := { u.can with challenge := some (role, beNat nonce, u.now) } } : State).advanceFree).canSend 6
        (natBytes 1 0x89 ++ natBytes 1 role ++ nonce)

/-- The message a proof covers. -/
def State.proofMessage (s : State) (role nonce : Nat) : List Byte :=
  fitList 16 0 Config.serial ++ natBytes 1 s.can.node ++ natBytes 1 role ++ natBytes 32 nonce

/-- A proof fails; the fourth in a row locks session opening for 60 s. -/
def State.proofFails (s : State) : State :=
  let n := s.can.fails + 1
  let t := s.bumpBy 0x1101 3 [] 0 u32Max 1
  ({ t with can := { t.can with
      fails := n
      lockedUntil := if 4 ≤ n then some (s.now + 60 * second) else t.can.lockedUntil } } : State).sessionResp 0x11

/-- SESSION_PROVE (R488). -/
def execSessionProve (frame : List Byte) (s : State) : Out :=
  s.serve fun t =>
    let u : State := { t with can := { t.can with challenge := none } }
    match t.can.challenge with
    | some (role, nonce, since) =>
      if t.now ≤ since + second ∧ fitList 16 0 (slice frame 1 16) = fitList 16 0 (Config.sessionProof (t.roleKey role) (t.proofMessage role nonce)) then
        ({ u with can := { u.can with role := role, fails := 0 } } : State).sessionResp 0
      else u.proofFails
    | none => u.proofFails

/-- SESSION_CLOSE (R488). -/
def execSessionClose (_frame : List Byte) (s : State) : Out := s.serve fun t => t.endSession.canSend 6 (natBytes 1 0x8B)

/-- SESSION_PROOF_TIMEOUT (R488): a proof that comes later fails. -/
def execSessionProofTimeout (s : State) : Out :=
  .next <|
    if s.can.challenge.any fun c => decide (c.2.2 + second < s.now) then { s with can := { s.can with challenge := none } } else s

/-- SESSION_IDLE_TIMEOUT (R488). -/
def execSessionIdleTimeout (s : State) : Out :=
  .next <|
    if s.can.role ≠ 0 ∧ s.can.lastRequest + s.objNum 0x1101 1 [] 0 60 * second ≤ s.now then s.endSession else s

/-- SESSION_LOCKOUT_END (R488). -/
def execSessionLockoutEnd (s : State) : Out :=
  .next <|
    if s.can.lockedUntil.any fun k => decide (k ≤ s.now) then { s with can := { s.can with lockedUntil := none, fails := 0 } } else s

/-! ### Frames of the plinth and the bus (R482, R483) -/

/-- Byte 0 of HEARTBEAT. -/
def State.heartbeatBits (s : State) : Nat :=
  (if s.power.ready then 1 else 0) + (if s.quoin.standby then 2 else 0) + (if s.objNum 0x3001 2 [] 0 0 ≠ 0 then 4 else 0) +
    (if (s.ringOf 1).sticky.testBit 4 then 8 else 0)

/-- HEARTBEAT (R483), every HEARTBEAT_PERIOD ms. -/
def execHeartbeat (s : State) : Out :=
  let ms := s.objNum 0x1100 3 [] 0 1000
  .next <|
    if ms = 0 ∨ s.can.busState = 2 ∨ s.now < s.can.lastHeartbeat + ms * 25000 then s
    else ({ s with can := { s.can with lastHeartbeat := s.now } } : State).canSend 0xE
      (natBytes 1 s.heartbeatBits ++ natBytes 1 s.can.node ++ natBytes 6 (s.now % 2 ^ 48))

/-- CANFD_STATE from the error counters of ISO 11898-1: passive from 128, bus off from 256 transmit errors. -/
def busStateOf (tec rec_ : Nat) : Nat := if 256 ≤ tec then 2 else if 128 ≤ tec ∨ 128 ≤ rec_ then 1 else 0

/-- CANFD_BUS_ERROR (R482): an error adds its weight, 1 or 8, to the counter of its side. -/
def execCanfdBusError (transmit : Bool) (weight : Nat) (s : State) : Out :=
  .next <|
    if s.can.busState = 2 then s
    else
      let tec := if transmit then s.can.tec + weight else s.can.tec
      let rec_ := if transmit then s.can.rec_ else s.can.rec_ + weight
      let off := busStateOf tec rec_ = 2
      let t := if off then s.setTransfer none else s
      { t with can := { t.can with tec := tec, rec_ := rec_, busState := busStateOf tec rec_, recovery := 0 } }

/-- CANFD_BUS_OFF_RECOVERY (R482): one sequence of 11 recessive bits; after 128 of them the controller is error active. -/
def execCanfdBusOffRecovery (s : State) : Out :=
  .next <|
    if s.can.busState ≠ 2 then s
    else if s.can.recovery + 1 < 128 then { s with can := { s.can with recovery := s.can.recovery + 1 } }
    else { s with can := { s.can with tec := 0, rec_ := 0, busState := 0, recovery := 0 } }

end Sys2Proof.Machine
end

