-- ==== Sys2Proof/Machine/ChiselControl.lean ====
section
/-! DEFINITION. Control transfers of Chisel (R230-R232) and nop. -/

namespace Sys2Proof.Machine

/-- A transfer. -/
def infoT (reads writes : List RegName) (legal : Bool) : Info :=
  { infoS 1 reads writes legal with alone := true, transfer := true }

/-- pc + OFF. -/
def targetOf (pc : Nat) (off : Int) : Nat := (BitVec.ofInt 60 ((pc : Int) + off)).toNat

/-- s31 := pc + 2, the instruction after the delay slot (R230). -/
def Core.link (c : Core) : Core := c.setS 31 (scalarOf (c.pc + 2))

/-- An indirect target at or beyond CODE_LEN (R231). -/
def Core.beyond (c : Core) (t : Nat) : Bool := match c.firing with
  | some f => decide (f.codeLen ≤ t)
  | none => false

/-! ### The predictor (R249, R250); with PREDICT 0 no structure is read or updated -/

/-- An indirect transfer enters its target in the indirect-target table of 512 entries. -/
def Core.learnTarget (c : Core) (t : Nat) : Core :=
  if !c.predicts then c
  else { c with pred := { c.pred with
      indirect := tset (Config.targetHash c.pc c.pred.lastTargets % 512) t c.pred.indirect
      lastTargets := (t :: c.pred.lastTargets).take 4 } }

/-- call and callr push pc + 2 on the return stack of 8 entries; a full stack drops the oldest. -/
def Core.pushRet (c : Core) : Core :=
  if !c.predicts then c else { c with pred := { c.pred with stack := ((c.pc + 2) :: c.pred.stack).take 8 } }

/-- ret pops the return stack; on an empty stack it uses the indirect-target table. -/
def Core.popRet (c : Core) (t : Nat) : Core :=
  if c.pred.stack.isEmpty then c.learnTarget t
  else if !c.predicts then c
  else { c with pred := { c.pred with stack := c.pred.stack.drop 1 } }

/-- br.cc and br.cc.a. -/
def execBr (u : CoreId) (g : Fin 8) (cc : Nat) (annul : Bool) (ra rb : Fin 32) (off : BitVec 13) (s : State) : Out :=
  s.issue u g { infoT (rS [ra, rb]) [] (decide (cc ≤ 5)) with br := true } annul false fun t c _ =>
    let taken := ccHolds cc (c.sr ra.val) (c.sr rb.val)
    let t1 := t.setCore u (c.learnBr taken)
    if taken then .jump t1 (targetOf c.pc off.toInt) 3 else .done t1

/-- j. -/
def execJ (u : CoreId) (g : Fin 8) (off : BitVec 26) (s : State) : Out :=
  s.issue u g (infoT [] [] true) false false fun t c _ => .jump t (targetOf c.pc off.toInt) 3

/-- call. -/
def execCall (u : CoreId) (g : Fin 8) (off : BitVec 26) (s : State) : Out :=
  s.issue u g (infoT [] (rS [31]) true) false false fun t c _ => .jump (t.setCore u c.link.pushRet) (targetOf c.pc off.toInt) 3

/-- An indirect transfer to the index in ra; `f` is what it does to the core beside. -/
def State.jumpTo (s : State) (u : CoreId) (g : Fin 8) (writes : List RegName) (legal : Bool) (ra : Fin 32)
    (f : Core → Nat → Core) : Out :=
  s.issue u g (infoT (rS [ra]) writes legal) false false fun t c _ =>
    let n := (c.sr ra.val).toNat
    if c.beyond n then .fault t 0x03C1 0 else .jump (t.setCore u (f c n)) n 4

/-- jr. -/
def execJr (u : CoreId) (g : Fin 8) (ra : Fin 32) (s : State) : Out := s.jumpTo u g [] true ra Core.learnTarget

/-- callr. -/
def execCallr (u : CoreId) (g : Fin 8) (ra : Fin 32) (s : State) : Out :=
  s.jumpTo u g (rS [31]) true ra fun c n => (c.learnTarget n).link.pushRet

/-- ret: ra is s31. -/
def execRet (u : CoreId) (g : Fin 8) (ra : Fin 32) (s : State) : Out := s.jumpTo u g [] (ra == 31) ra Core.popRet

/-- nop. -/
def execNopInstruction (u : CoreId) (g : Fin 8) (s : State) : Out := s.pureOp u g (infoS 1 [] [] true) id

end Sys2Proof.Machine
end

