-- ==== Sys2Proof/Machine/ChiselDecimal.lean ====
section
/-! DEFINITION. Decimal instructions of Chisel (R215-R217). Every source limb is checked; a non-limb raises
INVALID_LIMB. -/

namespace Sys2Proof.Machine

/-- INVALID_LIMB (R65, R151). -/
def badLimb : Nat := 0x0383

/-- The value of a pair, or INVALID_LIMB. -/
def Core.needPair (c : Core) (i : Nat) : Except Nat Int := match c.pairDec i with
  | some v => .ok v
  | none => .error badLimb

/-- The value of a quad, or INVALID_LIMB. -/
def Core.needQuad (c : Core) (i : Nat) : Except Nat Int := match c.quadDec i with
  | some v => .ok v
  | none => .error badLimb

/-- Write a value to a pair, saturated at magnitude 10^30 − 1, with the overflow it sets (R215, R217). -/
def Core.putPair (c : Core) (rd : Fin 32) (v : Int) : Core :=
  let r := satMag pairMax v
  (c.setPairDec rd.val r.1).saturated r.2

/-- rd := f ra rb on pair values, with the state of the core; `reads` and `sets` name the control registers beside (R215). -/
def State.decOp (s : State) (u : CoreId) (g : Fin 8) (occ charge : Nat) (reads sets : List RegName) (rd ra rb : Fin 32)
    (f : Core → Int → Int → Core) : Out :=
  s.tryOp u g { infoS charge (rPair [ra, rb] ++ reads) (rPair [rd] ++ sets) (pairOk rd && pairOk ra && pairOk rb) with occ := occ }
    fun c => do
      let a ← c.needPair ra.val
      let b ← c.needPair rb.val
      return f c a b

/-- rd := f ra on a pair value. -/
def State.decOp1 (s : State) (u : CoreId) (g : Fin 8) (charge : Nat) (legal : Bool) (writes : List RegName) (ra : Fin 32)
    (f : Core → Int → Core) : Out :=
  s.tryOp u g (infoS charge (rPair [ra]) writes (legal && pairOk ra)) fun c => do
    let a ← c.needPair ra.val
    return f c a

/-- pd := a decimal comparison of two pairs; −0 equals +0 (R62, R66). -/
def State.decCmp (s : State) (u : CoreId) (g : Fin 8) (pd : Fin 8) (ra rb : Fin 32) (f : Int → Int → Bool) : Out :=
  s.tryOp u g (infoS 3 (rPair [ra, rb]) (rP [pd]) (pairOk ra && pairOk rb)) fun c => do
    let a ← c.needPair ra.val
    let b ← c.needPair rb.val
    return c.setP pd.val (maskOf (f a b))

def execDadd (u : CoreId) (g : Fin 8) (rd ra rb : Fin 32) (s : State) : Out :=
  s.decOp u g 1 3 [] [rOvf] rd ra rb fun c a b => c.putPair rd (a + b)

def execDsub (u : CoreId) (g : Fin 8) (rd ra rb : Fin 32) (s : State) : Out :=
  s.decOp u g 1 3 [] [rOvf] rd ra rb fun c a b => c.putPair rd (a - b)

/-- dadd.c: the magnitudes and the carry; sign 0. -/
def execDaddC (u : CoreId) (g : Fin 8) (rd ra rb : Fin 32) (s : State) : Out :=
  s.decOp u g 1 3 [.ctl 3] [.ctl 3] rd ra rb fun c a b =>
    let m := a.natAbs + b.natAbs + c.carryIn
    (c.setPairDec rd.val ((m % 10 ^ 30 : Nat) : Int)).carryOut (decide (10 ^ 30 ≤ m))

def execDmul (u : CoreId) (g : Fin 8) (rd ra rb : Fin 32) (s : State) : Out :=
  s.decOp u g 2 8 [] [rOvf] rd ra rb fun c a b => c.putPair rd (a * b)

/-- dmul.w: the exact product into a quad. -/
def execDmulW (u : CoreId) (g : Fin 8) (rd ra rb : Fin 32) (s : State) : Out :=
  s.tryOp u g { infoS 10 (rPair [ra, rb]) (rQuad rd) (quadOk rd && pairOk ra && pairOk rb) with occ := 2 } fun c => do
    let a ← c.needPair ra.val
    let b ← c.needPair rb.val
    return c.setGroup rd.val 4 (decCourses 20 (a * b))

def execDabs (u : CoreId) (g : Fin 8) (rd ra : Fin 32) (s : State) : Out :=
  s.decOp1 u g 1 (pairOk rd) (rPair [rd]) ra fun c a => c.setPairDec rd.val (a.natAbs : Int)

/-- dneg: the sign inverted; a zero magnitude has sign 0 (R66). -/
def execDneg (u : CoreId) (g : Fin 8) (rd ra : Fin 32) (s : State) : Out :=
  s.decOp1 u g 1 (pairOk rd) (rPair [rd]) ra fun c a => c.setPairDec rd.val (-a)

def execDcmpEq (u : CoreId) (g : Fin 8) (pd : Fin 8) (ra rb : Fin 32) (s : State) : Out :=
  s.decCmp u g pd ra rb fun a b => a == b
def execDcmpNe (u : CoreId) (g : Fin 8) (pd : Fin 8) (ra rb : Fin 32) (s : State) : Out :=
  s.decCmp u g pd ra rb fun a b => a != b
def execDcmpLt (u : CoreId) (g : Fin 8) (pd : Fin 8) (ra rb : Fin 32) (s : State) : Out :=
  s.decCmp u g pd ra rb fun a b => decide (a < b)
def execDcmpGe (u : CoreId) (g : Fin 8) (pd : Fin 8) (ra rb : Fin 32) (s : State) : Out :=
  s.decCmp u g pd ra rb fun a b => decide (b ≤ a)

/-- dext.N: the N-limb field in the low courses of a pair as a pair value; only the field is checked. -/
def execDext (u : CoreId) (g : Fin 8) (n : Nat) (rd ra : Fin 32) (s : State) : Out :=
  s.tryOp u g (infoS 2 (rPair [ra]) (rPair [rd]) (inRange 1 8 n && pairOk rd && pairOk ra)) fun c =>
    match decOf ((c.group ra.val 2).drop (10 - n)) with
    | some v => .ok (c.setPairDec rd.val v)
    | none => .error badLimb

/-- dpack.N: a pair value as an N-limb field in the low courses, saturated at 1000^N − 1. -/
def execDpack (u : CoreId) (g : Fin 8) (n : Nat) (rd ra : Fin 32) (s : State) : Out :=
  s.decOp1 u g 2 (inRange 1 8 n && pairOk rd) (rPair [rd] ++ [rOvf]) ra fun c a =>
    let r := satMag (1000 ^ n - 1) a
    (c.setGroup rd.val 2 (List.replicate (10 - n) 0 ++ decCourses n r.1)).saturated r.2

/-- dcvt.d: a signed scalar as a decimal value; exact. -/
def execDcvtD (u : CoreId) (g : Fin 8) (rd ra : Fin 32) (s : State) : Out :=
  s.pureOp u g (infoS 6 (rS [ra]) (rPair [rd]) (pairOk rd)) fun c => c.setPairDec rd.val (c.sr ra.val).toInt

/-- An integer in scalar rd for N up to 5, else in pair rd as 120-bit two's complement (R215). -/
def Core.putInt (c : Core) (n : Nat) (rd : Fin 32) (v : Int) : Core :=
  if n ≤ 5 then c.setS rd.val (BitVec.ofInt 60 v) else c.setGroup rd.val 2 (natCrs 10 (wrapTo 120 v))

/-- The registers dcvt.i.N and dcvt.u.N write. -/
def cvtWrites (n : Nat) (rd : Fin 32) : List RegName := (if n ≤ 5 then rS [rd] else rPair [rd]) ++ [rOvf]

def execDcvtI (u : CoreId) (g : Fin 8) (n : Nat) (rd ra : Fin 32) (s : State) : Out :=
  s.decOp1 u g 6 (dcvtOk n rd ra) (cvtWrites n rd) ra fun c a =>
    let r := satInt (12 * n) a
    (c.putInt n rd r.1).saturated r.2

def execDcvtU (u : CoreId) (g : Fin 8) (n : Nat) (rd ra : Fin 32) (s : State) : Out :=
  s.decOp1 u g 6 (dcvtOk n rd ra) (cvtWrites n rd) ra fun c a =>
    let r := satUint (12 * n) a
    (c.putInt n rd r.1).saturated r.2

/-- dfit: K digits dropped by round half even, then saturated to N limbs (R216). -/
def execDfit (u : CoreId) (g : Fin 8) (rd ra : Fin 32) (wide : Bool) (k n : Nat) (s : State) : Out :=
  s.tryOp u g
    { infoS (if wide then 8 else 6) (if wide then rQuad ra else rPair [ra]) (rPair [rd] ++ [rOvf]) (dfitOk rd ra wide k n) with
      occ := if wide then 2 else 1 }
    fun c => do
      let a ← if wide then c.needQuad ra.val else c.needPair ra.val
      let r := satMag (1000 ^ n - 1) (roundDec k a)
      return (c.setPairDec rd.val r.1).saturated r.2

/-- dsl: times 10^K, saturating (R216). -/
def execDsl (u : CoreId) (g : Fin 8) (rd ra : Fin 32) (k : Nat) (s : State) : Out :=
  s.decOp1 u g 3 (pairOk rd && decide (k ≤ 29)) (rPair [rd] ++ [rOvf]) ra fun c a => c.putPair rd (a * ((10 ^ k : Nat) : Int))

end Sys2Proof.Machine
end

