-- ==== Sys2Proof/Machine/ChiselScalar.lean ====
section
/-! DEFINITION. Scalar, immediate, compare and predicate instructions of Chisel (R213, R214). -/

namespace Sys2Proof.Machine

/-! ### Operations on values (R213) -/

/-- The low 12n bits sign-extended. -/
def sextN (n : Nat) (a : Scalar) : Scalar := BitVec.ofInt 60 (signedOf (12 * n) a.toNat)

/-- The low 12n bits zero-extended. -/
def zextN (n : Nat) (a : Scalar) : Scalar := scalarOf (a.toNat % 2 ^ (12 * n))

/-- The number of 1 bits among the low `w` bits. -/
def popCount (w n : Nat) : Nat := ((List.range w).filter fun k => n.testBit k).length

/-- Leading zero bits within 60; 60 for zero. -/
def leadingZeros (a : Scalar) : Nat := match (List.range 60).find? fun k => a.getLsbD (59 - k) with
  | some k => k
  | none => 60

/-- The index of the lowest set bit, or 64. -/
def firstBit (p : Pred) : Nat := ((List.range 64).find? fun k => p.getLsbD k).getD 64

/-- The high 60 bits of a 120-bit product. -/
def mulHigh (x : Int) : Scalar := BitVec.ofInt 60 (x / ((2 ^ 60 : Nat) : Int))

/-- A shift amount: a scalar modulo 64 (R213). -/
def shiftOf (b : Scalar) : Nat := b.toNat % 64

/-! ### Shapes -/

/-- rd := f ra rb. -/
def State.alu (s : State) (u : CoreId) (g : Fin 8) (charge : Nat) (rd ra rb : Fin 32) (f : Scalar → Scalar → Scalar) :
    Out :=
  s.pureOp u g (infoS charge (rS [ra, rb]) (rS [rd]) true) fun c => c.setS rd.val (f (c.sr ra.val) (c.sr rb.val))

/-- rd := f ra, where the encoding may be undefined. -/
def State.alu1 (s : State) (u : CoreId) (g : Fin 8) (charge : Nat) (legal : Bool) (rd ra : Fin 32)
    (f : Scalar → Scalar) : Out :=
  s.pureOp u g (infoS charge (rS [ra]) (rS [rd]) legal) fun c => c.setS rd.val (f (c.sr ra.val))

/-- rd := the exact signed result, saturated, with the overflow it sets (R213, R217). -/
def State.aluSat (s : State) (u : CoreId) (g : Fin 8) (rd ra rb : Fin 32) (f : Int → Int → Int) : Out :=
  s.pureOp u g (infoS 1 (rS [ra, rb]) (rS [rd] ++ [rOvf]) true) fun c =>
    let r := satScalar (f (c.sr ra.val).toInt (c.sr rb.val).toInt)
    (c.setS rd.val r.1).saturated r.2

/-- pd := f pa pb over whole masks. -/
def State.predOp (s : State) (u : CoreId) (g : Fin 8) (pd pa pb : Fin 8) (f : Pred → Pred → Pred) : Out :=
  s.pureOp u g (infoS 1 (rP [pa, pb]) (rP [pd]) true) fun c => c.setP pd.val (f (c.pr pa.val) (c.pr pb.val))

/-! ### R213 -/

def execAdd (u : CoreId) (g : Fin 8) (rd ra rb : Fin 32) (s : State) : Out := s.alu u g 1 rd ra rb fun a b => a + b
def execSub (u : CoreId) (g : Fin 8) (rd ra rb : Fin 32) (s : State) : Out := s.alu u g 1 rd ra rb fun a b => a - b
def execAdds (u : CoreId) (g : Fin 8) (rd ra rb : Fin 32) (s : State) : Out := s.aluSat u g rd ra rb fun a b => a + b
def execSubs (u : CoreId) (g : Fin 8) (rd ra rb : Fin 32) (s : State) : Out := s.aluSat u g rd ra rb fun a b => a - b
def execMul (u : CoreId) (g : Fin 8) (rd ra rb : Fin 32) (s : State) : Out := s.alu u g 4 rd ra rb fun a b => a * b
def execMulh (u : CoreId) (g : Fin 8) (rd ra rb : Fin 32) (s : State) : Out :=
  s.alu u g 4 rd ra rb fun a b => mulHigh (a.toInt * b.toInt)
def execMulhu (u : CoreId) (g : Fin 8) (rd ra rb : Fin 32) (s : State) : Out :=
  s.alu u g 4 rd ra rb fun a b => mulHigh ((a.toNat * b.toNat : Nat) : Int)
def execAnd (u : CoreId) (g : Fin 8) (rd ra rb : Fin 32) (s : State) : Out := s.alu u g 1 rd ra rb fun a b => a &&& b
def execOr (u : CoreId) (g : Fin 8) (rd ra rb : Fin 32) (s : State) : Out := s.alu u g 1 rd ra rb fun a b => a ||| b
def execXor (u : CoreId) (g : Fin 8) (rd ra rb : Fin 32) (s : State) : Out := s.alu u g 1 rd ra rb fun a b => a ^^^ b
def execAndn (u : CoreId) (g : Fin 8) (rd ra rb : Fin 32) (s : State) : Out := s.alu u g 1 rd ra rb fun a b => a &&& ~~~b
def execShl (u : CoreId) (g : Fin 8) (rd ra rb : Fin 32) (s : State) : Out := s.alu u g 1 rd ra rb fun a b => a <<< shiftOf b
def execShr (u : CoreId) (g : Fin 8) (rd ra rb : Fin 32) (s : State) : Out := s.alu u g 1 rd ra rb fun a b => a >>> shiftOf b
def execSar (u : CoreId) (g : Fin 8) (rd ra rb : Fin 32) (s : State) : Out :=
  s.alu u g 1 rd ra rb fun a b => a.sshiftRight (shiftOf b)
def execMin (u : CoreId) (g : Fin 8) (rd ra rb : Fin 32) (s : State) : Out :=
  s.alu u g 1 rd ra rb fun a b => if a.slt b then a else b
def execMax (u : CoreId) (g : Fin 8) (rd ra rb : Fin 32) (s : State) : Out :=
  s.alu u g 1 rd ra rb fun a b => if a.slt b then b else a
def execMinu (u : CoreId) (g : Fin 8) (rd ra rb : Fin 32) (s : State) : Out :=
  s.alu u g 1 rd ra rb fun a b => if a.ult b then a else b
def execMaxu (u : CoreId) (g : Fin 8) (rd ra rb : Fin 32) (s : State) : Out :=
  s.alu u g 1 rd ra rb fun a b => if a.ult b then b else a
def execPopc (u : CoreId) (g : Fin 8) (rd ra : Fin 32) (s : State) : Out :=
  s.alu1 u g 2 true rd ra fun a => scalarOf (popCount 60 a.toNat)
def execClz (u : CoreId) (g : Fin 8) (rd ra : Fin 32) (s : State) : Out :=
  s.alu1 u g 2 true rd ra fun a => scalarOf (leadingZeros a)
def execSext (u : CoreId) (g : Fin 8) (n : Nat) (rd ra : Fin 32) (s : State) : Out :=
  s.alu1 u g 1 (inRange 1 4 n) rd ra (sextN n)
def execZext (u : CoreId) (g : Fin 8) (n : Nat) (rd ra : Fin 32) (s : State) : Out :=
  s.alu1 u g 1 (inRange 1 4 n) rd ra (zextN n)

/-! ### R214 -/

def execAddi (u : CoreId) (g : Fin 8) (rd ra : Fin 32) (imm : BitVec 17) (s : State) : Out :=
  s.alu1 u g 1 true rd ra fun a => a + imm.signExtend 60
def execAndi (u : CoreId) (g : Fin 8) (rd ra : Fin 32) (imm : BitVec 17) (s : State) : Out :=
  s.alu1 u g 1 true rd ra fun a => a &&& imm.signExtend 60
def execOri (u : CoreId) (g : Fin 8) (rd ra : Fin 32) (imm : BitVec 17) (s : State) : Out :=
  s.alu1 u g 1 true rd ra fun a => a ||| imm.signExtend 60
def execXori (u : CoreId) (g : Fin 8) (rd ra : Fin 32) (imm : BitVec 17) (s : State) : Out :=
  s.alu1 u g 1 true rd ra fun a => a ^^^ imm.signExtend 60
def execShli (u : CoreId) (g : Fin 8) (rd ra : Fin 32) (amount : BitVec 6) (s : State) : Out :=
  s.alu1 u g 1 true rd ra fun a => a <<< amount.toNat
def execShri (u : CoreId) (g : Fin 8) (rd ra : Fin 32) (amount : BitVec 6) (s : State) : Out :=
  s.alu1 u g 1 true rd ra fun a => a >>> amount.toNat
def execSari (u : CoreId) (g : Fin 8) (rd ra : Fin 32) (amount : BitVec 6) (s : State) : Out :=
  s.alu1 u g 1 true rd ra fun a => a.sshiftRight amount.toNat
def execLi (u : CoreId) (g : Fin 8) (rd : Fin 32) (imm : BitVec 22) (s : State) : Out :=
  s.pureOp u g (infoS 1 [] (rS [rd]) true) fun c => c.setS rd.val (imm.signExtend 60)
def execLih (u : CoreId) (g : Fin 8) (rd : Fin 32) (imm : BitVec 20) (s : State) : Out :=
  s.pureOp u g (infoS 1 (rS [rd]) (rS [rd]) true) fun c => c.setS rd.val ((c.sr rd.val <<< 20) + imm.setWidth 60)

/-- cmp.cc: pd all ones when the condition holds, else zero. -/
def execCmp (u : CoreId) (g : Fin 8) (cc : Nat) (pd : Fin 8) (ra rb : Fin 32) (s : State) : Out :=
  s.pureOp u g (infoS 1 (rS [ra, rb]) (rP [pd]) (decide (cc ≤ 5))) fun c =>
    c.setP pd.val (maskOf (ccHolds cc (c.sr ra.val) (c.sr rb.val)))

/-- cmpi.cc: as cmp, with a signed 14-bit immediate. -/
def execCmpi (u : CoreId) (g : Fin 8) (cc : Nat) (pd : Fin 8) (ra : Fin 32) (imm : BitVec 14) (s : State) : Out :=
  s.pureOp u g (infoS 1 (rS [ra]) (rP [pd]) (decide (cc ≤ 5))) fun c =>
    c.setP pd.val (maskOf (ccHolds cc (c.sr ra.val) (imm.signExtend 60)))

def execPand (u : CoreId) (g : Fin 8) (pd pa pb : Fin 8) (s : State) : Out := s.predOp u g pd pa pb fun a b => a &&& b
def execPor (u : CoreId) (g : Fin 8) (pd pa pb : Fin 8) (s : State) : Out := s.predOp u g pd pa pb fun a b => a ||| b
def execPxor (u : CoreId) (g : Fin 8) (pd pa pb : Fin 8) (s : State) : Out := s.predOp u g pd pa pb fun a b => a ^^^ b
def execPandn (u : CoreId) (g : Fin 8) (pd pa pb : Fin 8) (s : State) : Out := s.predOp u g pd pa pb fun a b => a &&& ~~~b
def execPnot (u : CoreId) (g : Fin 8) (pd pa : Fin 8) (s : State) : Out :=
  s.pureOp u g (infoS 1 (rP [pa]) (rP [pd]) true) fun c => c.setP pd.val (~~~(c.pr pa.val))

/-- pmov: pd := ra, zero-extended. -/
def execPmov (u : CoreId) (g : Fin 8) (pd : Fin 8) (ra : Fin 32) (s : State) : Out :=
  s.pureOp u g (infoS 1 (rS [ra]) (rP [pd]) true) fun c => c.setP pd.val ((c.sr ra.val).setWidth 64)

/-- rd := a value of a predicate. -/
def State.predGet (s : State) (u : CoreId) (g : Fin 8) (rd : Fin 32) (pa : Fin 8) (f : Pred → Scalar) : Out :=
  s.pureOp u g (infoS 2 (rP [pa]) (rS [rd]) true) fun c => c.setS rd.val (f (c.pr pa.val))

def execPget (u : CoreId) (g : Fin 8) (rd : Fin 32) (pa : Fin 8) (s : State) : Out := s.predGet u g rd pa fun p => p.setWidth 60
def execPpop (u : CoreId) (g : Fin 8) (rd : Fin 32) (pa : Fin 8) (s : State) : Out :=
  s.predGet u g rd pa fun p => scalarOf (popCount 64 p.toNat)
def execPfirst (u : CoreId) (g : Fin 8) (rd : Fin 32) (pa : Fin 8) (s : State) : Out :=
  s.predGet u g rd pa fun p => scalarOf (firstBit p)

/-- rdctl (R202). -/
def execRdctl (u : CoreId) (g : Fin 8) (rd : Fin 32) (num : BitVec 8) (s : State) : Out :=
  s.issue u g (infoS 2 [.ctl num.toNat] (rS [rd]) (ctlReadable u.isQuoin num.toNat)) false false fun t c _ =>
    .done (t.setCore u (c.setS rd.val (c.ctlRead u.isQuoin t.now num.toNat)))

/-- wrctl (R202). -/
def execWrctl (u : CoreId) (g : Fin 8) (ra : Fin 32) (num : BitVec 8) (s : State) : Out :=
  s.pureOp u g (infoS 1 (rS [ra] ++ [.ctl num.toNat]) [.ctl num.toNat] (ctlWritable u.isQuoin num.toNat)) fun c =>
    c.ctlWrite num.toNat (c.sr ra.val)

end Sys2Proof.Machine
end

