-- ==== Sys2Proof/Machine/ChiselVector.lean ====
section
/-! DEFINITION. Vector instructions of Chisel (R218-R220): element operations, compares, gathers and bit streams. -/

namespace Sys2Proof.Machine

/-- The signed value of an element of size e. -/
def elemInt (e : Fin 4) (n : Nat) : Int := signedOf (12 * elemSize e) n

/-- An integer as an element, modulo its size. -/
def elemOf (e : Fin 4) (i : Int) : Nat := wrapTo (12 * elemSize e) i

/-! ### Element-wise operations (R218) -/

/-- vd[i] := f va[i] vb[i] for each enabled element. -/
def State.vecOp (s : State) (u : CoreId) (g : Fin 8) (e : Fin 4) (vd va vb : Fin 16) (reads : List RegName)
    (f : Core → Nat → Nat → Nat → Nat) : Out :=
  s.pureOp u g (infoV 1 1 (rV [va, vb] ++ reads) (rV [vd]) true) fun c =>
    let xs := elems e (c.vr va.val)
    let ys := elems e (c.vr vb.val)
    c.setElems g e vd.val fun i => f c i (nth xs i 0) (nth ys i 0)

def execVadd (u : CoreId) (g : Fin 8) (e : Fin 4) (vd va vb : Fin 16) (s : State) : Out :=
  s.vecOp u g e vd va vb [] fun _ _ a b => a + b
def execVsub (u : CoreId) (g : Fin 8) (e : Fin 4) (vd va vb : Fin 16) (s : State) : Out :=
  s.vecOp u g e vd va vb [] fun _ _ a b => elemOf e ((a : Int) - b)
def execVmin (u : CoreId) (g : Fin 8) (e : Fin 4) (vd va vb : Fin 16) (s : State) : Out :=
  s.vecOp u g e vd va vb [] fun _ _ a b => if elemInt e a < elemInt e b then a else b
def execVmax (u : CoreId) (g : Fin 8) (e : Fin 4) (vd va vb : Fin 16) (s : State) : Out :=
  s.vecOp u g e vd va vb [] fun _ _ a b => if elemInt e a < elemInt e b then b else a
def execVminu (u : CoreId) (g : Fin 8) (e : Fin 4) (vd va vb : Fin 16) (s : State) : Out :=
  s.vecOp u g e vd va vb [] fun _ _ a b => min a b
def execVmaxu (u : CoreId) (g : Fin 8) (e : Fin 4) (vd va vb : Fin 16) (s : State) : Out :=
  s.vecOp u g e vd va vb [] fun _ _ a b => max a b
def execVand (u : CoreId) (g : Fin 8) (e : Fin 4) (vd va vb : Fin 16) (s : State) : Out :=
  s.vecOp u g e vd va vb [] fun _ _ a b => a &&& b
def execVor (u : CoreId) (g : Fin 8) (e : Fin 4) (vd va vb : Fin 16) (s : State) : Out :=
  s.vecOp u g e vd va vb [] fun _ _ a b => a ||| b
def execVxor (u : CoreId) (g : Fin 8) (e : Fin 4) (vd va vb : Fin 16) (s : State) : Out :=
  s.vecOp u g e vd va vb [] fun _ _ a b => a ^^^ b

/-- vsel: va[i] where bit i of p(PM) is 1, else vb[i]. -/
def execVsel (u : CoreId) (g : Fin 8) (pm : Fin 8) (e : Fin 4) (vd va vb : Fin 16) (s : State) : Out :=
  s.vecOp u g e vd va vb (rP [pm]) fun c i a b => if c.elemOn pm i then a else b

/-- A shift of each enabled element by rb modulo 128. -/
def State.vecShift (s : State) (u : CoreId) (g : Fin 8) (e : Fin 4) (vd va : Fin 16) (rb : Fin 32)
    (f : Nat → Nat → Nat) : Out :=
  s.pureOp u g (infoV 1 2 (rV [va] ++ rS [rb]) (rV [vd]) true) fun c =>
    let xs := elems e (c.vr va.val)
    let k := (c.sr rb.val).toNat % 128
    c.setElems g e vd.val fun i => f k (nth xs i 0)

def execVshl (u : CoreId) (g : Fin 8) (e : Fin 4) (vd va : Fin 16) (rb : Fin 32) (s : State) : Out :=
  s.vecShift u g e vd va rb fun k a => a * 2 ^ k
def execVshr (u : CoreId) (g : Fin 8) (e : Fin 4) (vd va : Fin 16) (rb : Fin 32) (s : State) : Out :=
  s.vecShift u g e vd va rb fun k a => a / 2 ^ k
def execVsar (u : CoreId) (g : Fin 8) (e : Fin 4) (vd va : Fin 16) (rb : Fin 32) (s : State) : Out :=
  s.vecShift u g e vd va rb fun k a => elemOf e (elemInt e a / ((2 ^ k : Nat) : Int))

/-- vbc: the low 12e bits of ra; sign-extended to 96 bits for e = 8. -/
def execVbc (u : CoreId) (g : Fin 8) (e : Fin 4) (vd : Fin 16) (ra : Fin 32) (s : State) : Out :=
  s.pureOp u g (infoV 1 1 (rS [ra]) (rV [vd]) true) fun c =>
    c.setElems g e vd.val fun _ => elemOf e (c.sr ra.val).toInt

/-- vext: one element into a scalar; guarded as a scalar instruction. -/
def execVext (u : CoreId) (g : Fin 8) (e : Fin 4) (rd : Fin 32) (va : Fin 16) (rb : Fin 32) (s : State) : Out :=
  s.pureOp u g { infoV 1 2 (rV [va] ++ rS [rb]) (rS [rd]) true with elem := false } fun c =>
    c.setS rd.val (scalarOf (nth (elems e (c.vr va.val)) ((c.sr rb.val).toNat % elemCount e) 0))

/-- vredadd: the signed sum of the enabled elements, modulo 2^60; nothing when none is enabled. -/
def execVredadd (u : CoreId) (g : Fin 8) (e : Fin 4) (rd : Fin 32) (va : Fin 16) (s : State) : Out :=
  s.pureOp u g (infoV 1 4 (rV [va]) (rS [rd]) true) fun c =>
    let xs := elems e (c.vr va.val)
    let sum := (List.range (elemCount e)).foldl (fun a i => if c.elemOn g i then a + elemInt e (nth xs i 0) else a) (0 : Int)
    if c.noElem g e then c else c.setS rd.val (BitVec.ofInt 60 sum)

/-- vhash: the CRC-32C of each element into 4-course elements; those beyond 64 / e are zero. -/
def execVhash (u : CoreId) (g : Fin 8) (e : Fin 4) (vd va : Fin 16) (s : State) : Out :=
  s.pureOp u g (infoV (if e = 3 then 2 else 1) (if e = 3 then 8 else 6) (rV [va]) (rV [vd]) (decide (2 ≤ e.val))) fun c =>
    let cs := vecCourses (c.vr va.val)
    let old := elems 2 (c.vr vd.val)
    let h := fun (i : Nat) => crc32c (packBytes (slice cs (elemSize e * i) (elemSize e)))
    if c.noElem g e then c
    else c.setV vd.val (ofElems 2 ((List.range 16).map fun i =>
      if elemCount e ≤ i then 0 else if c.elemOn g i then h i else nth old i 0))

/-! ### vcmp (R219) -/

/-- A decimal comparison by its code: 6 DEQ, 7 DNE, 8 DLT, 9 DGE. -/
def decCc (cc : Nat) (a b : Int) : Bool :=
  match cc with
  | 6 => a == b
  | 7 => a != b
  | 8 => decide (a < b)
  | _ => decide (b ≤ a)

/-- An integer comparison of two elements by its code. -/
def elemCc (e : Fin 4) (cc a b : Nat) : Bool :=
  match cc with
  | 0 => a == b
  | 1 => a != b
  | 2 => decide (elemInt e a < elemInt e b)
  | 3 => decide (elemInt e b ≤ elemInt e a)
  | 4 => decide (a < b)
  | _ => decide (b ≤ a)

/-- The result of vcmp on element `i`; `none` for a non-limb. -/
def vcmpElem (e : Fin 4) (cc : Nat) (xs ys : List Nat) (i : Nat) : Option Bool :=
  if cc ≤ 5 then some (elemCc e cc (nth xs i 0) (nth ys i 0))
  else match decOf (natCrs (elemSize e) (nth xs i 0)), decOf (natCrs (elemSize e) (nth ys i 0)) with
    | some a, some b => some (decCc cc a b)
    | _, _ => none

/-- The bits of a predicate from a function of the element number. -/
def predOf (n : Nat) (f : Nat → Bool) : Pred :=
  BitVec.ofNat 64 ((List.range n).foldl (fun a i => if f i then a + 2 ^ i else a) 0)

/-- vcmp.cc: bit i for each enabled element; bits at or above 64 / e cleared. -/
def execVcmp (u : CoreId) (g : Fin 8) (cc : Nat) (e : Fin 4) (pd : Fin 8) (va vb : Fin 16) (s : State) : Out :=
  s.tryOp u g (infoV 1 (if cc ≤ 5 then 1 else 3) (rV [va, vb]) (rP [pd]) (decide (cc ≤ 9))) fun c =>
    let xs := elems e (c.vr va.val)
    let ys := elems e (c.vr vb.val)
    let on := c.elemOn g
    let rs := (List.range (elemCount e)).map fun i => if on i then vcmpElem e cc xs ys i else some ((c.pr pd.val).getLsbD i)
    if c.noElem g e then .ok c
    else if rs.any Option.isNone then .error badLimbV
    else .ok (c.setP pd.val (predOf (elemCount e) fun i => (nth rs i none).getD false))
where
  /-- INVALID_LIMB (R65). -/
  badLimbV : Nat := 0x0383

/-! ### Gathers and bit streams (R220) -/

/-- Courses of the selected area; `none` when an access leaves it. -/
def Core.areaRead (c : Core) (inp : Bool) (a n : Nat) : Option (List Course) :=
  if inp then (if a + n ≤ c.inputSize then some (c.inputRead a n) else none)
  else if a + n ≤ c.workSize then some (c.workRead a n) else none

/-- The code of an access that leaves its area. -/
def areaCode (inp : Bool) : Nat := if inp then 0x03C3 else 0x0384

/-- The names an access to an area reads. -/
def areaReads (inp : Bool) : List RegName := if inp then [] else [rWork]

/-- A gather-like instruction: each enabled element is a value or a code; `bad` is a parity error of a scratch read
(R298). -/
def State.gather (s : State) (u : CoreId) (g : Fin 8) (i : Info) (e : Fin 4) (vd : Fin 16) (bad : Bool)
    (f : Core → Nat → Except Nat Nat) : Out :=
  s.tryOp u g i fun c =>
    if c.noElem g e then .ok c
    else
      let rs := (List.range (elemCount e)).map fun k => if c.elemOn g k then f c k else .ok 0
      match rs.findSome? (fun r => match r with
          | .error x => some x
          | .ok _ => none) with
      | some code => .error code
      | none =>
        if bad then .error 0x0605
        else .ok (c.setElems g e vd.val fun k => match nth rs k (.ok 0) with
          | .ok v => v
          | .error _ => 0)

/-- vgath: the e courses at ra + vb[i] × e. -/
def execVgath (u : CoreId) (g : Fin 8) (inp : Bool) (e : Fin 4) (vd : Fin 16) (ra : Fin 32) (vb : Fin 16) (bad : Bool)
    (s : State) : Out :=
  s.gather u g (infoV 2 6 (rV [vb] ++ rS [ra] ++ areaReads inp) (rV [vd]) true) e vd bad fun c k =>
    let idx := nth (elems e (c.vr vb.val)) k 0
    match c.areaRead inp ((c.sr ra.val).toNat + idx * elemSize e) (elemSize e) with
    | some cs => .ok (crsNat cs)
    | none => .error (areaCode inp)

/-- vdict: the count at ra bounds the index; the entries follow it. -/
def execVdict (u : CoreId) (g : Fin 8) (inp : Bool) (e : Fin 4) (vd : Fin 16) (ra : Fin 32) (vb : Fin 16) (bad : Bool)
    (s : State) : Out :=
  s.gather u g (infoV 2 6 (rV [vb] ++ rS [ra] ++ areaReads inp) (rV [vd]) true) e vd bad fun c k =>
    let idx := nth (elems e (c.vr vb.val)) k 0
    let a := (c.sr ra.val).toNat
    match c.areaRead inp a 2 with
    | none => .error (areaCode inp)
    | some n =>
      if crsNat n ≤ idx then .error 0x03C5
      else match c.areaRead inp (a + 2 + idx * elemSize e) (elemSize e) with
        | some cs => .ok (crsNat cs)
        | none => .error (areaCode inp)

/-- The courses that hold `w` stream bits from bit `k` on: the first and how many (R77). -/
def streamSpan (k w : Nat) : Nat × Nat := (k / 12, (k + w - 1) / 12 - k / 12 + 1)

/-- vunpk: the W bits from stream bit rb + i × W of the stream at ra. -/
def execVunpk (u : CoreId) (g : Fin 8) (inp : Bool) (w : Nat) (signed : Bool) (e : Fin 4) (vd : Fin 16) (ra rb : Fin 32)
    (bad : Bool) (s : State) : Out :=
  s.gather u g (infoV 1 3 (rS [ra, rb] ++ areaReads inp) (rV [vd]) (widthOk e w)) e vd bad fun c i =>
    let k := (c.sr rb.val).toNat + i * w
    let sp := streamSpan k w
    match c.areaRead inp ((c.sr ra.val).toNat + sp.1) sp.2 with
    | some cs =>
      let v := streamBits cs (k % 12) w
      .ok (if signed then elemOf e (signedOf w v) else v)
    | none => .error (areaCode inp)

/-- Stream bits written over courses from bit `k` on (R77). -/
def putStreamBits (cs : List Course) (k w v : Nat) : List Course :=
  (List.range cs.length).map fun j =>
    BitVec.ofNat 12 ((List.range 12).foldl (fun a b =>
      let pos := j * 12 + b
      let bit := if k ≤ pos ∧ pos < k + w then v.testBit (k + w - 1 - pos) else (nth cs j 0).getLsbD (11 - b)
      a * 2 + (if bit then 1 else 0)) 0)

/-- vpack: the low W bits of each enabled element to its stream bits; other bits are unchanged. Nothing is written when
an element leaves the work area. -/
def execVpack (u : CoreId) (g : Fin 8) (w : Nat) (e : Fin 4) (va : Fin 16) (ra rb : Fin 32) (s : State) : Out :=
  s.tryOp u g { infoV 2 1 (rV [va] ++ rS [ra, rb] ++ [rWork]) [rWork] (widthOk e w) with alone := false } fun c =>
    let xs := elems e (c.vr va.val)
    let a := (c.sr ra.val).toNat
    let b := (c.sr rb.val).toNat
    let on := (List.range (elemCount e)).filter (c.elemOn g)
    let out := on.any fun i => decide (c.workSize < a + (streamSpan (b + i * w) w).1 + (streamSpan (b + i * w) w).2)
    if on.isEmpty then .ok c
    else if out then .error 0x0384
    else .ok (on.foldl (fun (d : Core) i =>
      let sp := streamSpan (b + i * w) w
      let cs := putStreamBits (d.workRead (a + sp.1) sp.2) ((b + i * w) % 12) w (nth xs i 0 % 2 ^ w)
      d.workWrite (a + sp.1) (cs.map some)) c)

end Sys2Proof.Machine
end

