-- ==== Sys2Proof/Machine/Pause.lean ====
section
/-! DEFINITION. The end of a pause of the management plane (R15): what it held is served in order of arrival, in the tick at
which the pause ends. -/

namespace Sys2Proof.Machine

/-- The state of an outcome, or the one before it. -/
def Out.nextOr (o : Out) (s : State) : State :=
  match o with
  | .next t => t
  | _ => s

/-- Serve a command or an access that was held: by a pause, or until it may start; no other row is ever held. -/
def State.runHeld (s : State) (i : Instr) : State :=
  match i with
  | .queueCreate h qid kind pair depth => (execQueueCreate h qid kind pair depth s).nextOr s
  | .queueDelete h qid => (execQueueDelete h qid s).nextOr s
  | .queueReset h qid => (execQueueReset h qid s).nextOr s
  | .sliceCreate h slice levels => (execSliceCreate h slice levels s).nextOr s
  | .sliceReset h slice => (execSliceReset h slice s).nextOr s
  | .sliceRemove h slice => (execSliceRemove h slice s).nextOr s
  | .sliceBind h pid slice role => (execSliceBind h pid slice role s).nextOr s
  | .sliceUnbind h pid => (execSliceUnbind h pid s).nextOr s
  | .stateClear h space => (execStateClear h space s).nextOr s
  | .pipelineLoad h image => (execPipelineLoad h image s).nextOr s
  | .pipelineUnload h ctx => (execPipelineUnload h ctx s).nextOr s
  | .tableCreate h table columns factor types => (execTableCreate h table columns factor types s).nextOr s
  | .tableDrop h table => (execTableDrop h table s).nextOr s
  | .ksCreate h param => (execKsCreate h param s).nextOr s
  | .ksDrop h table => (execKsDrop h table s).nextOr s
  | .ksInsert h table position entry => (execKsInsert h table position entry s).nextOr s
  | .ksDelete h table position => (execKsDelete h table position s).nextOr s
  | .ksLoad h table count entries => (execKsLoad h table count entries s).nextOr s
  | .dgKeyLoad h slot alg wrapped => (execDgKeyLoad h slot alg wrapped s).nextOr s
  | .dgKeyClear h slot => (execDgKeyClear h slot s).nextOr s
  | .ledgerProof h itemId answerTick => (execLedgerProof h itemId answerTick s).nextOr s
  | .ledgerSealNow h => (execLedgerSealNow h s).nextOr s
  | .ledgerRead h kind count firstLeaf seqNo => (execLedgerRead h kind count firstLeaf seqNo s).nextOr s
  | .tsWrite h first count data => (execTsWrite h first count data s).nextOr s
  | .tsRead h first count => (execTsRead h first count s).nextOr s
  | .tsTrim h first count => (execTsTrim h first count s).nextOr s
  | .storeStatus h => (execStoreStatus h s).nextOr s
  | .sanitise h partition scope mode sealSeq => (execSanitise h partition scope mode sealSeq s).nextOr s
  | .format h partition => (execFormat h partition s).nextOr s
  | .attest h nonce => (execAttest h nonce s).nextOr s
  | .fwStage h offset final data => (execFwStage h offset final data s).nextOr s
  | .fwActivate h => (execFwActivate h s).nextOr s
  | .objRead h a => (execObjRead h a s).nextOr s
  | .objWrite h a value => (execObjWrite h a value s).nextOr s
  | .pinRequest src table pin => (execPinRequest src table pin s).nextOr s
  | .memberLeave src node => (execMemberLeave src node s).nextOr s
  | .fwStageData src value => (execFwStageData src value s).nextOr s
  | .svnCommit src svn => (execSvnCommit src svn s).nextOr s
  | .vendorKeyRevoke src value => (execVendorKeyRevoke src value s).nextOr s
  | .sliceKek src slice delivery => (execSliceKek src slice delivery s).nextOr s
  | .canfdKeyOperator src delivery => (execCanfdKeyOperator src delivery s).nextOr s
  | .canfdKeyCustodian src delivery => (execCanfdKeyCustodian src delivery s).nextOr s
  | .custodianBind src value => (execCustodianBind src value s).nextOr s
  | .debugUnlock src token => (execDebugUnlock src token s).nextOr s
  | .epochSecond src value => (execEpochSecond src value s).nextOr s
  | .allotmentWrite src slice sub value => (execAllotmentWrite src slice sub value s).nextOr s
  | .overflowClear src slice ctx => (execOverflowClear src slice ctx s).nextOr s
  | .store src value => (execStore src value s).nextOr s
  | .restore src value => (execRestore src value s).nextOr s
  | .ringAck src a n => (execRingAck src a n s).nextOr s
  | .ringOverflowClear src a v => (execRingOverflowClear src a v s).nextOr s
  | .firstClear src a v => (execFirstClear src a v s).nextOr s
  | .read frame => (execRead frame s).nextOr s
  | .write frame => (execWrite frame s).nextOr s
  | .segRead frame => (execSegRead frame s).nextOr s
  | .segWrite frame => (execSegWrite frame s).nextOr s
  | .segData frame => (execSegData frame s).nextOr s
  | .nop h => (execNop h s).nextOr s
  | .contextRun h ctx batchCount data => (execContextRun h ctx batchCount data s).nextOr s
  | .ksRead h table first last => (execKsRead h table first last s).nextOr s
  | .itemSubmit h port param data => (execItemSubmit h port param data s).nextOr s
  | _ => s

/-- The waiting command `i` is tried again: it starts, or waits on. -/
def State.resumeRow (s : State) (i : Instr) : State :=
  ({ s with host := { s.host with
    accepted := mapIf (fun a => a.row == some i) (fun a => { a with row := none }) s.host.accepted } } : State).runHeld i

/-- Commands that waited for an earlier one of their queue, or for the end of their slice's reset, start in order of arrival
once they may (R446, R398); they are tried at each tick (assumption 101: DESIGN CHOICE). -/
def State.startWaiting (s : State) : State :=
  if s.paused then s
  else (s.host.accepted.filterMap Accepted.row).foldl
    (fun (t : State) i => if t.host.accepted.any fun a => a.row == some i then t.resumeRow i else t) s

/-- A pause that ends by now: what it held is served in order of arrival (R15). -/
def State.settlePause (s : State) : State :=
  match s.quoin.pausedUntil with
  | none => s
  | some t =>
    if s.now < t then s
    else s.quoin.held.foldl State.resumeRow { s with quoin := { s.quoin with pausedUntil := none, held := [] } }

/-! ### Commands of other members (R84, R359, R401, R471) -/

/-- Carry out a command of another member: it counts as accepted, and its outcome goes back to that member. -/
def State.runRemote (s : State) (e : Nat × Instr) : State :=
  match groupHeader e.2 with
  | none => s
  | some (h, op) =>
    match s.bindingOf h.pid with
    | none => s.tell e.1 (.applied 0 h.qid h.cid 0x0901 4)
    | some b =>
      let a : Accepted := ⟨h.pid, b.role, b.slice, h.qid, h.cid, op, memberPort e.1, none⟩
      let hs := { s.host with
        accepted := s.host.accepted ++ [a], cmdPort := tset (b.slice, h.qid, h.cid) (memberPort e.1) s.host.cmdPort }
      ({ s with host := hs } : State).runHeld e.2

/-- This device's own turn at a command that goes through the members one at a time: the command starts. -/
def State.runOwnTurn (s : State) (i : Instr) : State :=
  match (groupHeader i).bind fun x => (s.bindingOf x.1.pid).map fun b => (x, b) with
  | none => s
  | some ((h, op), b) =>
    let a : Accepted := ⟨h.pid, b.role, b.slice, h.qid, h.cid, op, tgetD (b.slice, h.qid, h.cid) 0 s.host.cmdPort, none⟩
    ({ s with host := { s.host with accepted := s.host.accepted ++ [a] } } : State).runHeld i

/-- The next step of a command that goes through the members one at a time (R543): the first of those left starts; when that
is this device, it is done once the command's completion is posted. -/
def State.turnFan (s : State) (f : Fan) : State :=
  match f.serial, f.left with
  | some i, n :: rest =>
    let set := fun (t : State) (g : Fan) => ({ t with group := { t.group with fans := t.group.fans.map fun x => if x = f then g else x } } : State)
    let posted := s.host.completions.any fun c => c.slice == f.slice && c.qid == f.qid && c.cid == f.cid
    if !f.started then
      let t := set s { f with started := true }
      if n = s.group.node then t.runOwnTurn i else t.tell n (.command i)
    else if n = s.group.node ∧ posted then set s { f with left := rest, started := false }
    else s
  | _, _ => s

/-- The commands of other members are carried out at the next tick, in order of arrival (assumption 99: DESIGN CHOICE); what
goes through the members one at a time takes its next step. -/
def State.serveMembers (s : State) : State :=
  if s.paused then s
  else
    let t := s.group.inbox.foldl State.runRemote { s with group := { s.group with inbox := [] } }
    let u := t.group.fans.foldl State.turnFan t
    { u with group := { u.group with fans := u.group.fans.filter fun f => !f.left.isEmpty } }

/-- DEVICE_TIME_TICK (R24). -/
def execDeviceTimeTick (badCopies : Nat) (s : State) : Out := .next ((s.tick badCopies).settlePause.serveMembers).startWaiting

end Sys2Proof.Machine
end

