-- ==== Sys2Proof/Machine/Power.lean ====
section
/-! DEFINITION. Power, sleep and the Buttress save (20), rail sequencing and straps (22): bay, hub and memory power states
(R513-R516), detection, save and hold (R518-R523), power-up with its restore (R524-R527, R532), the rails (R550-R557), and
the standby Quoin pair (R544). -/

namespace Sys2Proof.Machine

/-! ### Bays (R513, R514) -/

/-- The idle time of a bay state: GATE_IDLE, RETAIN_IDLE, OFF_IDLE; 0 disables its step. -/
def State.idleTime (s : State) (state : Nat) : Nat :=
  s.objNum 0x5801 (2 + state) [] 0 (match state with
    | 0 => 250
    | 1 => 25000
    | _ => 25000000)

/-- A Keystone bank of a bay holds an entry. -/
def State.bankHolds (s : State) (b : Nat) : Bool :=
  s.ks.tables.any fun t => !t.committed.isEmpty && t.held.any fun c => c.bank == b

/-- A bay may go down from a state: a warm bay stays clock-gated, and one whose Keystone bank holds an entry stays in
retention (R514). -/
def State.mayDescend (s : State) (b state : Nat) : Bool :=
  match state with
  | 0 => true
  | 1 => !(s.mason.warm.contains b)
  | 2 => !(s.mason.warm.contains b) && !(s.bankHolds b)
  | _ => false

/-- BAY_IDLE_TIMEOUT (R513): off comes after a CLEAN_INVALIDATE of the bay's L2, and loses its arrays; the Keystone copies it
holds have no entries, and stay allotted to their tables. -/
def execBayIdleTimeout (bay : Nat) (s : State) : Out :=
  let p := s.bayPower bay
  let idle := s.idleTime p.state
  .next <|
    if !(s.bayLive bay) ∨ p.wakeDue.isSome ∨ s.bayBusy bay ∨ idle = 0 ∨ s.now < p.idleSince + idle ∨ !(s.mayDescend bay p.state) then s
    else
      let t := if p.state = 2 then ({ (s.cleanBay bay fun _ => true).clearBay bay with ks := s.ks } : State) else s
      t.setBayPower bay ⟨p.state + 1, s.now, none⟩

/-- BAY_WAKE_REQUEST (R45, R513). -/
def execBayWakeRequest (bay : Nat) (s : State) : Out := .next (s.wakeBay bay)

/-- Of fenced units that run their self-test, those that fail it and stay fenced: a free value says which (R498). -/
def State.failing {α : Type} (s : State) (xs : List α) : List α :=
  ((List.range xs.length).zip xs).filterMap fun e => if (Config.freeValue s.free).testBit e.1 then some e.2 else none

/-- The self-tests of a bay's fenced units at its power-up: passed by all, or nothing changes. -/
def State.bayTests (s : State) (bay : Nat) : State :=
  if (s.failing [bay]).isEmpty then (s.unfenceBay bay).advanceFree else s.advanceFree

/-- BAY_WAKE_DONE (R513). -/
def execBayWakeDone (bay : Nat) (s : State) : Out :=
  let p := s.bayPower bay
  .next <|
    if !(p.wakeDue.any fun d => decide (d ≤ s.now)) then s
    else
      let t := s.setBayPower bay ⟨0, s.now, none⟩
      let u := if 2 ≤ p.state then t.bump 0x5801 7 [] 0 else t
      if p.state = 3 then u.bayTests bay else u

/-! ### The hub and the memories (R515, R516) -/

/-- HUB_IDLE_TIMEOUT (R515). -/
def execHubIdleTimeout (s : State) : Out :=
  let idle := s.objNum 0x5801 5 [] 0 250000
  .next <|
    if s.power.hubAsleep ∨ s.hubBusy ∨ idle = 0 ∨ s.now < s.power.hubIdle + idle then s
    else { s with power := { s.power with hubAsleep := true } }

/-- The awake hub processes the flits a port holds. -/
def State.heldIn (s : State) (p : Nat) : State :=
  (s.portOf p).heldFlits.foldl (fun (t : State) f => t.payloadIn p f) (s.updPort p fun x => { x with heldFlits := [] })

/-- HUB_WAKE (R515). -/
def execHubWake (s : State) : Out :=
  .next <| if s.power.frozen then s else (List.range 8).foldl State.heldIn s.awake

/-- A G-class context is admitted. -/
def State.gAdmitted (s : State) : Bool := s.ctxs.any fun c => c.cls == 0

/-- HBM_SELF_REFRESH_ENTRY (R516). -/
def execHbmSelfRefreshEntry (dram : Bool) (s : State) : Out :=
  let idle := s.objNum 0x5801 6 [] 0 2500
  .next <|
    if !s.baysAsleep ∨ s.memBusy ∨ s.gAdmitted ∨ idle = 0 ∨ s.now < s.power.memIdle + idle then s
    else if dram then (if s.memx.dramState = 1 then { s with power := { s.power with dramSr := true } } else s)
    else { s with power := { s.power with hbmSr := true } }

/-- HBM_SELF_REFRESH_EXIT (R516). -/
def execHbmSelfRefreshExit (dram : Bool) (s : State) : Out :=
  .next <|
    if dram then { s with power := { s.power with dramSr := false } } else { s with power := { s.power with hbmSr := false } }

/-! ### Detection and save (R518-R523) -/

/-- The save is armed: VHOLD at least 11.0 V and at least 1,500 µF (R519). -/
def armedBy (mv uf : Nat) : Nat := if 11000 ≤ mv ∧ 1500 ≤ uf then 1 else 0

/-- VHOLD_MEASURE (R519): from the hub's bring-up on. -/
def execVholdMeasure (mv : Nat) (s : State) : Out :=
  .next <|
    if s.power.step < 3 then s
    else { s with power := { s.power with
      vholdMv := mv, buttress := if s.power.save.isSome then s.power.buttress else armedBy mv s.power.capUf } }

/-- A sag: a save starts if it is armed, from READY on; ingress and release are frozen at once (T_f = T0), a running store
is abandoned, and an activation ends (R518, R520-R522, R545). -/
def State.sag (s : State) (cause : SagCause) : State :=
  if !s.power.ready ∨ s.power.buttress ≠ 1 ∨ s.power.save.isSome then s
  else
    let sv : Save := { t0 := s.now, tf := s.now, cause := cause, vhold := s.power.vholdMv, written := false, supply := false }
    { s with
      power := { s.power with saveStarted := true, buttress := 2, save := some sv, frozen := true }
      stored := { s.stored with snapshot := none, status := if s.stored.status = 1 then 3 else s.stored.status }
      trust := { s.trust with stageState := if s.trust.stageState = 4 then 2 else s.trust.stageState } }

/-- SAG_DETECT (R518). -/
def execSagDetect (cause : SagCause) (s : State) : Out := .next (s.sag cause)

/-- Every record of an answer released at or before T_f enters the write buffer (R520, R521). -/
def State.enterAll (s : State) : State :=
  s.unrecorded.foldl (fun (t : State) x =>
    let r := ledgerRecord x.1 x.2
    let l := t.led.addRecord x.1.slice x.1.gen x.2.tick t.now r
    let u := (t.bump 0x6350 1 [] x.1.slice).updItem x.1.seq fun i => { i with recorded := true }
    { u with led := { l with buffer := l.buffer ++ [r] } }) s

/-- What a power loss leaves, and what a switched-off hub still has: units that were fenced stay so until their tests
(R498), and the persistent parts of MRAM, OTP, flash and NAND (R523, R526, R530). -/
def State.hubOff (s : State) : State :=
  let z := State.reset
  { s with
    therm := z.therm, host := z.host, ctxs := [], items := [], runs := [], flowState := [], windows := [], hashTables := []
    tables := [], dicts := [], cores := [], ks := z.ks, mem := [], dg := z.dg, ports := [], group := z.group
    mason := { z.mason with
      slots := s.mason.slots, fencedStones := s.mason.fencedStones, lostBays := s.mason.lostBays
      fencedLanes := s.mason.fencedLanes }
    memx := { z.memx with pch := s.memx.pch }
    hod := { z.hod with hostMem := s.hod.hostMem, settFenced := s.hod.settFenced }
    st := { s.st with writes := [] } }

/-- SAVE_SET_WRITTEN (R520, R523): the bays, HBM, DRAM and ONFI are off; the hold begins. -/
def execSaveSetWritten (s : State) : Out :=
  .next <|
    match s.power.save with
    | none => s
    | some sv =>
      if sv.written then s
      else
        let t := s.enterAll
        let done := { sv with written := true }
        let set : SaveSet := {
          save := done, led := t.led, hssReserved := t.trust.hssReserved, hssTree := t.trust.hssTree, erase := t.st.erase
          rings := t.err.rings.filter fun e => decide (e.1 < 32) }
        let u := (t.bumpBy 0x5800 7 [] 0 u32Max 1).hubOff
        { u with
          power := { u.power with save := some done, saveSet := some set, railEn := 0, pgood := 0 }
          time := { u.time with heldTick := u.now } }

/-- HELD_TICK_WRITE (R520). -/
def execHeldTickWrite (s : State) : Out :=
  .next <|
    if (s.power.save.any fun v => v.written) ∧ s.time.heldTick + 25000 ≤ s.now then { s with time := { s.time with heldTick := s.now } }
    else s

/-- VHOLD_EXHAUSTED (R520): the hold ends, and with it the power; a save that is not written is not completed. -/
def execVholdExhausted (s : State) : Out :=
  .next <|
    if s.power.save.isNone then s
    else
      let t := s.hubOff
      { t with power := { t.power with save := none, buttress := 0, ready := false, step := 0, railEn := 0, pgood := 0 } }

/-- SUPPLY_RETURN_IN_HOLD (R522, R553): the save completes; power-up begins when VAUX is valid. -/
def execSupplyReturnInHold (s : State) : Out :=
  .next { s with power := { s.power with save := s.power.save.map fun v => { v with supply := true } } }

/-! ### Straps and rails (R552-R557) -/

/-- The ledger partition after a power loss with no restored save set: records that were not programmed are lost, seals
that were not written are made again, and the open segments end with the records that were. -/
def LedSt.unsaved (l : LedSt) (now : Tick) : LedSt :=
  let kept := fun (g : Segment) => ({ g with records := g.records.filter fun r => !(l.buffer.contains r) } : Segment)
  let undone := l.seals.filter fun x => !x.written
  let back := undone.flatMap (·.segs)
  let ended := l.opened.map fun g => ({ g with closedAt := some now } : Segment)
  let closed := ((back ++ l.closed ++ ended).map kept).filter fun g => !g.records.isEmpty
  let seals := l.seals.filter Seal.written
  let head := if undone.isEmpty then l.head else ((seals.getLast?).map (·.body)).getD []
  { l with
    buffer := [], paused := false, opened := [], closed := closed, seals := seals, head := head
    segSeq := back.foldl (fun (m : List (Nat × Nat)) g => tupd g.slice 0 (fun n => min n g.seq) m) l.segSeq
    nextSeal := l.nextSeal - undone.length }

/-- An object is kept by the device through a power loss: RO values, and objects with storage of their own (R467, R481). -/
def keptObj (e : ObjKey × ObjVal) : Bool :=
  decide (0x7000 ≤ e.1.index ∧ e.1.index ≤ 0x73FF) ||
    (objDef e.1.index e.1.sub).any fun d => d.acc == .ro && d.agg != .fields

/-- Which exposures of R510 last: those of units still fenced. -/
def State.fencedBits (s : State) : Nat :=
  (if s.mason.fencedStones.isEmpty then 0 else 1) + (if s.memx.pch.isEmpty then 0 else 2 ^ 4) +
    (if s.st.lostChannels.isEmpty then 0 else 2 ^ 6) + (if s.mason.lostBays.isEmpty then 0 else 2 ^ 8) +
    (if s.mason.fencedLanes.isEmpty then 0 else 2 ^ 9) + (if s.hod.settFenced.isEmpty then 0 else 2 ^ 10) +
    (if s.quoin.fenced.isEmpty then 0 else 2 ^ 11)

/-- What the key engine, OTP and MRAM keep of the trust state; signing resumes at the next unreserved block (R530, R538). -/
def TrustSt.kept (t : TrustSt) (now : Tick) : TrustSt :=
  { State.reset.trust with
    revoked := t.revoked, otpSvn := t.otpSvn, mramSvn := t.mramSvn, banks := t.banks, bootBank := t.bootBank
    stagedMark := t.stagedMark, certs := t.certs, issueSeq := t.issueSeq, hssNext := t.hssReserved
    hssReserved := t.hssReserved, hssTree := t.hssTree, hssPending := t.hssPending, lastToken := now, reportSeq := t.reportSeq }

/-- The device after a power loss, as VAUX becomes valid (R28, R480, R526, R552). A mark that is due at the tick at which
the count resumes is written at once, so that the next loss resumes above it (assumption 92: DEDUCED). -/
def State.powerLost (s : State) : State :=
  let z := State.reset
  let h := s.hubOff
  let tm := s.time.cut (Config.freeValue s.free)
  let count := if s.power.saveSet.isSome then s.time.heldTick + 1 else tm.resume
  let back := ({ z.time with count := count, marks := tm.marks, markNext := tm.markNext, heldTick := tm.heldTick } : TimeSt)
  { h with
    free := s.free + 1
    nextSeq := 1, nextRun := 0
    objs := s.objs.filter keptObj
    slices := [(0, sliceZero)], bindings := []
    stored := { s.stored with snapshot := none, status := if s.stored.status = 1 then 3 else 0, restoreStatus := 0 }
    time := if back.markDue ∧ s.power.saveSet.isNone then back.mark true else back
    led := if s.power.saveSet.isSome then s.led else s.led.unsaved count
    can := { z.can with keyOperator := s.can.keyOperator, keyCustodian := s.can.keyCustodian, out := s.can.out, lastHeartbeat := count }
    err := { z.err with exposed := h.fencedBits, lastFault := s.err.lastFault }
    power := { z.power with saveSet := s.power.saveSet, saveStarted := s.power.saveStarted, railAt := count }
    trust := s.trust.kept count
    quoin := { z.quoin with fenced := s.quoin.fenced } }

/-- VAUX_VALID (R552, R556): the plinth leaves reset, samples the straps and asserts RAIL_EN_0. A save runs to its end
first, and the hold ends so only when the supply has returned (R520, R553). -/
def execVauxValid (canNode medium : Nat) (testEn : Bool) (s : State) : Out :=
  .next <|
    if s.power.save.any fun v => !v.written || !v.supply then s
    else
      let t := s.powerLost
      { t with power := { t.power with railEn := 1, canStrap := canNode % 128, mediumStrap := medium % 256, testEn := testEn } }

/-- Power-up begins again at T0 with VAUX held (R553, R557). -/
def State.fromT0 (s : State) : State :=
  { s with power := { s.power with
      step := 0, railEn := 1, pgood := 0, railAt := s.now, railRetry := none, railWait := none } }

/-- PGOOD_RISE (R552, R553): the next enable, or the hub's release. -/
def execPgoodRise (k : Nat) (s : State) : Out :=
  let p := s.power
  .next <|
    if p.railWait = some k then s.fromT0
    else if 4 ≤ k ∨ !(p.railEn.testBit k) ∨ p.pgood ≠ 2 ^ k - 1 then s
    else { s with power := { p with
      pgood := 2 ^ (k + 1) - 1, railEn := if k < 3 then 2 ^ (k + 2) - 1 else p.railEn, railAt := s.now } }

/-- PGOOD_TIMEOUT (R552): every enable is released, a record enters the plinth's ring, and a retry follows after 1 s. -/
def execPgoodTimeout (k : Nat) (s : State) : Out :=
  let p := s.power
  .next <|
    if 4 ≤ k ∨ !(p.railEn.testBit k) ∨ p.pgood ≠ 2 ^ k - 1 ∨ s.now < p.railAt + 50000 then s
    else
      let t := (s.record 1 1 0 (0x100 + Config.freeValue s.free % 0xB00) 0).advanceFree
      { t with power := { t.power with railEn := 0, pgood := 0, railRetry := some s.now } }

/-- RAIL_SEQUENCE_RETRY (R552). -/
def execRailSequenceRetry (s : State) : Out :=
  .next <|
    match s.power.railRetry with
    | none => s
    | some t =>
      if s.now < t + second then s
      else { s with power := { s.power with railRetry := none, railEn := 1, pgood := 0, railAt := s.now } }

/-- PGOOD_FALL (R550, R553): before READY power-up is aborted; from READY on it counts as the core monitor tripping; once a
save has begun it is ignored. -/
def execPgoodFall (k : Nat) (s : State) : Out :=
  let p := s.power
  .next <|
    if p.save.isSome ∨ !(p.railEn.testBit k) ∨ !(p.pgood.testBit k) then s
    else if p.ready then s.sag .coreRail
    else { s with power := { p with step := 0, railEn := 0, pgood := 0, railWait := some k } }

/-- RESET_N (R557): only before READY. A plinth that VAUX has not yet released stays in reset. -/
def execResetN (s : State) : Out :=
  let p := s.power
  .next <|
    if p.ready ∨ p.save.isSome ∨ (p.railEn = 0 ∧ p.railRetry.isNone ∧ p.railWait.isNone) then s else s.fromT0

/-! ### Power-up (R524-R527, R532) -/

/-- The plinth is up: the current stored set, the higher SVN, a new debug challenge, the node, and the save area
(R480, R524, R534, R546, R556). -/
def State.plinthUp (s : State) (obs : StepObs) : State :=
  let set := nth s.stored.sets s.stored.current none
  let rws := (set.map (·.objs)).getD []
  let own := fun (e : ObjKey × ObjVal) => decide (0x7000 ≤ e.1.index ∧ e.1.index ≤ 0x73FF)
  let svn := s.trust.counter
  let t : State := { s with
    objs := (rws.filter fun e => !(own e)).foldl (fun m e => tset e.1 e.2 m) s.objs
    slices := (set.map (·.slices)).getD [(0, sliceZero)]
    bindings := (set.map (·.bindings)).getD []
    trust := { s.trust with otpSvn := svn, mramSvn := svn } }
  let node := if t.power.canStrap = 0 then t.objNum 0x1100 1 [] 0 127 else t.power.canStrap
  let u := ({ t with can := { t.can with node := node } } : State).newChallenge
  match u.power.saveSet with
  | some _ =>
    if obs.saveCrcOk then u
    else
      let v := u.stick 1 2
      { v with
        power := { v.power with saveSet := none, saveStarted := false, lastSave := 2 }
        time := ({ v.time with count := max v.now v.time.resume } : TimeSt).mark true
        led := v.led.unsaved v.now }
  | none => { u with power := { u.power with saveStarted := false, lastSave := if u.power.saveStarted then 3 else 0 } }

/-- The ROM's verification: the bank of the boot pointer, else the other; none leaves the device in the plinth
(R532, R545, R556). -/
def State.romBoot (s : State) : Option State :=
  let t := s.trust
  let a := t.bank t.bootBank
  let b := t.bank t.inactive
  let run : Option (FwRun × Bool) :=
    if t.verify a = 0 then some (fwBoot a, false) else if t.verify b = 0 then some (fwBoot b, true) else none
  let stage := if t.stagedMark then (if t.verify b = 0 then 2 else 3) else 0
  if s.power.testEn then none
  else run.map fun r => { s with trust := { t with run := r.1, next := fwNone, prev := fwNone, fallback := r.2, stageState := stage } }

/-- The hub is up: Quoin pairs and bays run their self-tests, and the holdup capacitor is measured (R498, R519). -/
def State.hubUp (s : State) (obs : StepObs) : State :=
  let fenced := s.failing s.quoin.fenced
  let s1 := s.advanceFree
  let stones := s1.failing s1.mason.fencedStones
  let s2 := s1.advanceFree
  let bays := s2.failing s2.mason.lostBays
  let s3 := s2.advanceFree
  let lanes := s3.failing s3.mason.fencedLanes
  let s4 := s3.advanceFree
  let setts := s4.failing s4.hod.settFenced
  let s5 := s4.advanceFree
  let t : State := { s5 with
    quoin := { s5.quoin with
      active := if fenced.contains 0 ∧ !(fenced.contains 1) then 1 else 0, standby := fenced.isEmpty, fenced := fenced }
    mason := { s5.mason with
      fencedStones := stones, lostBays := bays, fencedLanes := lanes
      slots := s5.mason.slots.filter fun e => stones.any fun x => x.1 == e.1.1 }
    hod := { s5.hod with settFenced := setts }
    power := { s5.power with
      vholdMv := obs.vholdMv, capUf := min 65535 obs.capUf, buttress := armedBy obs.vholdMv obs.capUf, hubIdle := s5.now } }
  { t with err := { t.err with exposed := t.fencedBits } }

/-- HBM is trained and tested. -/
def State.hbmUp (s : State) : State :=
  let pch := s.failing s.memx.pch
  let t : State := { s.advanceFree with memx := { s.memx with pch := pch } }
  { t with err := { t.err with exposed := t.fencedBits } }

/-- Courses of 4 TiB, the most DRAM the device carries (R1). -/
def dramMost : Nat := 2 ^ 43 / 3

/-- The most MT/s that a number of DIMMs per channel runs at (R1, R284). -/
def dimmRate (dimms : Nat) : Nat := if dimms = 2 then 4400 else 5600

/-- Raw bytes of 128 TiB, the most NAND the device carries (R1). -/
def nandMost : Nat := 128 * 2 ^ 40

/-- DIMM discovery (R284); what is found lies within R1. -/
def State.dramUp (s : State) (obs : StepObs) : State :=
  match obs.dram with
  | none => { s.record 0 6 0 0x0607 0 with memx := { s.memx with dramState := 2, dramCap := 0, dramRate := 0 } }
  | some n => { s with memx := { s.memx with
      dramState := if n = 0 then 0 else 1, dramCap := min n dramMost
      dramRate := if n = 0 then 0 else min obs.dramRate (dimmRate obs.dimms) } }

/-- NAND discovery (R390, R391, R500), within R1: a channel that does not train at 2,400 MT/s runs at 1,600 MT/s (R390).
The partitions leave manufacture formatted (R389). -/
def State.nandUp (s : State) (obs : StepObs) : State :=
  let lost := s.failing s.st.lostChannels
  let rate := if obs.nandRate < 2400 then 1600 else 2400
  let t : State := { s.advanceFree with st := { s.st with channels := min 8 obs.onfi, nandRate := if obs.onfi = 0 then 0 else rate, lostChannels := lost } }
  let u := if obs.onfi < 8 then t.record 0 7 0 0x0830 0 else t
  let raw := min obs.ledgerBytes nandMost
  let cap := ledgerCapacity raw u.led.share (!lost.isEmpty)
  let v : State :=
    if u.led.raw = 0 ∧ u.st.capacity = 0 then
      { u with
        led := { u.led with raw := raw, capacity := cap, free := cap }
        st := { u.st with capacity := obs.tsBlocks, free := obs.tsBlocks } }
    else u
  { v with err := { v.err with exposed := v.fencedBits } }

/-- A saved ring with the records made since power-up entered in it. -/
def Ring.rejoin (old new : Ring) : Ring :=
  let r := new.recs.foldl Ring.occur old
  { r with sticky := r.sticky ||| new.sticky }

/-- The Buttress restore (R525): the rings, the buffered records to NAND in order, the open segments closed, and the marker
and SAVE_STARTED erased. -/
def State.restoreSave (s : State) : State :=
  match s.power.saveSet with
  | none => s
  | some x =>
    let n := x.led.buffer.length
    let bytes := sumNat (x.led.buffer.map List.length)
    let l := x.led.closeIf (fun _ => true) s.now
    { s with
      led := { l with buffer := [], paused := false, free := l.free - bytes, written := l.written + bytes, restart := true }
      err := { s.err with rings := x.rings.foldl (fun m e => tupd e.1 ringEmpty (fun r => e.2.rejoin r) m) s.err.rings }
      power := { s.power with saveSet := none, saveStarted := false, lastSave := 1, restored := n } }

/-- One step of R527. -/
def State.powerStep (s : State) (obs : StepObs) : Option State :=
  match s.power.step with
  | 0 => some (s.plinthUp obs)
  | 1 => s.romBoot
  | 2 => if s.power.pgood = 15 then some (s.hubUp obs) else none
  | 3 => some s.hbmUp
  | 4 => some (s.dramUp obs)
  | 5 => some (s.nandUp obs)
  | 6 => some s
  | 7 => some s
  | 8 =>
    let t := s.restoreSave
    some { t with power := { t.power with ready := true } }
  | _ => none

/-- POWER_UP_STEP_DONE (R527): the steps in order, up to READY. -/
def execPowerUpStepDone (obs : StepObs) (s : State) : Out :=
  .next <|
    if s.power.ready ∨ s.power.save.isSome ∨ s.power.railEn = 0 then s
    else match s.powerStep obs with
      | none => s
      | some t => { t with power := { t.power with step := s.power.step + 1 } }

/-! ### The standby pair (R544) -/

/-- STANDBY_PAIR_READY (R16, R544): a restarted pair that is not fenced is standby again. -/
def execStandbyPairReady (s : State) : Out :=
  .next <|
    if s.quoin.standby ∨ s.power.step < 3 ∨ s.quoin.fenced.contains (1 - s.quoin.active) then s
    else { s with
      quoin := { s.quoin with standby := true }
      err := { s.err with exposed := withoutBits s.err.exposed (2 ^ 11) } }

end Sys2Proof.Machine
end

