-- ==== Sys2Proof/Machine/Dispatch.lean ====
section
/-! DEFINITION. One arm for each constructor of Instr: the meaning of the command. -/

namespace Sys2Proof.Machine

/-- The effect of a command on everything but the queue. -/
def exec (i : Instr) (s : State) : Host.Outcome State Fault Refusal :=
  match i with
  | .deviceTimeTick badCopies => Sys2Proof.Machine.execDeviceTimeTick badCopies s
  | .refclkLost => Sys2Proof.Machine.execRefclkLost s
  | .refclkRestored => Sys2Proof.Machine.execRefclkRestored s
  | .ppsInEdge => Sys2Proof.Machine.execPpsInEdge s
  | .ppsEdgeMissed => Sys2Proof.Machine.execPpsEdgeMissed s
  | .timeMarkWrite => Sys2Proof.Machine.execTimeMarkWrite s
  | .syncReqSend port frac => Sys2Proof.Machine.execSyncReqSend port frac s
  | .syncReqReceive port frac msg => Sys2Proof.Machine.execSyncReqReceive port frac msg s
  | .syncRespReceive port frac msg => Sys2Proof.Machine.execSyncRespReceive port frac msg s
  | .itemSubmit h port param data => Sys2Proof.Machine.execItemSubmit h port param data s
  | .itemIngressRelease seq => Sys2Proof.Machine.execItemIngressRelease seq s
  | .flowQueueLeave bay => Sys2Proof.Machine.execFlowQueueLeave bay s
  | .firingDispatch bay slot l1iParity => Sys2Proof.Machine.execFiringDispatch bay slot l1iParity s
  | .itemIn w op => Sys2Proof.Machine.execItemIn w op s
  | .scan w op => Sys2Proof.Machine.execScan w op s
  | .filter w op => Sys2Proof.Machine.execFilter w op s
  | .map w op => Sys2Proof.Machine.execMap w op s
  | .decode w op => Sys2Proof.Machine.execDecode w op s
  | .encode w op => Sys2Proof.Machine.execEncode w op s
  | .keyLookup w op => Sys2Proof.Machine.execKeyLookup w op s
  | .keyJoin w op => Sys2Proof.Machine.execKeyJoin w op s
  | .hashBuild w op => Sys2Proof.Machine.execHashBuild w op s
  | .hashProbe w op => Sys2Proof.Machine.execHashProbe w op s
  | .mergeJoin w op => Sys2Proof.Machine.execMergeJoin w op s
  | .sort w op => Sys2Proof.Machine.execSort w op s
  | .topK w op => Sys2Proof.Machine.execTopK w op s
  | .groupAgg w op => Sys2Proof.Machine.execGroupAgg w op s
  | .windowAgg w op => Sys2Proof.Machine.execWindowAgg w op s
  | .stateGet w op => Sys2Proof.Machine.execStateGet w op s
  | .stateGetReadDone seq => Sys2Proof.Machine.execStateGetReadDone seq s
  | .statePut w op => Sys2Proof.Machine.execStatePut w op s
  | .union w op => Sys2Proof.Machine.execUnion w op s
  | .route w op => Sys2Proof.Machine.execRoute w op s
  | .digest w op => Sys2Proof.Machine.execDigest w op s
  | .verdictOut w op => Sys2Proof.Machine.execVerdictOut w op s
  | .resultOut w op => Sys2Proof.Machine.execResultOut w op s
  | .ledgerAppend w op => Sys2Proof.Machine.execLedgerAppend w op s
  | .tableAppend w op => Sys2Proof.Machine.execTableAppend w op s
  | .cycleBoundCutoff u => Sys2Proof.Machine.execCycleBoundCutoff u s
  | .arbiterResultArrival seq => Sys2Proof.Machine.execArbiterResultArrival seq s
  | .arbiterTick parity => Sys2Proof.Machine.execArbiterTick parity s
  | .firingEndConfirm seq => Sys2Proof.Machine.execFiringEndConfirm seq s
  | .statePutAck seq => Sys2Proof.Machine.execStatePutAck seq s
  | .replicaStateAck seq => Sys2Proof.Machine.execReplicaStateAck seq s
  | .answerMirrorAck seq => Sys2Proof.Machine.execAnswerMirrorAck seq s
  | .itemReplay seq => Sys2Proof.Machine.execItemReplay seq s
  | .inputHashReady seq => Sys2Proof.Machine.execInputHashReady seq s
  | .ledgerRecordEnter => Sys2Proof.Machine.execLedgerRecordEnter s
  | .answerEgress slice aq => Sys2Proof.Machine.execAnswerEgress slice aq s
  | .throttleStepChange bay temp => Sys2Proof.Machine.execThrottleStepChange bay temp s
  | .thermalFloorExit => Sys2Proof.Machine.execThermalFloorExit s
  | .thermalTrip bay temp => Sys2Proof.Machine.execThermalTrip bay temp s
  | .bayReoffer bay temp selfTest => Sys2Proof.Machine.execBayReoffer bay temp selfTest s
  | .bucketLoadMove bucket dst srcLoad dstLoad => Sys2Proof.Machine.execBucketLoadMove bucket dst srcLoad dstLoad s
  | .bucketMoveHandover bucket => Sys2Proof.Machine.execBucketMoveHandover bucket s
  | .bayLost bay => Sys2Proof.Machine.execBayLost bay s
  | .stoneFault bay slot => Sys2Proof.Machine.execStoneFault bay slot s
  | .stoneHangTimeout bay slot => Sys2Proof.Machine.execStoneHangTimeout bay slot s
  | .heatPeriodHalving => Sys2Proof.Machine.execHeatPeriodHalving s
  | .ashlarTierMove slice table col idx tier => Sys2Proof.Machine.execAshlarTierMove slice table col idx tier s
  | .migration slice va dstFrame => Sys2Proof.Machine.execMigration slice va dstFrame s
  | .pinRequest src table pin => Sys2Proof.Machine.execPinRequest src table pin s
  | .ksSearchResult id bad => Sys2Proof.Machine.execKsSearchResult id bad s
  | .ksUpdateHead slice table => Sys2Proof.Machine.execKsUpdateHead slice table s
  | .ksMove slice table bank bad => Sys2Proof.Machine.execKsMove slice table bank bad s
  | .ksCommit slice table => Sys2Proof.Machine.execKsCommit slice table s
  | .ksFrameStart bay => Sys2Proof.Machine.execKsFrameStart bay s
  | .ksParityRewrite slice table bank pos => Sys2Proof.Machine.execKsParityRewrite slice table bank pos s
  | .ksCopyRebuild slice table bank => Sys2Proof.Machine.execKsCopyRebuild slice table bank s
  | .ksJournalFold slice table => Sys2Proof.Machine.execKsJournalFold slice table s
  | .ksLoadSwitch slice table => Sys2Proof.Machine.execKsLoadSwitch slice table s
  | .cacheFillSector bay line obs => Sys2Proof.Machine.execCacheFillSector bay line obs s
  | .evictionWriteback bay slot parityBad => Sys2Proof.Machine.execEvictionWriteback bay slot parityBad s
  | .l2VictimAck bay line => Sys2Proof.Machine.execL2VictimAck bay line s
  | .memoryStoreAck u => Sys2Proof.Machine.execMemoryStoreAck u s
  | .patrolRead line obs => Sys2Proof.Machine.execPatrolRead line obs s
  | .pchFailed pch => Sys2Proof.Machine.execPchFailed pch s
  | .boundPairRebuild frame newFrame => Sys2Proof.Machine.execBoundPairRebuild frame newFrame s
  | .dramChannelLost ch => Sys2Proof.Machine.execDramChannelLost ch s
  | .rangeSetVisit bay => Sys2Proof.Machine.execRangeSetVisit bay s
  | .rangeZeroWrite bay => Sys2Proof.Machine.execRangeZeroWrite bay s
  | .rangeOpDone bay => Sys2Proof.Machine.execRangeOpDone bay s
  | .walkReadDone u obs => Sys2Proof.Machine.execWalkReadDone u obs s
  | .invalidateEffect bay => Sys2Proof.Machine.execInvalidateEffect bay s
  | .hodCopy bay ch => Sys2Proof.Machine.execHodCopy bay ch s
  | .hodFill bay ch => Sys2Proof.Machine.execHodFill bay ch s
  | .hodCompare bay ch => Sys2Proof.Machine.execHodCompare bay ch s
  | .hodPack bay ch => Sys2Proof.Machine.execHodPack bay ch s
  | .hodUnpack bay ch => Sys2Proof.Machine.execHodUnpack bay ch s
  | .hodDisable bay ch => Sys2Proof.Machine.execHodDisable bay ch s
  | .hodLineDone bay ch fault => Sys2Proof.Machine.execHodLineDone bay ch fault s
  | .settVerifyHandoff bay ch other pass => Sys2Proof.Machine.execSettVerifyHandoff bay ch other pass s
  | .digestLaneStart bay lane => Sys2Proof.Machine.execDigestLaneStart bay lane s
  | .digestBlockDone bay lane => Sys2Proof.Machine.execDigestBlockDone bay lane s
  | .ledgerNandProgram => Sys2Proof.Machine.execLedgerNandProgram s
  | .segmentCloseSecond => Sys2Proof.Machine.execSegmentCloseSecond s
  | .sealMake => Sys2Proof.Machine.execSealMake s
  | .sealWrite => Sys2Proof.Machine.execSealWrite s
  | .nandPageRefresh page errors => Sys2Proof.Machine.execNandPageRefresh page errors s
  | .tsBlockProgrammed slice block => Sys2Proof.Machine.execTsBlockProgrammed slice block s
  | .eraseUnitDone partition thousandths => Sys2Proof.Machine.execEraseUnitDone partition thousandths s
  | .sliceResetDrained slice => Sys2Proof.Machine.execSliceResetDrained slice s
  | .flitSend port => Sys2Proof.Machine.execFlitSend port s
  | .flitReceivePayload port flit => Sys2Proof.Machine.execFlitReceivePayload port flit s
  | .idleFlitReceive port flit => Sys2Proof.Machine.execIdleFlitReceive port flit s
  | .retryReqReceive port flit => Sys2Proof.Machine.execRetryReqReceive port flit s
  | .retryReqResend port => Sys2Proof.Machine.execRetryReqResend port s
  | .initReceive port flit => Sys2Proof.Machine.execInitReceive port flit s
  | .idleKeepaliveSend port => Sys2Proof.Machine.execIdleKeepaliveSend port s
  | .keepaliveMiss port => Sys2Proof.Machine.execKeepaliveMiss port s
  | .laneFault port lane => Sys2Proof.Machine.execLaneFault port lane s
  | .signalDetect port => Sys2Proof.Machine.execSignalDetect port s
  | .portTrained port => Sys2Proof.Machine.execPortTrained port s
  | .portStateTimeout port => Sys2Proof.Machine.execPortStateTimeout port s
  | .portTrainingRetry port => Sys2Proof.Machine.execPortTrainingRetry port s
  | .hello port msg => Sys2Proof.Machine.execHello port msg s
  | .attestReportReceive port report => Sys2Proof.Machine.execAttestReportReceive port report s
  | .memberLossReport node => Sys2Proof.Machine.execMemberLossReport node s
  | .probeTimeout node => Sys2Proof.Machine.execProbeTimeout node s
  | .routeEpochUpdate epoch routes => Sys2Proof.Machine.execRouteEpochUpdate epoch routes s
  | .minorityDetected => Sys2Proof.Machine.execMinorityDetected s
  | .memberJoin node serial count => Sys2Proof.Machine.execMemberJoin node serial count s
  | .memberLeave src node => Sys2Proof.Machine.execMemberLeave src node s
  | .leaveDrainComplete node => Sys2Proof.Machine.execLeaveDrainComplete node s
  | .nop h => Sys2Proof.Machine.execNop h s
  | .queueCreate h qid kind pair depth => Sys2Proof.Machine.execQueueCreate h qid kind pair depth s
  | .queueDelete h qid => Sys2Proof.Machine.execQueueDelete h qid s
  | .queueReset h qid => Sys2Proof.Machine.execQueueReset h qid s
  | .objRead h a => Sys2Proof.Machine.execObjRead h a s
  | .objWrite h a value => Sys2Proof.Machine.execObjWrite h a value s
  | .pipelineLoad h image => Sys2Proof.Machine.execPipelineLoad h image s
  | .pipelineUnload h ctx => Sys2Proof.Machine.execPipelineUnload h ctx s
  | .contextRun h ctx batchCount data => Sys2Proof.Machine.execContextRun h ctx batchCount data s
  | .tableCreate h table columns factor types => Sys2Proof.Machine.execTableCreate h table columns factor types s
  | .tableDrop h table => Sys2Proof.Machine.execTableDrop h table s
  | .ksCreate h param => Sys2Proof.Machine.execKsCreate h param s
  | .ksDrop h table => Sys2Proof.Machine.execKsDrop h table s
  | .ksInsert h table position entry => Sys2Proof.Machine.execKsInsert h table position entry s
  | .ksDelete h table position => Sys2Proof.Machine.execKsDelete h table position s
  | .ksLoad h table count entries => Sys2Proof.Machine.execKsLoad h table count entries s
  | .ksRead h table first last => Sys2Proof.Machine.execKsRead h table first last s
  | .dgKeyLoad h slot alg wrapped => Sys2Proof.Machine.execDgKeyLoad h slot alg wrapped s
  | .dgKeyClear h slot => Sys2Proof.Machine.execDgKeyClear h slot s
  | .ledgerRead h kind count firstLeaf seqNo => Sys2Proof.Machine.execLedgerRead h kind count firstLeaf seqNo s
  | .ledgerProof h itemId answerTick => Sys2Proof.Machine.execLedgerProof h itemId answerTick s
  | .ledgerSealNow h => Sys2Proof.Machine.execLedgerSealNow h s
  | .tsWrite h first count data => Sys2Proof.Machine.execTsWrite h first count data s
  | .tsRead h first count => Sys2Proof.Machine.execTsRead h first count s
  | .tsTrim h first count => Sys2Proof.Machine.execTsTrim h first count s
  | .storeStatus h => Sys2Proof.Machine.execStoreStatus h s
  | .sanitise h partition scope mode sealSeq => Sys2Proof.Machine.execSanitise h partition scope mode sealSeq s
  | .format h partition => Sys2Proof.Machine.execFormat h partition s
  | .sliceCreate h slice levels => Sys2Proof.Machine.execSliceCreate h slice levels s
  | .sliceReset h slice => Sys2Proof.Machine.execSliceReset h slice s
  | .sliceRemove h slice => Sys2Proof.Machine.execSliceRemove h slice s
  | .sliceBind h pid slice role => Sys2Proof.Machine.execSliceBind h pid slice role s
  | .sliceUnbind h pid => Sys2Proof.Machine.execSliceUnbind h pid s
  | .stateClear h space => Sys2Proof.Machine.execStateClear h space s
  | .attest h nonce => Sys2Proof.Machine.execAttest h nonce s
  | .fwStage h offset final data => Sys2Proof.Machine.execFwStage h offset final data s
  | .fwActivate h => Sys2Proof.Machine.execFwActivate h s
  | .identityCertIssue => Sys2Proof.Machine.execIdentityCertIssue s
  | .fwStateCopyDone => Sys2Proof.Machine.execFwStateCopyDone s
  | .fwTrialExpiry => Sys2Proof.Machine.execFwTrialExpiry s
  | .trialPairFailure => Sys2Proof.Machine.execTrialPairFailure s
  | .fwStageData src value => Sys2Proof.Machine.execFwStageData src value s
  | .svnCommit src svn => Sys2Proof.Machine.execSvnCommit src svn s
  | .vendorKeyRevoke src value => Sys2Proof.Machine.execVendorKeyRevoke src value s
  | .sliceKek src slice delivery => Sys2Proof.Machine.execSliceKek src slice delivery s
  | .canfdKeyOperator src delivery => Sys2Proof.Machine.execCanfdKeyOperator src delivery s
  | .canfdKeyCustodian src delivery => Sys2Proof.Machine.execCanfdKeyCustodian src delivery s
  | .custodianBind src value => Sys2Proof.Machine.execCustodianBind src value s
  | .hssTreeGenerate => Sys2Proof.Machine.execHssTreeGenerate s
  | .attestTokenGain => Sys2Proof.Machine.execAttestTokenGain s
  | .debugUnlock src token => Sys2Proof.Machine.execDebugUnlock src token s
  | .debugScrubDone => Sys2Proof.Machine.execDebugScrubDone s
  | .epochSecond src value => Sys2Proof.Machine.execEpochSecond src value s
  | .allotmentWrite src slice sub value => Sys2Proof.Machine.execAllotmentWrite src slice sub value s
  | .overflowClear src slice ctx => Sys2Proof.Machine.execOverflowClear src slice ctx s
  | .store src value => Sys2Proof.Machine.execStore src value s
  | .storeMramDone ok => Sys2Proof.Machine.execStoreMramDone ok s
  | .restore src value => Sys2Proof.Machine.execRestore src value s
  | .read frame => Sys2Proof.Machine.execRead frame s
  | .write frame => Sys2Proof.Machine.execWrite frame s
  | .segRead frame => Sys2Proof.Machine.execSegRead frame s
  | .segWrite frame => Sys2Proof.Machine.execSegWrite frame s
  | .segData frame => Sys2Proof.Machine.execSegData frame s
  | .segAck frame => Sys2Proof.Machine.execSegAck frame s
  | .abort frame => Sys2Proof.Machine.execAbort frame s
  | .path frame => Sys2Proof.Machine.execPath frame s
  | .sessionOpen frame => Sys2Proof.Machine.execSessionOpen frame s
  | .sessionProve frame => Sys2Proof.Machine.execSessionProve frame s
  | .sessionClose frame => Sys2Proof.Machine.execSessionClose frame s
  | .segmentTimeout => Sys2Proof.Machine.execSegmentTimeout s
  | .sessionProofTimeout => Sys2Proof.Machine.execSessionProofTimeout s
  | .sessionIdleTimeout => Sys2Proof.Machine.execSessionIdleTimeout s
  | .sessionLockoutEnd => Sys2Proof.Machine.execSessionLockoutEnd s
  | .heartbeat => Sys2Proof.Machine.execHeartbeat s
  | .coalesceEntryClose ring => Sys2Proof.Machine.execCoalesceEntryClose ring s
  | .ringAck src a n => Sys2Proof.Machine.execRingAck src a n s
  | .ringOverflowClear src a v => Sys2Proof.Machine.execRingOverflowClear src a v s
  | .firstClear src a v => Sys2Proof.Machine.execFirstClear src a v s
  | .transferReplay x attempt => Sys2Proof.Machine.execTransferReplay x attempt s
  | .digestLaneFault bay lane => Sys2Proof.Machine.execDigestLaneFault bay lane s
  | .quoinMismatch pair => Sys2Proof.Machine.execQuoinMismatch pair s
  | .onfiChannelLost ch => Sys2Proof.Machine.execOnfiChannelLost ch s
  | .bayIdleTimeout bay => Sys2Proof.Machine.execBayIdleTimeout bay s
  | .bayWakeRequest bay => Sys2Proof.Machine.execBayWakeRequest bay s
  | .bayWakeDone bay => Sys2Proof.Machine.execBayWakeDone bay s
  | .hubIdleTimeout => Sys2Proof.Machine.execHubIdleTimeout s
  | .hubWake => Sys2Proof.Machine.execHubWake s
  | .hbmSelfRefreshEntry dram => Sys2Proof.Machine.execHbmSelfRefreshEntry dram s
  | .hbmSelfRefreshExit dram => Sys2Proof.Machine.execHbmSelfRefreshExit dram s
  | .vholdMeasure mv => Sys2Proof.Machine.execVholdMeasure mv s
  | .sagDetect cause => Sys2Proof.Machine.execSagDetect cause s
  | .saveSetWritten => Sys2Proof.Machine.execSaveSetWritten s
  | .heldTickWrite => Sys2Proof.Machine.execHeldTickWrite s
  | .vholdExhausted => Sys2Proof.Machine.execVholdExhausted s
  | .supplyReturnInHold => Sys2Proof.Machine.execSupplyReturnInHold s
  | .vauxValid canNode medium testEn => Sys2Proof.Machine.execVauxValid canNode medium testEn s
  | .pgoodRise k => Sys2Proof.Machine.execPgoodRise k s
  | .pgoodTimeout k => Sys2Proof.Machine.execPgoodTimeout k s
  | .pgoodFall k => Sys2Proof.Machine.execPgoodFall k s
  | .resetN => Sys2Proof.Machine.execResetN s
  | .powerUpStepDone obs => Sys2Proof.Machine.execPowerUpStepDone obs s
  | .registerWrite ca value => Sys2Proof.Machine.execRegisterWrite ca value s
  | .add u g rd ra rb => Sys2Proof.Machine.execAdd u g rd ra rb s
  | .sub u g rd ra rb => Sys2Proof.Machine.execSub u g rd ra rb s
  | .adds u g rd ra rb => Sys2Proof.Machine.execAdds u g rd ra rb s
  | .subs u g rd ra rb => Sys2Proof.Machine.execSubs u g rd ra rb s
  | .mul u g rd ra rb => Sys2Proof.Machine.execMul u g rd ra rb s
  | .mulh u g rd ra rb => Sys2Proof.Machine.execMulh u g rd ra rb s
  | .mulhu u g rd ra rb => Sys2Proof.Machine.execMulhu u g rd ra rb s
  | .and u g rd ra rb => Sys2Proof.Machine.execAnd u g rd ra rb s
  | .or u g rd ra rb => Sys2Proof.Machine.execOr u g rd ra rb s
  | .xor u g rd ra rb => Sys2Proof.Machine.execXor u g rd ra rb s
  | .andn u g rd ra rb => Sys2Proof.Machine.execAndn u g rd ra rb s
  | .shl u g rd ra rb => Sys2Proof.Machine.execShl u g rd ra rb s
  | .shr u g rd ra rb => Sys2Proof.Machine.execShr u g rd ra rb s
  | .sar u g rd ra rb => Sys2Proof.Machine.execSar u g rd ra rb s
  | .min u g rd ra rb => Sys2Proof.Machine.execMin u g rd ra rb s
  | .max u g rd ra rb => Sys2Proof.Machine.execMax u g rd ra rb s
  | .minu u g rd ra rb => Sys2Proof.Machine.execMinu u g rd ra rb s
  | .maxu u g rd ra rb => Sys2Proof.Machine.execMaxu u g rd ra rb s
  | .popc u g rd ra => Sys2Proof.Machine.execPopc u g rd ra s
  | .clz u g rd ra => Sys2Proof.Machine.execClz u g rd ra s
  | .sext u g n rd ra => Sys2Proof.Machine.execSext u g n rd ra s
  | .zext u g n rd ra => Sys2Proof.Machine.execZext u g n rd ra s
  | .addi u g rd ra imm => Sys2Proof.Machine.execAddi u g rd ra imm s
  | .andi u g rd ra imm => Sys2Proof.Machine.execAndi u g rd ra imm s
  | .ori u g rd ra imm => Sys2Proof.Machine.execOri u g rd ra imm s
  | .xori u g rd ra imm => Sys2Proof.Machine.execXori u g rd ra imm s
  | .shli u g rd ra amount => Sys2Proof.Machine.execShli u g rd ra amount s
  | .shri u g rd ra amount => Sys2Proof.Machine.execShri u g rd ra amount s
  | .sari u g rd ra amount => Sys2Proof.Machine.execSari u g rd ra amount s
  | .li u g rd imm => Sys2Proof.Machine.execLi u g rd imm s
  | .lih u g rd imm => Sys2Proof.Machine.execLih u g rd imm s
  | .cmp u g cc pd ra rb => Sys2Proof.Machine.execCmp u g cc pd ra rb s
  | .cmpi u g cc pd ra imm => Sys2Proof.Machine.execCmpi u g cc pd ra imm s
  | .pand u g pd pa pb => Sys2Proof.Machine.execPand u g pd pa pb s
  | .por u g pd pa pb => Sys2Proof.Machine.execPor u g pd pa pb s
  | .pxor u g pd pa pb => Sys2Proof.Machine.execPxor u g pd pa pb s
  | .pandn u g pd pa pb => Sys2Proof.Machine.execPandn u g pd pa pb s
  | .pnot u g pd pa => Sys2Proof.Machine.execPnot u g pd pa s
  | .pmov u g pd ra => Sys2Proof.Machine.execPmov u g pd ra s
  | .pget u g rd pa => Sys2Proof.Machine.execPget u g rd pa s
  | .ppop u g rd pa => Sys2Proof.Machine.execPpop u g rd pa s
  | .pfirst u g rd pa => Sys2Proof.Machine.execPfirst u g rd pa s
  | .dadd u g rd ra rb => Sys2Proof.Machine.execDadd u g rd ra rb s
  | .dsub u g rd ra rb => Sys2Proof.Machine.execDsub u g rd ra rb s
  | .daddC u g rd ra rb => Sys2Proof.Machine.execDaddC u g rd ra rb s
  | .dmul u g rd ra rb => Sys2Proof.Machine.execDmul u g rd ra rb s
  | .dmulW u g rd ra rb => Sys2Proof.Machine.execDmulW u g rd ra rb s
  | .dabs u g rd ra => Sys2Proof.Machine.execDabs u g rd ra s
  | .dneg u g rd ra => Sys2Proof.Machine.execDneg u g rd ra s
  | .dcmpEq u g pd ra rb => Sys2Proof.Machine.execDcmpEq u g pd ra rb s
  | .dcmpNe u g pd ra rb => Sys2Proof.Machine.execDcmpNe u g pd ra rb s
  | .dcmpLt u g pd ra rb => Sys2Proof.Machine.execDcmpLt u g pd ra rb s
  | .dcmpGe u g pd ra rb => Sys2Proof.Machine.execDcmpGe u g pd ra rb s
  | .dext u g n rd ra => Sys2Proof.Machine.execDext u g n rd ra s
  | .dpack u g n rd ra => Sys2Proof.Machine.execDpack u g n rd ra s
  | .dcvtD u g rd ra => Sys2Proof.Machine.execDcvtD u g rd ra s
  | .dcvtI u g n rd ra => Sys2Proof.Machine.execDcvtI u g n rd ra s
  | .dcvtU u g n rd ra => Sys2Proof.Machine.execDcvtU u g n rd ra s
  | .dfit u g rd ra wide k n => Sys2Proof.Machine.execDfit u g rd ra wide k n s
  | .dsl u g rd ra k => Sys2Proof.Machine.execDsl u g rd ra k s
  | .vadd u g e vd va vb => Sys2Proof.Machine.execVadd u g e vd va vb s
  | .vsub u g e vd va vb => Sys2Proof.Machine.execVsub u g e vd va vb s
  | .vmin u g e vd va vb => Sys2Proof.Machine.execVmin u g e vd va vb s
  | .vmax u g e vd va vb => Sys2Proof.Machine.execVmax u g e vd va vb s
  | .vminu u g e vd va vb => Sys2Proof.Machine.execVminu u g e vd va vb s
  | .vmaxu u g e vd va vb => Sys2Proof.Machine.execVmaxu u g e vd va vb s
  | .vand u g e vd va vb => Sys2Proof.Machine.execVand u g e vd va vb s
  | .vor u g e vd va vb => Sys2Proof.Machine.execVor u g e vd va vb s
  | .vxor u g e vd va vb => Sys2Proof.Machine.execVxor u g e vd va vb s
  | .vsel u g pm e vd va vb => Sys2Proof.Machine.execVsel u g pm e vd va vb s
  | .vshl u g e vd va rb => Sys2Proof.Machine.execVshl u g e vd va rb s
  | .vshr u g e vd va rb => Sys2Proof.Machine.execVshr u g e vd va rb s
  | .vsar u g e vd va rb => Sys2Proof.Machine.execVsar u g e vd va rb s
  | .vbc u g e vd ra => Sys2Proof.Machine.execVbc u g e vd ra s
  | .vext u g e rd va rb => Sys2Proof.Machine.execVext u g e rd va rb s
  | .vredadd u g e rd va => Sys2Proof.Machine.execVredadd u g e rd va s
  | .vhash u g e vd va => Sys2Proof.Machine.execVhash u g e vd va s
  | .vcmp u g cc e pd va vb => Sys2Proof.Machine.execVcmp u g cc e pd va vb s
  | .vgath u g inp e vd ra vb bad => Sys2Proof.Machine.execVgath u g inp e vd ra vb bad s
  | .vdict u g inp e vd ra vb bad => Sys2Proof.Machine.execVdict u g inp e vd ra vb bad s
  | .vunpk u g inp w signed e vd ra rb bad => Sys2Proof.Machine.execVunpk u g inp w signed e vd ra rb bad s
  | .vpack u g w e va ra rb => Sys2Proof.Machine.execVpack u g w e va ra rb s
  | .ls u g n x rd ra off bad => Sys2Proof.Machine.execLs u g n x rd ra off bad s
  | .ss u g n rd ra off => Sys2Proof.Machine.execSs u g n rd ra off s
  | .lt u g n x rd ra off bad => Sys2Proof.Machine.execLt u g n x rd ra off bad s
  | .lm u g n x rd ra off obs => Sys2Proof.Machine.execLm u g n x rd ra off obs s
  | .sm u g n rd ra off obs => Sys2Proof.Machine.execSm u g n rd ra off obs s
  | .vls u g e vd ra off bad => Sys2Proof.Machine.execVls u g e vd ra off bad s
  | .vss u g e vd ra off => Sys2Proof.Machine.execVss u g e vd ra off s
  | .vlt u g e vd ra off bad => Sys2Proof.Machine.execVlt u g e vd ra off bad s
  | .vlm u g e vd ra off obs => Sys2Proof.Machine.execVlm u g e vd ra off obs s
  | .vsm u g e vd ra off obs => Sys2Proof.Machine.execVsm u g e vd ra off obs s
  | .ksFind u g rd ra loc => Sys2Proof.Machine.execKsFind u g rd ra loc s
  | .ksIns u g ra rb loc => Sys2Proof.Machine.execKsIns u g ra rb loc s
  | .ksDel u g rb loc => Sys2Proof.Machine.execKsDel u g rb loc s
  | .emit u g port ra rb => Sys2Proof.Machine.execEmit u g port ra rb s
  | .dgSub u g ra => Sys2Proof.Machine.execDgSub u g ra s
  | .dgWait u g => Sys2Proof.Machine.execDgWait u g s
  | .tlock u g rd ra => Sys2Proof.Machine.execTlock u g rd ra s
  | .tunlock u g ra => Sys2Proof.Machine.execTunlock u g ra s
  | .br u g cc annul ra rb off => Sys2Proof.Machine.execBr u g cc annul ra rb off s
  | .j u g off => Sys2Proof.Machine.execJ u g off s
  | .call u g off => Sys2Proof.Machine.execCall u g off s
  | .jr u g ra => Sys2Proof.Machine.execJr u g ra s
  | .callr u g ra => Sys2Proof.Machine.execCallr u g ra s
  | .ret u g ra => Sys2Proof.Machine.execRet u g ra s
  | .nopInstruction u g => Sys2Proof.Machine.execNopInstruction u g s
  | .endFiring u g => Sys2Proof.Machine.execEndFiring u g s
  | .fence u g => Sys2Proof.Machine.execFence u g s
  | .rdctl u g rd num => Sys2Proof.Machine.execRdctl u g rd num s
  | .wrctl u g ra num => Sys2Proof.Machine.execWrctl u g ra num s
  | .tinvA u g ra rb => Sys2Proof.Machine.execTinvA u g ra rb s
  | .tinvT u g rb => Sys2Proof.Machine.execTinvT u g rb s
  | .tinvAll u g => Sys2Proof.Machine.execTinvAll u g s
  | .tsync u g ra => Sys2Proof.Machine.execTsync u g ra s
  | .crangeClean u g rd ra rb => Sys2Proof.Machine.execCrangeClean u g rd ra rb s
  | .crangeInv u g rd ra rb => Sys2Proof.Machine.execCrangeInv u g rd ra rb s
  | .crangeCinv u g rd ra rb => Sys2Proof.Machine.execCrangeCinv u g rd ra rb s
  | .crangeZero u g rd ra rb => Sys2Proof.Machine.execCrangeZero u g rd ra rb s
  | .lease u g rd ra rb => Sys2Proof.Machine.execLease u g rd ra rb s
  | .scrub u g ra => Sys2Proof.Machine.execScrub u g ra s
  | .borrow u g => Sys2Proof.Machine.execBorrow u g s
  | .sret u g => Sys2Proof.Machine.execSret u g s
  | .canfdBusError transmit weight => Sys2Proof.Machine.execCanfdBusError transmit weight s
  | .canfdBusOffRecovery => Sys2Proof.Machine.execCanfdBusOffRecovery s
  | .railSequenceRetry => Sys2Proof.Machine.execRailSequenceRetry s
  | .standbyPairReady => Sys2Proof.Machine.execStandbyPairReady s

end Sys2Proof.Machine
end

