-- ==== Sys2Proof/Safety.lean ====
section
/-! DEFINITION. The terms the claims use: what a command answers, what an instruction of a core retires with, what stays
as it is, and what no run takes back. -/

namespace Sys2Proof.Machine

/-! ### Answers -/

/-- The command answers a next state, and `P` holds of it. -/
def Answers (c : Instr) (s : State) (P : State → Prop) : Prop := ∃ t, exec c s = .next t ∧ P t

/-- A safe step: the block goes on. -/
def StepsOn (s : State) : Prop := ∃ t, step s = .next t

/-! ### What no step takes back -/

/-- The anti-rollback counter of the fuses never falls, and a revocation is permanent (R534, R535). -/
def TrustKept (s t : State) : Prop :=
  s.trust.otpSvn ≤ t.trust.otpSvn ∧ s.trust.counter ≤ t.trust.counter ∧
    ∀ k, s.trust.revoked.testBit k = true → t.trust.revoked.testBit k = true

/-! ### Instructions of a core -/

/-- An instruction of core `u` with guard `g` and declaration `i` passes every check made before it executes, its guard
lets it execute, and it does not lie in a delay slot that forbids it: it executes on `s1`, the state in which the access
before it has settled. -/
def Issues (s : State) (u : CoreId) (g : Fin 8) (i : Info) (s1 : State) : Prop :=
  (∃ k p, s.gate u g i = .go s1 k p true) ∧ (s1.coreOf u).annul = false ∧
    (i.transfer = true → (s1.coreOf u).slot = none)

/-- The core without what retiring an instruction moves on: the index, the delay slot, the budget, the borrow and the
schedule. -/
def Core.regs (c : Core) : Core :=
  { c with pc := 0, slot := none, annul := false, budget := 0, borrow := false, sched := ⟨0, 0, 0, 0, 0, [], 0, 0, none⟩ }

/-- The index after an instruction that transfers nowhere: the target of the transfer whose delay slot it is in, else the
next index (R230, R232). -/
def Core.nextIndex (c : Core) : Nat :=
  match c.slot with
  | some (_, some t) => t
  | _ => c.pc + 1

/-- No other core changes, and nothing beside the cores does. -/
def OnlyCore (s t : State) (u : CoreId) : Prop := t = { s with cores := t.cores } ∧ ∀ v, v ≠ u → t.coreOf v = s.coreOf v

/-- Core `u` of `s` retires an ordinary instruction that leaves its registers as `d` says: the next index follows, one
unit of the budget is used, and nothing else changes. -/
def Retires (s t : State) (u : CoreId) (d : Core) : Prop :=
  (t.coreOf u).regs = d.regs ∧ (t.coreOf u).pc = (s.coreOf u).nextIndex ∧ (t.coreOf u).slot = none ∧
    (t.coreOf u).annul = false ∧ (t.coreOf u).borrow = false ∧ (t.coreOf u).budget = (s.coreOf u).budget - 1 ∧ OnlyCore s t u

/-- Core `u` of `s` retires a transfer that leaves its registers as `d` says: the instruction after it is its delay slot,
and `target`, where there is one, follows the slot (R230, R232). -/
def Transfers (s t : State) (u : CoreId) (d : Core) (target : Option Nat) (annul : Bool) : Prop :=
  (t.coreOf u).regs = d.regs ∧ (t.coreOf u).pc = (s.coreOf u).pc + 1 ∧ (t.coreOf u).slot = some ((s.coreOf u).pc, target) ∧
    (t.coreOf u).annul = annul ∧ (t.coreOf u).budget = (s.coreOf u).budget - 1 ∧ OnlyCore s t u

/-! ### Commands of the host -/

/-- A command capsule passes the checks of R448 and starts for binding `b` on `s1`. -/
def Starts (s : State) (h : CmdHdr) (op : Nat) (roles : List Nat) (s1 : State) (b : Binding) : Prop :=
  s.admitCmd h op roles = .start s1 b

/-- The command is answered on `s` by a completion with a status, as seen by `t`: what `t` holds is what a completion of
that status, detail and result leaves. -/
def Completes (s t : State) (slice : Nat) (h : CmdHdr) (status detail : Nat) (result : List Byte) : Prop :=
  t = s.finish slice h status detail result

end Sys2Proof.Machine
end

