-- ==== Sys2Proof/Certificates/Slice0/Obligations.lean ====
section
/-! DEFINITION. The statements for the provers. `Sys2Proof.Claims` holds the small terms they share. -/

set_option maxRecDepth 4000
open Sys2Proof Sys2Proof.Machine

/-! ### Chisel: scalar results (R213, R214) -/

/-- R213: each three-register instruction that executes retires with its value in rd; a write to s0 is discarded
(`Core.setS`), every other register, predicate, vector and control register is unchanged, and so is everything outside
the core. -/
def Obligations.ScalarThreeRegisterResults : Prop :=
  ∀ e ∈ (([(.add, 1, fun a b => BitVec.ofNat 60 (a.toNat + b.toNat)), (.sub, 1, fun a b => BitVec.ofInt 60 (a.toInt - b.toInt)),
       (.mul, 4, fun a b => BitVec.ofNat 60 (a.toNat * b.toNat)), (.mulh, 4, fun a b => BitVec.ofInt 60 (a.toInt * b.toInt / 2 ^ 60)),
       (.mulhu, 4, fun a b => BitVec.ofNat 60 (a.toNat * b.toNat / 2 ^ 60)), (.and, 1, fun a b => a &&& b),
       (.or, 1, fun a b => a ||| b), (.xor, 1, fun a b => a ^^^ b), (.andn, 1, fun a b => a &&& ~~~b),
       (.shl, 1, fun a b => BitVec.ofNat 60 (a.toNat * 2 ^ (b.toNat % 64))),
       (.shr, 1, fun a b => BitVec.ofNat 60 (a.toNat / 2 ^ (b.toNat % 64))),
       (.sar, 1, fun a b => BitVec.ofInt 60 (a.toInt / 2 ^ (b.toNat % 64))),
       (.min, 1, fun a b => if a.toInt < b.toInt then a else b), (.max, 1, fun a b => if a.toInt < b.toInt then b else a),
       (.minu, 1, fun a b => if a.toNat < b.toNat then a else b), (.maxu, 1, fun a b => if a.toNat < b.toNat then b else a)]) :
      List ((CoreId → Fin 8 → Fin 32 → Fin 32 → Fin 32 → Instr) × Nat × (Scalar → Scalar → Scalar))), ∀ (u : CoreId) (g : Fin 8) (rd ra rb : Fin 32) (s s1 : State),
    Issues s u g (infoS e.2.1 (rS [ra, rb]) (rS [rd]) true) s1 →
      Answers (e.1 u g rd ra rb) s fun t =>
        Retires s1 t u ((s1.coreOf u).setS rd.val (e.2.2 ((s1.coreOf u).sr ra.val) ((s1.coreOf u).sr rb.val)))

/-- R213, R217: adds and subs give the exact signed sum or difference clamped to -2^59 to 2^59 - 1, and a clamped result
sets ROW and CTX of ctl.ovf. -/
def Obligations.SaturatingSumsSetOverflow : Prop :=
  ∀ e ∈ ([(.adds, fun a b => a + b), (.subs, fun a b => a - b)] :
      List ((CoreId → Fin 8 → Fin 32 → Fin 32 → Fin 32 → Instr) × (Int → Int → Int))),
    ∀ (u : CoreId) (g : Fin 8) (rd ra rb : Fin 32) (s s1 : State),
      Issues s u g (infoS 1 (rS [ra, rb]) (rS [rd] ++ [rOvf]) true) s1 →
        Answers (e.1 u g rd ra rb) s fun t =>
          let c := s1.coreOf u
          let exact := e.2 (c.sr ra.val).toInt (c.sr rb.val).toInt
          let r := max (-(2 ^ 59)) (min (2 ^ 59 - 1) exact)
          Retires s1 t u { c.setS rd.val (BitVec.ofInt 60 r) with ovf := if r = exact then c.ovf else c.ovf ||| 0x003 }

/-- R213: popc counts the 1 bits, clz the leading zeros within 60, sext.N and zext.N extend the low 12N bits. -/
def Obligations.ScalarOneRegisterResults : Prop :=
  ∀ e ∈ (([(.popc, 2, true, fun a => BitVec.ofNat 60 ((List.range 60).filter fun k => a.getLsbD k).length),
       (.clz, 2, true, fun a => BitVec.ofNat 60 ((List.range 60).takeWhile fun k => !(a.getLsbD (59 - k))).length)] ++
      ([1, 2, 3, 4].flatMap fun n =>
        [((fun u g rd ra => .sext u g n rd ra), 1, true, fun a => ((a.setWidth (12 * n)).signExtend 60)),
         ((fun u g rd ra => .zext u g n rd ra), 1, true, fun a => ((a.setWidth (12 * n)).setWidth 60))])) :
      List ((CoreId → Fin 8 → Fin 32 → Fin 32 → Instr) × Nat × Bool × (Scalar → Scalar))), ∀ (u : CoreId) (g : Fin 8) (rd ra : Fin 32) (s s1 : State),
    Issues s u g (infoS e.2.1 (rS [ra]) (rS [rd]) e.2.2.1) s1 →
      Answers (e.1 u g rd ra) s fun t => Retires s1 t u ((s1.coreOf u).setS rd.val (e.2.2.2 ((s1.coreOf u).sr ra.val)))

/-- R214: the immediate instructions. li loads a signed immediate; lih shifts rd left by 20 and adds an unsigned one. -/
def Obligations.ImmediateResults : Prop :=
  (∀ e ∈ (([(.addi, fun a n => BitVec.ofInt 60 (a.toInt + n)), (.andi, fun a n => a &&& BitVec.ofInt 60 n),
       (.ori, fun a n => a ||| BitVec.ofInt 60 n), (.xori, fun a n => a ^^^ BitVec.ofInt 60 n)]) :
      List ((CoreId → Fin 8 → Fin 32 → Fin 32 → BitVec 17 → Instr) × (Scalar → Int → Scalar))), ∀ (u : CoreId) (g : Fin 8) (rd ra : Fin 32) (imm : BitVec 17) (s s1 : State),
    Issues s u g (infoS 1 (rS [ra]) (rS [rd]) true) s1 →
      Answers (e.1 u g rd ra imm) s fun t =>
        Retires s1 t u ((s1.coreOf u).setS rd.val (e.2 ((s1.coreOf u).sr ra.val) imm.toInt))) ∧
  (∀ e ∈ (([(.shli, fun a k => BitVec.ofNat 60 (a.toNat * 2 ^ k)), (.shri, fun a k => BitVec.ofNat 60 (a.toNat / 2 ^ k)),
       (.sari, fun a k => BitVec.ofInt 60 (a.toInt / 2 ^ k))]) :
      List ((CoreId → Fin 8 → Fin 32 → Fin 32 → BitVec 6 → Instr) × (Scalar → Nat → Scalar))), ∀ (u : CoreId) (g : Fin 8) (rd ra : Fin 32) (amount : BitVec 6) (s s1 : State),
    Issues s u g (infoS 1 (rS [ra]) (rS [rd]) true) s1 →
      Answers (e.1 u g rd ra amount) s fun t =>
        Retires s1 t u ((s1.coreOf u).setS rd.val (e.2 ((s1.coreOf u).sr ra.val) amount.toNat))) ∧
  (∀ (u : CoreId) (g : Fin 8) (rd : Fin 32) (imm : BitVec 22) (s s1 : State),
    Issues s u g (infoS 1 [] (rS [rd]) true) s1 →
      Answers (.li u g rd imm) s fun t => Retires s1 t u ((s1.coreOf u).setS rd.val (BitVec.ofInt 60 imm.toInt))) ∧
  (∀ (u : CoreId) (g : Fin 8) (rd : Fin 32) (imm : BitVec 20) (s s1 : State),
    Issues s u g (infoS 1 (rS [rd]) (rS [rd]) true) s1 →
      Answers (.lih u g rd imm) s fun t =>
        Retires s1 t u ((s1.coreOf u).setS rd.val (BitVec.ofNat 60 (((s1.coreOf u).sr rd.val).toNat * 2 ^ 20 + imm.toNat))))

/-- The conditions of R214 by their code. -/
def Sys2Proof.Claims.conditionOf (cc : Nat) (a b : Scalar) : Prop :=
  match cc with
  | 0 => a = b
  | 1 => a ≠ b
  | 2 => a.toInt < b.toInt
  | 3 => b.toInt ≤ a.toInt
  | 4 => a.toNat < b.toNat
  | _ => b.toNat ≤ a.toNat

/-- A predicate that is all ones where a condition holds, else zero. -/
def Sys2Proof.Claims.IsMask (m : Pred) (p : Prop) : Prop := (p → m = BitVec.allOnes 64) ∧ (¬p → m = 0)

/-- R214: compares write all ones or zero to pd (p0 discards it), the logical instructions work on whole masks, and pmov,
pget, ppop and pfirst move between predicates and scalars. -/
def Obligations.PredicateResults : Prop :=
  (∀ (u : CoreId) (g pd : Fin 8) (cc : Nat) (ra rb : Fin 32) (s s1 : State), cc ≤ 5 →
    Issues s u g (infoS 1 (rS [ra, rb]) (rP [pd]) true) s1 →
      ∃ m, Claims.IsMask m (Claims.conditionOf cc ((s1.coreOf u).sr ra.val) ((s1.coreOf u).sr rb.val)) ∧
        Answers (.cmp u g cc pd ra rb) s fun t => Retires s1 t u ((s1.coreOf u).setP pd.val m)) ∧
  (∀ (u : CoreId) (g pd : Fin 8) (cc : Nat) (ra : Fin 32) (imm : BitVec 14) (s s1 : State), cc ≤ 5 →
    Issues s u g (infoS 1 (rS [ra]) (rP [pd]) true) s1 →
      ∃ m, Claims.IsMask m (Claims.conditionOf cc ((s1.coreOf u).sr ra.val) (BitVec.ofInt 60 imm.toInt)) ∧
        Answers (.cmpi u g cc pd ra imm) s fun t => Retires s1 t u ((s1.coreOf u).setP pd.val m)) ∧
  (∀ e ∈ ([(.pand, fun a b => a &&& b), (.por, fun a b => a ||| b), (.pxor, fun a b => a ^^^ b), (.pandn, fun a b => a &&& ~~~b)] :
      List ((CoreId → Fin 8 → Fin 8 → Fin 8 → Fin 8 → Instr) × (Pred → Pred → Pred))),
    ∀ (u : CoreId) (g pd pa pb : Fin 8) (s s1 : State),
      Issues s u g (infoS 1 (rP [pa, pb]) (rP [pd]) true) s1 →
        Answers (e.1 u g pd pa pb) s fun t =>
          Retires s1 t u ((s1.coreOf u).setP pd.val (e.2 ((s1.coreOf u).pr pa.val) ((s1.coreOf u).pr pb.val)))) ∧
  (∀ (u : CoreId) (g pd pa : Fin 8) (s s1 : State), Issues s u g (infoS 1 (rP [pa]) (rP [pd]) true) s1 →
    Answers (.pnot u g pd pa) s fun t => Retires s1 t u ((s1.coreOf u).setP pd.val (~~~((s1.coreOf u).pr pa.val)))) ∧
  (∀ (u : CoreId) (g pd : Fin 8) (ra : Fin 32) (s s1 : State), Issues s u g (infoS 1 (rS [ra]) (rP [pd]) true) s1 →
    Answers (.pmov u g pd ra) s fun t =>
      Retires s1 t u ((s1.coreOf u).setP pd.val (BitVec.ofNat 64 ((s1.coreOf u).sr ra.val).toNat))) ∧
  (∀ e ∈ ([(.pget, fun p => BitVec.ofNat 60 p.toNat),
        (.ppop, fun p => BitVec.ofNat 60 ((List.range 64).filter fun k => p.getLsbD k).length),
        (.pfirst, fun p => BitVec.ofNat 60 ((List.range 64).takeWhile fun k => !(p.getLsbD k)).length)] :
      List ((CoreId → Fin 8 → Fin 32 → Fin 8 → Instr) × (Pred → Scalar))),
    ∀ (u : CoreId) (g pa : Fin 8) (rd : Fin 32) (s s1 : State),
      Issues s u g (infoS 2 (rP [pa]) (rS [rd]) true) s1 →
        Answers (e.1 u g rd pa) s fun t => Retires s1 t u ((s1.coreOf u).setS rd.val (e.2 ((s1.coreOf u).pr pa.val))))

/-! ### Chisel: decimal (R215-R217) -/

/-- A value clamped to a magnitude. -/
def Sys2Proof.Claims.clamp (lim : Nat) (v : Int) : Int := max (-(lim : Int)) (min (lim : Int) v)

/-- A core that holds a decimal result clamped to a magnitude in a pair; a clamped result sets ROW and CTX (R217). -/
def Sys2Proof.Claims.withPair (c : Core) (rd lim : Nat) (v : Int) : Core :=
  { c.setPairDec rd (Claims.clamp lim v) with ovf := if Claims.clamp lim v = v then c.ovf else c.ovf ||| 0x003 }

/-- Division by 10^K rounded half even (R216). -/
def Sys2Proof.Claims.roundHalfEven (k : Nat) (v : Int) : Int :=
  let q := v.natAbs / 10 ^ k
  let r := v.natAbs % 10 ^ k
  let m := if 10 ^ k < 2 * r ∨ (2 * r = 10 ^ k ∧ q % 2 = 1) then q + 1 else q
  if v < 0 then -(m : Int) else (m : Int)

/-- R215: dadd, dsub and dmul on two pairs of valid limbs give the exact result clamped to 10^30 - 1; dmul.w gives the
exact product in a quad; dadd.c adds magnitudes and the carry, and keeps the carry out. -/
def Obligations.DecimalTwoPairResults : Prop :=
  (∀ e ∈ ([(.dadd, 1, 3, fun a b => a + b), (.dsub, 1, 3, fun a b => a - b), (.dmul, 2, 8, fun a b => a * b)] :
      List ((CoreId → Fin 8 → Fin 32 → Fin 32 → Fin 32 → Instr) × Nat × Nat × (Int → Int → Int))),
    ∀ (u : CoreId) (g : Fin 8) (rd ra rb : Fin 32) (s s1 : State) (a b : Int),
      pairOk rd = true → pairOk ra = true → pairOk rb = true →
      Issues s u g { infoS e.2.2.1 (rPair [ra, rb]) (rPair [rd] ++ [rOvf]) true with occ := e.2.1 } s1 →
      (s1.coreOf u).pairDec ra.val = some a → (s1.coreOf u).pairDec rb.val = some b →
        Answers (e.1 u g rd ra rb) s fun t => Retires s1 t u (Claims.withPair (s1.coreOf u) rd.val (10 ^ 30 - 1) (e.2.2.2 a b))) ∧
  (∀ (u : CoreId) (g : Fin 8) (rd ra rb : Fin 32) (s s1 : State) (a b : Int),
    quadOk rd = true → pairOk ra = true → pairOk rb = true →
    Issues s u g { infoS 10 (rPair [ra, rb]) (rQuad rd) true with occ := 2 } s1 →
    (s1.coreOf u).pairDec ra.val = some a → (s1.coreOf u).pairDec rb.val = some b →
      Answers (.dmulW u g rd ra rb) s fun t => Retires s1 t u ((s1.coreOf u).setGroup rd.val 4 (decCourses 20 (a * b)))) ∧
  (∀ (u : CoreId) (g : Fin 8) (rd ra rb : Fin 32) (s s1 : State) (a b : Int),
    pairOk rd = true → pairOk ra = true → pairOk rb = true →
    Issues s u g (infoS 3 (rPair [ra, rb] ++ [.ctl 3]) (rPair [rd] ++ [.ctl 3]) true) s1 →
    (s1.coreOf u).pairDec ra.val = some a → (s1.coreOf u).pairDec rb.val = some b →
      Answers (.daddC u g rd ra rb) s fun t =>
        let c := s1.coreOf u
        let m := a.natAbs + b.natAbs + (c.dcarry.toNat % 2)
        Retires s1 t u { c.setPairDec rd.val ((m % 10 ^ 30 : Nat) : Int) with dcarry := if m < 10 ^ 30 then 0 else 1 })

/-- R215, R216: dabs, dneg, dsl, dpack.N, dext.N, dcvt and dfit on valid limbs. -/
def Obligations.DecimalOnePairResults : Prop :=
  (∀ e ∈ ([(.dabs, fun a => if a < 0 then -a else a), (.dneg, fun a => -a)] :
      List ((CoreId → Fin 8 → Fin 32 → Fin 32 → Instr) × (Int → Int))),
    ∀ (u : CoreId) (g : Fin 8) (rd ra : Fin 32) (s s1 : State) (a : Int), pairOk rd = true → pairOk ra = true →
      Issues s u g (infoS 1 (rPair [ra]) (rPair [rd]) true) s1 → (s1.coreOf u).pairDec ra.val = some a →
        Answers (e.1 u g rd ra) s fun t => Retires s1 t u ((s1.coreOf u).setPairDec rd.val (e.2 a))) ∧
  (∀ (u : CoreId) (g : Fin 8) (rd ra : Fin 32) (k : Nat) (s s1 : State) (a : Int), pairOk rd = true → pairOk ra = true → k ≤ 29 →
    Issues s u g (infoS 3 (rPair [ra]) (rPair [rd] ++ [rOvf]) true) s1 → (s1.coreOf u).pairDec ra.val = some a →
      Answers (.dsl u g rd ra k) s fun t => Retires s1 t u (Claims.withPair (s1.coreOf u) rd.val (10 ^ 30 - 1) (a * 10 ^ k))) ∧
  (∀ (u : CoreId) (g : Fin 8) (n : Nat) (rd ra : Fin 32) (s s1 : State) (a : Int), 1 ≤ n → n ≤ 8 → pairOk rd = true →
    pairOk ra = true → Issues s u g (infoS 2 (rPair [ra]) (rPair [rd] ++ [rOvf]) true) s1 → (s1.coreOf u).pairDec ra.val = some a →
      Answers (.dpack u g n rd ra) s fun t =>
        let c := s1.coreOf u
        let r := Claims.clamp (1000 ^ n - 1) a
        Retires s1 t u { c.setGroup rd.val 2 (List.replicate (10 - n) 0 ++ decCourses n r) with
          ovf := if r = a then c.ovf else c.ovf ||| 0x003 }) ∧
  (∀ (u : CoreId) (g : Fin 8) (n : Nat) (rd ra : Fin 32) (s s1 : State) (a : Int), 1 ≤ n → n ≤ 8 → pairOk rd = true →
    pairOk ra = true → Issues s u g (infoS 2 (rPair [ra]) (rPair [rd]) true) s1 →
    decOf (((s1.coreOf u).group ra.val 2).drop (10 - n)) = some a →
      Answers (.dext u g n rd ra) s fun t => Retires s1 t u ((s1.coreOf u).setPairDec rd.val a)) ∧
  (∀ (u : CoreId) (g : Fin 8) (rd ra : Fin 32) (s s1 : State), pairOk rd = true →
    Issues s u g (infoS 6 (rS [ra]) (rPair [rd]) true) s1 →
      Answers (.dcvtD u g rd ra) s fun t => Retires s1 t u ((s1.coreOf u).setPairDec rd.val ((s1.coreOf u).sr ra.val).toInt)) ∧
  (∀ e ∈ ([(.dcvtI, fun n => -((2 ^ (12 * n - 1) : Nat) : Int), fun n => ((2 ^ (12 * n - 1) : Nat) : Int) - 1),
        (.dcvtU, fun _ => 0, fun n => ((2 ^ (12 * n) : Nat) : Int) - 1)] :
      List ((CoreId → Fin 8 → Nat → Fin 32 → Fin 32 → Instr) × (Nat → Int) × (Nat → Int))),
    ∀ (u : CoreId) (g : Fin 8) (n : Nat) (rd ra : Fin 32) (s s1 : State) (a : Int), dcvtOk n rd ra = true →
      Issues s u g (infoS 6 (rPair [ra]) ((if n ≤ 5 then rS [rd] else rPair [rd]) ++ [rOvf]) true) s1 →
      (s1.coreOf u).pairDec ra.val = some a →
        Answers (e.1 u g n rd ra) s fun t =>
          let c := s1.coreOf u
          let r := max (e.2.1 n) (min (e.2.2 n) a)
          let d := if n ≤ 5 then c.setS rd.val (BitVec.ofInt 60 r) else c.setGroup rd.val 2 (natCrs 10 (r % 2 ^ 120).toNat)
          Retires s1 t u { d with ovf := if r = a then c.ovf else c.ovf ||| 0x003 }) ∧
  (∀ (u : CoreId) (g : Fin 8) (rd ra : Fin 32) (wide : Bool) (k n : Nat) (s s1 : State) (a : Int), dfitOk rd ra wide k n = true →
    Issues s u g { infoS (if wide then 8 else 6) (if wide then rQuad ra else rPair [ra]) (rPair [rd] ++ [rOvf]) true with
      occ := if wide then 2 else 1 } s1 →
    (if wide then (s1.coreOf u).quadDec ra.val else (s1.coreOf u).pairDec ra.val) = some a →
      Answers (.dfit u g rd ra wide k n) s fun t =>
        Retires s1 t u (Claims.withPair (s1.coreOf u) rd.val (1000 ^ n - 1) (Claims.roundHalfEven k a)))

/-- R215: the decimal compares on valid limbs write all ones or zero; a limb that is none in a source of dadd, dsub,
dadd.c or dmul raises INVALID_LIMB (0x0383). -/
def Obligations.DecimalComparesAndInvalidLimbs : Prop :=
  (∀ e ∈ ([(.dcmpEq, fun a b => a = b), (.dcmpNe, fun a b => a ≠ b), (.dcmpLt, fun a b => a < b), (.dcmpGe, fun a b => b ≤ a)] :
      List ((CoreId → Fin 8 → Fin 8 → Fin 32 → Fin 32 → Instr) × (Int → Int → Prop))),
    ∀ (u : CoreId) (g pd : Fin 8) (ra rb : Fin 32) (s s1 : State) (a b : Int), pairOk ra = true → pairOk rb = true →
      Issues s u g (infoS 3 (rPair [ra, rb]) (rP [pd]) true) s1 →
      (s1.coreOf u).pairDec ra.val = some a → (s1.coreOf u).pairDec rb.val = some b →
        ∃ m, Claims.IsMask m (e.2 a b) ∧
          Answers (e.1 u g pd ra rb) s fun t => Retires s1 t u ((s1.coreOf u).setP pd.val m)) ∧
  (∀ e ∈ ([(.dadd, 1, 3, [], [rOvf]), (.dsub, 1, 3, [], [rOvf]), (.daddC, 1, 3, [.ctl 3], [.ctl 3]), (.dmul, 2, 8, [], [rOvf])] :
      List ((CoreId → Fin 8 → Fin 32 → Fin 32 → Fin 32 → Instr) × Nat × Nat × List RegName × List RegName)),
    ∀ (u : CoreId) (g : Fin 8) (rd ra rb : Fin 32) (s s1 : State), pairOk rd = true → pairOk ra = true → pairOk rb = true →
      Issues s u g { infoS e.2.2.1 (rPair [ra, rb] ++ e.2.2.2.1) (rPair [rd] ++ e.2.2.2.2) true with occ := e.2.1 } s1 →
      (s1.coreOf u).pairDec ra.val = none ∨ (s1.coreOf u).pairDec rb.val = none →
        Answers (e.1 u g rd ra rb) s fun t => ∃ k, t = s1.faultAt u k 0x0383 0 none)

/-! ### Chisel: vectors (R218-R220) -/

/-- R205, R218: the element-wise instructions, vsel, the shifts by rb modulo 128 and vbc write the enabled elements of vd
and keep the others. -/
def Obligations.VectorElementResults : Prop :=
  (∀ x ∈ (([(.vadd, fun _ a b => a + b), (.vsub, fun e a b => elemOf e ((a : Int) - (b : Int))),
       (.vmin, fun e a b => if elemInt e a < elemInt e b then a else b), (.vmax, fun e a b => if elemInt e a < elemInt e b then b else a),
       (.vminu, fun _ a b => if a < b then a else b), (.vmaxu, fun _ a b => if a < b then b else a),
       (.vand, fun _ a b => a &&& b), (.vor, fun _ a b => a ||| b), (.vxor, fun _ a b => a ^^^ b)]) :
      List ((CoreId → Fin 8 → Fin 4 → Fin 16 → Fin 16 → Fin 16 → Instr) × (Fin 4 → Nat → Nat → Nat))), ∀ (u : CoreId) (g : Fin 8) (e : Fin 4) (vd va vb : Fin 16) (s s1 : State),
    Issues s u g (infoV 1 1 (rV [va, vb]) (rV [vd]) true) s1 →
      Answers (x.1 u g e vd va vb) s fun t =>
        let c := s1.coreOf u
        Retires s1 t u (c.setElems g e vd.val fun i =>
          x.2 e (nth (elems e (c.vr va.val)) i 0) (nth (elems e (c.vr vb.val)) i 0))) ∧
  (∀ (u : CoreId) (g pm : Fin 8) (e : Fin 4) (vd va vb : Fin 16) (s s1 : State),
    Issues s u g (infoV 1 1 (rV [va, vb] ++ rP [pm]) (rV [vd]) true) s1 →
      Answers (.vsel u g pm e vd va vb) s fun t =>
        let c := s1.coreOf u
        Retires s1 t u (c.setElems g e vd.val fun i =>
          if c.elemOn pm i then nth (elems e (c.vr va.val)) i 0 else nth (elems e (c.vr vb.val)) i 0)) ∧
  (∀ x ∈ ([(.vshl, fun _ k a => a * 2 ^ k), (.vshr, fun _ k a => a / 2 ^ k), (.vsar, fun e k a => elemOf e (elemInt e a / 2 ^ k))] :
      List ((CoreId → Fin 8 → Fin 4 → Fin 16 → Fin 16 → Fin 32 → Instr) × (Fin 4 → Nat → Nat → Nat))),
    ∀ (u : CoreId) (g : Fin 8) (e : Fin 4) (vd va : Fin 16) (rb : Fin 32) (s s1 : State),
      Issues s u g (infoV 1 2 (rV [va] ++ rS [rb]) (rV [vd]) true) s1 →
        Answers (x.1 u g e vd va rb) s fun t =>
          let c := s1.coreOf u
          Retires s1 t u (c.setElems g e vd.val fun i =>
            x.2 e ((c.sr rb.val).toNat % 128) (nth (elems e (c.vr va.val)) i 0))) ∧
  (∀ (u : CoreId) (g : Fin 8) (e : Fin 4) (vd : Fin 16) (ra : Fin 32) (s s1 : State),
    Issues s u g (infoV 1 1 (rS [ra]) (rV [vd]) true) s1 →
      Answers (.vbc u g e vd ra) s fun t =>
        let c := s1.coreOf u
        Retires s1 t u (c.setElems g e vd.val fun _ => elemOf e (c.sr ra.val).toInt))

/-- R218, R219: vext reads element rb modulo the count; vredadd adds the enabled elements modulo 2^60; vhash writes the
CRC-32C of the enabled elements; vcmp writes a bit for each enabled element, and with no element enabled neither writes
anything. -/
def Obligations.VectorReductionResults : Prop :=
  (∀ (u : CoreId) (g : Fin 8) (e : Fin 4) (rd : Fin 32) (va : Fin 16) (rb : Fin 32) (s s1 : State),
    Issues s u g { infoV 1 2 (rV [va] ++ rS [rb]) (rS [rd]) true with elem := false } s1 →
      Answers (.vext u g e rd va rb) s fun t =>
        let c := s1.coreOf u
        Retires s1 t u (c.setS rd.val (BitVec.ofNat 60 (nth (elems e (c.vr va.val)) ((c.sr rb.val).toNat % elemCount e) 0)))) ∧
  (∀ (u : CoreId) (g : Fin 8) (e : Fin 4) (rd : Fin 32) (va : Fin 16) (s s1 : State),
    Issues s u g (infoV 1 4 (rV [va]) (rS [rd]) true) s1 →
      Answers (.vredadd u g e rd va) s fun t =>
        let c := s1.coreOf u
        let on := (List.range (elemCount e)).filter fun i => c.elemOn g i
        let sum := (on.map fun i => elemInt e (nth (elems e (c.vr va.val)) i 0)).sum
        Retires s1 t u (if on = [] then c else c.setS rd.val (BitVec.ofInt 60 sum))) ∧
  (∀ (u : CoreId) (g : Fin 8) (e : Fin 4) (vd va : Fin 16) (s s1 : State), 2 ≤ e.val →
    Issues s u g (infoV (if e = 3 then 2 else 1) (if e = 3 then 8 else 6) (rV [va]) (rV [vd]) true) s1 →
      Answers (.vhash u g e vd va) s fun t =>
        let c := s1.coreOf u
        let h := fun (i : Nat) => crc32c (packBytes (slice (vecCourses (c.vr va.val)) (elemSize e * i) (elemSize e)))
        Retires s1 t u (if c.noElem g e then c
          else c.setV vd.val (ofElems 2 ((List.range 16).map fun i =>
            if elemCount e ≤ i then 0 else if c.elemOn g i then h i else nth (elems 2 (c.vr vd.val)) i 0)))) ∧
  (∀ (u : CoreId) (g pd : Fin 8) (cc : Nat) (e : Fin 4) (va vb : Fin 16) (s s1 : State) (r : Nat → Bool), cc ≤ 9 →
    Issues s u g (infoV 1 (if cc ≤ 5 then 1 else 3) (rV [va, vb]) (rP [pd]) true) s1 →
    (s1.coreOf u).noElem g e = false →
    (∀ i < elemCount e, (s1.coreOf u).elemOn g i = true →
      vcmpElem e cc (elems e ((s1.coreOf u).vr va.val)) (elems e ((s1.coreOf u).vr vb.val)) i = some (r i)) →
      Answers (.vcmp u g cc e pd va vb) s fun t =>
        let c := s1.coreOf u
        Retires s1 t u (c.setP pd.val (predOf (elemCount e) fun i => if c.elemOn g i then r i else (c.pr pd.val).getLsbD i)))

/-- R220: vgath, vdict and vunpk write the enabled elements that lie in their area, and vpack changes the stream bits of
the enabled elements and no other course of the work area. -/
def Obligations.VectorGatherResults : Prop :=
  (∀ (u : CoreId) (g : Fin 8) (inp : Bool) (e : Fin 4) (vd : Fin 16) (ra : Fin 32) (vb : Fin 16) (s s1 : State) (r : Nat → List Course),
    Issues s u g (infoV 2 6 (rV [vb] ++ rS [ra] ++ areaReads inp) (rV [vd]) true) s1 → (s1.coreOf u).noElem g e = false →
    (∀ i < elemCount e, (s1.coreOf u).elemOn g i = true →
      (s1.coreOf u).areaRead inp (((s1.coreOf u).sr ra.val).toNat + nth (elems e ((s1.coreOf u).vr vb.val)) i 0 * elemSize e)
        (elemSize e) = some (r i)) →
      Answers (.vgath u g inp e vd ra vb false) s fun t => Retires s1 t u ((s1.coreOf u).setElems g e vd.val fun i => crsNat (r i))) ∧
  (∀ (u : CoreId) (g : Fin 8) (inp : Bool) (e : Fin 4) (vd : Fin 16) (ra : Fin 32) (vb : Fin 16) (s s1 : State) (n : List Course)
    (r : Nat → List Course),
    Issues s u g (infoV 2 6 (rV [vb] ++ rS [ra] ++ areaReads inp) (rV [vd]) true) s1 → (s1.coreOf u).noElem g e = false →
    (s1.coreOf u).areaRead inp ((s1.coreOf u).sr ra.val).toNat 2 = some n →
    (∀ i < elemCount e, (s1.coreOf u).elemOn g i = true → nth (elems e ((s1.coreOf u).vr vb.val)) i 0 < crsNat n ∧
      (s1.coreOf u).areaRead inp (((s1.coreOf u).sr ra.val).toNat + 2 + nth (elems e ((s1.coreOf u).vr vb.val)) i 0 * elemSize e)
        (elemSize e) = some (r i)) →
      Answers (.vdict u g inp e vd ra vb false) s fun t => Retires s1 t u ((s1.coreOf u).setElems g e vd.val fun i => crsNat (r i))) ∧
  (∀ (u : CoreId) (g : Fin 8) (inp : Bool) (w : Nat) (signed : Bool) (e : Fin 4) (vd : Fin 16) (ra rb : Fin 32) (s s1 : State)
    (r : Nat → List Course), widthOk e w = true →
    Issues s u g (infoV 1 3 (rS [ra, rb] ++ areaReads inp) (rV [vd]) true) s1 → (s1.coreOf u).noElem g e = false →
    (∀ i < elemCount e, (s1.coreOf u).elemOn g i = true →
      (s1.coreOf u).areaRead inp (((s1.coreOf u).sr ra.val).toNat + (((s1.coreOf u).sr rb.val).toNat + i * w) / 12)
        ((((s1.coreOf u).sr rb.val).toNat + i * w + w - 1) / 12 - (((s1.coreOf u).sr rb.val).toNat + i * w) / 12 + 1) = some (r i)) →
      Answers (.vunpk u g inp w signed e vd ra rb false) s fun t => Retires s1 t u ((s1.coreOf u).setElems g e vd.val fun i =>
        let v := streamBits (r i) ((((s1.coreOf u).sr rb.val).toNat + i * w) % 12) w
        if signed then elemOf e (signedOf w v) else v)) ∧
  (∀ (u : CoreId) (g : Fin 8) (w : Nat) (e : Fin 4) (va : Fin 16) (ra rb : Fin 32) (s s1 : State), widthOk e w = true →
    Issues s u g { infoV 2 1 (rV [va] ++ rS [ra, rb] ++ [rWork]) [rWork] true with alone := false } s1 →
    (∀ i < elemCount e, (s1.coreOf u).elemOn g i = true →
      ((s1.coreOf u).sr ra.val).toNat + (((s1.coreOf u).sr rb.val).toNat + i * w + w - 1) / 12 + 1 ≤ (s1.coreOf u).workSize) →
      Answers (.vpack u g w e va ra rb) s fun t =>
        let c := s1.coreOf u
        let b := (c.sr rb.val).toNat
        let on := (List.range (elemCount e)).filter fun i => c.elemOn g i
        Retires s1 t u (on.foldl (fun (d : Core) i =>
          let at_ := (c.sr ra.val).toNat + (b + i * w) / 12
          let n := (b + i * w + w - 1) / 12 - (b + i * w) / 12 + 1
          d.workWrite at_ ((putStreamBits (d.workRead at_ n) ((b + i * w) % 12) w
            (nth (elems e (c.vr va.val)) i 0 % 2 ^ w)).map some)) c))
/-! ### Chisel: areas and memory (R221-R225, R229) -/

/-- The effective address ra + OFF modulo 2^60 (R221). -/
def Sys2Proof.Claims.addressOf (c : Core) (ra : Fin 32) (off : BitVec 13) : Nat := (c.sr ra.val + off.signExtend 60).toNat

/-- R221, R222: scalar and vector loads and stores of the work area, and loads of the input area, that are aligned and lie
in their area. A vector form touches only its enabled lanes. -/
def Obligations.AreaLoadsAndStores : Prop :=
  (∀ e ∈ ([(.ls, false), (.lt, true)] :
      List ((CoreId → Fin 8 → Nat → Bool → Fin 32 → Fin 32 → BitVec 13 → Bool → Instr) × Bool)),
    ∀ (u : CoreId) (g : Fin 8) (n : Nat) (x : Bool) (rd ra : Fin 32) (off : BitVec 13) (s s1 : State), 1 ≤ n → n ≤ 5 →
      Issues s u g (infoS 3 (rS [ra] ++ if e.2 then [] else [rWork]) (rS [rd]) true) s1 →
      Claims.addressOf (s1.coreOf u) ra off % 128 + n ≤ 128 →
      Claims.addressOf (s1.coreOf u) ra off + n ≤ (if e.2 then (s1.coreOf u).inputSize else (s1.coreOf u).workSize) →
        Answers (e.1 u g n x rd ra off false) s fun t =>
          let c := s1.coreOf u
          let a := Claims.addressOf c ra off
          let v := crsNat (if e.2 then c.inputRead a n else c.workRead a n)
          Retires s1 t u (c.setS rd.val (if x then BitVec.ofInt 60 (signedOf (12 * n) v) else BitVec.ofNat 60 v))) ∧
  (∀ (u : CoreId) (g : Fin 8) (n : Nat) (rd ra : Fin 32) (off : BitVec 13) (s s1 : State), 1 ≤ n → n ≤ 5 →
    Issues s u g (infoS 1 (rS [rd, ra]) [rWork] true) s1 →
    Claims.addressOf (s1.coreOf u) ra off % 128 + n ≤ 128 →
    Claims.addressOf (s1.coreOf u) ra off + n ≤ (s1.coreOf u).workSize →
      Answers (.ss u g n rd ra off) s fun t =>
        let c := s1.coreOf u
        Retires s1 t u (c.workWrite (Claims.addressOf c ra off) ((natCrs n (c.sr rd.val).toNat).map some))) ∧
  (∀ e ∈ ([(.vls, false), (.vlt, true)] :
      List ((CoreId → Fin 8 → Fin 4 → Fin 16 → Fin 32 → BitVec 13 → Bool → Instr) × Bool)),
    ∀ (u : CoreId) (g : Fin 8) (z : Fin 4) (vd : Fin 16) (ra : Fin 32) (off : BitVec 13) (s s1 : State),
      Issues s u g (infoV 1 3 (rS [ra] ++ if e.2 then [] else [rWork]) (rV [vd]) true) s1 →
      (s1.coreOf u).noElem g z = false → Claims.addressOf (s1.coreOf u) ra off % 64 = 0 →
      (∀ k < 64, (s1.coreOf u).elemOn g (k / elemSize z) = true →
        Claims.addressOf (s1.coreOf u) ra off + k < (if e.2 then (s1.coreOf u).inputSize else (s1.coreOf u).workSize)) →
        Answers (e.1 u g z vd ra off false) s fun t =>
          let c := s1.coreOf u
          let a := Claims.addressOf c ra off
          let new := if e.2 then c.inputRead a 64 else c.workRead a 64
          Retires s1 t u (c.setV vd.val (vecOf ((List.range 64).map fun k =>
            if c.elemOn g (k / elemSize z) then nth new k 0 else nth (vecCourses (c.vr vd.val)) k 0)))) ∧
  (∀ (u : CoreId) (g : Fin 8) (z : Fin 4) (vd : Fin 16) (ra : Fin 32) (off : BitVec 13) (s s1 : State),
    Issues s u g (infoV 1 1 (rV [vd] ++ rS [ra]) [rWork] true) s1 →
    (s1.coreOf u).noElem g z = false → Claims.addressOf (s1.coreOf u) ra off % 64 = 0 →
    (∀ k < 64, (s1.coreOf u).elemOn g (k / elemSize z) = true →
      Claims.addressOf (s1.coreOf u) ra off + k < (s1.coreOf u).workSize) →
      Answers (.vss u g z vd ra off) s fun t =>
        let c := s1.coreOf u
        Retires s1 t u (c.workWrite (Claims.addressOf c ra off) ((List.range 64).map fun k =>
          if c.elemOn g (k / elemSize z) then some (nth (vecCourses (c.vr vd.val)) k 0) else none)))

/-- R222, R223, R229: an aligned load or store of memory is charged one line, retires, and starts its access; tlock
retires and starts its access. -/
def Obligations.MemoryInstructionsStartTheirAccess : Prop :=
  (∀ (u : CoreId) (g : Fin 8) (n : Nat) (x : Bool) (rd ra : Fin 32) (off : BitVec 13) (obs : MemObs) (s s1 s2 : State),
    1 ≤ n → n ≤ 5 → Issues s u g (infoS 360 (rS [ra]) (rS [rd]) true) s1 →
    Claims.addressOf (s1.coreOf u) ra off % 128 + n ≤ 128 → s1.chargeCore (s1.coreOf u) 4 1 = some s2 →
      Answers (.lm u g n x rd ra off obs) s fun t => ∃ r, Retires s2 r u (s2.coreOf u) ∧
        t = r.startAccess u ((s1.coreOf u).scalarAccess false rd.val n x (Claims.addressOf (s1.coreOf u) ra off) []) obs) ∧
  (∀ (u : CoreId) (g : Fin 8) (n : Nat) (rd ra : Fin 32) (off : BitVec 13) (obs : MemObs) (s s1 s2 : State),
    1 ≤ n → n ≤ 5 → Issues s u g (infoS 1 (rS [rd, ra]) [] true) s1 →
    Claims.addressOf (s1.coreOf u) ra off % 128 + n ≤ 128 → s1.chargeCore (s1.coreOf u) 4 1 = some s2 →
      Answers (.sm u g n rd ra off obs) s fun t => ∃ r, Retires s2 r u (s2.coreOf u) ∧
        t = r.startAccess u ((s1.coreOf u).scalarAccess true rd.val n false (Claims.addressOf (s1.coreOf u) ra off)
          (natCrs n ((s1.coreOf u).sr rd.val).toNat)) obs) ∧
  (∀ (u : CoreId) (g : Fin 8) (z : Fin 4) (vd : Fin 16) (ra : Fin 32) (off : BitVec 13) (obs : MemObs) (s s1 s2 : State),
    Issues s u g (infoV 1 360 (rS [ra]) (rV [vd]) true) s1 → (s1.coreOf u).noElem g z = false →
    Claims.addressOf (s1.coreOf u) ra off % 64 = 0 → s1.chargeCore (s1.coreOf u) 4 1 = some s2 →
      Answers (.vlm u g z vd ra off obs) s fun t => ∃ r, Retires s2 r u (s2.coreOf u) ∧
        t = r.startAccess u ((s1.coreOf u).vectorAccess false vd.val (Claims.addressOf (s1.coreOf u) ra off) []
          ((s1.coreOf u).lanesOn g z)) obs) ∧
  (∀ (u : CoreId) (g : Fin 8) (z : Fin 4) (vd : Fin 16) (ra : Fin 32) (off : BitVec 13) (obs : MemObs) (s s1 s2 : State),
    Issues s u g (infoV 1 1 (rV [vd] ++ rS [ra]) [] true) s1 → (s1.coreOf u).noElem g z = false →
    Claims.addressOf (s1.coreOf u) ra off % 64 = 0 → s1.chargeCore (s1.coreOf u) 4 1 = some s2 →
      Answers (.vsm u g z vd ra off obs) s fun t => ∃ r, Retires s2 r u (s2.coreOf u) ∧
        t = r.startAccess u ((s1.coreOf u).vectorAccess true vd.val (Claims.addressOf (s1.coreOf u) ra off)
          (vecCourses ((s1.coreOf u).vr vd.val)) ((s1.coreOf u).lanesOn g z)) obs) ∧
  (∀ (u : CoreId) (g : Fin 8) (rd ra : Fin 32) (s s1 : State), Issues s u g (infoS 1800 (rS [ra]) (rS [rd]) true) s1 →
    Answers (.tlock u g rd ra) s fun t => ∃ r, Retires s1 r u (s1.coreOf u) ∧
      t = r.startAccess u { (s1.coreOf u).scalarAccess false rd.val 1 false ((s1.coreOf u).sr ra.val).toNat [] with
        lock := true, borrowed := false } .clean)

/-- R202, R225, R229: nop changes nothing, rdctl and wrctl read and write control registers, tunlock releases the locks
on a translation, and fence retires once no store is outstanding and holds until then. -/
def Obligations.PlainControlResults : Prop :=
  (∀ (u : CoreId) (g : Fin 8) (s s1 : State), Issues s u g (infoS 1 [] [] true) s1 →
    Answers (.nopInstruction u g) s fun t => Retires s1 t u (s1.coreOf u)) ∧
  (∀ (u : CoreId) (g : Fin 8) (rd : Fin 32) (num : BitVec 8) (s s1 : State), ctlReadable u.isQuoin num.toNat = true →
    Issues s u g (infoS 2 [.ctl num.toNat] (rS [rd]) true) s1 →
      Answers (.rdctl u g rd num) s fun t =>
        Retires s1 t u ((s1.coreOf u).setS rd.val ((s1.coreOf u).ctlRead u.isQuoin s1.now num.toNat))) ∧
  (∀ (u : CoreId) (g : Fin 8) (ra : Fin 32) (num : BitVec 8) (s s1 : State), ctlWritable u.isQuoin num.toNat = true →
    Issues s u g (infoS 1 (rS [ra] ++ [.ctl num.toNat]) [.ctl num.toNat] true) s1 →
      Answers (.wrctl u g ra num) s fun t =>
        Retires s1 t u ((s1.coreOf u).ctlWrite num.toNat ((s1.coreOf u).sr ra.val))) ∧
  (∀ (u : CoreId) (g : Fin 8) (ra : Fin 32) (s s1 : State), Issues s u g (infoS 1 (rS [ra]) [] true) s1 →
    Answers (.tunlock u g ra) s fun t =>
      let c := s1.coreOf u
      Retires s1 t u { c with locked := c.locked.filter fun e => !(e.covers (s1.spaceOf c false) (c.sr ra.val).toNat) }) ∧
  (∀ (u : CoreId) (g : Fin 8) (s s1 : State), Issues s u g { infoS 1 [] [] true with alone := true } s1 →
    ((s1.coreOf u).storesOut = 0 →
      (∀ f, (s1.coreOf u).firing = some f → f.predict = true ∨ (s1.coreOf u).sched.ackAt < f.cycleBound) →
        Answers (.fence u g) s fun t => Retires s1 t u (s1.coreOf u)) ∧
    ((s1.coreOf u).storesOut ≠ 0 → Answers (.fence u g) s fun t => t = s1))

/-! ### Chisel: control transfers (R230-R232) -/

/-- R230-R232: a conditional branch that is taken, and every unconditional transfer, retires with its delay slot before
its target; a branch not taken goes on, and the annulled form annuls its slot. call and callr link s31. -/
def Obligations.TransfersTakeTheirDelaySlot : Prop :=
  (∀ (u : CoreId) (g : Fin 8) (cc : Nat) (annul : Bool) (ra rb : Fin 32) (off : BitVec 13) (s s1 : State), cc ≤ 5 →
    Issues s u g { infoS 1 (rS [ra, rb]) [] true with alone := true, transfer := true, br := true } s1 →
      let c := s1.coreOf u
      (Claims.conditionOf cc (c.sr ra.val) (c.sr rb.val) →
        Answers (.br u g cc annul ra rb off) s fun t =>
          Transfers s1 t u (c.learnBr true) (some (BitVec.ofInt 60 (c.pc + off.toInt)).toNat) false) ∧
      (¬Claims.conditionOf cc (c.sr ra.val) (c.sr rb.val) →
        Answers (.br u g cc annul ra rb off) s fun t => Transfers s1 t u (c.learnBr false) none annul)) ∧
  (∀ (u : CoreId) (g : Fin 8) (off : BitVec 26) (s s1 : State),
    Issues s u g { infoS 1 [] [] true with alone := true, transfer := true } s1 →
      Answers (.j u g off) s fun t =>
        Transfers s1 t u (s1.coreOf u) (some (BitVec.ofInt 60 ((s1.coreOf u).pc + off.toInt)).toNat) false) ∧
  (∀ (u : CoreId) (g : Fin 8) (off : BitVec 26) (s s1 : State),
    Issues s u g { infoS 1 [] (rS [31]) true with alone := true, transfer := true } s1 →
      Answers (.call u g off) s fun t =>
        let c := s1.coreOf u
        Transfers s1 t u (c.setS 31 (BitVec.ofNat 60 (c.pc + 2))).pushRet (some (BitVec.ofInt 60 (c.pc + off.toInt)).toNat) false) ∧
  (∀ (u : CoreId) (g : Fin 8) (ra : Fin 32) (s s1 : State),
    (∀ f, (s1.coreOf u).firing = some f → ((s1.coreOf u).sr ra.val).toNat < f.codeLen) →
      let c := s1.coreOf u
      let n := (c.sr ra.val).toNat
      (Issues s u g { infoS 1 (rS [ra]) [] true with alone := true, transfer := true } s1 →
        Answers (.jr u g ra) s (fun t => Transfers s1 t u (c.learnTarget n) (some n) false) ∧
        (ra = 31 → Answers (.ret u g ra) s fun t => Transfers s1 t u (c.popRet n) (some n) false)) ∧
      (Issues s u g { infoS 1 (rS [ra]) (rS [31]) true with alone := true, transfer := true } s1 →
        Answers (.callr u g ra) s fun t =>
          Transfers s1 t u ((c.learnTarget n).setS 31 (BitVec.ofNat 60 (c.pc + 2))).pushRet (some n) false))

/-! ### Chisel: engines (R211, R226-R228) -/

/-- R226: a ks.find that passes its checks is charged one search and issues it; ks.ins and ks.del that pass theirs join the
queue of their table while it holds fewer than 16. -/
def Obligations.KeystoneInstructions : Prop :=
  (∀ (u : CoreId) (g : Fin 8) (rd ra : Fin 32) (loc : BitVec 8) (s s1 s2 : State) (f : Firing) (d : KsDecl),
    1 ≤ rd.val → rd.val ≤ 30 → Issues s u g (infoS 160 (rS [ra] ++ [rWork]) [.s rd.val, .s (rd.val + 1)] true) s1 →
    s1.declOf (s1.coreOf u) loc.toNat = some (f, d) →
    ((s1.coreOf u).sr ra.val).toNat + d.key ≤ (s1.coreOf u).workSize → s1.chargeFiring f 3 1 = some s2 →
      Answers (.ksFind u g rd ra loc) s fun t =>
        t.ks.searches = s2.ks.searches ++
          [{ id := s2.ks.nextId, slice := f.slice, table := d.table,
             key := (s1.coreOf u).workRead ((s1.coreOf u).sr ra.val).toNat d.key, bay := (coreBay u).getD 0,
             core := some (u, rd.val), w := none, since := s2.now,
             bank := ((s2.ksTab f.slice d.table).bind fun x => s2.ksChoose ((coreBay u).getD 0) x.held).map (·.bank) }] ∧
          Retires { s2 with ks := { s2.ks with searches := t.ks.searches, nextId := s2.ks.nextId + 1 } } t u (s2.coreOf u)) ∧
  (∀ (u : CoreId) (g : Fin 8) (ra rb : Fin 32) (loc : BitVec 8) (s s1 s2 : State) (f : Firing) (d : KsDecl) (tb : KsTab),
    s1.declOf (s1.coreOf u) loc.toNat = some (f, d) → d.write = true → s1.ksTab f.slice d.table = some tb →
    (tb.queue.filter fun x => x.kind != 2).length < 16 → (s1.coreOf u).heldSince = none → s1.chargeFiring f 3 1 = some s2 →
      (Issues s u g { infoS 1 (rS [ra, rb]) [] true with occ := 160, alone := true } s1 →
        ((s1.coreOf u).sr ra.val).toNat + ksImageLen tb.mode tb.key ≤ (s1.coreOf u).workSize →
        ksImageOk tb.mode tb.key ((s1.coreOf u).workRead ((s1.coreOf u).sr ra.val).toNat (ksImageLen tb.mode tb.key)) = true →
          Answers (.ksIns u g ra rb loc) s fun t =>
            let x := s2.ksQueue f.slice d.table 0 ((s1.coreOf u).sr rb.val).toNat
              [(s1.coreOf u).workRead ((s1.coreOf u).sr ra.val).toNat (ksImageLen tb.mode tb.key)] false f.ctx (some u)
            Retires x t u (x.coreOf u)) ∧
      (Issues s u g { infoS 1 (rS [rb]) [] true with occ := 160, alone := true } s1 →
        Answers (.ksDel u g rb loc) s fun t =>
          let x := s2.ksQueue f.slice d.table 1 ((s1.coreOf u).sr rb.val).toNat [] false f.ctx (some u)
          Retires x t u (x.coreOf u)))

/-- R211, R227, R228: emit keeps one token for a port, dg.sub queues a message and keeps its tag, dg.wait puts the tags in
the work area, and end completes the firing of a stone and only retires on a Quoin core. -/
def Obligations.FiringEngineInstructions : Prop :=
  (∀ (u : CoreId) (g port : Fin 8) (ra rb : Fin 32) (s s1 : State) (f : Firing),
    Issues s u g { infoS 1 (rS [ra, rb] ++ [rOvf]) [] true with
      occ := emitOcc ((s.settle u).coreOf u) port.val (((s.settle u).coreOf u).sr rb.val).toNat,
      alone := true } s1 →
    (s1.coreOf u).firing = some f → port.val < f.nout → (∀ e ∈ f.emitted, e.1 ≠ port.val) →
    ((s1.coreOf u).sr rb.val).toNat ≤ (if f.cls = 2 then 4096 else 1) →
    ((s1.coreOf u).sr rb.val).toNat * (nth f.outLayouts port.val (.fields [])).imageSize ≤
      max 256 (scratchCourses - (f.scratch * 128 + f.input.length +
        ((f.emitted.map fun e => e.2.rows.length * e.2.layout.imageSize).filter fun n => decide (256 < n)).sum)) →
    ((s1.coreOf u).sr ra.val).toNat + ((s1.coreOf u).sr rb.val).toNat * (nth f.outLayouts port.val (.fields [])).imageSize
      ≤ (s1.coreOf u).workSize →
    stateRowsOk (s1.coreOf u) (nth f.outLayouts port.val (.fields [])) (emitToken (s1.coreOf u) (nth f.outLayouts port.val (.fields []))
      ((s1.coreOf u).sr ra.val).toNat ((s1.coreOf u).sr rb.val).toNat).rows = true →
      Answers (.emit u g port ra rb) s fun t =>
        let c := s1.coreOf u
        Retires s1 t u { c with
          ovf := c.ovf &&& 0xFFD
          firing := some { f with emitted := f.emitted ++
            [(port.val, emitToken c (nth f.outLayouts port.val (.fields [])) (c.sr ra.val).toNat (c.sr rb.val).toNat)] } }) ∧
  (∀ (u : CoreId) (g : Fin 8) (ra : Fin 32) (s s1 s2 : State) (f : Firing) (alg tagLen tagAddr : Nat) (key msg : List Byte)
    (frags : List (Nat × Nat × Nat)),
    Issues s u g (infoS 1 (rS [ra] ++ [rWork]) [] true) s1 → (s1.coreOf u).firing = some f →
    dgCheck s1 (s1.coreOf u) f.slice ((s1.coreOf u).sr ra.val).toNat = .ok (alg, key, tagLen, msg, tagAddr, frags) →
    s1.chargeFiring f 5 (digestCharge msg.length) = some s2 →
      Answers (.dgSub u g ra) s fun t =>
        (∃ m, t.dg.waiting = s2.dg.waiting ++ [((coreBay u).getD 0, m)] ∧ m.id = s2.dg.nextId ∧ m.slice = f.slice ∧ m.ctx = f.ctx ∧
          m.alg = alg ∧ m.key = key ∧ m.msg = msg ∧ m.tagLen = tagLen ∧ m.done = 0 ∧ m.core = some (u, 0)) ∧
        (∃ f', (t.coreOf u).firing = some f' ∧
          f'.digests.map (fun d => (d.tagAddr, d.tag)) = f.digests.map (fun d => (d.tagAddr, d.tag)) ++ [(tagAddr, tagOf alg key msg tagLen)]) ∧
        (t.coreOf u).pc = (s1.coreOf u).nextIndex ∧ t = { s2 with cores := t.cores, dg := t.dg }) ∧
  (∀ (u : CoreId) (g : Fin 8) (s s1 : State) (f : Firing), Issues s u g { infoS 1 [] [] true with alone := true } s1 →
    s1.digesting u = false → (s1.coreOf u).firing = some f → f.predict = true ∨ (s1.coreOf u).sched.tagAt < f.cycleBound →
      Answers (.dgWait u g) s fun t =>
        let x := f.digests.foldl (fun (y : State) d => y.putTag u d) s1
        ∃ f1, (x.coreOf u).firing = some f1 ∧ Retires x t u { x.coreOf u with firing := some { f1 with digests := [] } }) ∧
  (∀ (u : CoreId) (g : Fin 8) (s s1 : State) (k : Nat) (p : Bool) (f : Firing),
    s.gate u g { infoS 1 [] [] true with alone := true } = .go s1 k p true → (s1.coreOf u).annul = false →
    (s1.coreOf u).firing = some f → s1.digesting u = false → (s1.coreOf u).storesOut = 0 →
    (∀ x ∈ s1.ks.searches, ∀ rd, x.core ≠ some (u, rd)) → f.predict = true ∨ endCycle (s1.coreOf u) k < f.cycleBound →
      Answers (.endFiring u g) s fun t => t = s1.completeFiring u f (s1.coreOf u) (endCycle (s1.coreOf u) k)) ∧
  (∀ (u : CoreId) (g : Fin 8) (s s1 : State), Issues s u g { infoS 1 [] [] true with alone := true } s1 →
    (s1.coreOf u).firing = none → s1.digesting u = false →
      Answers (.endFiring u g) s (fun t => Retires s1 t u (s1.coreOf u)) ∧
      Answers (.dgWait u g) s (fun t => Retires s1 t u (s1.coreOf u)))

/-! ### Chisel: supervisor instructions (R233-R236, R183, R305, R326, R327) -/

/-- An invalidate is queued for every walker, and a grouped device tells it to every other member (R326, R327). -/
def Sys2Proof.Claims.invalidating (s : State) (i : Inval) : State :=
  { s with
    memx := { s.memx with invals := s.memx.invals ++ [i] }
    group := { s.group with outbox := s.group.outbox ++ s.others.map fun n => (n, MemberMsg.invalidate i) } }

/-- R326, R327, R305: on a Quoin core the invalidates retire once they are queued for every walker, tsync once they have
taken effect over its scope and holds until then, and a range operation once it is queued on its bays. -/
def Obligations.SupervisorQueues : Prop :=
  (∀ (p : Nat) (g : Fin 8) (s s1 : State), let u := CoreId.quoin p
    (∀ ra rb : Fin 32, Issues s u g (infoS 1 (rS [ra, rb]) [] true) s1 →
      Answers (.tinvA u g ra rb) s fun t =>
        let i : Inval := ⟨0, ((s1.coreOf u).sr rb.val).toNat % 2 ^ 23, ((s1.coreOf u).sr ra.val).toNat, List.range 17⟩
        Retires (Claims.invalidating s1 i) t u (s1.coreOf u)) ∧
    (∀ rb : Fin 32, Issues s u g (infoS 1 (rS [rb]) [] true) s1 →
      Answers (.tinvT u g rb) s fun t =>
        let i : Inval := ⟨1, ((s1.coreOf u).sr rb.val).toNat % 2 ^ 23, 0, List.range 17⟩
        Retires (Claims.invalidating s1 i) t u (s1.coreOf u)) ∧
    (Issues s u g (infoS 1 [] [] true) s1 →
      Answers (.tinvAll u g) s fun t =>
        let i : Inval := ⟨2, 0, 0, List.range 17⟩
        Retires (Claims.invalidating s1 i) t u (s1.coreOf u)) ∧
    (∀ ra : Fin 32, Issues s u g (infoS 1 (rS [ra]) [] true) s1 → fieldOf ((s1.coreOf u).sr ra.val).toNat 5 4 ≠ 3 →
      (s1.syncDone (fieldOf ((s1.coreOf u).sr ra.val).toNat 5 4) (fieldOf ((s1.coreOf u).sr ra.val).toNat 3 0) = true →
        Answers (.tsync u g ra) s fun t => Retires s1 t u (s1.coreOf u)) ∧
      (s1.syncDone (fieldOf ((s1.coreOf u).sr ra.val).toNat 5 4) (fieldOf ((s1.coreOf u).sr ra.val).toNat 3 0) = false →
        Answers (.tsync u g ra) s fun t => t = s1))) ∧
  (∀ e ∈ ([(.crangeClean, 0x10), (.crangeInv, 0x11), (.crangeCinv, 0x12), (.crangeZero, 0x13)] :
      List ((CoreId → Fin 8 → Fin 32 → Fin 32 → Fin 32 → Instr) × Nat)),
    ∀ (p : Nat) (g : Fin 8) (rd ra rb : Fin 32) (s s1 : State), let u := CoreId.quoin p
      Issues s u g (infoS 1 (rS [rd, ra, rb]) [] true) s1 →
        let c := s1.coreOf u
        let sel := (c.sr rd.val).toNat
        let bays := if sel.testBit 4 then (List.range 16).filter s1.bayAwake else [fieldOf sel 3 0]
        (∀ b ∈ bays, (s1.rangeOf b).queue.length < 4) →
          Answers (e.1 u g rd ra rb) s fun t =>
            let x := s1.rangeQueue bays e.2 ((c.sr ra.val).toNat % 2 ^ 48) (c.sr rb.val).toNat
            Retires x t u (x.coreOf u))

/-- R183, R233, R234, R236: lease and scrub act on the stone a unit operand names once no firing is on it, a refused lease
answers 1, borrow arms one access, and sret resumes at ctl.epc with TRAP clear. -/
def Obligations.SupervisorUnits : Prop :=
  ∀ (p : Nat) (g : Fin 8) (s s1 : State), let u := CoreId.quoin p
    (∀ rd ra rb : Fin 32, Issues s u g (infoS 1 (rS [ra, rb]) (rS [rd]) true) s1 →
      let n := s1.unitSlot ((s1.coreOf u).sr ra.val).toNat
      let sl := fieldOf ((s1.coreOf u).sr rb.val).toNat 21 12
      (s1.leaseFree n.1 n.2 sl = false →
        Answers (.lease u g rd ra rb) s fun t => Retires s1 t u ((s1.coreOf u).setS rd.val 1)) ∧
      (s1.leaseFree n.1 n.2 sl = true → s1.stoneBusy n.1 n.2 = false →
        Answers (.lease u g rd ra rb) s fun t => Retires (s1.leaseTo n.1 n.2 sl) t u ((s1.coreOf u).setS rd.val 0) ∧
          t.leaseOf n.1 n.2 = some (sl, s1.now)) ∧
      (s1.leaseFree n.1 n.2 sl = true → s1.stoneBusy n.1 n.2 = true → Answers (.lease u g rd ra rb) s fun t => t = s1)) ∧
    (∀ ra : Fin 32, Issues s u g (infoS 1 (rS [ra]) [] true) s1 →
      let n := s1.unitSlot ((s1.coreOf u).sr ra.val).toNat
      (s1.stoneBusy n.1 n.2 = false → Answers (.scrub u g ra) s fun t =>
        Retires (s1.scrubStone n.1 n.2) t u ((s1.scrubStone n.1 n.2).coreOf u) ∧
          t.coreOf (.stone n.1 n.2) = coreReset (.stone n.1 n.2)) ∧
      (s1.stoneBusy n.1 n.2 = true → Answers (.scrub u g ra) s fun t => t = s1)) ∧
    (Issues s u g (infoS 1 [] [] true) s1 →
      Answers (.borrow u g) s (fun t => (t.coreOf u).borrow = true ∧ (t.coreOf u).regs = (s1.coreOf u).regs ∧
        (t.coreOf u).pc = (s1.coreOf u).nextIndex ∧ OnlyCore s1 t u) ∧
      Answers (.sret u g) s (fun t => (t.coreOf u).pc = (s1.coreOf u).epc.toNat ∧ (t.coreOf u).mode = (s1.coreOf u).mode &&& 0xDFF ∧
        (t.coreOf u).slot = none ∧ (t.coreOf u).s = (s1.coreOf u).s ∧ (t.coreOf u).p = (s1.coreOf u).p ∧
        (t.coreOf u).v = (s1.coreOf u).v ∧ OnlyCore s1 t u))

/-! ### What keeps an instruction from executing -/

/-- R205, R232, shown on add: one that passes the gate but is annulled retires as a no-op, and one whose guard is off
retires with no effect on any register. -/
def Obligations.GuardedOffAndAnnulledDoNothing : Prop :=
  ∀ (u : CoreId) (g : Fin 8) (rd ra rb : Fin 32) (s s1 : State) (k : Nat) (p on : Bool),
    s.gate u g (infoS 1 (rS [ra, rb]) (rS [rd]) true) = .go s1 k p on →
    (s1.coreOf u).annul = true ∨ on = false →
      Answers (.add u g rd ra rb) s fun t => Retires s1 t u (s1.coreOf u)

/-- R204: an encoding a core does not define is no instruction of it: sret, borrow and tinv.all on a stone with a firing
end in the fault `undefinedEncoding`, and sext.N with N outside 1 to 4 traps on a Quoin core with 0x03D0. -/
def Obligations.UndefinedEncodingsStopOrTrap : Prop :=
  (∀ (b k : Nat) (g : Fin 8) (s : State), (s.coreOf (.stone b k)).firing.isSome = true →
    exec (.sret (.stone b k) g) s = .fault .undefinedEncoding ∧ exec (.borrow (.stone b k) g) s = .fault .undefinedEncoding ∧
      exec (.tinvAll (.stone b k) g) s = .fault .undefinedEncoding) ∧
  (∀ (p : Nat) (g : Fin 8) (rd ra : Fin 32) (n : Nat) (s : State), p < 2 → s.quoin.fenced = [] →
    (s.coreOf (.quoin p)).access = none → (s.coreOf (.quoin p)).annul = false →
    s.awaits (.quoin p) (rS [ra] ++ rS [rd]) = false → ¬(1 ≤ n ∧ n ≤ 4) →
      Answers (.sext (.quoin p) g n rd ra) s fun t => t = s.coreFault (.quoin p) 0x03D0 0 none)

/-- R200: a scalar register written reads back its value, every other reads as before, and a write to s0 or p0 is
discarded: s0 reads zero and p0 all ones.
R202, R203: what wrctl writes of each register a stone or a Quoin core may write, and that it writes no other. -/
def Obligations.RegistersAndControlRegisters : Prop :=
  ((∀ (c : Core) (i j : Nat) (v : Scalar), i < c.s.length →
     (c.setS i v).sr j = if j = i ∧ i ≠ 0 then v else c.sr j) ∧
   (∀ (c : Core) (i j : Nat) (v : Pred), i < c.p.length →
     (c.setP i v).pr j = if j = i ∧ i ≠ 0 then v else c.pr j) ∧
   (∀ (c : Core) (i j : Nat) (v : Vec), i < c.v.length → (c.setV i v).vr j = if j = i then v else c.vr j) ∧
   (∀ (c : Core) (v : Scalar) (m : Pred), c.sr 0 = 0 ∧ c.pr 0 = BitVec.allOnes 64 ∧ c.setS 0 v = c ∧ c.setP 0 m = c)) ∧
  (∀ (c : Core) (x : Scalar) (tick : Nat),
     (c.ctlWrite 0x02 x).ctlRead false tick 0x02 = BitVec.ofNat 60 (x.toNat % 4) ∧
     (c.ctlWrite 0x03 x).ctlRead false tick 0x03 = BitVec.ofNat 60 (x.toNat % 2) ∧
     (c.ctlWrite 0x20 x).ctlRead true tick 0x20 = x ∧
     (c.ctlWrite 0x21 x).ctlRead true tick 0x21 = BitVec.ofNat 60 (x.toNat % 2 ^ 24) ∧
     (c.ctlWrite 0x22 x).ctlRead true tick 0x22 = x ∧
     (c.ctlWrite 0x24 x).ctlRead true tick 0x24 = BitVec.ofNat 60 (x.toNat % 2 ^ 24) ∧
     (∀ k, ((c.ctlWrite 0x00 x).mode).getLsbD k = if k = 9 ∨ k = 11 then x.getLsbD k else if k = 10 then c.mode.getLsbD k else false) ∧
     (∀ n, n ∈ [0x00, 0x02, 0x03, 0x20, 0x21, 0x22, 0x24] →
       (c.ctlWrite n x).s = c.s ∧ (c.ctlWrite n x).p = c.p ∧ (c.ctlWrite n x).v = c.v ∧ (c.ctlWrite n x).firing = c.firing ∧
         (c.ctlWrite n x).pc = c.pc ∧ (c.ctlWrite n x).budget = c.budget))

/-! ### Device time (R24-R28, R554) -/

/-- What a step of the clock leaves, from the state `x` in which the count has moved: a pause that has run its length ends
with the commands it held (R15), the device serves the commands of its group (R471; assumption 99: DESIGN CHOICE), and commands
that waited for another start once they may (R446, R398; assumption 101: DESIGN CHOICE). -/
def Sys2Proof.Claims.TickThen (x t : State) : Prop := t = x.settlePause.serveMembers.startWaiting

/-- R24, R35, R408: a tick adds one to the count, gives each G context its credits and each slice its ledger bytes, and
leaves items, runs, slices and trust as they are; where no bay is warm, cores and memory too. What a pause held, what the group sent
and the commands that waited follow.
R25, R554: losing the reference sets its state and its exposure, and its return clears both. R28: at a whole second the
count goes to the mark whose turn it is, once every valid mark lies a second behind it. -/
def Obligations.TicksCountAndFillBuckets : Prop :=
  (∀ (n : Nat) (s : State), Answers (.deviceTimeTick n) s fun z => ∃ t, Claims.TickThen t z ∧
    t.time.count = s.time.count + 1 ∧
    t.ctxs = s.ctxs.map (fun c =>
      if c.image.cls = 0 then { c with credits := min (c.image.bounds.burst * oneToken) (c.credits + c.image.bounds.rate) } else c) ∧
    t.host.bucket = s.host.bucket.map (fun e => (e.1, min (s.objNum (0x4000 + e.1) 17 [] 0 0 * 25000000)
      (e.2 + s.objNum (0x4000 + e.1) 17 [] 0 0))) ∧
    (n = 0 → t.time.refState = s.time.refState ∧ t.err = s.err) ∧
    t = { s with time := { s.time with count := t.time.count, refState := t.time.refState, ppsOutSince := t.time.ppsOutSince }
                 ctxs := t.ctxs, objs := t.objs, host := { s.host with bucket := t.host.bucket }, can := t.can, err := t.err
                 led := { s.led with epoch := t.led.epoch }, group := { s.group with outbox := t.group.outbox }
                 cores := t.cores, mem := t.mem, memx := t.memx, mason := { s.mason with leases := t.mason.leases }
                 power := { s.power with
                   bays := t.power.bays, hubIdle := t.power.hubIdle, memIdle := t.power.memIdle, peak := t.power.peak } } ∧
    (s.mason.warm = [] → t.cores = s.cores ∧ t.mem = s.mem ∧ t.memx = { s.memx with lfsr := t.memx.lfsr } ∧
      t.mason = s.mason)) ∧
  (∀ s : State, s.time.refState ≠ 1 → Answers .refclkLost s fun t =>
    t.time = { s.time with refState := 1 } ∧ t.err.exposed.testBit 13 = true ∧ t.err.lastFault = s.now ∧
      t = { s with time := t.time, objs := t.objs, err := t.err, can := t.can }) ∧
  (∀ s : State, Answers .refclkRestored s fun t =>
    t.time = { s.time with refState := 0 } ∧ t.err.exposed.testBit 13 = false ∧
      t = { s with time := t.time, err := { s.err with exposed := t.err.exposed } }) ∧
  (∀ s : State, 25000000 ≤ s.now → (∀ m ∈ s.time.marks, m.valid = true → m.tick + 25000000 ≤ s.now) →
    Answers .timeMarkWrite s fun t => t = { s with time := { s.time with
      marks := s.time.marks.set s.time.markNext ⟨s.now, true⟩, markNext := 1 - s.time.markNext } })

/-- R27: an edge of PPS_IN is valid within 2,500 ticks of the nearest whole 25000000, or as the first since power-up; any
other edge, and each expected edge whose window closes without one, is counted and the third in a row is holdover. PPS_OUT
rises at each tick that is a whole 25000000. -/
def Obligations.PpsEdgesSteerTime : Prop :=
  (∀ s : State, s.time.ppsSeen = false ∨ (ppsError s.now).natAbs ≤ 2500 → Answers .ppsInEdge s fun t =>
    t.time.ppsSeen = true ∧ t.time.ppsMisses = 0 ∧ t.time.ppsLast = t.time.count ∧ t.time.epochArmed = false ∧
    (s.time.aligned = true ∨ s.power.ready = true → t.time.count = s.time.count) ∧
    (s.time.aligned = false → s.power.ready = false →
      t.time.aligned = true ∧ t.time.count % 25000000 = 0 ∧ s.time.count ≤ t.time.count ∧ t.time.count < s.time.count + 25000000) ∧
    t.time.ppsState = (if (ppsError t.time.count).natAbs ≤ 1 then 2 else 1) ∧
    (s.ppsLeads = true → t.time.slew = ppsError t.time.count) ∧ (s.ppsLeads = false → t.time.slew = s.time.slew) ∧
    t.time.epochTick = (if s.time.epochArmed then t.time.count else s.time.epochTick) ∧ t = { s with time := t.time }) ∧
  (∀ e ∈ ([(Instr.ppsInEdge, false), (.ppsEdgeMissed, true)] : List (Instr × Bool)), ∀ s : State, s.time.ppsSeen = true →
    (if e.2 then s.now % 25000000 = 2501 ∧ s.time.ppsLast + 5001 < s.now else 2500 < (ppsError s.now).natAbs) →
      Answers e.1 s fun t =>
        t.objNum 0x3000 3 [] 0 0 = min u32Max (s.objNum 0x3000 3 [] 0 0 + 1) ∧
        t.time = { s.time with
          ppsMisses := s.time.ppsMisses + 1
          ppsState := if 3 ≤ s.time.ppsMisses + 1 then 3 else s.time.ppsState } ∧
        t = { s with objs := t.objs, time := t.time }) ∧
  (∀ (n : Nat) (s : State), Answers (.deviceTimeTick n) s fun z => ∃ t, Claims.TickThen t z ∧
    ((s.now + 1) % 25000000 = 0 → t.time.ppsOutSince = some (s.now + 1)) ∧
    ((s.now + 1) % 25000000 ≠ 0 → t.time.ppsOutSince = none ∨ t.time.ppsOutSince = s.time.ppsOutSince))

/-! ### Heat (R46, R49, R272, R273, R498, R499) -/

/-- R273, R49, R499: a temperature report moves a live bay's step, slower at once and faster by one step; the thermal floor
ends when it has been cool for a second; 110 °C powers a bay off and loses it; a tripped bay returns below 95 °C. -/
def Obligations.TemperatureMovesStepsAndTrips : Prop :=
  (∀ (bay : Nat) (temp : Int) (s : State), s.bayLive bay = true → Answers (.throttleStepChange bay temp) s fun t =>
    tget bay t.therm.temps = some temp ∧ (s.stepOf bay < stepFor temp → t.stepOf bay = stepFor temp) ∧
    (stepFor temp ≤ s.stepOf bay → t.stepOf bay = s.stepOf bay ∨ t.stepOf bay + 1 = s.stepOf bay) ∧
    (∀ b, b ≠ bay → tget b t.therm.temps = tget b s.therm.temps ∧ t.stepOf b = s.stepOf b) ∧
    t = { s with therm := t.therm, objs := t.objs, err := t.err, free := t.free }) ∧
  (∀ (since : Tick) (s : State), s.therm.floor = true → s.belowFloor = false → s.floorCools = true → s.therm.floorCool = some since →
    since + 25000000 ≤ s.now → Answers .thermalFloorExit s fun t =>
      t = { s with therm := { s.therm with
        floor := false, bSuspended := false, shedding := false, atRisk := [], floorCool := none } }) ∧
  (∀ (bay : Nat) (temp : Int) (s : State), s.bayLive bay = true → 110 ≤ temp → Answers (.thermalTrip bay temp) s fun t =>
    t.bayPower bay = ⟨3, s.now, none⟩ ∧ bay ∈ t.mason.lostBays ∧ t.therm.tripped = tset bay none s.therm.tripped ∧
      t.therm.temps = tset bay temp s.therm.temps ∧ t.time = s.time ∧ t.trust = s.trust ∧ t.slices = s.slices) ∧
  (∀ (bay : Nat) (temp : Int) (since : Option Tick) (s : State), tget bay s.therm.tripped = some since → temp < 95 →
    (since.getD s.now) + 25000000 ≤ s.now → Answers (.bayReoffer bay temp true) s fun t =>
      bay ∉ t.mason.lostBays ∧ (∀ e ∈ t.mason.fencedStones, e.1 ≠ bay) ∧ (∀ e ∈ t.mason.fencedLanes, e.1 ≠ bay) ∧
        t.therm = { s.therm with
          tripped := tdel bay s.therm.tripped, temps := tset bay temp s.therm.temps, steps := tdel bay s.therm.steps
          floorCool := t.therm.floorCool } ∧
        t = { s with mason := t.mason, therm := t.therm, hod := t.hod, err := { s.err with exposed := t.err.exposed } })

/-! ### Queue commands (R443, R460, R461) -/

/-- R460, R461: NOP completes. R446: with FENCE it waits, kept with its row, while an earlier command of its SQ is outstanding.
QUEUE_CREATE makes the queue, or fails with QUEUE_PARAM (0x010A) or QUEUE_LIMIT (0x010C).
QUEUE_DELETE removes an idle queue, and fails with QUEUE_PARAM for QID 0 and QUEUE_BUSY (0x010B) for a queue in use; what a group adds to a
command that has succeeded is another statement's. A CONTEXT_RUN whose RESULT_OUT names no RQ fails with QUEUE_UNKNOWN (0x0106). -/
def Obligations.QueueCommandsComplete : Prop :=
  (∀ (h : CmdHdr) (s s1 : State) (b : Binding), Starts s h 0x0001 anyRole s1 b →
    Answers (.nop h) s fun t => Completes s1 t b.slice h 0 0 []) ∧
  (∀ (h : CmdHdr) (q : Queue) (s s1 : State) (b : Binding), s.acceptCmd h 0x0001 anyRole = (s1, some b) →
    s1.queueOf b.slice h.qid = some q → h.fence = true → q.outstanding.takeWhile (fun c => c != h.cid) ≠ [] →
      exec (.nop h) s = .next (s1.keepRow (.nop h) h 0x0001)) ∧
  (∀ (h : CmdHdr) (qid kind pair depth : Nat) (s s1 : State) (b : Binding), s.paused = false →
    Starts s h 0x0002 anyRole s1 b →
    let named := fun (k : Nat) => ∃ q ∈ s1.host.queues, q.slice = b.slice ∧ q.qid = pair ∧ q.kind = k
    let param := qid = 0 ∨ 4095 < qid ∨ 4 < kind ∨ (kind = 0 ∧ (depth < 2 ∨ 4096 < depth)) ∨ (kind ≠ 0 ∧ depth ≠ 0) ∨
      s1.queueOf b.slice qid ≠ none ∨ (kind = 0 ∧ pair ≠ 0 ∧ ¬named 1) ∨ (kind = 2 ∧ ¬named 3) ∨
      (kind ≠ 0 ∧ kind ≠ 2 ∧ pair ≠ 0)
    let limit := (kind = 0 ∨ kind = 2) ∧ b.slice ≠ 0 ∧
      s1.objNum (0x4000 + b.slice) 18 [] 0 0 ≤ (s1.host.queues.filter fun q =>
        q.slice == b.slice && q.qid != 0 && (q.kind == 0 || q.kind == 2)).length
    Answers (.queueCreate h qid kind pair depth) s fun t =>
      (param → Completes s1 t b.slice h 0x010A 0 []) ∧
      (¬param → limit → Completes s1 t b.slice h 0x010C 0 []) ∧
      (¬param → ¬limit → s1.others = [] → Completes { s1 with host := { s1.host with
        queues := s1.host.queues ++ [⟨b.slice, qid, kind, pair, depth, 0, []⟩] } } t b.slice h 0 0 [])) ∧
  (∀ (h : CmdHdr) (s s1 : State) (b : Binding), s.paused = false → Starts s h 0x0003 anyRole s1 b →
    Answers (.queueDelete h 0) s fun t => Completes s1 t b.slice h 0x010A 0 []) ∧
  (∀ (h : CmdHdr) (qid : Nat) (q : Queue) (s s1 : State) (b : Binding), s.paused = false → Starts s h 0x0003 anyRole s1 b → qid ≠ 0 →
    s1.queueOf b.slice qid = some q →
    let busy := q.outstanding ≠ [] ∨ (∃ i ∈ s1.items, i.slice = b.slice ∧ i.iq = qid ∧ i.sent = false) ∨
      (q.kind = 4 ∧ ∃ r ∈ s1.runs, r.slice = b.slice ∧ ∃ c, s1.ctxOf r.ctx = some c ∧ ∃ x ∈ c.image.resultOuts, x.2 = qid) ∨
      ∃ r ∈ s1.host.queues, r.slice = b.slice ∧ r.qid ≠ 0 ∧ r.pair = qid ∧ (r.kind = 0 ∨ r.kind = 2)
    Answers (.queueDelete h qid) s fun t =>
      (busy → Completes s1 t b.slice h 0x010B 0 []) ∧
      (¬busy → s1.others = [] → Completes { s1 with host := { s1.host with
        queues := s1.host.queues.filter fun r => !(r.slice == b.slice && r.qid == qid) } } t b.slice h 0 0 [])) ∧
  (∀ (h : CmdHdr) (ctx count : Nat) (data : List Byte) (c : Context) (x : Nat × Nat) (s s1 : State) (b : Binding),
    Starts s h 0x0022 tenantRole s1 b → s1.ownCtx b.slice ctx = some c → c.image.cls = 2 → data.length = 18 * count →
    x ∈ c.image.resultOuts → (∀ q ∈ s1.host.queues, q.slice = b.slice → q.qid = x.2 → q.kind ≠ 4) →
      Answers (.contextRun h ctx count data) s fun t => Completes s1 t b.slice h 0x0106 0 [])

/-! ### The answer arbiter (R20-R23, R36-R39, R43, R50, R370) -/

/-- R36: a result that arrives by its deadline, with no answer released and no replica to wait for, gets the present tick as
its arbiter tick. R20-R23, R39, R50, R370: the acknowledgements of an item.
R43: an item whose firing ended by a fault before its answer replays from its ingress copy when SERVICE still fits, and
has the cause FAULT otherwise. -/
def Obligations.ResultsAcknowledgementsAndReplays : Prop :=
  ((∀ (seq : Nat) (i : Item) (s : State), s.itemOf seq = some i → i.verdict.isSome = true → i.verdictTick = none →
     i.answer = none → s.offerWaits i = false → s.now ≤ i.deadline → Answers (.arbiterResultArrival seq) s fun t =>
       t = s.updItem seq fun i => { i with verdictTick := some s.now }) ∧
   (∀ (seq : Nat) (i : Item) (a : Answer) (s : State), s.itemOf seq = some i → i.answer = some a → i.cause ≠ 0 →
     Answers (.firingEndConfirm seq) s fun t =>
       t = ((s.endFirings (.item seq)).updItem seq fun i => { i with ended := true }).retire seq) ∧
   (∀ (seq : Nat) (i : Item) (s : State), s.itemOf seq = some i → i.putStage = 1 → Answers (.statePutAck seq) s fun t =>
     let s1 := s.updItem seq fun i => { i with putStage := 2 }
     t = (if i.answer.isSome ∧ i.cause = 0 then
           { s1 with flowState := putFlowState i.slice i.putSpace i.flowKey i.putArea s1.flowState } else s1).retire seq) ∧
   (∀ (seq : Nat) (i : Item) (s : State), s.itemOf seq = some i → s.replicated i = true → i.putStage = 1 ∨ i.putStage = 2 →
     Answers (.replicaStateAck seq) s fun t => t = (s.updItem seq fun i => { i with replicaAcked := true }).retire seq) ∧
   (∀ (seq : Nat) (i : Item) (s : State), s.itemOf seq = some i → s.group.grouped = true → i.answer.isSome = true →
     Answers (.answerMirrorAck seq) s fun t => t = s.updItem seq fun i => { i with mirrored := true }) ∧
   (∀ (seq : Nat) (s : State), Answers (.inputHashReady seq) s fun t =>
     t = s.updItem seq fun i => { i with hashReady := true })) ∧
  (∀ (seq : Nat) (i : Item) (c : Context) (s : State), s.itemOf seq = some i → s.ctxOf i.ctx = some c → i.faulted = true →
     i.answer = none → i.cause = 0 →
     Answers (.itemReplay seq) s fun t =>
       (i.deadline < s.now + c.image.bounds.service →
         t = s.updItem seq fun i => { i with faulted := false, cause := 4 }) ∧
       (s.now + c.image.bounds.service ≤ i.deadline → i.stage = .inService →
         ∃ j, t.itemOf seq = some j ∧ j.replays = i.replays + 1 ∧ j.faulted = false ∧ j.answer = none ∧ j.verdict = none ∧
           j.record = i.record ∧ j.deadline = i.deadline) ∧
       (s.now + c.image.bounds.service ≤ i.deadline → i.stage ≠ .inService →
         t = s.updItem seq fun i => { i with faulted := false }))

/-- R37: an arbiter tick handles the parity errors met and drops the items a slice reset discarded, then releases every result due at it, and only then every fallback
due; after it no unanswered item of its slice's generation has a decided cause or has reached its deadline. -/
def Obligations.ArbiterTickReleasesResultsThenFallbacks : Prop :=
  ∀ (parity : List ParityObs) (s : State), s.power.frozen = false → s.group.minority = false →
    Answers (.arbiterTick parity) s fun t =>
      (let s1 := (parity.foldl State.tableParity s).dropDiscarded
       let s2 := (s1.seqsOf s1.resultDue).foldl State.releaseResult s1
       t = (s2.seqsOf s2.fallbackDue).foldl (fun u q => (u.shedHeld q).releaseFallback q) s2) ∧
      ∀ i ∈ t.items, t.unanswered i = true → i.cause = 0 ∧ t.now < i.deadline
/-! ### Items on their way into the graph (R18, R19, R167, R171, R456) -/

/-- R456, R19, R171, R167: an accepted item capsule takes its records in order; a held item takes the entry that has become
free; the item chosen enters service with its Mortar entries and its flow lock; the firing chosen starts on a free stone;
MAP makes a firing ready. -/
def Obligations.ItemsEnterServiceAndFire : Prop :=
  (∀ (h : CmdHdr) (port : Nat) (param data : List Byte) (b : Binding) (q : Queue) (rs : List ItemRec) (s : State),
    s.power.frozen = false → s.itemChecks h param = .ok (b, q) → (s.sliceOf b.slice).state = 1 →
    itemRecords h param data = .ok rs →
    (∀ a ∈ s.host.accepted, a.is b.slice h 0x0080 = false) →
      Answers (.itemSubmit h port param data) s fun t =>
        let s1 := s.bump 0x1120 1 [] b.slice
        t = rs.foldl (State.takeRecord b.slice h.gen h.qid port q.pair)
          { s1 with host := { s1.host with queues := putQueue { q with accepted := q.accepted + 1 } s1.host.queues } }) ∧
  (∀ (seq : Nat) (i : Item) (s : State), s.itemOf seq = some i → i.answer = none → i.gen = s.genOf i.slice → i.cause = 0 →
    i.stage = .heldFlow ∨ (i.stage = .heldAnswer ∧ s.entryFree i.slice i.ctx i.cls = true) →
    s.flowFree i.slice i.cls i.flowKey = true → Answers (.itemIngressRelease seq) s fun t =>
      t = (s.updItem seq fun i => { i with stage := .queued, bay := s.bucketHome (flowBucket i.flowKey) }).passOn i.slice i.flowKey) ∧
  (∀ (bay : Nat) (i : Item) (c : Context) (s : State), s.bayRuns bay = true → s.chooseLeave bay = some i →
    s.ctxOf i.ctx = some c → c.image.stateGet = none → Answers (.flowQueueLeave bay) s fun t =>
      t = (s.updItem i.seq fun i => { i with
        stage := .inService, bay := bay, mortar := c.image.mEntries, drawn := (s.mortarDraw bay i c).getD none
        lockHeld := true }).passOn i.slice i.flowKey) ∧
  (∀ (bay slot : Nat) (r : Ready) (e : OpEnv) (ts : List Token) (k : Kernel) (s : State), s.stoneFree bay slot = true →
    s.bayRuns bay = true → s.chooseReady bay slot = some r → s.opEnv r.w r.op 0x04 = some e → e.feed false = .toks ts →
    e.image.kernels[r.kernel]? = some k → (∀ t ∈ ts, t.layout.stateLines * 128 ≤ k.scratch * 128) →
      Answers (.firingDispatch bay slot false) s fun t =>
        r ∉ t.mason.ready ∧ ∃ f, (t.coreOf (.stone bay slot)).firing = some f ∧ f.w = r.w ∧ f.op = r.op ∧ f.slice = e.slice ∧
          f.ctx = e.ctx ∧ f.codeLen = k.code.length ∧ f.scratch = k.scratch ∧ f.inputs = ts ∧ f.emitted = [] ∧ f.digests = [] ∧
          (t.coreOf (.stone bay slot)).pc = 0) ∧
  (∀ (w : WorkRef) (op : Nat) (e : OpEnv) (ts : List Token) (s : State), s.opEnv w op 0x04 = some e →
    s.firingKnown w op = false → e.feed false = .toks ts → (∃ t ∈ ts, t.rows ≠ []) → Answers (.map w op) s fun t =>
      t = { s with mason := { s.mason with ready := s.mason.ready ++ [⟨w, op, e.op.par 0⟩] } }) ∧
  (∀ (w : WorkRef) (op : Nat) (e : OpEnv) (ts : List Token) (s : State), s.opEnv w op 0x04 = some e →
    s.firingKnown w op = false → e.feed false = .toks ts → (∀ t ∈ ts, t.rows = []) → Answers (.map w op) s fun t =>
      t = (s.updWork w fun k => k.take op).emit e
        ((List.range e.op.nout).map fun p => (p, { tokenOf (e.out p) [] with batch := (tok0 ts).batch })) (!e.isRun))

/-! ### Operators (R121-R148) -/

/-- Operator `op` of work `w`, of code `code`, finds the tokens `ts` on its inputs in `s`; with their charges taken and
its inputs consumed the state is `s1` (R121, R149). -/
def Sys2Proof.Claims.Fires (s : State) (w : WorkRef) (op code : Nat) (stream always : Bool) (e : OpEnv) (ts : List Token)
    (cost : List (Nat × Nat)) (s1 : State) : Prop :=
  s.opEnv w op code = some e ∧ e.feed stream = .toks ts ∧
    ∃ s0, s.chargeAll w ((ts.head?).bind (·.batch))
        (if ts.all (fun t => t.rows.isEmpty) && !always && !e.isRun then [] else cost) = .ok s0 ∧
      s1 = s0.updWork w fun k => if stream && e.isRun then k.takeAll op else k.take op

/-- What sending tokens on the output ports leaves (R121): the batch is that of the input. -/
def Sys2Proof.Claims.sends (s : State) (e : OpEnv) (ts : List Token) (stream : Bool) (outs : List (Nat × Token)) : State :=
  s.emit e (outs.map fun o => (o.1, { o.2 with batch := (ts.head?).bind (·.batch) })) (!e.isRun || stream)

/-- The rows of the first input. -/
def Sys2Proof.Claims.rowsIn (ts : List Token) : List Row := (tok0 ts).rows

/-- R122-R128: the operators that work row by row. -/
def Obligations.RowOperatorResults : Prop :=
  (∀ (q op : Nat) (e : OpEnv) (i : Item) (s : State), s.opEnv (.item q) op 0x01 = some e → s.itemOf q = some i →
    Answers (.itemIn (.item q) op) s fun t =>
      t = s.emit e [(0, tokenOf (e.out 0) [{ itemRow i.itemId i.arrival i.deadline i.record.length with record := i.record }])] true) ∧
  (∀ (n op k bay : Nat) (e : OpEnv) (r : Run) (d : List Byte) (s : State), s.opEnv (.run n) op 0x01 = some e →
    s.runOf n = some r → k = tgetD op 0 r.scanAt → r.batches[k]? = some d → s.batchBay e.slice e.image.mEntries = some bay →
      Answers (.itemIn (.run n) op) s fun t =>
        t = (s.updRun n fun r => { r with
            scanAt := tset op (k + 1) r.scanAt
            granted := if r.granted.any fun x => x.1 == k then r.granted else r.granted ++ [(k, bay)] }).emit e
          [(0, { tokenOf (e.out 0) [if e.op.par 0 / 1024 = 1 then batchRow k d
            else { itemRow k r.start 0 d.length with record := d }] with batch := some k })] false) ∧
  (∀ (n op : Nat) (e : OpEnv) (r : Run) (tb : Table) (s : State), s.opEnv (.run n) op 0x02 = some e → s.runOf n = some r →
    (r.scans.find? fun t => t.id == e.op.par2 0) = some tb →
    (s.tables.any fun t => t.slice == e.slice && t.id == e.op.par2 0 && t.cols == tb.cols) = true →
    (nth tb.columns (nth (e.op.pars 6 (e.op.par 4)) 0 0) []).length ≤ tgetD op 0 r.scanAt →
      Answers (.scan (.run n) op) s fun t => t = s.emit e [] true) ∧
  (∀ (n op k : Nat) (e : OpEnv) (r : Run) (tb : Table) (rows out : List Row) (lines : Nat) (s s1 : State),
    s.opEnv (.run n) op 0x02 = some e → s.runOf n = some r → (r.scans.find? fun t => t.id == e.op.par2 0) = some tb →
    (s.tables.any fun t => t.slice == e.slice && t.id == e.op.par2 0 && t.cols == tb.cols) = true → k = tgetD op 0 r.scanAt →
    k < (nth tb.columns (nth (e.op.pars 6 (e.op.par 4)) 0 0) []).length →
    s.scanTier e.slice (e.op.par2 0) (e.op.pars 6 (e.op.par 4)) k < 2 →
    scanRange s tb (e.op.pars 6 (e.op.par 4)) k = .ok (rows, lines) →
    s.chargeAll (.run n) none [(2, 20 + (2 * e.op.par 4 + 6 * e.op.par 5) * ceilDiv rows.length 64), (4, lines)] = .ok s1 →
    filterRows e.image (e.out 0).types (termsOf (e.op.par 5) (e.op.params.drop (6 + evenUp (e.op.par 4)))) rows = .ok out →
      Answers (.scan (.run n) op) s fun t =>
        t = ((s1.heatUp e.slice (e.op.par2 0) (e.op.pars 6 (e.op.par 4)) k).updRun n fun r =>
          { r with scanAt := tset op (k + 1) r.scanAt }).emit e [(0, tokenOf (e.out 0) out)] false) ∧
  (∀ (w : WorkRef) (op : Nat) (e : OpEnv) (ts : List Token) (rows : List Row) (s s1 : State),
    Claims.Fires s w op 0x03 false false e ts (termCost (e.op.par 0) (rows0 ts)) s1 →
    filterRows e.image (e.types 0) (termsOf (e.op.par 0) (e.op.params.drop 2)) (Claims.rowsIn ts) = .ok rows →
      Answers (.filter w op) s fun t => t = Claims.sends s1 e ts false [(0, (tok0 ts).with_ rows)]) ∧
  (∀ (w : WorkRef) (op : Nat) (e : OpEnv) (ts : List Token) (ps : List Nat) (s s1 : State),
    Claims.Fires s w op 0x13 false false e ts (termCost (e.op.nout - 1) (rows0 ts)) s1 →
    exceptAll ((Claims.rowsIn ts).map (routeOf e.image (e.types 0) (termsOf (e.op.nout - 1) (e.op.params.drop 2)))) = .ok ps →
      Answers (.route w op) s fun t => t = Claims.sends s1 e ts false ((List.range e.op.nout).map fun p =>
        (p, (tok0 ts).with_ ((((Claims.rowsIn ts).zip ps).filter fun x => x.2 == p).map (·.1))))) ∧
  (∀ (q op : Nat) (e : OpEnv) (ts : List Token) (s s1 : State), Claims.Fires s (.item q) op 0x12 false false e ts [] s1 →
    Answers (.union (.item q) op) s fun t => t = Claims.sends s1 e ts false
      [(0, ((ts.find? fun x => !x.rows.isEmpty).getD (tok0 ts)).with_ (ts.flatMap (·.rows)))]) ∧
  (∀ (n op p : Nat) (e : OpEnv) (tk : Token) (rest : List Token) (s : State), s.opEnv (.run n) op 0x12 = some e →
    p < e.op.nin → (e.work.at_ op p).toks = tk :: rest →
    (∀ p' < p, (e.work.at_ op p').ended = true ∧ (e.work.at_ op p').toks = []) → Answers (.union (.run n) op) s fun t =>
      t = (s.updWork (.run n) fun k => k.updPort op p fun x => { x with toks := rest }).emit e [(0, tk)] false) ∧
  (∀ (w : WorkRef) (op : Nat) (e : OpEnv) (ts : List Token) (tm : Template) (ds : List Decoded) (s s1 : State),
    Claims.Fires ((s.noteDecode w op).noteQuarry w op) w op 0x05 false false e ts [] s1 → e.image.templates[e.op.par 0]? = some tm →
    exceptAll ((Claims.rowsIn ts).map (decodeRow e tm)) = .ok ds →
    e.isRun = true ∨ (∀ d ∈ ds, d.reject = none) → Answers (.decode w op) s fun t =>
      let rows := (ds.filter fun d => d.reject.isNone).map (·.row)
      t = Claims.sends (s1.overflow e.ctx (rows.any (·.ovf))) e ts false [(0, tokenOf (e.out 0) rows),
        (1, tokenOf (e.out 1) ((ds.filterMap (·.reject)).map fun j =>
          rowOf [natCrs 1 j.cause, natCrs 1 j.field, natCrs 2 j.offset]))]) ∧
  (∀ (w : WorkRef) (op : Nat) (e : OpEnv) (ts : List Token) (tm : Template) (rows : List Row) (s s1 : State),
    Claims.Fires s w op 0x06 false false e ts [] s1 → e.image.templates[e.op.par 0]? = some tm →
    exceptAll ((Claims.rowsIn ts).map fun r => (quarryEncode tm r).map fun bs =>
      { rowOf [bytesCourses 4095 bs] with ovf := r.ovf }) = .ok rows →
      Answers (.encode w op) s fun t => t = Claims.sends s1 e ts false (e.outRows rows))

/-- R132-R140: the operators that take a whole stream, join or aggregate. -/
def Obligations.StreamOperatorResults : Prop :=
  (∀ (w : WorkRef) (op : Nat) (e : OpEnv) (ts : List Token) (s s1 : State),
    Claims.Fires s w op 0x09 true true e ts
      [(2, 30 + 12 * rows0 ts), (4, rows0 ts * e.op.par 4)] s1 →
    let ks := keyFields (e.op.par 0) (e.op.par 1)
    let rows := (Claims.rowsIn ts).filter fun r => !((r.getAll ks).contains none)
    let tab : HashTab := { slice := e.slice, id := e.op.par2 2, rows := rows, layout := e.types 0, keyField := e.op.par 0
                           keyCount := e.op.par 1, chain := e.op.par 4 }
    checkKeys (e.types 0) ks rows = .ok () →
    s1.hbmFits e.slice (rows.length * imageSize (e.types 0) * (if s1.hashBound tab then 2 else 1)) = true →
    chainOf (rows.map (keyHash (e.types 0) ks)) (imageSize (e.types 0)) ≤ e.op.par 4 → s1.buildFault tab = none →
      Answers (.hashBuild w op) s fun t =>
        let s2 := match w with
          | .run n => if e.op.par2 2 = 0 then s1 else s1.updRun n fun r => { r with publishes := r.publishes ++ [tab] }
          | .item _ => s1
        t = Claims.sends s2 e ts true [(0, { tokenOf (e.out 0) [rowOf [natCrs 5 rows.length]] with build := rows })]) ∧
  (∀ (q op : Nat) (e : OpEnv) (ts : List Token) (outs : List (Nat × Token)) (s s1 s2 : State),
    Claims.Fires s (.item q) op 0x0A false false e ts [] s1 →
    s1.probe e none (Claims.rowsIn ts) (s1.buildRows e []) = .ok (s2, outs) →
      Answers (.hashProbe (.item q) op) s fun t => t = Claims.sends s2 e ts false outs) ∧
  (∀ (n op : Nat) (e : OpEnv) (tk : Token) (rest : List Token) (outs : List (Nat × Token)) (s s1 : State),
    s.opEnv (.run n) op 0x0A = some e → e.op.par2 2 ≠ 0 ∨ (e.work.at_ op 1).ended = true →
    (e.work.at_ op 0).toks = tk :: rest →
    (s.updWork (.run n) fun k => k.updPort op 0 fun x => { x with toks := rest }).probe e tk.batch tk.rows
      (s.buildRows e ((e.work.at_ op 1).toks.flatMap (·.build))) = .ok (s1, outs) →
      Answers (.hashProbe (.run n) op) s fun t =>
        t = s1.emit e (outs.map fun o => (o.1, { o.2 with batch := tk.batch })) false) ∧
  (∀ (w : WorkRef) (op : Nat) (e : OpEnv) (ts : List Token) (out : List Row) (s s1 s2 : State),
    Claims.Fires s w op 0x0B true false e ts [] s1 →
    let ls := (nth ts 0 (tokenOf (.fields []) [])).rows
    let rs := (nth ts 1 (tokenOf (.fields []) [])).rows
    mergeJoin (e.types 0) (e.types 1) (keyFields (e.op.par 0) (e.op.par 2)) (keyFields (e.op.par 1) (e.op.par 2))
      (e.op.par 3) ls rs = .ok out →
    s1.chargeAll w none [(2, 30 + 12 * (ls.length + rs.length) + 8 * out.length)] = .ok s2 →
      Answers (.mergeJoin w op) s fun t => t = Claims.sends s2 e ts true (e.outRows out)) ∧
  (∀ (w : WorkRef) (op : Nat) (e : OpEnv) (ts : List Token) (out : List Row) (s s1 : State),
    Claims.Fires s w op 0x0C true false e ts
      [(2, 40 + 12 * rows0 ts * log2Up (rows0 ts)), (4, 2 * ceilDiv (rows0 ts * e.width) 128)] s1 →
    s1.hbmFits e.slice (rows0 ts * e.width) = true → sortRows (e.types 0) e.op.sortKeys (Claims.rowsIn ts) = .ok out →
      Answers (.sort w op) s fun t => t = Claims.sends s1 e ts true (e.outRows out)) ∧
  (∀ (w : WorkRef) (op : Nat) (e : OpEnv) (ts : List Token) (out : List Row) (s s1 : State),
    Claims.Fires s w op 0x0D true false e ts [(2, 40 + 12 * rows0 ts)] s1 →
    sortRows (e.types 0) e.op.sortKeys (Claims.rowsIn ts) = .ok out →
      Answers (.topK w op) s fun t => t = Claims.sends s1 e ts true [(0, (tok0 ts).with_ (out.take (e.op.par 1)))]) ∧
  (∀ (w : WorkRef) (op : Nat) (e : OpEnv) (ts : List Token) (out : List Row) (s s1 : State),
    Claims.Fires s w op 0x0E true (e.op.par 0 == 0) e ts [(2, 40 + rows0 ts * (8 + 4 * e.op.par 1))] s1 →
    groupRows (e.types 0) (e.op.pars 2 (e.op.par 0)) e.op.aggs (Claims.rowsIn ts) = .ok out →
    (e.isRun = true → s1.hbmFits e.slice (out.length * (e.out 0).imageSize) = true) →
      Answers (.groupAgg w op) s fun t =>
        t = Claims.sends (s1.overflow e.ctx (out.any (·.ovf))) e ts true (e.outRows out)) ∧
  (∀ (q op : Nat) (e : OpEnv) (ts : List Token) (i : Item) (out : List Row) (slots : List Int) (sat : Bool) (s s1 : State),
    Claims.Fires s (.item q) op 0x0F false false e ts [(2, 60 + e.op.par 3 + 8 * rows0 ts),
      (4, 2 * ceilDiv (5 + e.op.par 3 * slotSize (e.op.par 4)) 128)] s1 → s1.itemOf q = some i → Claims.rowsIn ts ≠ [] →
    let nb := e.op.par 3
    let fn := e.op.par 4
    let ty := if fn = 0 then tUint 8 else nth (e.types 0) (e.op.par 5) tCode
    let kind := if fn = 0 then 1 else ty.kind
    let win := winOf fn kind nb (s1.windowOf e.slice (e.op.par 6) i.flowKey)
    let width := crsNat (e.op.params.take 3) / nb
    let tick := max i.arrival (win.last.getD 0)
    winRows fn ty (e.op.par 5) (tick / width) nb (winAdvance width nb (tick / width) win) (Claims.rowsIn ts) []
      (winAdvance width nb (tick / width) win) = .ok (out, slots, sat) →
      Answers (.windowAgg (.item q) op) s fun t =>
        let put := (e.op.par 6, winCourses fn kind tick slots)
        let s2 := if i.answer.isSome then s1.commitWindows { i with windowPuts := [put] }
          else s1.updItem q fun i => { i with windowPuts := i.windowPuts ++ [put] }
        t = Claims.sends (s2.overflow e.ctx sat) e ts false [(0, tokenOf (e.out 0) out)])

/-- R141-R148: what reads and writes a flow's state, and the sinks, complete: the read of the flow's state is kept with the
item; STATE_GET sends it; STATE_PUT keeps the new area to be written through, and in a group sends it to the replica;
VERDICT_OUT keeps the answer; RESULT_OUT queues one capsule of rows; LEDGER_APPEND keeps the extension; TABLE_APPEND keeps
rows for the answer or the end of the run, and rows of an answered item join its turn. -/
def Obligations.StateAndSinkOperatorResults : Prop :=
  (∀ (seq : Nat) (i : Item) (c : Context) (o : Operator) (s : State), s.itemOf seq = some i → s.ctxOf i.ctx = some c →
    c.image.stateGet = some o → s.itemLive i = true → i.stateReadDone = false →
      let f := s.flowState.find? fun f => f.slice == i.slice && f.space == o.par 1 && f.key == i.flowKey
      exec (.stateGetReadDone seq) s = .next (s.updItem seq fun i => { i with
        stateReadDone := true, stateNew := f.isNone, stateRead := fitList (o.par 0 * 128) 0 ((f.map (·.area)).getD []) })) ∧
  (∀ (q op : Nat) (e : OpEnv) (ts : List Token) (i : Item) (s s1 : State), s.itemOf q = some i → i.stateReadDone = true →
    Claims.Fires s (.item q) op 0x10 false true e ts [] s1 →
      exec (.stateGet (.item q) op) s = .next (Claims.sends s1 e ts false
        [(0, { tokenOf (e.out 0) [rowOf [natCrs 1 (if i.stateNew then 1 else 0), natCrs 2 0]] with area := i.stateRead })])) ∧
  (∀ (q op : Nat) (e : OpEnv) (ts : List Token) (i : Item) (s s1 : State),
    Claims.Fires s (.item q) op 0x11 false true e ts (if rows0 ts = 0 then [] else [(4, e.op.par 0)]) s1 →
    s1.itemOf q = some i → rows0 ts ≠ 0 →
    (∃ f ∈ s1.flowState, f.slice = i.slice ∧ f.space = e.op.par 1 ∧ f.key = i.flowKey) ∨
      s1.hbmFits e.slice (2 * (e.op.par 0 * 128)) = true →
      let area := fitList (e.op.par 0 * 128) 0 (tok0 ts).area
      let s2 := s1.updItem q fun i => { i with putStage := 1, putArea := area, putSpace := e.op.par 1 }
      let s3 := if s2.replicated i then s2.tellReplica i.flowKey (.put q (e.op.par 1) area) else s2
      exec (.statePut (.item q) op) s = .next ((Claims.sends s3 e ts false []).retire q)) ∧
  (∀ (q op : Nat) (e : OpEnv) (ts : List Token) (a : List Course) (s s1 : State),
    Claims.Fires s (.item q) op 0x15 false true e ts [(6, 128)] s1 → verdictOf e (tok0 ts) = .ok a →
      exec (.verdictOut (.item q) op) s =
        .next (Claims.sends (s1.updItem q fun i => { i with verdict := some a }) e ts false [])) ∧
  (∀ (n op : Nat) (e : OpEnv) (ts : List Token) (r : Run) (s s1 : State), Claims.Fires s (.run n) op 0x16 false false e ts [] s1 →
    s1.runOf n = some r → Claims.rowsIn ts ≠ [] →
      let s2 := s1.updRun n fun r => { r with outSeq := r.outSeq + 1, outRows := r.outRows + (Claims.rowsIn ts).length }
      exec (.resultOut (.run n) op) s = .next (Claims.sends { s2 with host := { s2.host with results := s2.host.results ++
        [{ last := false, rq := e.op.par 0, slice := e.slice, ctx := e.ctx, gen := r.gen, run := n, seq := r.outSeq
           rows := (Claims.rowsIn ts).map fun x => (tok0 ts).layout.image x, rowCourses := (tok0 ts).layout.imageSize
           status := 0, total := 0, tx := false }] } } e ts false [])) ∧
  (∀ (q op : Nat) (e : OpEnv) (ts : List Token) (r : Row) (s s1 : State),
    Claims.Fires s (.item q) op 0x17 false false e ts [(6, ceilDiv (3 * e.op.par 0) 2)] s1 → Claims.rowsIn ts = [r] →
      let cs := (List.range r.fields.length).flatMap fun k =>
        (r.get k).getD (List.replicate (nth (tok0 ts).layout.types k tCode).size 0)
      exec (.ledgerAppend (.item q) op) s = .next ((Claims.sends (s1.updItem q fun i => if i.answer.isSome then i else { i with
        extension := fitList (e.op.par 0) 0 cs }) e ts false []).retire q)) ∧
  (∀ (w : WorkRef) (op : Nat) (e : OpEnv) (ts : List Token) (s s1 : State),
    Claims.Fires s w op 0x18 false false e ts [(4, 1 + ceilDiv (rows0 ts * e.width) 128)] s1 → Claims.rowsIn ts ≠ [] →
    (s1.tables.any fun x => x.slice == e.slice && x.id == e.op.par2 0 && x.cols == e.types 0) = true →
    rowsFault (e.types 0) (Claims.rowsIn ts) = none →
      (∀ n, w = .run n → exec (.tableAppend w op) s = .next (Claims.sends (s1.updRun n fun r => { r with
        appends := r.appends ++ [(e.op.par2 0, Claims.rowsIn ts)] }) e ts false [])) ∧
      (∀ q i, w = .item q → s1.itemOf q = some i → i.answer = none →
        exec (.tableAppend w op) s = .next ((Claims.sends (s1.updItem q fun i => { i with
          appends := i.appends ++ [(e.op.par2 0, Claims.rowsIn ts)] }) e ts false []).settleAppends.retire q)) ∧
      (∀ q i, w = .item q → s1.itemOf q = some i → i.answer.isSome = true →
        exec (.tableAppend w op) s = .next ((Claims.sends (s1.joinTurn q (e.op.par2 0) (Claims.rowsIn ts)) e ts false
          []).settleAppends.retire q)))

/-- R130, R131, R144: a Keystone operator whose input has come completes by issuing one search for each row whose key
fields are all present, and DIGEST by queuing one message for each row whose message fields are present; the rows are held
until the answers have come, and a token of zero rows goes on as R115 says.
R208: a firing at its cycle bound is cut off. -/
def Obligations.UnitOperatorsIssueTheirRequests : Prop :=
  (∀ e' ∈ ([(.keyLookup, 0x07), (.keyJoin, 0x08)] : List ((WorkRef → Nat → Instr) × Nat)),
    ∀ (w : WorkRef) (op : Nat) (e : OpEnv) (ts : List Token) (d : KsDecl) (s s1 : State), s.opEnv w op e'.2 = some e →
      e.work.heldRows op = none → e.feed false = .toks ts → e.image.decls.find? (fun d => d.loc == e.op.par 0) = some d →
      let keys := (Claims.rowsIn ts).map fun r =>
        let vs := r.getAll (keyRun (e.types 0) 9 (e.op.par 1) d.key)
        if vs.contains none then none else some (vs.flatMap fun v => v.getD [])
      s.chargeAll w (tok0 ts).batch [(3, (keys.filterMap id).length)] = .ok s1 →
      let s2 := (s1.askFrom w).1.updWork w fun k => { k with
        held := tset op ((Claims.rowsIn ts).map fun _ => keyResultRow false 0 []) k.held }
      exec (e'.1 w op) s = .next (((List.range keys.length).foldl (fun (u : State) i => match nth keys i none with
        | some key => u.ksIssue
            { id := 0, slice := e.slice, table := d.table, key := key, bay := (s1.askFrom w).2, core := none, w := some (w, op, i)
              since := 0, bank := none }
        | none => u) s2).keyFinish w op e'.2)) ∧
  (∀ (w : WorkRef) (op : Nat) (e : OpEnv) (ts : List Token) (s : State), s.opEnv w op 0x14 = some e → e.isRun = false →
    e.work.heldRows op = none → e.feed false = .toks ts → Claims.rowsIn ts = [] →
      exec (.digest w op) s = .next ((s.updWork w fun k => k.take op).emit e [(0, tokenOf (e.out 0) [])] true)) ∧
  (∀ (w : WorkRef) (op : Nat) (e : OpEnv) (ts : List Token) (key : List Byte) (ms : List (Option (List Byte))) (s s1 : State),
    s.opEnv w op 0x14 = some e → e.work.heldRows op = none → e.feed false = .toks ts → Claims.rowsIn ts ≠ [] ∨ e.isRun = true →
    s.keyFor e.slice (e.op.par 1) (e.op.par 0 / 256) = some key →
    exceptAll ((Claims.rowsIn ts).map (rowMessage (e.types 0) e.op.digestFields)) = .ok ms → tagFault e (Claims.rowsIn ts) = none →
    s.chargeAll w (tok0 ts).batch [(2, 20 + 4 * (Claims.rowsIn ts).length), (5, sumNat ((ms.filterMap id).map fun m =>
      if e.image.hasDgSub then digestCharge m.length
      else sumNat (e.op.digestFields.map fun k => fieldMax (nth (e.types 0) k tCode))))] = .ok s1 →
      let alg := e.op.par 0 / 256
      let tags := ms.map fun m => match m with
        | some x => rowOf [bytesCourses 64 (tagOf alg key x (e.op.par 2))]
        | none => ({ fields := [[]], valid := [false], ovf := false } : Row)
      let s2 := (s1.askFrom w).1.updWork w fun k => { k with held := tset op tags k.held }
      let lens := fun (i : Nat) => e.op.digestFields.map fun k => (((((Claims.rowsIn ts)[i]?).bind fun r => r.get k).bind
        fun cs => (fieldBytes (nth (e.types 0) k tCode) cs).toOption).getD []).length
      exec (.digest w op) s = .next (((List.range ms.length).foldl (fun (u : State) i => match nth ms i none with
        | some m => u.dgQueue (s1.askFrom w).2
            { id := 0, cls := ((s1.askFrom w).1.workClass w).1, deadline := ((s1.askFrom w).1.workClass w).2, requested := u.now
              slice := e.slice, ctx := e.ctx, alg := alg, key := key, msg := m, tagLen := e.op.par 2
              blocks := digestBlocks alg m.length, done := 0, sinceStart := 0, hasRecord := false, core := none, w := some (w, op, i)
              keySlot := s2.deviceSlot e.slice (e.op.par 1) alg, desc := s2.freeBits 24, frags := lens i }
        | none => u) s2.advanceFree).digestFinish w op)) ∧
  (∀ (u : CoreId) (f : Firing) (s : State), (s.coreOf u).firing = some f →
    f.cycleBound ≤ (if f.predict then 80 * (s.now - f.start) + 80 else (s.coreOf u).sched.next) →
      exec (.cycleBoundCutoff u) s = .next (s.coreFault u 0x0381 f.boundDetail none))
/-! ### The Keystone store (R258-R276) -/

/-- R259, R264, R265, R268, R269: a Keystone table is created empty in its copies, dropped, updated through its queue, and
read as one committed state; an insert, a delete and a load wait for their commit, an insert or a delete behind a full queue
for room in it. In a group the command goes on to the other members (`State.fanOut`; assumption 99: DESIGN CHOICE). -/
def Obligations.KeystoneCommandsComplete : Prop :=
  (∀ (h : CmdHdr) (id mode key cap copies : Nat) (held : List KsCopy) (param : List Byte) (s s1 : State) (b : Binding),
    s.paused = false → Starts s h 0x0030 tenantRole s1 b → 0 < id → id < 2 ^ 24 → mode ≤ 2 → 0 < key →
    key ≤ (if mode = 2 then 4 else 8) → 0 < cap → cap ≤ 32768 → 1 ≤ copies → copies ≤ 2 → s1.ksTab b.slice id = none →
    s1.ksSliceUsed b.slice + cap * copies ≤ s1.objNum (0x4000 + b.slice) 5 [] 0 0 → s1.ksPlace cap copies = some held →
    param = packBytes (natCrs 2 id ++ natCrs 1 (mode * 1024 + key) ++ natCrs 2 cap ++ natCrs 1 copies ++ natCrs 2 0) →
      exec (.ksCreate h param) s = .next (State.fanOut s1 (.ksCreate h param) h 0x0030 b (({ s1 with ks := { s1.ks with
        tables := s1.ks.tables ++ [
          { slice := b.slice, id := id, mode := mode, key := key, capacity := cap, copies := copies,
            committed := [], image := [], journal := [], held := held, queue := [], started := false,
            committedHead := false }] } } : State).finish b.slice h 0 0 []))) ∧
  (∀ (h : CmdHdr) (table : Nat) (k : KsTab) (s s1 : State) (b : Binding), s.paused = false →
    Starts s h 0x0031 tenantRole s1 b → s1.ksTab b.slice table = some k → k.queue = [] → s1.ksBound b.slice table = false →
    (∀ w ∈ s1.host.waiting, ∀ h' sl id, w ≠ .ksDrop h' sl id) →
      exec (.ksDrop h table) s = .next (State.fanOut s1 (.ksDrop h table) h 0x0031 b (({ s1 with ks := { s1.ks with
        tables := s1.ks.tables.filter fun x => !(x.slice == b.slice && x.id == table) } } : State).finish b.slice h 0 0 []))) ∧
  (∀ (h : CmdHdr) (table position : Nat) (im : List Course) (k : KsTab) (s s1 : State) (b : Binding), s.paused = false →
    Starts s h 0x0032 tenantRole s1 b → s1.ksTab b.slice table = some k → im.length = ksImageLen k.mode k.key →
    ksImageOk k.mode k.key im = true →
      let i : Instr := .ksInsert h table position (packBytes im)
      exec i s = .next (State.fanOut s1 i h 0x0032 b
        (if (k.queue.filter fun x => x.kind != 2).length < 16 then
          let s2 := s1.updKs b.slice table fun x => { x with queue := x.queue ++ [⟨0, position, [im], s1.ks.nextId, true, 0, none⟩] }
          { s2 with
            ks := { s2.ks with nextId := s1.ks.nextId + 1 }
            host := { s1.host with waiting := s1.host.waiting ++ [.ksUpdate h b.slice table s1.ks.nextId] } }
        else { s1 with host := { s1.host with waiting := s1.host.waiting ++ [.ksEnter h b.slice table 0 position [im]] } }))) ∧
  (∀ (h : CmdHdr) (table position : Nat) (k : KsTab) (s s1 : State) (b : Binding), s.paused = false →
    Starts s h 0x0033 tenantRole s1 b → s1.ksTab b.slice table = some k →
      let i : Instr := .ksDelete h table position
      exec i s = .next (State.fanOut s1 i h 0x0033 b
        (if (k.queue.filter fun x => x.kind != 2).length < 16 then
          let s2 := s1.updKs b.slice table fun x => { x with queue := x.queue ++ [⟨1, position, [], s1.ks.nextId, true, 0, none⟩] }
          { s2 with
            ks := { s2.ks with nextId := s1.ks.nextId + 1 }
            host := { s1.host with waiting := s1.host.waiting ++ [.ksUpdate h b.slice table s1.ks.nextId] } }
        else { s1 with host := { s1.host with waiting := s1.host.waiting ++ [.ksEnter h b.slice table 1 position []] } }))) ∧
  (∀ (h : CmdHdr) (table count : Nat) (entries : List Byte) (k : KsTab) (s s1 : State) (b : Binding), s.paused = false →
    Starts s h 0x0034 tenantRole s1 b → s1.ksTab b.slice table = some k → count ≤ k.capacity →
    let n := ksImageLen k.mode k.key
    let ims := (List.range count).map fun i => slice (unpackBytes entries) (i * n) n
    entries.length = ceilDiv (count * n) 2 * 3 → ims.all (ksImageOk k.mode k.key) = true →
    (∀ c ∈ k.held, s1.ksRoom c.bank count = true) →
    s1.ksSliceUsed b.slice + count * k.held.length ≤ s1.objNum (0x4000 + b.slice) 5 [] 0 0 →
      let s2 := s1.updKs b.slice table fun x => { x with queue := x.queue ++ [⟨2, 0, ims, s1.ks.nextId, true, 0, none⟩] }
      exec (.ksLoad h table count entries) s = .next (State.fanOut s1 (.ksLoad h table count entries) h 0x0034 b { s2 with
        ks := { s2.ks with nextId := s1.ks.nextId + 1 }
        host := { s1.host with waiting := s1.host.waiting ++ [.ksLoad h b.slice s1.ks.nextId] } })) ∧
  (∀ (h : CmdHdr) (table first last : Nat) (k : KsTab) (s s1 : State) (b : Binding),
    Starts s h 0x0035 tenantRole s1 b → s1.ksTab b.slice table = some k → first ≤ last →
      exec (.ksRead h table first last) s = .next (s1.finish b.slice h 0 0
        (packBytes (((k.committed.drop first).take (last + 1 - first)).flatMap id))))

/-- R262-R268, R270, R274-R276: what the store does of itself: frames, searches, the head of an update queue, moves,
commits, load switches, rewrites, rebuilds and the journal. -/
def Obligations.KeystoneEventsMoveTables : Prop :=
  (∀ (bay : Nat) (s : State), s.bayLive bay = true → (s.ksBank bay).frameStart + 8 ≤ s.now → Answers (.ksFrameStart bay) s fun t =>
    (t.ksBank bay).frameStart = s.now ∧ (t.ksBank bay).slots = 320 / 2 ^ s.stepOf bay ∧ (t.ksBank bay).used = 0 ∧
      (t.ksBank bay).rebuildUsed = 0 ∧ (t.ksBank bay).sharedUsed = [] ∧ (∀ b, b ≠ bay → t.ksBank b = s.ksBank b) ∧
      t = { s with ks := { s.ks with banks := t.ks.banks } }) ∧
  (∀ (id : Nat) (x : KsSearch) (k : KsTab) (c : KsCopy) (s : State), s.ks.searches.find? (fun x => x.id == id) = some x →
    s.ksTab x.slice x.table = some k → s.ksCopyOf k x = some c → k.holds x = false → s.ksFree c.bank (s.searchReq x) = true →
    s.bayRuns c.bank = true →
      let s1 := s.ksSlot c.bank (s.searchReq x)
      exec (.ksSearchResult id []) s = .next (match k.answerAt c.bank x.key with
        | some (.hit p im) => (s1.bump 0x6100 2 [c.bank] x.slice).ksDeliver x true p (im.drop (im.length - 4))
        | some (.blocked p) => match s1.ksChoose x.bay (k.held.filter fun d => d.bank != c.bank && !(d.bad.contains p)) with
          | some d => s1.ksSend x (some d.bank)
          | none => (s1.bump 0x6100 6 [c.bank] x.slice).ksSend x none
        | _ => (s1.bump 0x6100 2 [c.bank] x.slice).ksDeliver x false 0 [])) ∧
  (∀ (sl id : Nat) (k : KsTab) (u : KsUpd) (us : List KsUpd) (s : State), s.ksTab sl id = some k → k.queue = u :: us →
    k.started = false → k.committedHead = false → u.kind ≠ 2 → k.held ≠ [] → s.ksBehind sl id u = false →
      (k.headCheck u = 0 → exec (.ksUpdateHead sl id) s =
        .next (s.updKs sl id fun x => { x with started := true, journal := x.journal ++ [u] })) ∧
      (k.headCheck u ≠ 0 → u.host = true → exec (.ksUpdateHead sl id) s =
        .next ((s.ksComplete u.id (k.headCheck u)).ksPop sl id))) ∧
  (∀ (sl id bank : Nat) (k : KsTab) (c : KsCopy) (u : KsUpd) (us : List KsUpd) (s : State), s.ksTab sl id = some k →
    k.queue = u :: us → k.held.find? (fun c => c.bank == bank) = some c → k.started = true →
    u.kind = 0 ∨ (u.kind = 1 ∧ k.committedHead = true) → c.moved < k.movesDue u → c.bad = [] →
    s.ksFree bank (.shared sl) = true → exec (.ksMove sl id bank false) s =
      .next ((((s.ksSlot bank (.shared sl)).updKs sl id fun x => x.updCopy bank fun c => { c with moved := c.moved + 1 }).bump
        0x6100 4 [bank] sl).ksSettle sl id)) ∧
  (∀ (sl id : Nat) (k : KsTab) (u : KsUpd) (us : List KsUpd) (s : State), s.ksTab sl id = some k → k.queue = u :: us →
    k.started = true → k.committedHead = false → k.held ≠ [] →
    (∀ c ∈ k.held, s.ksFree c.bank (s.updReq sl u) = true ∧ c.bad = []) →
      let s1 := (k.held.foldl (fun (x : State) c => x.ksSlot c.bank (s.updReq sl u)) s).bump 0x6100 3
        ((k.held.head?.map fun c => [c.bank]).getD []) sl
      (∀ im, u.kind = 0 → u.images = [im] → (∀ c ∈ k.held, k.movesDue u ≤ c.moved) →
        let s2 := (s1.updKs sl id fun x => { x with
          committed := x.committed.take u.pos ++ [im] ++ x.committed.drop u.pos }).ksPop sl id
        exec (.ksCommit sl id) s = .next (if u.host then s2.ksComplete u.id 0 else s2)) ∧
      (u.kind = 1 →
        let s2 := (s1.updKs sl id fun x => { x with
          committed := x.committed.eraseIdx u.pos, committedHead := true }).ksSettle sl id
        exec (.ksCommit sl id) s = .next (if u.host then s2.ksComplete u.id 0 else s2))) ∧
  (∀ (sl id : Nat) (k : KsTab) (u : KsUpd) (us : List KsUpd) (s : State), s.ksTab sl id = some k → k.queue = u :: us →
    u.kind = 2 → k.held ≠ [] → (∀ c ∈ k.held, s.ksFree c.bank (.shared sl) = true) →
      let s1 := (k.held.foldl (fun (x : State) c => x.ksSlot c.bank (.shared sl)) s).bump 0x6100 3
        ((k.held.head?.map fun c => [c.bank]).getD []) sl
      exec (.ksLoadSwitch sl id) s = .next (((s1.updKs sl id fun x => { x with
        committed := u.images, journal := x.journal ++ [u]
        held := x.held.map fun c => { c with bad := [] } }).ksPop sl id).ksComplete u.id 0)) ∧
  (∀ (sl id : Nat) (s : State), s.paused = false → exec (.ksJournalFold sl id) s = .next (s.updKs sl id fun x => { x with
    image := x.shadow, journal := x.journal.drop (x.journal.length - x.unsettled) })) ∧
  (∀ (sl id bank pos : Nat) (k : KsTab) (c : KsCopy) (s : State), s.ksTab sl id = some k →
    k.held.find? (fun c => c.bank == bank) = some c → pos ∈ c.bad → s.ksFree bank .rebuild = true →
    ((s.ksBank bank).errors.filter fun e => e.1 == sl && e.2.1 == id && e.2.2.1 == pos && decide (s.now < e.2.2.2 + 25000000)).length < 3 →
      exec (.ksParityRewrite sl id bank pos) s = .next (((s.updKs sl id fun x => x.updCopy bank fun c => { c with
        bad := c.bad.filter fun p => p != pos }).bump 0x6100 5 [bank] sl).ksSlot bank .rebuild)) ∧
  (∀ (sl id bank : Nat) (k : KsTab) (s : State), s.ksTab sl id = some k → s.ksWanted k bank = true →
    (∀ c ∈ k.held, c.bank ≠ bank) → s.ksRoom bank k.capacity = true →
      exec (.ksCopyRebuild sl id bank) s = .next (s.updKs sl id fun x => { x with held := x.held ++ [x.newCopy bank] }))

/-! ### The digest engine (R358-R368) and Mason (R181, R193, R197) -/

/-- R359, R360, R365-R368: keys are unwrapped into slots, or the delivery fails, and slots are cleared; a free lane takes the first message and counts its
blocks. -/
def Obligations.DigestKeysAndLanes : Prop :=
  (∀ (h : CmdHdr) (slot alg : Nat) (wrapped kek : List Byte) (s s1 : State) (b : Binding),
    s.paused = false → Starts s h 0x0040 tenantRole s1 b → slot < s1.objNum (0x4000 + b.slice) 13 [] 0 0 → 5 ≤ alg → alg ≤ 9 →
    s1.dg.slots.length < 4096 → (s1.sliceOf b.slice).kek = some kek →
      (Config.kwpUnwrap kek wrapped = none →
        exec (.dgKeyLoad h slot alg wrapped) s = .next (s1.finish b.slice h 0x0802 0 [])) ∧
      (∀ key, Config.kwpUnwrap kek wrapped = some key → keyLenOk alg key.length = true →
        exec (.dgKeyLoad h slot alg wrapped) s = .next (State.fanOut s1 (.dgKeyLoad h slot alg wrapped) h 0x0040 b
          (({ s1 with dg := { s1.dg with
            slots := s1.dg.slots.filter (fun k => !(k.slice == b.slice && k.slot == slot)) ++ [⟨b.slice, slot, alg, key⟩] } }
            : State).finish b.slice h 0 0 [])))) ∧
  (∀ (h : CmdHdr) (slot : Nat) (s s1 : State) (b : Binding), s.paused = false → Starts s h 0x0041 tenantRole s1 b →
    slot < s1.objNum (0x4000 + b.slice) 13 [] 0 0 →
      exec (.dgKeyClear h slot) s = .next (State.fanOut s1 (.dgKeyClear h slot) h 0x0041 b (({ s1 with dg := { s1.dg with
        slots := s1.dg.slots.filter fun k => !(k.slice == b.slice && k.slot == slot) } } : State).finish b.slice h 0 0 []))) ∧
  (∀ (bay lane : Nat) (m : DgMsg) (s : State), s.bayRuns bay = true → lane < 4 → (bay, lane) ∉ s.mason.fencedLanes →
    tget (bay, lane) s.dg.lanes = none → s.nextMsg bay = some m → m.restores = true → Answers (.digestLaneStart bay lane) s fun t =>
      tget (bay, lane) t.dg.lanes = some { m with sinceStart := 0, hasRecord := m.cls != 0, saved := [] } ∧
        (∀ x ∈ t.dg.waiting, x.2.id ≠ m.id) ∧ (∀ k, k ≠ (bay, lane) → tget k t.dg.lanes = tget k s.dg.lanes) ∧
        t = { s with dg := { s.dg with waiting := t.dg.waiting, lanes := t.dg.lanes } }) ∧
  (∀ (bay lane : Nat) (m : DgMsg) (s : State), tget (bay, lane) s.dg.lanes = some m → m.blocks ≤ m.done + 1 → m.w = none →
    Answers (.digestBlockDone bay lane) s fun t =>
      t.dg = { s.dg with lanes := tdel (bay, lane) s.dg.lanes } ∧
        t.objNum 0x6340 1 [bay] m.slice 0 = min u64Max (s.objNum 0x6340 1 [bay] m.slice 0 + 1) ∧
        t = { s with dg := t.dg, objs := t.objs }) ∧
  (∀ (bay lane : Nat) (m : DgMsg) (s : State), tget (bay, lane) s.dg.lanes = some m → m.done + 1 < m.blocks → m.cls = 0 →
    Answers (.digestBlockDone bay lane) s fun t =>
      t.dg = { s.dg with lanes := tset (bay, lane) { m with done := m.done + 1, sinceStart := m.sinceStart + 1 } s.dg.lanes } ∧
        t.objNum 0x6340 1 [bay] m.slice 0 = min u64Max (s.objNum 0x6340 1 [bay] m.slice 0 + 1) ∧
        t = { s with dg := t.dg, objs := t.objs })

/-- R181, R193, R197: a bucket moves from a loaded bay to a lighter one once none of its items is in service; heat halves at
its period; an ashlar changes tier; a page moves to other frames, its entry rewritten. -/
def Obligations.MasonMovesLoadAndData : Prop :=
  (∀ (bucket dst srcLoad dstLoad : Nat) (s : State), bucket < 4096 → s.bucketHome bucket ≠ dst →
    s.bucketHome bucket ∈ s.mason.warm → dst ∈ s.mason.warm → s.bayLive dst = true →
    s.objNum 0x3400 1 [] 0 80 < srcLoad → dstLoad < s.objNum 0x3400 1 [] 0 80 →
    (∀ m ∈ s.mason.moves, ∀ b ∈ [m.2.1, s.bucketHome m.1], b ≠ s.bucketHome bucket ∧ b ≠ dst) →
    s.bucketMovable bucket = true → Answers (.bucketLoadMove bucket dst srcLoad dstLoad) s fun t =>
      t = { s with mason := { s.mason with moves := s.mason.moves ++ [(bucket, dst, s.now)] } }) ∧
  (∀ (bucket : Nat) (m : Nat × Nat × Tick) (s : State), s.mason.moves.find? (fun m => m.1 == bucket) = some m →
    (∀ i ∈ s.bucketItems bucket, i.stage ≠ .inService) → Answers (.bucketMoveHandover bucket) s fun t =>
      t.bucketHome bucket = m.2.1 ∧ (∀ x ∈ t.mason.moves, x.1 ≠ bucket) ∧
        (∀ k, k ≠ bucket → t.bucketHome k = s.bucketHome k) ∧
        t = { s with mason := { s.mason with buckets := t.mason.buckets, moves := t.mason.moves }, items := t.items, objs := t.objs }) ∧
  (∀ s : State, s.mason.heatAt + s.objNum 0x3801 1 [] 0 25000000 ≤ s.now → Answers .heatPeriodHalving s fun t =>
    t = ({ s with mason := { s.mason with heatAt := s.now } } : State).mapAshlars fun a => { a with
      heat := a.heat / 2, coldPeriods := if a.heat = 0 ∧ a.tier = 1 then a.coldPeriods + 1 else 0 }) ∧
  (∀ (slice table col idx tier : Nat) (x : Table) (a : Ashlar) (s : State), s.tableOf slice table = some x →
    x.ashlarAt col idx = some a → s.mayMoveTier x a (s.scanWaits slice table col idx) tier = true →
    (∃ r, ashlarRead s.dicts a.courses = .ok r) → Answers (.ashlarTierMove slice table col idx tier) s fun t =>
      t.tables = mapIf (fun y => y.slice == slice && y.id == table) (fun y => y.setTier col idx tier) s.tables ∧
        t = { s with tables := t.tables, mason := { s.mason with demoting := t.mason.demoting } }) ∧
  (∀ (slice va dst at_ level : Nat) (e : List Course) (s : State), (s.sliceSpace slice).inRange va = true →
    (s.sliceOf slice).state ≠ 0 → s.leafAt va 6 (s.sliceSpace slice).root (s.sliceSpace slice).levels = some (at_, level, e) →
    let n := 2 ^ (10 * (level - 1))
    fieldOf (nth e 0 0).toNat 9 8 ≠ 2 → s.framesFree (pteFrame e) n = true → s.framesFree dst n = true → dst % n = 0 →
    pteFrame e + n ≤ dst ∨ dst + n ≤ pteFrame e → Answers (.migration slice va dst) s fun t =>
      let s1 := (s.cleanRange (pteFrame e * 4096) (n * 4096)).invalidateRange (dst * 4096) (n * 4096)
      let s2 := ((s1.moveFrames (pteFrame e) dst n).memStore at_ ([nth e 0 0] ++ natCrs 3 dst)).forgetVa slice va
      let s3 := s2.invalidateRange (pteFrame e * 4096) (n * 4096)
      t = { s3 with memx := { s3.memx with
        ftype := tset dst (fieldOf (nth e 0 0).toNat 9 8) (tdel (pteFrame e) s3.memx.ftype) } })
/-! ### The ledger (R372-R382, R408, R458, R519) -/

/-- R373, R377, R378, R408, R458: records enter the buffer in order, are programmed and then acknowledged; segments close
each second; the leader makes and writes seals; answers leave once their record is acknowledged. -/
def Obligations.LedgerEventsRecordAndSeal : Prop :=
  (∀ (i : Item) (a : Answer) (s : State),
    (s.unrecorded.find? fun x => s.bucketAdmits x.1.slice (ledgerRecord x.1 x.2).length) = some (i, a) → i.hashReady = true →
    s.led.used + (ledgerRecord i a).length ≤ bufferSize → Answers .ledgerRecordEnter s fun t =>
      t.led.buffer = s.led.buffer ++ [ledgerRecord i a] ∧
      t.items = mapIf (fun x => x.seq == i.seq) (fun x => { x with
        recorded := true, acked := decide (s.power.buttress = 1) }) s.items ∧
      t.host = { s.host with
        bucket := tset i.slice (s.bucketOf i.slice - (ledgerRecord i a).length * 25000000) s.host.bucket } ∧
      t = { s with led := { s.led with
          buffer := t.led.buffer, opened := t.led.opened, closed := t.led.closed, paused := t.led.paused }
                   items := t.items, host := t.host, objs := t.objs }) ∧
  (∀ (r : List Byte) (rest : List (List Byte)) (s : State), s.led.buffer = r :: rest → r.length ≤ s.led.free →
    s.power.save = none → Answers .ledgerNandProgram s fun t =>
      t.led.buffer = rest ∧ t.led.free + r.length = s.led.free ∧ t.led.written = s.led.written + r.length ∧
      t.items = mapIf (fun i => i.recorded && i.answer.any fun a => ledgerRecord i a == r) (fun i => { i with acked := true })
        s.items ∧
      t = { s with led := { s.led with
          buffer := t.led.buffer, free := t.led.free, written := t.led.written, paused := t.led.paused }
                   items := t.items, objs := t.objs }) ∧
  (∀ s : State, s.now % 25000000 = 0 → Answers .segmentCloseSecond s fun t => t.led.opened = [] ∧
    t = { s with led := { s.led with
      opened := [], closed := s.led.closed ++ s.led.opened.map fun g => { g with closedAt := some s.now } } }) ∧
  (∀ s : State, s.paused = false → s.leads = true → s.closuresIn (s.now / 25000000 * 25000000) = true → s.power.ready = true → s.canSign = true → s.now % 25000000 ≠ 0 → 25000000 ≤ s.now →
    s.led.sealTick < s.now / 25000000 * 25000000 → Answers .sealMake s fun t =>
      let T := s.now / 25000000 * 25000000
      ∃ x, t.led.seals = s.led.seals ++ [x] ∧ x.seq = s.led.nextSeal ∧ x.tick = T ∧ x.written = false ∧
        x.body = s.sealBody T x.segs ∧ x.bytes = x.body ++ s.signatures s.trust.run.measurement x.body ∧
        x.segs.length = (s.dueSegs T).length ∧ (s.group.grouped = false → x.segs.length =
          (s.led.closed.filter fun g => g.closedAt.any fun c => decide (c ≤ T)).length) ∧
        t.group = { s.group with outbox := s.group.outbox ++ s.others.map fun n => (n, MemberMsg.sealed x) } ∧
        t.led.closed = s.led.closed.filter (fun g => !(g.closedAt.any fun c => decide (c ≤ T))) ∧
        t.led.nextSeal = s.led.nextSeal + 1 ∧ t.led.head = x.body ∧ t.led.sealTick = T ∧
        t.trust.hssNext = s.trust.hssNext + 1 ∧
        t = { s with led := { s.led with
          closed := t.led.closed, segSeq := t.led.segSeq, seals := t.led.seals, nextSeal := t.led.nextSeal, head := t.led.head,
          sealTick := t.led.sealTick, restart := false, leaderChange := false }
                     trust := { s.trust with
          hssReserved := t.trust.hssReserved, hssNext := t.trust.hssNext, hssPending := t.trust.hssPending }
                     objs := t.objs, group := t.group }) ∧
  (∀ (x : Seal) (s : State), s.led.seals.find? (fun x => !x.written) = some x → s.paused = false → x.tick < s.now → s.power.save = none →
    Answers .sealWrite s fun t =>
      t = (s.host.waiting.foldl (State.sealedNow x.tick) { s with led := { s.led with
        seals := mapIf (fun y => y.seq == x.seq) (fun y => { y with written := true }) s.led.seals
        free := s.led.free - x.bytes.length
        sealSeq := some x.seq } }).noteSpace) ∧
  (∀ (sl aq : Nat) (i : Item) (a : Answer) (s : State),
    (sortBy (fun (x y : Item × Answer) => x.2.tick < y.2.tick || (x.2.tick == y.2.tick && x.1.seq < y.1.seq))
      (s.items.filterMap fun i =>
        if i.sent ∨ i.slice ≠ sl ∨ s.aqOf i ≠ aq then none else i.answer.map fun a => (i, a))).head? = some (i, a) →
    i.acked = true → s.mirrorWaits i = false → s.power.frozen = false → Answers (.answerEgress sl aq) s fun t =>
      t.host = { s.host with answers := s.host.answers ++
        [⟨aq, i.slice, i.ctx, i.gen, i.itemId, i.arrival, a.tick, a.flags, 0, a.answer, i.port, false⟩] } ∧
      (∀ x ∈ t.items, x.seq = i.seq → x.sent = true ∧ x.stage ≠ .done) ∧
      (∀ x ∈ s.items, x.seq ≠ i.seq → x ∈ t.items) ∧
      (s.group.grouped = true → t.group.outbox = s.group.outbox ++ s.others.map fun n => (n, .watermark t.group.watermark)) ∧
      (s.group.grouped = false → t.group = s.group) ∧
      t = { s with host := t.host, items := t.items
                   group := { s.group with watermark := t.group.watermark, outbox := t.group.outbox } })

/-- R379, R380, R382, R460: a ledger read returns its range, a proof returns once sealed and waits before, and a command
to seal closes the slice's open segments and waits for its seal.
R383, R384: where no other table-store command waits, a write queues its blocks and waits for their programming, a
read completes with the blocks, a trim with the blocks gone; a programmed block holds the data written. -/
def Obligations.StorageCommandsComplete : Prop :=
  ((∀ (h : CmdHdr) (kind count first seqNo : Nat) (s s1 : State) (b : Binding),
     s.paused = false → Starts s h 0x0050 (if kind = 2 then anyRole else tenantRole) s1 b → s1.partitionBusy 0 = false →
       Answers (.ledgerRead h kind count first seqNo) s fun t =>
         match s1.ledgerRange b.slice kind count first seqNo with
         | .ok r => Completes s1 t b.slice h 0 0 r
         | .error c => Completes s1 t b.slice h c 0 []) ∧
   (∀ (h : CmdHdr) (itemId tick : Nat) (s s1 : State) (b : Binding), s.paused = false → Starts s h 0x0051 tenantRole s1 b →
     s1.partitionBusy 0 = false → Answers (.ledgerProof h itemId tick) s fun t =>
       (∀ r, s1.proofOf b.slice itemId tick = some r → Completes s1 t b.slice h 0 0 r) ∧
       (s1.proofOf b.slice itemId tick = none → s1.recordPending b.slice itemId tick = true →
         t = { s1 with host := { s1.host with waiting := s1.host.waiting ++ [.proof h b.slice itemId tick] } }) ∧
       (s1.proofOf b.slice itemId tick = none → s1.recordPending b.slice itemId tick = false →
         Completes s1 t b.slice h 0x0810 0 [])) ∧
   (∀ (h : CmdHdr) (s s1 : State) (b : Binding), s.paused = false → Starts s h 0x0052 tenantRole s1 b → s1.partitionBusy 0 = false →
     Answers (.ledgerSealNow h) s fun t =>
       ((∃ g ∈ s1.led.opened, g.slice = b.slice) →
         t = { s1 with
           led := { s1.led with
             opened := s1.led.opened.filter fun g => !(g.slice == b.slice)
             closed := s1.led.closed ++ (s1.led.opened.filter fun g => g.slice == b.slice).map fun g =>
               { g with closedAt := some s1.now } }
           host := { s1.host with waiting := s1.host.waiting ++ [.sealNow h b.slice s1.now] } }) ∧
       ((∀ g ∈ s1.led.opened, g.slice ≠ b.slice) → Completes s1 t b.slice h 0 0 []))) ∧
  ((∀ (h : CmdHdr) (first count : Nat) (data : List Byte) (s s1 : State) (b : Binding), s.paused = false → Starts s h 0x0053 tenantRole s1 b →
     s1.partitionBusy 1 = false → 1 ≤ count → data.length = count * 6144 → first + count ≤ s1.tsQuota b.slice →
     (∀ w ∈ s1.host.waiting, w.tsRange = none) →
     let fresh := (List.range count).filter fun k => !(s1.st.blocks.any fun e => e.1 == (b.slice, first + k)) &&
       !(s1.st.writes.any fun x => x.slice == b.slice && x.block == first + k)
     fresh.length ≤ s1.tsFree → Answers (.tsWrite h first count data) s fun t =>
       t = { s1 with
         st := { s1.st with
           writes := s1.st.writes ++ (List.range count).map fun k =>
             ⟨b.slice, h.gen, first + k, h.qid, h.cid, slice data (k * 6144) 6144⟩
           free := s1.st.free - fresh.length }
         host := { s1.host with waiting := s1.host.waiting ++ [.tsWrite h b.slice first count] } }) ∧
   (∀ (h : CmdHdr) (first count : Nat) (s s1 : State) (b : Binding), s.paused = false → Starts s h 0x0054 tenantRole s1 b →
     s1.partitionBusy 1 = false → first + count ≤ s1.tsQuota b.slice → (∀ w ∈ s1.host.waiting, w.tsRange = none) →
       Answers (.tsRead h first count) s fun t =>
         Completes s1 t b.slice h 0 0 ((List.range count).flatMap fun k => s1.tsBlock b.slice (first + k))) ∧
   (∀ (h : CmdHdr) (first count : Nat) (s s1 : State) (b : Binding), s.paused = false → Starts s h 0x0055 tenantRole s1 b →
     s1.partitionBusy 1 = false → first + count ≤ s1.tsQuota b.slice → (∀ w ∈ s1.host.waiting, w.tsRange = none) →
       Answers (.tsTrim h first count) s fun t =>
         let mine := fun (k : Nat × Nat) => k.1 == b.slice && decide (first ≤ k.2 ∧ k.2 < first + count)
         Completes { s1 with st := { s1.st with
           blocks := s1.st.blocks.filter fun e => !(mine e.1)
           free := s1.st.free + (s1.st.blocks.filter fun e => mine e.1).length } } t b.slice h 0 0 []) ∧
   (∀ (sl block : Nat) (x : TsWr) (s : State), s.led.paused = false → s.partitionBusy 1 = false → s.power.save = none →
     s.st.writes.find? (fun x => x.slice == sl && x.block == block) = some x → (s.writerOf x).any s.tsHeld = false →
       Answers (.tsBlockProgrammed sl block) s fun t =>
         ∃ s2 : State, t = s2.tsSettle ∧
           s2.tsBlock sl block = x.data ∧ (∀ sl' k, (sl', k) ≠ (sl, block) → s2.tsBlock sl' k = s.tsBlock sl' k) ∧
           s2 = { s with st := { s.st with blocks := s2.st.blocks, writes := s.st.writes.erase x, wear := s.st.wear + 1 } }))

/-! ### The table store and its partitions (R383-R391) -/

/-- R387-R389, R391, R460: the status of the partitions, the start of a sanitise and a format, an erase that goes on, and a
page refreshed. -/
def Obligations.PartitionsAreErasedAndRefreshed : Prop :=
  (∀ (h : CmdHdr) (s s1 : State) (b : Binding), s.paused = false → Starts s h 0x0056 anyRole s1 b → Answers (.storeStatus h) s fun t =>
    Completes s1 t b.slice h 0 0 (s1.partitionStatus 0 ++ s1.partitionStatus 1)) ∧
  (∀ (h : CmdHdr) (partition scope mode sealSeq : Nat) (s s1 : State) (b : Binding), s.paused = false → Starts s h 0x0057 anyRole s1 b →
    b.role = 2 → partition ≤ 1 → scope ≤ 1 → mode ≤ 2 → (scope = 1 → partition = 0 ∧ mode ≠ 1) →
    (∀ e ∈ s1.st.erase, e.partition ≠ partition) → (partition = 0 → scope = 0 → s1.deadlineCtx = false) →
    (scope = 1 → ∃ x ∈ s1.led.sealed, x.seq = sealSeq) → Answers (.sanitise h partition scope mode sealSeq) s fun t =>
      let s2 := if scope = 0 then s1.host.waiting.foldl (State.failPartition partition) s1 else s1
      t = { s2 with
        st := { s2.st with
          erase := s2.st.erase ++ [⟨partition, false, scope, mode, sealSeq, 0⟩]
          writes := if partition = 1 then [] else s2.st.writes
          sanitise := 0
          media := if mode = 1 ∧ partition = 1 then false else s2.st.media }
        led := { s2.led with media := if mode = 1 ∧ partition = 0 then false else s2.led.media }
        host := { s2.host with waiting := s2.host.waiting ++ [.erase h partition] } }) ∧
  (∀ (h : CmdHdr) (partition : Nat) (s s1 : State) (b : Binding), s.paused = false → Starts s h 0x0058 anyRole s1 b → b.role = 2 →
    partition ≤ 1 → (∀ e ∈ s1.st.erase, e.partition ≠ partition) → (partition = 0 → s1.led.allReleased = true) →
    Answers (.format h partition) s fun t =>
      let s2 := s1.host.waiting.foldl (State.failPartition partition) s1
      t = { s2 with
        st := { s2.st with
          erase := s2.st.erase ++ [⟨partition, true, 0, 0, 0, 0⟩]
          writes := if partition = 1 then [] else s2.st.writes
          format := 0 }
        host := { s2.host with waiting := s2.host.waiting ++ [.erase h partition] } }) ∧
  (∀ (partition n : Nat) (e : Erase) (s : State), s.st.erase.find? (fun e => e.partition == partition) = some e →
    e.progress < 1000 → n < 1000 → Answers (.eraseUnitDone partition n) s fun t =>
      t = { s with st := { s.st with
        erase := mapIf (fun x => x.partition == partition) (fun x => { x with progress := max e.progress n }) s.st.erase
        sanitise := if e.format then s.st.sanitise else max e.progress n
        format := if e.format then max e.progress n else s.st.format } }) ∧
  (∀ (partition n : Nat) (e : Erase) (s : State), s.st.erase.find? (fun e => e.partition == partition) = some e → 1000 ≤ n →
    Answers (.eraseUnitDone partition n) s fun t => ∃ s2 : State, t = s2.host.waiting.foldl (State.eraseDone partition) s2 ∧
      (∀ x ∈ s2.st.erase, x.partition ≠ partition) ∧ (if e.format then s2.st.format else s2.st.sanitise) = 1000 ∧
      (partition ≠ 0 → s2.st.blocks = [] ∧ s2.st.free = s.st.capacity) ∧
      s2 = { s with st := s2.st, led := s2.led, tables := s2.tables }) ∧
  (∀ (page errors : Nat) (s : State), Answers (.nandPageRefresh page errors) s fun t =>
    tget page t.st.refreshed = some s.now ∧ (∀ p, p ≠ page → tget p t.st.refreshed = tget p s.st.refreshed) ∧
      t.st.wear = s.st.wear + (if Config.nandLimit ≤ errors then 1 else 0) ∧
      t = { s with st := { s.st with refreshed := t.st.refreshed, wear := t.st.wear } })
/-! ### Memory, caches and range operations (R295-R307, R318, R327) -/

/-- R295-R297, R301, R302, R242: fills, write-backs, acknowledgements, patrol reads and the rebuild of a bound pair. -/
def Obligations.CacheAndMediumEvents : Prop :=
  (∀ (bay line k k' : Nat) (ks : List Nat) (f : Fill) (s : State), s.memx.fills.find? (fun f => f.bay == bay && f.line == line) = some f →
    (bay, line) ∉ s.memx.victims → s.memUp line = true → (f.prefetch = true → s.readable line = true) →
    f.sectors = k :: k' :: ks → Answers (.cacheFillSector bay line .clean) s fun t =>
      t = { s with memx := { s.memx with
        fills := mapIf (fun x => x.bay == bay && x.line == line) (fun x => { x with sectors := k' :: ks }) s.memx.fills } }) ∧
  (∀ (bay line k : Nat) (f : Fill) (s : State), s.memx.fills.find? (fun f => f.bay == bay && f.line == line) = some f →
    (bay, line) ∉ s.memx.victims → s.memUp line = true → (f.prefetch = true → s.readable line = true) →
    f.sectors = [k] → Answers (.cacheFillSector bay line .clean) s fun t => t = s.fillDone f) ∧
  (∀ (bay slot : Nat) (l : Line) (ls : List Line) (s : State), (s.coreOf (.stone bay slot)).evict = l :: ls →
    Answers (.evictionWriteback bay slot false) s fun t =>
      t = (s.setCore (.stone bay slot) { s.coreOf (.stone bay slot) with evict := ls }).l2WriteBack bay (s.ownerSlice l.owner) l) ∧
  (∀ (bay line : Nat) (s : State), Answers (.l2VictimAck bay line) s fun t =>
    t = { s with memx := { s.memx with victims := s.memx.victims.erase (bay, line) } }) ∧
  (∀ (u : CoreId) (s : State), (s.coreOf u).storesOut ≠ 0 → Answers (.memoryStoreAck u) s fun t =>
    t.coreOf u = { s.coreOf u with storesOut := (s.coreOf u).storesOut - 1 } ∧ OnlyCore s t u) ∧
  (∀ (line : Nat) (s : State), s.readable (lineOf line) = true → s.memUp (lineOf line) = true →
    Answers (.patrolRead line .clean) s (· = s) ∧
    Answers (.patrolRead line .corrected) s (fun t => t.objNum 0x6001 5 [] 0 0 = min u64Max (s.objNum 0x6001 5 [] 0 0 + 1) ∧
      t = { s with objs := t.objs, err := t.err }) ∧
    Answers (.patrolRead line .uncorrectable) s (fun t => t.poisoned (lineOf line) = true ∧
      t.objNum 0x6001 6 [] 0 0 = min u64Max (s.objNum 0x6001 6 [] 0 0 + 1) ∧
      t = { s with memx := { s.memx with poison := t.memx.poison }, objs := t.objs, err := t.err, can := t.can })) ∧
  (∀ (frame second newFrame : Nat) (s : State), s.memx.bound.find? (fun p => p.1 == frame &&
      (s.memx.pch.contains (pchOf p.1) || s.memx.pch.contains (pchOf p.2))) = some (frame, second) →
    pchOf frame ∉ s.memx.pch → pchOf newFrame ∉ s.memx.pch → newFrame * 4096 < hbmSize →
    pchOf newFrame % 6 ≠ pchOf frame % 6 → (∀ q ∈ s.memx.bound, q.1 ≠ newFrame ∧ q.2 ≠ newFrame) →
      Answers (.boundPairRebuild frame newFrame) s fun t =>
        t = { s with
          mem := Memory.putCourses (newFrame * 4096) (s.memLoad (frame * 4096) 4096) s.mem
          memx := { s.memx with bound := (s.memx.bound.filter fun q => q != (frame, second)) ++ [(frame, newFrame)] } }) ∧
  (∀ (frame second newFrame : Nat) (s : State), s.memx.bound.find? (fun p => p.1 == frame &&
      (s.memx.pch.contains (pchOf p.1) || s.memx.pch.contains (pchOf p.2))) = some (frame, second) →
    pchOf frame ∈ s.memx.pch → pchOf second ∉ s.memx.pch → pchOf newFrame ∉ s.memx.pch → newFrame * 4096 < hbmSize →
    ((s.partners frame).filter fun f => !(s.memx.pch.contains (pchOf f))).length < 2 →
    pchOf newFrame % 6 ≠ pchOf second % 6 → (∀ q ∈ s.memx.bound, q.1 ≠ newFrame ∧ q.2 ≠ newFrame) →
      Answers (.boundPairRebuild frame newFrame) s fun t =>
        t = { s with
          mem := Memory.putCourses (newFrame * 4096) (s.memLoad (frame * 4096) 4096) s.mem
          memx := { s.memx with bound :=
            (s.memx.bound.filter fun q => q != (frame, second)) ++ [(frame, second), (frame, newFrame)] } })

/-- R306, R307, R318, R327: a range operation visits its lines or sets in turn, zeroes once every bay has visited, and ends
when nothing of it is outstanding; a walk takes one read at a time, unless its translation has come meanwhile; an invalidate takes effect bay by bay. -/
def Obligations.RangeWalkAndInvalidateEvents : Prop :=
  (∀ (bay : Nat) (o : RangeOp) (os : List RangeOp) (s : State), (s.rangeOf bay).queue = o :: os → o.at_ < o.visits →
    Answers (.rangeSetVisit bay) s fun t =>
      let s1 := s.rangeApply bay o fun l => o.visited o.at_ l.addr &&
        !(s.memx.fills.any fun f => f.bay == bay && f.line == l.addr)
      t = ({ s1 with memx := { s1.memx with
          fills := mapIf (fun f => f.bay == bay && o.visited o.at_ f.line)
            (fun f => { f with covered := some o.id }) s1.memx.fills } } : State).updRange bay fun r => { r with
        queue := mapIf (fun x => x.id == o.id) (fun x => { x with at_ := x.at_ + 1 }) r.queue }) ∧
  (∀ (bay : Nat) (o : RangeOp) (os : List RangeOp) (s : State), (s.rangeOf bay).queue = o :: os → o.op = 0x13 →
    o.id ∉ s.memx.zeroDone → s.rangeVisited o.id = true → Answers (.rangeZeroWrite bay) s fun t =>
      t = { (s.zeroRange o) with memx := { (s.zeroRange o).memx with zeroDone := o.id :: (s.zeroRange o).memx.zeroDone } }) ∧
  (∀ (bay : Nat) (o : RangeOp) (os : List RangeOp) (s : State), (s.rangeOf bay).queue = o :: os → o.visits ≤ o.at_ →
    (∀ f ∈ s.memx.fills, f.bay = bay → f.covered ≠ some o.id) →
    (∀ v ∈ s.memx.victims, v.1 = bay → o.start + o.count ≤ v.2 ∨ v.2 + 128 ≤ o.start) →
    (o.op = 0x13 → o.id ∈ s.memx.zeroDone) → Answers (.rangeOpDone bay) s fun t =>
      (t.rangeOf bay).queue = os ∧ (t.rangeOf bay).lastOp = o.op - 0x10 + 1 ∧
        (∀ b, b ≠ bay → t.rangeOf b = s.rangeOf b) ∧ t = { s with memx := { s.memx with range := t.memx.range } }) ∧
  (∀ (u : CoreId) (a : Access) (obs : ReadObs) (s : State), (s.coreOf u).access = some a →
    (∀ e, (s.coreOf u).tlbFind (s.spaceOf (s.coreOf u) a.borrowed) a.va a.isStore = some e →
      Answers (.walkReadDone u obs) s fun t => t = s.completeAccess u a e .clean) ∧
    ((s.coreOf u).tlbFind (s.spaceOf (s.coreOf u) a.borrowed) a.va a.isStore = none → Answers (.walkReadDone u obs) s fun t =>
      t = match s.walkStep (walkerOf u) (s.spaceOf (s.coreOf u) a.borrowed) (askerOf u a.borrowed) a.isStore
          a.va a.table a.level obs with
        | .fault r code level => (r.setCore u { r.coreOf u with access := none }).accessFault u a code level
        | .down r table level => r.setCore u { r.coreOf u with access := some { a with table := table, level := level } }
        | .leaf r e => (if a.noInstall then r else r.installTlb u e).completeAccess u a e .clean)) ∧
  (∀ (bay : Nat) (i : Inval) (before after : List Inval) (s : State), s.memx.invals = before ++ i :: after →
    (∀ x ∈ before, bay ∉ x.bays) → i ∉ before → bay ∈ i.bays → Answers (.invalidateEffect bay) s fun t =>
      let s1 := s.invalidate bay i
      let rest := if i.bays.erase bay = [] then [] else [{ i with bays := i.bays.erase bay }]
      t = { s1 with memx := { s1.memx with invals := before ++ rest ++ after } })

/-! ### Hod and the register region (R332-R355) -/

/-- The command that starts a Hod channel for operation `op`. -/
def Sys2Proof.Claims.hodOps : List ((Nat → Nat → Instr) × Nat) :=
  [(.hodCopy, 0), (.hodFill, 1), (.hodCompare, 2), (.hodPack, 3), (.hodUnpack, 4)]

/-- R333, R337-R343, R345, R353-R355: a channel starts, moves on line by line, is disabled, stops in order, and hands a
block over to another bay's compressor; its registers are written while it does not run. -/
def Obligations.HodChannelsRunAndStop : Prop :=
  (∀ e ∈ Claims.hodOps, ∀ (bay ch : Nat) (s : State), bay < 16 → ch < 32 → (s.hodOf bay ch).op = e.2 →
    (s.hodOf bay ch).status ≠ 1 → hodCheck { s.hodOf bay ch with en := true } = 0 → (s.hodOf bay ch).cnt ≠ 0 →
      Answers (e.1 bay ch) s fun t =>
        let h := { s.hodOf bay ch with en := true }
        let s1 := s.setHod bay ch h
        t = ((s1.setHod bay ch { h with status := 1, result := 0, total := h.cnt, srcTr := none, dstTr := none }).hodClean bay h).hodEdges
          bay h) ∧
  (∀ (bay ch : Nat) (s : State), bay < 16 → ch < 32 → (s.hodOf bay ch).status = 1 → Answers (.hodDisable bay ch) s fun t =>
    (t.hodOf bay ch).status = 5 ∧ (t.hodOf bay ch).err = 0x0705 ∧ (t.hodOf bay ch).en = false ∧
      t.objNum 0x6300 4 [bay] (s.hodOf bay ch).slice 0 = min u64Max (s.objNum 0x6300 4 [bay] (s.hodOf bay ch).slice 0 + 1) ∧
      (∀ b c, (b, c) ≠ (bay, ch) → t.hodOf b c = s.hodOf b c) ∧
      t = { s with hod := { s.hod with ch := t.hod.ch }, free := t.free, objs := t.objs, err := t.err, can := t.can }) ∧
  (∀ (bay ch : Nat) (s : State), s.hodRunning bay ch = true → Answers (.hodLineDone bay ch none) s fun t =>
    t = match (s.hodOf bay ch).op with
      | 2 => s.hodCompareLine bay ch .clean
      | 3 => s.hodPackBlock bay ch .clean
      | 4 => s.hodUnpackBlock bay ch .clean
      | _ => s.hodMoveLine bay ch .clean) ∧
  (∀ (bay ch : Nat) (s : State), s.hodRunning bay ch = true → Answers (.hodLineDone bay ch (some 0x0686)) s fun t =>
    (t.hodOf bay ch).status = 4 ∧ (t.hodOf bay ch).err = 0x0686 ∧ (t.hodOf bay ch).cnt = (s.hodOf bay ch).cnt ∧
      (t.hodOf bay ch).src = (s.hodOf bay ch).src ∧ (t.hodOf bay ch).dst = (s.hodOf bay ch).dst) ∧
  (∀ (bay ch other : Nat) (s : State), s.hodRunning bay ch = true → (s.hodOf bay ch).op = 3 → other ≠ bay →
    s.bayAwake other = true → other ∉ s.hod.settFenced →
      Answers (.settVerifyHandoff bay ch other true) s (fun t => t = (s.settFail bay).hodPackBlock bay ch .clean) ∧
      Answers (.settVerifyHandoff bay ch other false) s fun t =>
        (t.hodOf bay ch).status = 4 ∧ (t.hodOf bay ch).err = 0x0716 ∧ (t.hodOf bay ch).cnt = (s.hodOf bay ch).cnt) ∧
  (∀ e ∈ ([(0x00, 5, fun h v => { h with src := crsNat v }), (0x05, 5, fun h v => { h with dst := crsNat v }),
      (0x0A, 3, fun h v => { h with cnt := crsNat v % 2 ^ 32 }), (0x0D, 2, fun h v => { h with mode := crsNat v }),
      (0x10, 2, fun h v => { h with space := crsNat v }), (0x18, 8, fun h v => { h with pattern := v })] :
      List (Nat × Nat × (HodCh → List Course → HodCh))),
    ∀ (bay ch : Nat) (value : List Course) (ca : Nat) (s : State), bay < 16 → ch < 32 → (s.hodOf bay ch).status ≠ 1 →
      s.isLocal ca = true → caLocal ca = 0x03C020000000 + bay * 0x10000 + ch * 0x40 + e.1 → value.length = e.2.1 →
        Answers (.registerWrite ca value) s fun t =>
          t.hodOf bay ch = e.2.2 (s.hodOf bay ch) value ∧ (∀ b c, (b, c) ≠ (bay, ch) → t.hodOf b c = s.hodOf b c) ∧
            t = { s with hod := { s.hod with ch := t.hod.ch } })
/-! ### Trunnion ports (R417-R427) -/

/-- R421-R424, R515: flits that leave: the next in order, an IDLE after 25 ticks, a RETRY_REQ again; flits that come: a
PAYLOAD, IDLE, RETRY_REQ or INIT flit that passes its check. -/
def Obligations.FlitsAreSentAndReceived : Prop :=
  (∀ (port : Nat) (s : State), port < 8 → (s.portOf port).up = true → s.power.hubAsleep = false → s.power.frozen = false →
    Answers (.flitSend port) s fun t =>
      t = (if (s.portOf port).state = 4 ∧ (s.portOf port).role = 1 ∧ tgetD 1 [] (s.portOf port).txq = [] then s.pullOutput port
        else if (s.portOf port).state = 4 ∧ (s.portOf port).role = 2 ∧ (∀ e ∈ (s.portOf port).txq, e.2 = []) then s.pullMember port
        else s).sendNext port) ∧
  (∀ (port : Nat) (s : State), port < 8 → (s.portOf port).up = true → (s.portOf port).lastTx + 25 ≤ s.now →
    Answers (.idleKeepaliveSend port) s fun t =>
      ∃ hd, hd.type = 1 ∧ hd.seq = (s.portOf port).txSeq ∧ hd.ack = seqPrev (s.portOf port).rxExp ∧
        (t.portOf port).out = (s.portOf port).out ++ [flitBytes hd []] ∧ (t.portOf port).lastTx = s.now ∧
        (t.portOf port).txSeq = (s.portOf port).txSeq ∧ (∀ p, p ≠ port → t.portOf p = s.portOf p) ∧ t = { s with ports := t.ports }) ∧
  (∀ (port : Nat) (a : Tick) (s : State), port < 8 → (s.portOf port).up = true → (s.portOf port).retrySent = some a →
    a + 25 ≤ s.now → Answers (.retryReqResend port) s fun t =>
      t = (s.sendPlain port 2).updPort port fun y => { y with retrySent := some s.now }) ∧
  (∀ (port : Nat) (flit : List Byte) (h : FlitHdr) (s : State), s.hears port = true → s.power.frozen = false →
    s.power.hubAsleep = false → (s.portOf port).heldFlits = [] → readFlit flit = some h → h.type = 0 → h.hub = true →
      Answers (.flitReceivePayload port flit) s fun t => t = s.takePayloadFlit port h flit) ∧
  (∀ (port : Nat) (flit : List Byte) (s : State), s.hears port = true → s.power.frozen = false → s.power.hubAsleep = true →
    Answers (.flitReceivePayload port flit) s fun t =>
      t = s.updPort port fun x => { x with heldFlits := x.heldFlits ++ [flit] }) ∧
  (∀ (port : Nat) (flit : List Byte) (h : FlitHdr) (s : State), s.hears port = true → readFlit flit = some h → h.type = 1 →
    h.hub = true → Answers (.idleFlitReceive port flit) s fun t => t = s.updPort port fun x => { x.acked h.ack with
      goodInInterval := true, credits := tupd h.cvc 0 (fun n => n + h.credits) x.credits }) ∧
  (∀ (port : Nat) (flit : List Byte) (h : FlitHdr) (s : State), s.hears port = true → readFlit flit = some h → h.type = 2 →
    h.hub = true → Answers (.retryReqReceive port flit) s fun t => t = (s.updPort port fun x => x.heard h).retryAsked port h) ∧
  (∀ (port : Nat) (flit : List Byte) (h : FlitHdr) (s : State), port < 8 → (s.portOf port).state = 1 →
    (s.portOf port).trained = false → (s.portOf port).retrain = none → readFlit flit = some h → h.type = 3 →
      Answers (.initReceive port flit) s fun t =>
        t = s.updPort port fun x => { x with initSeen := true, goodInInterval := true }) ∧
  (∀ (port : Nat) (flit : List Byte) (st : Nat) (h : FlitHdr) (s : State), port < 8 → (s.portOf port).state = 1 →
    (s.portOf port).trained = true → (s.portOf port).retrain = some st → readFlit flit = some h → h.type = 3 →
      Answers (.initReceive port flit) s fun t =>
        let x := (s.portOf port).acked h.ack
        t.portOf port = { x with
          initSeen := true, goodInInterval := true, state := st, since := s.now, retrain := none, resend := x.replay.map (·.1) } ∧
        (∀ p, p ≠ port → t.portOf p = s.portOf p) ∧ t = { s with ports := t.ports })

/-- R417, R423, R424, R426, R427: a DARK port trains on a signal and again each second, is trained, falls back at its
timeouts, moves off a faulty lane, misses keep-alives, and reads the HELLO of its partner. -/
def Obligations.PortsTrainAndFallBack : Prop :=
  (∀ e ∈ ([(.signalDetect, false), (.portTrainingRetry, true)] : List ((Nat → Instr) × Bool)), ∀ (port : Nat) (s : State),
    port < 8 → (s.portOf port).state = 0 → (s.portOf port).held = false → s.objNum (0x1110 + port) 5 [] 0 1 = 1 →
    (e.2 = true → (s.portOf port).since + 25000000 ≤ s.now) → Answers (e.1 port) s fun t =>
      (t.portOf port).state = 1 ∧ (t.portOf port).since = s.now ∧ (t.portOf port).txSeq = 0 ∧ (t.portOf port).rxExp = 0 ∧
        (t.portOf port).credits = initCredits ∧ (∀ p, p ≠ port → t.portOf p = s.portOf p) ∧ t = { s with ports := t.ports }) ∧
  (∀ (port : Nat) (s : State), port < 8 → (s.portOf port).state = 1 → (s.portOf port).trained = false →
    (s.portOf port).initSeen = false → Answers (.portTrained port) s fun t =>
      t = (s.updPort port fun x => { x with trained := true, lanes := [0, 1, 2, 3], faulty := [] }).sendPlain port 3) ∧
  (∀ e ∈ ([(1, 12500000, false), (2, 250000, false), (3, 2500000, true)] : List (Nat × Nat × Bool)), ∀ (port : Nat) (s : State),
    port < 8 → (s.portOf port).state = e.1 → (s.portOf port).retrain = none → (s.portOf port).attested = false →
    (s.portOf port).since + e.2.1 ≤ s.now → Answers (.portStateTimeout port) s fun t =>
      (t.portOf port).state = 0 ∧ (t.portOf port).held = e.2.2 ∧ (t.portOf port).since = s.now ∧
        (∀ p, p ≠ port → t.portOf p = s.portOf p) ∧ t = { s with ports := t.ports }) ∧
  (∀ (port st : Nat) (s : State), port < 8 → (s.portOf port).state = 1 → (s.portOf port).retrain = some st →
    (s.portOf port).since + 500 ≤ s.now → Answers (.portStateTimeout port) s fun t => t = s.portDown port) ∧
  (∀ (port lane : Nat) (s : State), port < 8 → (s.portOf port).up = true → lane ∈ (s.portOf port).lanes →
    lanesFor ((s.portOf port).faulty ++ [lane]) ≠ [] → Answers (.laneFault port lane) s fun t =>
      (t.portOf port).lanes = lanesFor ((s.portOf port).faulty ++ [lane]) ∧ lane ∉ (t.portOf port).lanes ∧
        t.err.exposed.testBit 1 = true ∧ t.err.lastFault = s.now ∧ (∀ p, p ≠ port → t.portOf p = s.portOf p) ∧
        t = { s with ports := t.ports, objs := t.objs, err := t.err, can := t.can }) ∧
  (∀ (port : Nat) (s : State), port < 8 → (s.portOf port).up = true → (s.portOf port).intervalStart + 25 ≤ s.now →
    Answers (.keepaliveMiss port) s fun t =>
      ((s.portOf port).goodInInterval = true → t = s.updPort port fun y => { y with
        misses := 0, goodInInterval := false, intervalStart := s.now }) ∧
      ((s.portOf port).goodInInterval = false → (s.portOf port).misses < 7 → t = s.updPort port fun y => { y with
        misses := y.misses + 1, intervalStart := s.now }) ∧
      ((s.portOf port).goodInInterval = false → 7 ≤ (s.portOf port).misses → t = s.portDown port)) ∧
  (∀ (port : Nat) (msg : List Byte) (s : State), port < 8 → (s.portOf port).state = 2 → helloOk msg = true →
    beNat (slice msg 2 1) = 0 → Answers (.hello port msg) s fun t =>
      t = (s.updPort port fun x => { x with
        state := 3, since := s.now, role := 2, partner := slice msg 4 16, partnerNode := beNat (slice msg 40 1),
        partnerNonce := slice msg 48 48, partnerCaps := beNat (slice msg 36 4)
        partnerPath := ((unpackBytes (slice msg 20 12)).takeWhile fun c => c != 0xFFF).map (·.toNat) }).sendReport port) ∧
  (∀ (port : Nat) (msg : List Byte) (s : State), port < 8 → (s.portOf port).state = 2 → helloOk msg = false →
    Answers (.hello port msg) s fun t => (t.portOf port).state = 0 ∧ (t.portOf port).held = false ∧
      (∀ p, p ≠ port → t.portOf p = s.portOf p) ∧ t = { s with ports := t.ports })

/-! ### Time exchanges and the group (R428-R438) -/

/-- R437, R438: a request carries T1 and a new number, a response to it repeats T1 with T2, and a response in turn sets
the latency of its port and, toward the time parent, the slew.
R428-R436: a partner's report joins or holds its port; losses are declared by the leader or the deputy of a lost
leader; routes, the minority, joins and leaves change the group. -/
def Obligations.GroupsMeasureLinksAndFollowEvents : Prop :=
  ((∀ (port frac : Nat) (s : State), port < 8 → (s.portOf port).state = 4 → s.power.hubAsleep = false → s.power.frozen = false →
     (s.portOf port).maySend 4 = true → (∀ a, (s.portOf port).syncAt = some a → a + 2500 ≤ s.now) →
       Answers (.syncReqSend port frac) s fun t =>
         (t.portOf port).syncSeq = ((s.portOf port).syncSeq + 1) % 65536 ∧ (t.portOf port).syncAt = some s.now ∧
           (t.portOf port).syncT1 = some (s.now * 64 + frac % 64) ∧ (t.portOf port).txSeq = seqNext (s.portOf port).txSeq ∧
           (∀ p, p ≠ port → t.portOf p = s.portOf p) ∧ t = { s with ports := t.ports, objs := t.objs, free := t.free }) ∧
   (∀ (port frac : Nat) (msg : List Byte) (s : State), port < 8 → (s.portOf port).state = 4 → syncOk 1 msg = true →
     s.power.hubAsleep = false → s.power.frozen = false → Answers (.syncReqReceive port frac msg) s fun t =>
       t = s.queueCapsule port 4 (s.facing port)
         (syncBytes 2 (beNat (slice msg 2 2)) (beNat (slice msg 4 9)) (s.now * 64 + frac % 64) 0)) ∧
   (∀ (port frac t1 : Nat) (msg : List Byte) (s : State), port < 8 → (s.portOf port).state = 4 →
     (s.portOf port).syncT1 = some t1 → syncOk 2 msg = true → beNat (slice msg 2 2) = (s.portOf port).syncSeq →
       Answers (.syncRespReceive port frac msg) s fun t =>
         let t2 : Int := (beNat (slice msg 13 9) : Int)
         let t3 : Int := (beNat (slice msg 22 9) : Int)
         let t4 : Int := ((s.now * 64 + frac % 64 : Nat) : Int)
         (t.portOf port).latency = ((((t4 - t1) - (t3 - t2)) / 2 + 63) / 64).toNat ∧ (t.portOf port).syncT1 = none ∧
           t.time = (if s.parentPort = some port then { s.time with slew := ((t2 - t1) - (t4 - t3)) / 2 / 64 } else s.time) ∧
           (∀ p, p ≠ port → t.portOf p = s.portOf p) ∧ t = { s with ports := t.ports, time := t.time })) ∧
  ((∀ (port : Nat) (report : List Byte) (s : State), port < 8 → (s.portOf port).state = 3 → (s.portOf port).role = 1 →
     Answers (.attestReportReceive port report) s fun t => reportOk (s.portOf port).nonce report = true →
       (t.portOf port).state = 4 ∧ (t.portOf port).attested = true ∧ (t.portOf port).since = s.now ∧
         (∀ p, p ≠ port → t.portOf p = s.portOf p) ∧ t = { s with ports := t.ports, err := { s.err with exposed := t.err.exposed } }) ∧
   (∀ (port : Nat) (report : List Byte) (s : State), port < 8 → (s.portOf port).state = 3 →
     reportOk (s.portOf port).nonce report = false → Answers (.attestReportReceive port report) s fun t =>
       (t.portOf port).state = 0 ∧ (t.portOf port).held = true ∧ (∀ p, p ≠ port → t.portOf p = s.portOf p) ∧
         t.objNum (0x1110 + port) 12 [] 0 0 = min u32Max (s.objNum (0x1110 + port) 12 [] 0 0 + 1) ∧
         t = { s with ports := t.ports, objs := t.objs, err := t.err, can := t.can }) ∧
   (∀ e ∈ ([.memberLossReport, .probeTimeout] : List (Nat → Instr)), ∀ (node : Nat) (m : Member) (s : State),
     s.group.grouped = true → node ≠ s.group.node →
     s.group.leader = s.group.node ∨ (s.group.leader = node ∧ s.group.deputy = s.group.node) → s.group.memberAt node = some m →
       Answers (e node) s fun t => t.group.memberAt node = none ∧ tget node t.group.routes = none ∧ t.err.exposed.testBit 12 = true ∧
         (∀ x ∈ t.group.mirrors, x.node ≠ node) ∧ t.group.heldTx = [] ∧
         t.group.leader = (if s.group.leader = node then s.group.deputy else s.group.leader)) ∧
   (∀ (epoch : Nat) (routes : List (Nat × Nat)) (s : State), s.group.grouped = true →
     s.group.epoch < epoch ∨ (epoch = s.group.epoch ∧ s.group.leader = s.group.node) →
     (∀ m ∈ s.group.members, m.state = 1 → m.node ≠ s.group.node →
       ∃ e ∈ routes, e.1 = m.node ∧ e.2 < 8 ∧ (s.portOf e.2).role = 2) → Answers (.routeEpochUpdate epoch routes) s fun t =>
       t.group.routes = (routes.filter fun e => decide (e.2 < 8) && (s.portOf e.2).role == 2) ∧
         t = { s with
           free := t.free
           group := { s.group with epoch := t.group.epoch, routes := t.group.routes, lambda_ := t.group.lambda_ } }) ∧
   (∀ s : State, s.group.grouped = true → Answers .minorityDetected s fun t => t.group.minority = true ∧
     (∀ p, (s.portOf p).role = 2 → (s.portOf p).state = 4 → (t.portOf p).state = 5) ∧
     (∀ p, (s.portOf p).role ≠ 2 → t.portOf p = s.portOf p) ∧
     t = { s with group := { s.group with minority := true }, ports := t.ports }) ∧
   (∀ (node count : Nat) (serial : List Byte) (s : State), node < 64 → serial ≠ fitList 16 0 Config.serial →
     s.listsMember serial = true → s.group.minority = false → s.roomFor node serial = true → Answers (.memberJoin node serial count) s fun t =>
       t.group.grouped = true ∧ ∃ m ∈ t.group.members, m.serial = serial ∧ m.state = 1) ∧
   (∀ (node count : Nat) (s : State), node < 64 → s.group.grouped = false → s.entriesUsed = 0 → s.now ≤ count →
     Answers (.memberJoin node (fitList 16 0 Config.serial) count) s fun t =>
       t.group.grouped = true ∧ t.group.node = node ∧ t.time.count = count) ∧
   (∀ s : State, s.group.grouped = true → s.group.node ∈ s.group.leaving → Answers (.leaveDrainComplete s.group.node) s fun t =>
     t.group.grouped = false ∧ t.group.members = [] ∧ t.group.routes = [] ∧ t.group.mirrors = [] ∧
       (∀ p < 8, (s.portOf p).role = 2 → (s.portOf p).up = true → (t.portOf p).state = 0)))

/-! ### Contexts, tables and runs (R83, R106, R116, R462) -/

/-- R83, R106, R116, R462: a load creates its context or changes nothing, an unload ends once nothing of the context is
left, a run starts with its batches, and tables are created and dropped. In a group a command goes on to the other members
(`State.fanOut`; assumption 99: DESIGN CHOICE), a queue created or deleted among them, and the outcome of a load spends the
members' verdict (assumption 64: DESIGN CHOICE). -/
def Obligations.ContextAndTableCommandsComplete : Prop :=
  (∀ (h : CmdHdr) (image : List Byte) (s s1 : State) (b : Binding), s.paused = false → Starts s h 0x0020 tenantRole s1 b →
    Answers (.pipelineLoad h image) s fun t =>
      (∀ u n, s1.loadImage b.slice image = .ok (u, n) →
        t = State.fanOut s1 (.pipelineLoad h image) h 0x0020 b (u.verdictSpent.finish b.slice h 0 n [])) ∧
      (∀ code detail, code ≠ 0 → s1.loadImage b.slice image = .error (code, detail) →
        Completes s1.verdictSpent t b.slice h code detail [])) ∧
  (∀ (h : CmdHdr) (ctx : Nat) (c : Context) (s s1 : State) (b : Binding), s.paused = false → Starts s h 0x0021 tenantRole s1 b →
    s1.ownCtx b.slice ctx = some c → Answers (.pipelineUnload h ctx) s fun z => ∃ t,
      z = State.fanOut s1 (.pipelineUnload h ctx) h 0x0021 b t ∧ t = (({ s1 with host := { s1.host with waiting := s1.host.waiting ++ [.unload h b.slice ctx] } } : State).updCtx ctx
        fun c => { c with state := 3 }).settleUnloads ∧
      (s1.ctxBusy ctx = false → (∀ x ∈ t.ctxs, x.num ≠ ctx) ∧ Waiting.unload h b.slice ctx ∉ t.host.waiting)) ∧
  (∀ (h : CmdHdr) (ctx n : Nat) (data : List Byte) (c : Context) (s s1 : State) (b : Binding), Starts s h 0x0022 tenantRole s1 b →
    s1.ownCtx b.slice ctx = some c → c.image.cls = 2 → data.length = 18 * n →
    (∀ x ∈ c.image.resultOuts, ∃ q ∈ s1.host.queues, q.slice = b.slice ∧ q.qid = x.2 ∧ q.kind = 4) →
      Answers (.contextRun h ctx n data) s fun t =>
        ∃ r, r.num = s1.nextRun ∧ r.slice = b.slice ∧ r.gen = s1.genOf b.slice ∧ r.ctx = c.num ∧ r.start = s1.now ∧
          r.batches = ((List.range n).map fun k => slice data (18 * k) 18) ∧ r.finished = false ∧
          r.scans = (s1.tables.filter fun x => x.slice == b.slice) ∧
          r.probes = (s1.hashTables.filter fun x => x.slice == b.slice) ∧
          t = { s1 with
            runs := s1.runs ++ [r]
            nextRun := s1.nextRun + 1
            host := { s1.host with waiting := s1.host.waiting ++ [.run h b.slice s1.nextRun] } }) ∧
  (∀ (h : CmdHdr) (table columns factor : Nat) (types : List Byte) (ts : List TypeDesc) (s s1 : State) (b : Binding),
    s.paused = false → Starts s h 0x0023 tenantRole s1 b → 1 ≤ columns → columns ≤ 255 → 1 ≤ factor → factor ≤ 2 →
    s1.tableOf b.slice table = none → columnTypes columns types = some ts →
      Answers (.tableCreate h table columns factor types) s fun t =>
        t = State.fanOut s1 (.tableCreate h table columns factor types) h 0x0023 b (({ s1 with
          tables := s1.tables ++ [⟨b.slice, table, ts, factor, ts.map fun _ => [], 0, 0⟩] } : State).finish b.slice h 0 0 [])) ∧
  (∀ (h : CmdHdr) (table : Nat) (x : Table) (s s1 : State) (b : Binding), s.paused = false → Starts s h 0x0024 tenantRole s1 b →
    s1.tableOf b.slice table = some x → (s1.ctxs.any fun c => c.slice == b.slice && c.image.names table) = false →
      Answers (.tableDrop h table) s fun t =>
        t = State.fanOut s1 (.tableDrop h table) h 0x0024 b ((s1.dropTable b.slice table).finish b.slice h 0 0 [])) ∧
  (∀ (h : CmdHdr) (qid : Nat) (s s1 : State) (b : Binding), s.paused = false → Starts s h 0x0002 anyRole s1 b → 0 < qid →
    qid < 4096 → s1.queueOf b.slice qid = none → b.slice = 0 ∨ s1.queuesUsed b.slice < s1.objNum (0x4000 + b.slice) 18 [] 0 0 →
      Answers (.queueCreate h qid 0 0 4096) s fun t =>
        t = State.fanOut s1 (.queueCreate h qid 0 0 4096) h 0x0002 b (({ s1 with host := { s1.host with
          queues := s1.host.queues ++ [⟨b.slice, qid, 0, 0, 4096, 0, []⟩] } } : State).finish b.slice h 0 0 [])) ∧
  (∀ (h : CmdHdr) (qid : Nat) (q : Queue) (s s1 : State) (b : Binding), s.paused = false → Starts s h 0x0003 anyRole s1 b →
    s1.queueOf b.slice qid = some q → q.kind = 1 → qid ≠ 0 → q.outstanding = [] →
    (∀ i ∈ s1.items, i.slice = b.slice → i.iq ≠ qid) → (∀ r ∈ s1.host.queues, r.slice = b.slice → r.pair ≠ qid) →
      Answers (.queueDelete h qid) s fun t =>
        t = State.fanOut s1 (.queueDelete h qid) h 0x0003 b (({ s1 with host := { s1.host with
          queues := s1.host.queues.filter fun r => !(r.slice == b.slice && r.qid == qid) } } : State).finish b.slice h 0 0 []))

/-! ### Slices and bindings (R395-R410) -/

/-- R396, R399-R404, R410: slices are created with a raised generation, reset, removed, bound and unbound; a drained reset
completes and a drained removal leaves the slice absent; a cleared state space holds no flow. In a group a raise of a
generation goes through the members one at a time (R401), and the other commands go on to every member (`State.fanOut`). -/
def Obligations.SliceCommandsComplete : Prop :=
  (∀ (h : CmdHdr) (slice levels : Nat) (s s1 : State) (b : Binding), s.paused = false → Starts s h 0x0060 operatorRole s1 b → 0 < slice →
    slice < 1024 → (s1.sliceOf slice).state = 0 → 3 ≤ levels → levels ≤ 5 → Answers (.sliceCreate h slice levels) s fun t =>
      let gen := (s1.genOf slice + 1) % 4096
      let s2 := s1.forgetTag slice gen
      t = State.fanOut s1 (.sliceCreate h slice levels) h 0x0060 b (({ s2 with
        slices := tset slice ⟨1, gen, levels, slice * 4096, none, 0, none⟩ s1.slices } : State).finish b.slice h 0 0 [])) ∧
  (∀ e ∈ ([(.sliceReset, 0x0061, false), (.sliceRemove, 0x0062, true)] : List ((CmdHdr → Nat → Instr) × Nat × Bool)),
    ∀ (h : CmdHdr) (slice : Nat) (s s1 : State) (b : Binding), s.paused = false → Starts s h e.2.1 operatorRole s1 b →
      (s1.oneByOne h e.2.1 b = true → Answers (e.1 h slice) s fun t => t = s1.takeTurn (e.1 h slice) h e.2.1 b) ∧
      (s1.oneByOne h e.2.1 b = false → (e.2.2 = true → 0 < slice) → slice < 1024 →
      (s1.sliceOf slice).state = 1 → Answers (e.1 h slice) s fun t =>
        let s2 := s1.updSlice slice fun x => { x with
          state := if e.2.2 then 3 else 2, resetting := some ⟨h, b.slice, e.2.2, false⟩ }
        let v := (s1.genOf slice + 1) % 4096
        (s2.untagged slice v = false → t = s2) ∧
        (s2.untagged slice v = true → t.genOf slice = v ∧
          (t.sliceOf slice).resetting = some ⟨h, b.slice, e.2.2, true⟩ ∧ (t.sliceOf slice).state = (if e.2.2 then 3 else 2)))) ∧
  (∀ (h : CmdHdr) (qid : Nat) (q : Queue) (s s1 : State) (b : Binding), s.paused = false → Starts s h 0x0004 anyRole s1 b →
    s1.oneByOne h 0x0004 b = false → s1.queueOf b.slice qid = some q → Answers (.queueReset h qid) s fun t =>
      let s2 := s1.updSlice b.slice fun x => { x with state := 2, resetting := some ⟨h, b.slice, false, false⟩ }
      let v := (s1.genOf b.slice + 1) % 4096
      (s2.untagged b.slice v = false → t = s2) ∧
      (s2.untagged b.slice v = true → t.genOf b.slice = v ∧
        (t.sliceOf b.slice).resetting = some ⟨h, b.slice, false, true⟩ ∧ (t.sliceOf b.slice).state = 2)) ∧
  (∀ (slice : Nat) (r : Raise) (s : State), (s.sliceOf slice).resetting = some r → r.raised = true → r.remove = false →
    s.drained slice = true → r.home = slice ∨ r.h.gen = s.genOf r.home → Answers (.sliceResetDrained slice) s fun t =>
      t = (s.updSlice slice fun x => { x with state := 1, resetting := none }).postAs r.home r.h (s.genOf slice) 0 0 []) ∧
  (∀ (slice : Nat) (r : Raise) (s : State), (s.sliceOf slice).resetting = some r → r.raised = true → r.remove = true →
    s.drained slice = true → s.removable slice = true → Answers (.sliceResetDrained slice) s fun t =>
      (t.sliceOf slice).state = 0 ∧ t.genOf slice = s.genOf slice ∧ (∀ x ∈ t.bindings, x.slice ≠ slice) ∧
        (∀ x ∈ t.tables, x.slice ≠ slice) ∧ (∀ x ∈ t.flowState, x.slice ≠ slice) ∧ (∀ x ∈ t.ks.tables, x.slice ≠ slice)) ∧
  (∀ (h : CmdHdr) (pid slice role : Nat) (s s1 : State) (b : Binding), s.paused = false → Starts s h 0x0063 custodianRole s1 b →
    s1.bindingOf pid = none → s1.bindings.length < 16384 → 0 < pid → pid < 2 ^ 20 → slice < 1024 →
    (s1.sliceOf slice).state = 1 → (role = 0 ∧ slice ≠ 0) ∨ ((role = 1 ∨ role = 2) ∧ slice = 0) →
      Answers (.sliceBind h pid slice role) s fun t =>
        t = State.fanOut s1 (.sliceBind h pid slice role) h 0x0063 b (({ s1 with
          bindings := s1.bindings ++ [⟨pid, slice, role⟩] } : State).finish b.slice h 0 0 [])) ∧
  (∀ (h : CmdHdr) (pid : Nat) (x : Binding) (s s1 : State) (b : Binding), s.paused = false → Starts s h 0x0064 custodianRole s1 b →
    s1.bindingOf pid = some x → x.role ≠ 2 ∨ (s1.bindings.filter fun y => y.role == 2).length ≠ 1 →
      Answers (.sliceUnbind h pid) s fun t =>
        t = State.fanOut s1 (.sliceUnbind h pid) h 0x0064 b (({ s1 with
          bindings := s1.bindings.filter fun y => y.pid != pid } : State).finish b.slice h 0 0 [])) ∧
  (∀ (h : CmdHdr) (space : Nat) (s s1 : State) (b : Binding), s.paused = false → Starts s h 0x0065 tenantRole s1 b → space < 4096 →
    (s1.ctxs.any fun c => c.slice == b.slice && c.image.namesSpace space) = false → Answers (.stateClear h space) s fun t =>
      t = State.fanOut s1 (.stateClear h space) h 0x0065 b (({ s1 with
        flowState := s1.flowState.filter fun f => !(f.slice == b.slice && f.space == space) } : State).finish b.slice h 0 0 []))

/-! ### Attestation, firmware and keys (R534-R546) -/

/-- A pair has taken the bank over: the pairs are as `q` says, and the management plane pauses for at most 800 ticks (R15),
how long being open (assumption 12: DESIGN CHOICE). -/
def Sys2Proof.Claims.Pauses (s t : State) (q : QuoinSt) : Prop :=
  ∃ until_, t.quoin = { q with pausedUntil := some until_ } ∧ s.now ≤ until_ ∧ until_ ≤ s.now + 800

/-- R537-R546: certificates, reports and their tokens; staging, activation, the switch, the end of a trial and its
failure; the debug scrub. -/
def Obligations.TrustCommandsAndEvents : Prop :=
  (∀ s : State, s.trust.stageState ≠ 4 → s.trust.run.measurement ≠ [] → s.hasCert s.trust.run.measurement = false →
    s.canSign = true → Answers .identityCertIssue s fun t =>
      t.hasCert s.trust.run.measurement = true ∧ t.trust.issueSeq = s.trust.issueSeq + 1 ∧
        t.trust.hssNext = s.trust.hssNext + 1 ∧
        t = { s with
          trust := { s.trust with
            certs := t.trust.certs, issueSeq := t.trust.issueSeq, hssReserved := t.trust.hssReserved,
            hssNext := t.trust.hssNext, hssPending := t.trust.hssPending }
          objs := t.objs }) ∧
  (∀ (h : CmdHdr) (nonce : List Byte) (s s1 : State) (b : Binding), s.paused = false → Starts s h 0x0070 anyRole s1 b → nonce.length = 48 →
    s1.trust.debug ≠ 2 → s1.trust.gated = false → s1.hssLeft ≠ 0 → s1.bindingOf h.pid = some b →
    Waiting.attest h nonce ∉ s1.host.waiting → Answers (.attest h nonce) s fun t =>
      (16 < s1.trust.tokens → s1.canSign = true →
        Completes (s1.makeReport nonce).1 t b.slice h 0 0 (s1.makeReport nonce).2) ∧
      (s1.trust.tokens ≤ 16 →
        t = { s1 with host := { s1.host with waiting := s1.host.waiting ++ [.attest h nonce] } })) ∧
  (∀ s : State, s.trust.lastToken + 50000000 ≤ s.now → Answers .attestTokenGain s fun t =>
    let s1 : State := { s with trust := { s.trust with
      tokens := min 64 (s.trust.tokens + 1), lastToken := s.trust.lastToken + 50000000 } }
    t = s1.host.waiting.foldl State.attestNow s1) ∧
  (∀ s : State, s.trust.hssPending = true → (s.trust.hssTree + 1) * hssTreeSize < hssTotal → Answers .hssTreeGenerate s fun t =>
    t = { s with trust := { s.trust with hssTree := s.trust.hssTree + 1, hssPending := false } }) ∧
  (∀ (h : CmdHdr) (offset : Nat) (final : Bool) (data : List Byte) (s s1 : State) (b : Binding),
    s.paused = false → Starts s h 0x0071 custodianRole s1 b → s1.trust.stageState ≠ 4 → s1.trust.stageState ≠ 5 →
    offset = 0 ∨ (s1.trust.stageState = 1 ∧ s1.trust.stageOwner = 1 ∧ s1.trust.stageAt = offset) →
    offset + data.length ≤ bankSize → Answers (.fwStage h offset final data) s fun t =>
      let old := if offset = 0 then [] else s1.trust.bank s1.trust.inactive
      let t1 : TrustSt := { s1.trust.setInactive (old ++ data) with
        stageState := 1, stageOwner := 1, stageAt := offset + data.length,
        stagedMark := if offset = 0 then false else s1.trust.stagedMark }
      let x := if final then t1.finishStage else (t1, 0)
      t = State.fanOut s1 (.fwStage h offset final data) h 0x0071 b
        (({ s1 with trust := x.1 } : State).finish b.slice h x.2 0 [])) ∧
  (∀ (h : CmdHdr) (s s1 : State) (b : Binding), s.paused = false → Starts s h 0x0072 custodianRole s1 b → s1.oneByOne h 0x0072 b = false →
    s1.trust.stageState = 2 →
    Answers (.fwActivate h) s fun t =>
      (Config.handoverOk s1.trust.run.handover s1.trust.nextRun.handover = true → t = { s1 with
        trust := { s1.trust with stageState := 4, next := s1.trust.nextRun }
        host := { s1.host with waiting := s1.host.waiting ++ [.activate h] } }) ∧
      (Config.handoverOk s1.trust.run.handover s1.trust.nextRun.handover = false → Completes s1 t b.slice h 0x0A07 0 [])) ∧
  (∀ s : State, s.trust.stageState = 4 → s.quoin.standby = true →
    s.hasCert s.trust.next.measurement = true ∨ s.canSign = false →
    Answers .fwStateCopyDone s fun t => t.trust.run = s.trust.next ∧ t.trust.prev = s.trust.run ∧ t.trust.stageState = 5 ∧
      t.trust.switchAt = s.now ∧ t.trust.bootBank = s.trust.bootBank ∧ Claims.Pauses s t { s.quoin with active := 1 - s.quoin.active } ∧
      t = { s with trust := t.trust, quoin := t.quoin, host := t.host, free := t.free }) ∧
  (∀ s : State, s.trust.stageState = 5 → s.trust.switchAt + s.objNum 0x7010 3 [] 0 600 * 25000000 ≤ s.now →
    Answers .fwTrialExpiry s fun t => t = { s with
      trust := { s.trust with bootBank := s.trust.inactive, stageState := 0, stagedMark := false }
      quoin := { s.quoin with standby := false } }) ∧
  (∀ s : State, s.trust.stageState = 5 → s.quoin.active ∉ s.quoin.fenced → s.quoin.standby = true →
    Answers .trialPairFailure s fun t => t.trust.run = s.trust.prev ∧ t.trust.stageState = 2 ∧
      t.trust.bootBank = s.trust.bootBank ∧
      Claims.Pauses s t { s.quoin with
        active := 1 - s.quoin.active, standby := false, fenced := s.quoin.fenced ++ [s.quoin.active] } ∧ t.err.exposed.testBit 11 = true) ∧
  (∀ s : State, s.trust.debug = 1 → Answers .debugScrubDone s fun t =>
    t.mem = [] ∧ t.cores = [] ∧ t.ctxs = [] ∧ t.runs = [] ∧ t.tables = [] ∧ t.flowState = [] ∧ t.dg.slots = [] ∧
      (∀ e ∈ t.slices, e.2.kek = none) ∧ t.trust = { s.trust with debug := 2, gated := true })

/-! ### Units that fail (R16, R182, R302, R303, R494, R497, R500) -/

/-- R16, R182, R302, R303, R494, R497, R500: a unit that fails is withdrawn, its exposure is set, and its work goes on
elsewhere. -/
def Obligations.FailedUnitsAreWithdrawn : Prop :=
  (∀ (bay : Nat) (s : State), s.bayLive bay = true → Answers (.bayLost bay) s fun t =>
    bay ∈ t.mason.lostBays ∧ t.err.exposed.testBit 8 = true ∧ t.time = s.time ∧ t.slices = s.slices) ∧
  (∀ e ∈ ([(.stoneFault, false), (.stoneHangTimeout, true)] : List ((Nat → Nat → Instr) × Bool)), ∀ (bay slot : Nat) (s : State),
    s.stoneLive bay slot = true →
    (e.2 = true → (s.coreOf (.stone bay slot)).firing.isSome = true ∧ s.awaitsDelivery (.stone bay slot) = false) →
      Answers (e.1 bay slot) s fun t => (bay, slot) ∈ t.mason.fencedStones ∧ t.err.exposed.testBit 0 = true ∧
        tget bay t.mason.stoneFaults = some s.now ∧ t.time = s.time ∧ t.slices = s.slices) ∧
  (∀ (pch : Nat) (s : State), pch < 192 → pch ∉ s.memx.pch → Answers (.pchFailed pch) s fun t =>
    t.memx.pch = s.memx.pch ++ [pch] ∧ t.err.exposed.testBit 4 = true ∧ t.time = s.time ∧ t.slices = s.slices) ∧
  (∀ (ch : Nat) (s : State), ch < 8 → s.memx.dramState = 1 → Answers (.dramChannelLost ch) s fun t =>
    t.memx.dramState = 3 ∧ t.err.exposed.testBit 5 = true ∧
      (∀ x ∈ t.tables, ∀ c ∈ x.columns, ∀ a ∈ c, a.tier ≠ 1) ∧
      t = { s with
        memx := { s.memx with dramState := 3 }, tables := t.tables, objs := t.objs, err := t.err, can := t.can }) ∧
  (∀ (ch : Nat) (s : State), ch < 8 → ch ∉ s.st.lostChannels → Answers (.onfiChannelLost ch) s fun t =>
    let fall := fun (n : Nat) => if s.st.lostChannels = [] then n * 6 / 7 else n
    t.st.lostChannels = s.st.lostChannels ++ [ch] ∧ t.st.capacity = fall s.st.capacity ∧
      t.led.capacity = fall s.led.capacity ∧ t.led.free = fall s.led.free ∧ t.st.blocks = s.st.blocks ∧
      t.led.buffer = s.led.buffer ∧ t.led.seals = s.led.seals ∧ t.err.exposed.testBit 6 = true) ∧
  (∀ (bay lane : Nat) (s : State), s.bayLive bay = true → lane < 4 → (bay, lane) ∉ s.mason.fencedLanes →
    Answers (.digestLaneFault bay lane) s fun t =>
      t.mason.fencedLanes = s.mason.fencedLanes ++ [(bay, lane)] ∧ t.err.exposed.testBit 9 = true ∧
        tget (bay, lane) t.dg.lanes = none) ∧
  (∀ (pair : Nat) (s : State), pair < 2 → pair ∉ s.quoin.fenced → Answers (.quoinMismatch pair) s fun t =>
    (pair = s.quoin.active ∧ s.quoin.standby = true →
      Claims.Pauses s t { s.quoin with active := 1 - pair, standby := false, fenced := s.quoin.fenced ++ [pair] }) ∧
    (pair ≠ s.quoin.active ∨ s.quoin.standby = false →
      t.quoin = { s.quoin with standby := false, fenced := s.quoin.fenced ++ [pair] }) ∧ t.err.exposed.testBit 11 = true ∧ t.trust.bootBank = s.trust.bootBank ∧
      (s.trust.stageState ≠ 4 → s.trust.stageState ≠ 5 → t.trust = s.trust)) ∧
  (∀ (x : Transfer494) (n : Nat) (s : State), n ≠ 4 → Answers (.transferReplay x n) s (· = s)) ∧
  (∀ (seq : Nat) (i : Item) (s : State), s.itemOf seq = some i → i.answer.isSome = true → i.recorded = false →
    Answers (.transferReplay (.ledgerRecord seq) 4) s fun t => t = s.record 0 0 0 0x0686 0) ∧
  (∀ s : State, Answers (.transferReplay (.errorRecord 0 none none) 4) s fun t => t = s.record 1 0 0 0x0688 0) ∧
  (∀ (u : CoreId) (s : State), (s.coreOf u).firing.isSome = true ∨ coreBay u = none →
    ((tgetD u [] s.err.transfers).filter fun a => decide (s.now < a + 25000000)).length < 2 →
      Answers (.transferReplay (.core u) 4) s fun t =>
        t = ({ s with err := { s.err with transfers := tset u (((tgetD u [] s.err.transfers).filter fun a =>
          decide (s.now < a + 25000000)) ++ [s.now]) s.err.transfers } } : State).coreFault u 0x0686 0 none)
/-! ### Objects (R29, R195, R406-R411, R465-R481, R489, R534, R535, R542-R546) -/

/-- A capsule that reads (`write` false) or writes an object starts: its binding reaches the object, it passes the checks of
R448, no pause of the management plane holds it (R15), and it is served by binding `b` on `s1`. -/
def Sys2Proof.Claims.Opens (s : State) (h : CmdHdr) (write : Bool) (a : ObjAddr) (s1 : State) (b : Binding) : Prop :=
  s.objRefused h (if write then 0x0011 else 0x0010) a = none ∧ s.canWaits a write = false ∧
    ∃ s0, Starts s h (if write then 0x0011 else 0x0010) anyRole s0 b ∧ s1 = s0.awake

/-- R477, R479, R484, R505: a read returns the value with its flags; each row that writes an object writes its bytes at
its address, from a capsule or over CAN FD, and is answered when the write passes, in a group by the other members too
(`State.fanOut`; assumption 99: DESIGN CHOICE); a store ends; coalescing entries close. R15: while the plane pauses, a write
and a read of an object that is not public are held. -/
def Obligations.ObjectCommandsReadAndWrite : Prop :=
  (∀ (h : CmdHdr) (a : ObjAddr) (v : List Byte) (flags : Nat) (s s1 u : State) (b : Binding),
    Claims.Opens s h false a s1 b → s1.readObj false b.view a = .ok (v, flags, u) → Answers (.objRead h a) s fun t =>
      Completes u t b.slice h 0 (objDetail 0 flags v) v) ∧
  (∀ (h : CmdHdr) (a : ObjAddr) (v : List Byte) (s s1 u : State) (b : Binding), Claims.Opens s h true a s1 b →
    a.index ≠ 0x1010 → s1.writeObj false b.view b.slice a v = .ok u → Answers (.objWrite h a v) s fun t =>
      t = State.fanOut s1 (.objWrite h a v) h 0x0011 b (u.postAs b.slice h h.gen 0 0 [])) ∧
  (∀ (h : CmdHdr) (a : ObjAddr) (v : List Byte) (s s1 : State) (b : Binding), s.paused = true →
    (s.objRefused h 0x0011 a = none → s.acceptCmd h 0x0011 anyRole = (s1, some b) →
      exec (.objWrite h a v) s = .next ((s1.keepRow (.objWrite h a v) h 0x0011).hold (.objWrite h a v))) ∧
    (isPublic a = false → s.objRefused h 0x0010 a = none → s.acceptCmd h 0x0010 anyRole = (s1, some b) →
      exec (.objRead h a) s = .next ((s1.keepRow (.objRead h a) h 0x0010).hold (.objRead h a)))) ∧
  (∀ (n m : Nat) (p : List Nat) (v : List Byte), ∀ e ∈ ([
      (fun src => Instr.pinRequest src n m, ⟨0x3800, 3, []⟩, natBytes 3 n ++ natBytes 1 (min 255 m)),
      (fun src => Instr.memberLeave src n, ⟨0x2002, 7, []⟩, natBytes 1 (min 255 n)),
      (fun src => Instr.fwStageData src v, ⟨0x7010, 2, []⟩, v),
      (fun src => Instr.svnCommit src n, ⟨0x7000, 5, []⟩, natBytes 1 (min 255 n)),
      (fun src => Instr.vendorKeyRevoke src n, ⟨0x7000, 3, []⟩, natBytes 1 (min 255 n)),
      (fun src => Instr.sliceKek src (n % 1024) v, ⟨0x4000 + n % 1024, 22, []⟩, v),
      (fun src => Instr.canfdKeyOperator src v, ⟨0x1103, 1, []⟩, v),
      (fun src => Instr.canfdKeyCustodian src v, ⟨0x1103, 2, []⟩, v),
      (fun src => Instr.custodianBind src n, ⟨0x1104, 1, []⟩, natBytes 4 (min u32Max n)),
      (fun src => Instr.debugUnlock src v, ⟨0x7020, 3, []⟩, v),
      (fun src => Instr.epochSecond src n, ⟨0x3000, 4, []⟩, natBytes 8 (min u64Max n)),
      (fun src => Instr.allotmentWrite src (n % 1024) 4 m, ⟨0x4000 + n % 1024, 4, []⟩, natBytes 2 (min 65535 m)),
      (fun src => Instr.allotmentWrite src (n % 1024) 5 m, ⟨0x4000 + n % 1024, 5, []⟩, natBytes 4 (min (256 ^ 4 - 1) m)),
      (fun src => Instr.overflowClear src (n % 1024) m, ⟨0x4000 + n % 1024, 25, []⟩, natBytes 2 (min 65535 m)),
      (fun src => Instr.store src n, ⟨0x1010, 1, []⟩, natBytes 2 (min 65535 n)),
      (fun src => Instr.restore src n, ⟨0x1011, 1, []⟩, natBytes 2 (min 65535 n)),
      (fun src => Instr.ringAck src ⟨0x5100, 3, p⟩ n, ⟨0x5100, 3, p⟩, natBytes 1 (min 255 n)),
      (fun src => Instr.ringOverflowClear src ⟨0x5100, 4, p⟩ n, ⟨0x5100, 4, p⟩, natBytes 1 (min 255 n)),
      (fun src => Instr.firstClear src ⟨0x5100, 7, p⟩ n, ⟨0x5100, 7, p⟩, natBytes 1 (min 255 n))] : List ((ObjSrc → Instr) × ObjAddr × List Byte)),
    (∀ (h : CmdHdr) (s s1 u : State) (b : Binding), Claims.Opens s h true e.2.1 s1 b →
      s1.writeObj false b.view b.slice e.2.1 e.2.2 = .ok u → Answers (e.1 (.capsule h)) s fun t =>
        t = State.fanOut s1 (e.1 (.capsule h)) h 0x0011 b
          (if e.2.1.index = 0x1010 then { u with host := { u.host with waiting := u.host.waiting ++ [.store h] } }
          else u.postAs b.slice h h.gen 0 0 [])) ∧
    (∀ (s u : State), s.canHears = true → s.canWaits { e.2.1 with path := s.can.path } true = false → s.canHeld { e.2.1 with path := s.can.path } true = false →
      s.displace.touched.canReach { e.2.1 with path := s.can.path } true = 0 →
      s.displace.touched.awake.writeObj true none 0 { e.2.1 with path := s.can.path } e.2.2 = .ok u →
        Answers (e.1 .canfd) s fun t =>
          t = if e.2.1.index = 0x1010 then { u with can := { u.can with storeWait := true } }
            else u.canReply 0x82 { e.2.1 with path := s.can.path } [])) ∧
  (∀ (x : StoredSet) (ok : Bool) (s : State), s.stored.snapshot = some x → Answers (.storeMramDone ok) s fun t =>
    ∃ s1 : State, t = s1.host.waiting.foldl State.storeAnswered s1 ∧
      s1.stored = { (if ok then s.stored.commit x else s.stored) with status := if ok then 2 else 3, snapshot := none } ∧
      s1.can.storeWait = false ∧ (s.can.storeWait = false → s1.can = s.can) ∧
      s1 = { s with stored := s1.stored, can := s1.can, objs := s1.objs }) ∧
  (∀ (ring : Nat) (s : State), Answers (.coalesceEntryClose ring) s fun t =>
    (∀ e ∈ t.err.rings, e.1 = ring → ∀ c ∈ e.2.coal, s.now < c.time + 25) ∧
      (∀ r, (t.ringOf r).recs = (s.ringOf r).recs ∧ (t.ringOf r).first = (s.ringOf r).first) ∧
      t = { s with err := { s.err with rings := t.err.rings } })

/-- R29, R195, R411, R481, R489, R510, R534: what a write leaves that passes the checks of R466 and R467 at the device: a
pin, a key, a binding, a commit, an epoch, a store, a restore, an acknowledged ring. -/
def Obligations.ObjectWritesTakeEffect : Prop :=
  ∀ (canfd : Bool) (view : Option Nat) (sl : Nat) (d : ObjDef) (p : List Nat) (s : State),
    (∀ (id : Nat), id < 2 ^ 24 → (∃ x ∈ s.tables, x.slice = sl ∧ x.id = id) →
      s.applyWrite canfd .device view sl d ⟨0x3800, 3, p⟩ (natBytes 3 id ++ natBytes 1 1) = .ok (s.pinTable sl id true)) ∧
    (∀ node < 64, (s.group.memberAt node).isSome →
      s.applyWrite canfd .device view sl d ⟨0x2002, 7, p⟩ (natBytes 1 node) = .ok (s.memberLeave node)) ∧
    (∀ v < 256, v = s.trust.run.svn → s.trust.counter ≤ v →
      s.applyWrite canfd .device view sl d ⟨0x7000, 5, p⟩ (natBytes 1 v) =
        .ok { s with trust := { s.trust with mramSvn := v, otpSvn := v } }) ∧
    (∀ n v, n < 1024 → 0 < n → (s.sliceOf n).state ≠ 0 → s.trust.gated = false →
      s.applyWrite canfd .device view sl d ⟨0x4000 + n, 22, p⟩ v = match s.openDelivery 1 n 32 v with
        | .ok k => .ok (s.updSlice n fun x => { x with kek := some k })
        | .error c => .error (c, 0x05)) ∧
    (∀ v, s.trust.gated = false →
      s.applyWrite canfd .device view sl d ⟨0x1103, 1, p⟩ v = match s.openDelivery 2 0 48 v with
        | .ok k => .ok { s with can := { s.can with keyOperator := k } }
        | .error c => .error (c, 0x05)) ∧
    (∀ v, s.trust.gated = false →
      s.applyWrite canfd .device view sl d ⟨0x1103, 2, p⟩ v = match s.openDelivery 3 0 48 v with
        | .ok k => .ok { s with can := { s.can with keyCustodian := k } }
        | .error c => .error (c, 0x05)) ∧
    (∀ pid < 2 ^ 32, s.bindCheck pid 0 2 = 0 → canfd = true →
      s.applyWrite canfd .device view sl d ⟨0x1104, 1, p⟩ (natBytes 4 pid) =
        .ok { s with bindings := s.bindings ++ [⟨pid, 0, 2⟩] }) ∧
    (∀ v < 2 ^ 64, s.time.ppsState ≠ 0 → ∃ t, s.applyWrite canfd .device view sl d ⟨0x3000, 4, p⟩ (natBytes 8 v) = .ok t ∧
      t.objNum 0x3000 4 [] 0 0 = v ∧ t.time = { s.time with epochArmed := true } ∧ t = { s with objs := t.objs, time := t.time }) ∧
    (∀ n sub v, n < 1024 → 4 ≤ sub → sub ≤ 18 → ∀ t, s.writeAllot n sub (beNat v) = .ok t →
      s.applyWrite canfd .device view sl d ⟨0x4000 + n, sub, p⟩ v = .ok t) ∧
    (∀ n c, n < 1024 → c < 65536 → (∃ x ∈ s.ctxs, x.num = c ∧ x.slice = n) →
      s.applyWrite canfd .device view sl d ⟨0x4000 + n, 25, p⟩ (natBytes 2 c) =
        .ok (s.updCtx c fun x => { x with overflow := false })) ∧
    (s.stored.status ≠ 1 → s.applyWrite canfd .device view sl d ⟨0x1010, 1, p⟩ (natBytes 2 0x7365) = .ok s.startStore) ∧
    (s.stored.status ≠ 1 → s.applyWrite canfd .device view sl d ⟨0x1011, 1, p⟩ (natBytes 2 0x6C64) =
      .ok { s with stored := { s.stored.commit s.stored.defaults with restoreStatus := 2 } }) ∧
    (∀ v, 5 ≤ v.length → beNat (slice v 4 1) ≤ 1 →
      (s.trust.stage 2 (beNat (v.take 4)) (beNat (slice v 4 1) == 1) (v.drop 5)).2 = 0 →
      s.applyWrite canfd .device view sl d ⟨0x7010, 2, p⟩ v =
        .ok { s with trust := (s.trust.stage 2 (beNat (v.take 4)) (beNat (slice v 4 1) == 1) (v.drop 5)).1 }) ∧
    (∀ v, (∀ c ∈ s.ctxs, c.image.cls = 2) →
      (s.tokenOk v = true → ∃ t, s.applyWrite canfd .device view sl d ⟨0x7020, 3, p⟩ v = .ok t ∧ t.trust.debug = 1) ∧
      (s.tokenOk v = false → ∃ c, s.applyWrite canfd .device view sl d ⟨0x7020, 3, p⟩ v = .error (c, 0x05))) ∧
    (∀ sub n, n < 256 → sub = 3 ∨ sub = 4 ∨ sub = 7 → ∃ t,
      s.applyWrite canfd .device none sl d ⟨0x5100, sub, p⟩ (natBytes 1 n) = .ok t ∧
      (sub = 3 → (t.ringOf 0).recs = ackRecs n (s.ringOf 0).recs) ∧
      (sub = 4 → n = 1 → (t.ringOf 0).overflow = false ∧ (t.ringOf 0).lost = 0) ∧
      (sub = 7 → n = 1 → (t.ringOf 0).first = none) ∧ (∀ r, r ≠ 0 → t.ringOf r = s.ringOf r) ∧
      t = { s with err := { s.err with rings := t.err.rings } })

/-- R535: the write of 0x5A to VENDOR_KEY_REVOKE, which only a Custodian reaches, revokes set 0 while every running stage
was verified under set 1 and fails with KEY_REVOKE_REFUSED otherwise; no command revokes set 1, and none takes a revocation
back. -/
def Obligations.VendorKeyRevocationIsPermanent : Prop :=
  (∀ (h : CmdHdr) (s s1 : State) (b : Binding), Claims.Opens s h true ⟨0x7000, 3, []⟩ s1 b → s1.group.grouped = false →
    Answers (.vendorKeyRevoke (.capsule h) 0x5A) s fun t =>
      (s1.trust.run.keySet0 = 1 ∧ s1.trust.run.keySet = 1 →
        t = ({ s1 with trust := { s1.trust with revoked := withBit s1.trust.revoked 0 } } : State).postAs b.slice h h.gen 0 0 []) ∧
      (s1.trust.run.keySet0 ≠ 1 ∨ s1.trust.run.keySet ≠ 1 →
        ∃ s2, Starts s h 0x0011 anyRole s2 b ∧ Completes s2 t b.slice h 0x0A09 (objDetail 0x05 0 []) [])) ∧
  (∀ s : State, s.canHears = true → s.paused = false → s.power.frozen = false → s.can.path = [] → s.can.role = 2 → s.group.grouped = false →
    Answers (.vendorKeyRevoke .canfd 0x5A) s fun t =>
      (s.trust.run.keySet0 = 1 ∧ s.trust.run.keySet = 1 →
        t.trust = { s.trust with revoked := withBit s.trust.revoked 0 }) ∧
      (s.trust.run.keySet0 ≠ 1 ∨ s.trust.run.keySet ≠ 1 → t.trust = s.trust)) ∧
  (∀ (role sl : Nat) (s : State), role ≠ 2 →
    s.objReach role sl ⟨0x7000, 3, []⟩ true ≠ 0 ∧ roleReach role ⟨0x7000, 3, []⟩ true ≠ 0) ∧
  (∀ (c : Instr) (s t : State), exec c s = .next t → (s.trust.revoked.testBit 1 = false → t.trust.revoked.testBit 1 = false) ∧
    (s.trust.revoked.testBit 0 = true → t.trust.revoked.testBit 0 = true))
/-! ### The field network (R482-R488) -/

/-- A request that the node hears and that displaces no open transfer, from the state in which it has been counted. -/
def Sys2Proof.Claims.Hears (s s1 : State) : Prop :=
  s.canHears = true ∧ s1 = s.displace.touched

/-- R482-R488: requests about objects are answered, segments carry long values both ways, the path, the session and its
timeouts, the heartbeat and the error counters. R15: while the management plane pauses, a request about an object that is not a
read of a public one is held. -/
def Obligations.FieldNetworkRequestsAreServed : Prop :=
  (∀ (f v : List Byte) (s s1 u : State), Claims.Hears s s1 → s.canWaits (s.frameAddr f) false = false → s.canHeld (s.frameAddr f) false = false →
    s1.canRead (s.frameAddr f) = .ok (v, u) →
      (segmented (s.frameAddr f) = false → Answers (.read f) s fun t => t = u.canReply 0x81 (s.frameAddr f) v) ∧
      (segmented (s.frameAddr f) = true → Answers (.segRead f) s fun t =>
        t = (u.canReply 0x83 (s.frameAddr f) (natBytes 4 v.length)).sendSegments
          ⟨false, s.frameAddr f, v.length, v, 0, 0, s.now⟩)) ∧
  (∀ (f : List Byte) (s : State), s.canHears = true →
    (s.canWaits (s.frameAddr f) false = true →
      exec (.read f) s = .next (s.hold (.read f)) ∧ exec (.segRead f) s = .next (s.hold (.segRead f))) ∧
    (s.paused = true →
      exec (.write f) s = .next (s.hold (.write f)) ∧ exec (.segWrite f) s = .next (s.hold (.segWrite f)))) ∧
  (∀ (f : List Byte) (n : Nat) (s s1 : State), Claims.Hears s s1 → s.paused = false → s.canHeld (s.frameAddr f) true = false →
    s1.canReach (s.frameAddr f) true = 0 → segmented (s.frameAddr f) = false → fixedSize (s.frameAddr f) = some n →
    f.length = canSize (4 + n) → Answers (.write f) s fun t => t = s1.canWrite (s.frameAddr f) (slice f 4 n)) ∧
  (∀ (f : List Byte) (s s1 : State), Claims.Hears s s1 → s.paused = false → s.canHeld (s.frameAddr f) true = false →
    s1.segRefusal (s.frameAddr f) (beNat (slice f 4 4)) = 0 → 0 < beNat (slice f 4 4) → Answers (.segWrite f) s fun t =>
      t = (s1.canReply 0x84 (s.frameAddr f) []).setTransfer
        (some ⟨true, s.frameAddr f, beNat (slice f 4 4), [], 0, 0, s.now⟩)) ∧
  (∀ (f : List Byte) (x : Transfer) (s : State), s.canHears = true → s.paused = false → s.power.frozen = false → s.can.transfer = some x →
    x.writing = true → beNat (slice f 1 1) = x.nextSeq % 256 → f.length = canSize (2 + segSize x.total x.nextSeq) →
      Answers (.segData f) s fun t =>
        let y := { x with
          data := x.data ++ slice f 2 (segSize x.total x.nextSeq), nextSeq := x.nextSeq + 1, last := s.now }
        let ack : Bool := y.nextSeq % 16 = 0 ∨ y.total ≤ y.data.length
        let u := if ack then s.touched.canSend 6 (natBytes 1 0x86 ++ natBytes 1 (x.nextSeq % 256)) else s.touched
        if y.data.length < y.total then t = u.setTransfer (some { y with acked := if ack then y.nextSeq else y.acked })
        else t = (u.setTransfer none).canWrite x.addr y.data) ∧
  (∀ (f : List Byte) (x : Transfer) (k : Nat) (s : State), s.canHears = true → s.can.transfer = some x → x.writing = false →
    x.ackedTo (beNat (slice f 1 1)) = some k → Answers (.segAck f) s fun t =>
      t = s.touched.sendSegments { x with acked := k }) ∧
  (∀ (f : List Byte) (s : State), s.canHears = true → Answers (.abort f) s fun t =>
    t = (s.touched.setTransfer none).canAbort (s.frameAddr f) 0x16) ∧
  (∀ (x : Transfer) (s : State), s.can.transfer = some x → x.last + 25000000 ≤ s.now → Answers .segmentTimeout s fun t =>
    t = (s.setTransfer none).canAbort x.addr 0x15) ∧
  (∀ (f : List Byte) (s s1 : State), Claims.Hears s s1 → beNat (slice f 1 1) ≤ 8 →
    (∀ c ∈ (unpackBytes (fitList 12 0 (slice f 2 12))).drop (beNat (slice f 1 1)), c = 0xFFF) → Answers (.path f) s fun t =>
      t = ({ s1 with can := { s1.can with
        path := ((unpackBytes (fitList 12 0 (slice f 2 12))).take (beNat (slice f 1 1))).map fun c => c.toNat } } : State).canSend 6
          (natBytes 1 0x88)) ∧
  (∀ (f : List Byte) (s s1 : State), Claims.Hears s s1 → (∀ k, s1.can.lockedUntil = some k → k ≤ s.now) →
    s1.roleKey (beNat (slice f 1 1)) ≠ [] → Answers (.sessionOpen f) s fun t =>
      ∃ nonce, nonce.length = 32 ∧ t.can.challenge = some (beNat (slice f 1 1), beNat nonce, s.now) ∧ t.can.role = 0 ∧
        t.can.path = [] ∧ t.can.out = s1.can.out ++
          [canFrame 6 s1.can.node (natBytes 1 0x89 ++ natBytes 1 (beNat (slice f 1 1)) ++ nonce)] ∧
        t = { s with free := t.free, can := t.can }) ∧
  (∀ (f : List Byte) (role nonce : Nat) (since : Tick) (s s1 : State), Claims.Hears s s1 →
    s1.can.challenge = some (role, nonce, since) → Answers (.sessionProve f) s fun t =>
      let good := s.now ≤ since + 25000000 ∧ fitList 16 0 (slice f 1 16) =
        fitList 16 0 (Config.sessionProof (s1.roleKey role) (s1.proofMessage role nonce))
      (good → t = ({ s1 with can := { s1.can with challenge := none, role := role, fails := 0 } } : State).canSend 6
          (natBytes 1 0x8A ++ natBytes 1 0)) ∧
      (¬good → t = ({ s1 with can := { s1.can with challenge := none } } : State).proofFails)) ∧
  (∀ (f : List Byte) (s s1 : State), Claims.Hears s s1 → Answers (.sessionClose f) s fun t =>
    t = ({ s1 with can := { s1.can with role := 0, path := [], challenge := none } } : State).canSend 6 (natBytes 1 0x8B)) ∧
  (∀ (role nonce : Nat) (since : Tick) (s : State), s.can.challenge = some (role, nonce, since) → since + 25000000 < s.now →
    Answers .sessionProofTimeout s fun t => t = { s with can := { s.can with challenge := none } }) ∧
  (∀ s : State, s.can.role ≠ 0 → s.can.lastRequest + s.objNum 0x1101 1 [] 0 60 * 25000000 ≤ s.now →
    Answers .sessionIdleTimeout s fun t => t = { s with can := { s.can with role := 0, path := [], challenge := none } }) ∧
  (∀ (k : Tick) (s : State), s.can.lockedUntil = some k → k ≤ s.now → Answers .sessionLockoutEnd s fun t =>
    t = { s with can := { s.can with lockedUntil := none, fails := 0 } }) ∧
  (∀ s : State, s.objNum 0x1100 3 [] 0 1000 ≠ 0 → s.can.busState ≠ 2 →
    s.can.lastHeartbeat + s.objNum 0x1100 3 [] 0 1000 * 25000 ≤ s.now → Answers .heartbeat s fun t =>
      t = { s with can := { s.can with
        lastHeartbeat := s.now
        out := s.can.out ++ [canFrame 0xE s.can.node
          (natBytes 1 s.heartbeatBits ++ natBytes 1 s.can.node ++ natBytes 6 (s.now % 2 ^ 48))] } }) ∧
  (∀ (transmit : Bool) (w : Nat) (s : State), s.can.busState ≠ 2 → Answers (.canfdBusError transmit w) s fun t =>
    let tec := if transmit then s.can.tec + w else s.can.tec
    let rec_ := if transmit then s.can.rec_ else s.can.rec_ + w
    t = { s with can := { s.can with
      tec := tec, rec_ := rec_, recovery := 0, transfer := t.can.transfer
      busState := if 256 ≤ tec then 2 else if 128 ≤ tec ∨ 128 ≤ rec_ then 1 else 0 } } ∧
    (tec < 256 → t.can.transfer = s.can.transfer) ∧ (256 ≤ tec → t.can.transfer = none)) ∧
  (∀ s : State, s.can.busState = 2 → Answers .canfdBusOffRecovery s fun t =>
    t = { s with can := if s.can.recovery + 1 < 128 then { s.can with recovery := s.can.recovery + 1 }
      else { s.can with tec := 0, rec_ := 0, busState := 0, recovery := 0 } })

/-! ### Sleep and the Buttress save (R513-R523) -/

/-- R513-R523: a bay sleeps and wakes, the hub and the memories sleep and wake, and a sag freezes, saves and holds. -/
def Obligations.SleepAndSaveStates : Prop :=
  (∀ (bay : Nat) (s : State), s.bayLive bay = true → (s.bayPower bay).wakeDue = none → s.bayBusy bay = false →
    s.idleTime (s.bayPower bay).state ≠ 0 → (s.bayPower bay).idleSince + s.idleTime (s.bayPower bay).state ≤ s.now →
    s.mayDescend bay (s.bayPower bay).state = true → Answers (.bayIdleTimeout bay) s fun t =>
      t.bayPower bay = ⟨(s.bayPower bay).state + 1, s.now, none⟩ ∧
        ((s.bayPower bay).state ≠ 2 → t = s.setBayPower bay ⟨(s.bayPower bay).state + 1, s.now, none⟩)) ∧
  (∀ (bay : Nat) (s : State), s.bayLive bay = true → (s.bayPower bay).state ≠ 0 → (s.bayPower bay).wakeDue = none →
    Answers (.bayWakeRequest bay) s fun t => t = s.setBayPower bay { s.bayPower bay with wakeDue := some (s.now +
      (if (s.bayPower bay).state = 1 then 15 else if (s.bayPower bay).state = 2 then 225 else 8750)) }) ∧
  (∀ (bay : Nat) (d : Tick) (s : State), (s.bayPower bay).wakeDue = some d → d ≤ s.now → Answers (.bayWakeDone bay) s fun t =>
    t.bayPower bay = ⟨0, s.now, none⟩ ∧ (∀ b, b ≠ bay → t.bayPower b = s.bayPower b) ∧
      (2 ≤ (s.bayPower bay).state → t.objNum 0x5801 7 [] 0 0 = min u64Max (s.objNum 0x5801 7 [] 0 0 + 1)) ∧
      ((s.bayPower bay).state < 2 → t = s.setBayPower bay ⟨0, s.now, none⟩)) ∧
  (∀ s : State, s.power.hubAsleep = false → s.hubBusy = false → s.objNum 0x5801 5 [] 0 250000 ≠ 0 →
    s.power.hubIdle + s.objNum 0x5801 5 [] 0 250000 ≤ s.now → Answers .hubIdleTimeout s fun t =>
      t = { s with power := { s.power with hubAsleep := true } }) ∧
  (∀ s : State, s.power.frozen = false → Answers .hubWake s fun t =>
    t = (List.range 8).foldl State.heldIn
      { s with power := { s.power with hubAsleep := false, hubIdle := s.time.count } }) ∧
  (∀ s : State, s.baysAsleep = true → s.memBusy = false → s.gAdmitted = false → s.objNum 0x5801 6 [] 0 2500 ≠ 0 →
    s.power.memIdle + s.objNum 0x5801 6 [] 0 2500 ≤ s.now →
      Answers (.hbmSelfRefreshEntry false) s (fun t => t = { s with power := { s.power with hbmSr := true } }) ∧
      (s.memx.dramState = 1 →
        Answers (.hbmSelfRefreshEntry true) s fun t => t = { s with power := { s.power with dramSr := true } })) ∧
  (∀ s : State, Answers (.hbmSelfRefreshExit false) s (fun t => t = { s with power := { s.power with hbmSr := false } }) ∧
    Answers (.hbmSelfRefreshExit true) s fun t => t = { s with power := { s.power with dramSr := false } }) ∧
  (∀ (mv : Nat) (s : State), 3 ≤ s.power.step → Answers (.vholdMeasure mv) s fun t =>
    t = { s with power := { s.power with
      vholdMv := mv
      buttress := if s.power.save.isSome then s.power.buttress else if 11000 ≤ mv ∧ 1500 ≤ s.power.capUf then 1 else 0 } }) ∧
  (∀ (cause : SagCause) (s : State), s.power.ready = true → s.power.buttress = 1 → s.power.save = none →
    Answers (.sagDetect cause) s fun t =>
      t = { s with
        power := { s.power with
          saveStarted := true, buttress := 2, frozen := true
          save := some ⟨s.now, s.now, cause, s.power.vholdMv, false, false⟩ }
        stored := { s.stored with snapshot := none, status := if s.stored.status = 1 then 3 else s.stored.status }
        trust := { s.trust with stageState := if s.trust.stageState = 4 then 2 else s.trust.stageState } }) ∧
  (∀ (sv : Save) (s : State), s.power.save = some sv → sv.written = false → Answers .saveSetWritten s fun t =>
    t.power.save = some { sv with written := true } ∧ t.time.heldTick = s.now ∧ t.power.railEn = 0 ∧ t.power.pgood = 0 ∧
      t.mem = [] ∧ t.items = [] ∧ t.runs = [] ∧ t.ctxs = [] ∧
      (∃ x, t.power.saveSet = some x ∧ x.save = { sv with written := true } ∧ x.led = t.led) ∧
      t.objNum 0x5800 7 [] 0 0 = min u32Max (s.objNum 0x5800 7 [] 0 0 + 1)) ∧
  (∀ (sv : Save) (s : State), s.power.save = some sv → sv.written = true → s.time.heldTick + 25000 ≤ s.now →
    Answers .heldTickWrite s fun t => t = { s with time := { s.time with heldTick := s.now } }) ∧
  (∀ (sv : Save) (s : State), s.power.save = some sv → Answers .vholdExhausted s fun t =>
    t.power.save = none ∧ t.power.ready = false ∧ t.power.step = 0 ∧ t.power.railEn = 0 ∧ t.power.pgood = 0 ∧
      t.power.saveSet = s.power.saveSet ∧ t.mem = [] ∧ t.items = [] ∧ t.time = s.time ∧ t.led = s.led) ∧
  (∀ (sv : Save) (s : State), s.power.save = some sv → Answers .supplyReturnInHold s fun t =>
    t = { s with power := { s.power with save := some { sv with supply := true } } })

/-! ### Rails and power-up (R524-R527, R544, R552-R557) -/

/-- R28, R524-R527, R544, R552-R557: VAUX starts the rails, each PGOOD asserts the next, a timeout and a fall release them,
RESET_N restarts before READY alone, each step follows the one before it, and a restarted pair stands by. A mark of time that
the loss of power finds due may or may not be written, and may end cut off (assumption 92: DEDUCED). -/
def Obligations.RailsAndPowerUpSequence : Prop :=
  (∀ (node medium : Nat) (testEn : Bool) (s : State), (∀ v, s.power.save = some v → v.written = true ∧ v.supply = true) → Answers (.vauxValid node medium testEn) s fun t =>
    t.power.railEn = 1 ∧ t.power.ready = false ∧ t.power.step = 0 ∧ t.power.canStrap = node % 128 ∧
      t.power.mediumStrap = medium % 256 ∧ t.power.testEn = testEn ∧ t.mem = [] ∧ t.items = [] ∧ t.host.completions = [] ∧
      (s.power.saveSet.isSome = true → t.time.count = s.time.heldTick + 1) ∧
      (s.power.saveSet = none → ∃ tm : TimeSt, t.time.count = tm.resume ∧
        (tm = s.time ∨ s.time.markDue = true ∧ (tm = s.time.mark true ∨ tm = s.time.mark false))) ∧
      t.trust.otpSvn = s.trust.otpSvn ∧ t.trust.revoked = s.trust.revoked ∧ t.trust.banks = s.trust.banks ∧
      t.trust.bootBank = s.trust.bootBank) ∧
  (∀ (k : Nat) (s : State), k < 4 → s.power.railWait ≠ some k → s.power.railEn.testBit k = true → s.power.pgood = 2 ^ k - 1 →
    Answers (.pgoodRise k) s (fun t => t = { s with power := { s.power with
      pgood := 2 ^ (k + 1) - 1, railAt := s.now, railEn := if k < 3 then 2 ^ (k + 2) - 1 else s.power.railEn } }) ∧
    (s.power.railAt + 50000 ≤ s.now → Answers (.pgoodTimeout k) s fun t =>
      t.power = { s.power with railEn := 0, pgood := 0, railRetry := some s.now } ∧
        t = { s with power := t.power, err := t.err, free := s.free + 1 })) ∧
  (∀ (k : Nat) (s : State), s.power.railWait = some k → Answers (.pgoodRise k) s fun t => t = s.fromT0) ∧
  (∀ (a : Tick) (s : State), s.power.railRetry = some a → a + 25000000 ≤ s.now → Answers .railSequenceRetry s fun t =>
    t = { s with power := { s.power with railRetry := none, railEn := 1, pgood := 0, railAt := s.now } }) ∧
  (∀ (k : Nat) (s : State), s.power.save = none → s.power.railEn.testBit k = true → s.power.pgood.testBit k = true →
    Answers (.pgoodFall k) s fun t =>
      (s.power.ready = false → t = { s with power := { s.power with step := 0, railEn := 0, pgood := 0, railWait := some k } }) ∧
      (s.power.ready = true → t = s.sag .coreRail)) ∧
  (∀ s : State, s.power.ready = true → Answers .resetN s (· = s)) ∧
  (∀ s : State, s.power.ready = false → s.power.save = none →
    s.power.railEn ≠ 0 ∨ s.power.railRetry ≠ none ∨ s.power.railWait ≠ none → Answers .resetN s fun t =>
    t = { s with power := { s.power with
      step := 0, railEn := 1, pgood := 0, railAt := s.now, railRetry := none, railWait := none } }) ∧
  (∀ (obs : StepObs) (s u : State), s.power.ready = false → s.power.save = none → s.power.railEn ≠ 0 →
    s.powerStep obs = some u → Answers (.powerUpStepDone obs) s fun t =>
      t = { u with power := { u.power with step := s.power.step + 1 } } ∧
        (t.power.ready = true ↔ s.power.step = 8)) ∧
  (∀ s : State, s.quoin.standby = false → 3 ≤ s.power.step → 1 - s.quoin.active ∉ s.quoin.fenced →
    Answers .standbyPairReady s fun t => t.quoin = { s.quoin with standby := true } ∧ t.err.exposed.testBit 11 = false ∧
      t = { s with quoin := t.quoin, err := { s.err with exposed := t.err.exposed } })

/-! ### The whole device -/

/-- A step takes the command at the front of the queue and runs it on the state with the queue's rest; on an empty queue
the block idles, which is the model's choice (assumption 11). -/
def Obligations.StepRunsTheFrontCommand : Prop :=
  (∀ (c : Instr) (rest : List Instr) (s : State),
    step { s with pending := c :: rest } = exec c { s with pending := rest }) ∧
  (∀ s : State, s.pending = [] → step s = .next s)

/-- R534, R535: no step, whatever the command and the state, lowers the anti-rollback counter or its fuses or takes back
a revocation, and none adds to the queue: a step only takes its front. -/
def Obligations.NoStepTakesTrustBack : Prop :=
  ∀ s t : State, step s = .next t → t.pending = s.pending.tail ∧ TrustKept s t

/-- What the spec says of the device as it is first powered: device time 0 (R28), slice 0 ACTIVE (R394, R411), no binding,
context, item, run or table, READY 0 and PPS never seen (R26, R557), no set stored or saved (R480, R523), 64
attestation tokens (R539), no vendor set revoked (R535). That every byte of memory reads 0 is the model's choice
(assumption 1). -/
def Obligations.ResetIsTheDeviceBeforePower : Prop :=
  let s := State.reset
  s.pending = [] ∧ s.now = 0 ∧ s.time.ppsSeen = false ∧ s.time.refState = 0 ∧ s.power.ready = false ∧ s.power.saveSet = none ∧
    s.stored.sets = [none, none] ∧ s.bindings = [] ∧ s.ctxs = [] ∧ s.items = [] ∧ s.runs = [] ∧ s.tables = [] ∧
    (s.sliceOf 0).state = 1 ∧ (∀ n, n ≠ 0 → (s.sliceOf n).state = 0) ∧ s.trust.tokens = 64 ∧ s.trust.revoked = 0 ∧
    s.trust.counter = 0 ∧ Memory.wf s.mem = true ∧ (∀ a, Memory.get a s.mem = 0)

/-- R58, R280, R302: courses stored read back, from both frames of a bound pair, every byte outside the pairs of the
courses stored and of their copies reads as before, and the memory keeps its canonical form. -/
def Obligations.MemoryStoresReadBack : Prop :=
  ∀ (ca : Nat) (cs : List Course) (s : State), Memory.wf s.mem = true → caLocal ca % 4096 + cs.length ≤ 4096 →
    let la := caLocal ca
    let copies := la :: (s.partners (la / 4096)).map fun f => f * 4096 + la % 4096
    let t := s.memStore ca cs
    Memory.wf t.mem = true ∧ (∀ a ∈ copies, Memory.courses t.mem a cs.length = cs) ∧
      (∀ c : Nat, (∀ a ∈ copies, c < a / 2 * 3 ∨ (a + cs.length + 1) / 2 * 3 ≤ c) → Memory.get c t.mem = Memory.get c s.mem) ∧
      t = { s with mem := t.mem, memx := { s.memx with poison := t.memx.poison } }
end

