-- ==== Sys2Proof/Laws/Fixed.lean ====
section
/-! SUPPORT. What no operation of the model touches: the queue of waiting commands, the anti-rollback counter with its
mirror, and the revocations (R534, R535). One lemma for each operation; a later proof cites it and does not unfold the
operation. The few operations that may change the counter or the revocations have a lemma about `State.Kept`. -/

set_option maxRecDepth 4000
namespace Sys2Proof.Machine

/-- The waiting commands, the anti-rollback counter, its mirror, and the revocations. -/
def State.fixed (s : State) : List Instr × Nat × Nat × Nat := (s.pending, s.trust.otpSvn, s.trust.mramSvn, s.trust.revoked)
@[simp] theorem State.fixed_mk a_pending a_free a_time a_therm a_objs a_stored a_slices a_bindings a_host a_ctxs a_items a_nextSeq a_runs a_nextRun a_flowState a_windows a_hashTables a_tables a_dicts a_mason a_cores a_ks a_mem a_memx a_hod a_dg a_led a_st a_ports a_group a_can a_err a_power a_trust a_quoin : State.fixed ⟨a_pending, a_free, a_time, a_therm, a_objs, a_stored, a_slices, a_bindings, a_host, a_ctxs, a_items, a_nextSeq, a_runs, a_nextRun, a_flowState, a_windows, a_hashTables, a_tables, a_dicts, a_mason, a_cores, a_ks, a_mem, a_memx, a_hod, a_dg, a_led, a_st, a_ports, a_group, a_can, a_err, a_power, a_trust, a_quoin⟩ = (a_pending, a_trust.otpSvn, a_trust.mramSvn, a_trust.revoked) := rfl
@[simp] theorem State.fixed_eta (s : State) : (s.pending, s.trust.otpSvn, s.trust.mramSvn, s.trust.revoked) = s.fixed := rfl
@[simp] theorem ite_fixed (c : Prop) [Decidable c] (a b : State) : (if c then a else b).fixed = if c then a.fixed else b.fixed := by split <;> rfl
@[simp] theorem foldl_fixed {β : Type} (f : State → β → State) (hf : ∀ s x, (f s x).fixed = s.fixed) (l : List β) (s : State) :
    (l.foldl f s).fixed = s.fixed := by
  induction l generalizing s with
  | nil => rfl
  | cons x t ih => simp [List.foldl, ih, hf]

@[simp] theorem State.advanceFree_fixed (s : State) : (State.advanceFree s).fixed = s.fixed := by
  simp [State.advanceFree]

@[simp] theorem State.setObj_fixed (s : State) (index sub : Nat) (path : List Nat) (slice : Nat) (v : ObjVal) : (State.setObj s index sub path slice v).fixed = s.fixed := by
  simp [State.setObj]

@[simp] theorem State.bumpBy_fixed (s : State) (index sub : Nat) (path : List Nat) (slice lim n : Nat) : (State.bumpBy s index sub path slice lim n).fixed = s.fixed := by
  simp [State.bumpBy]

@[simp] theorem State.bump_fixed (s : State) (index sub : Nat) (path : List Nat) (slice : Nat) : (State.bump s index sub path slice).fixed = s.fixed := by
  simp [State.bump]

@[simp] theorem State.updSlice_fixed (s : State) (n : Nat) (f : SliceSt → SliceSt) : (State.updSlice s n f).fixed = s.fixed := by
  simp [State.updSlice]

@[simp] theorem State.postAs_fixed (s : State) (slice : Nat) (h : CmdHdr) (gen status detail : Nat) (result : List Byte) : (State.postAs s slice h gen status detail result).fixed = s.fixed := by
  simp [State.postAs]

@[simp] theorem State.finish_fixed (s : State) (slice : Nat) (h : CmdHdr) (status detail : Nat) (result : List Byte) : (State.finish s slice h status detail result).fixed = s.fixed := by
  simp [State.finish]

@[simp] theorem State.done_fixed (s : State) (slice : Nat) (h : CmdHdr) : (State.done s slice h).fixed = s.fixed := by
  simp [State.done]

@[simp] theorem State.fail_fixed (s : State) (slice : Nat) (h : CmdHdr) (status : Nat) : (State.fail s slice h status).fixed = s.fixed := by
  simp [State.fail]

@[simp] theorem State.refuse_fixed (s : State) (h : CmdHdr) (status detail : Nat) : (State.refuse s h status detail).fixed = s.fixed := by
  simp [State.refuse]

/-- The state an admission answers. -/
def Admit.state : Admit → State
  | .stop s => s
  | .hold s => s
  | .start s _ => s
@[simp] theorem State.startOrHold_fixed (s : State) (b : Binding) (h : CmdHdr) (op : Nat) : (s.startOrHold b h op).state.fixed = s.fixed := by
  unfold State.startOrHold; dsimp only; repeat' split
  all_goals simp [Admit.state]

@[simp] theorem State.awake_fixed (s : State) : (State.awake s).fixed = s.fixed := by
  simp [State.awake]

@[simp] theorem State.acceptCmd_fixed (s : State) (h : CmdHdr) (op : Nat) (roles : List Nat) :
    (s.acceptCmd h op roles).1.fixed = s.fixed := by
  unfold State.acceptCmd; dsimp only; repeat' split
  all_goals simp

@[simp] theorem State.admitCmd_fixed (s : State) (h : CmdHdr) (op : Nat) (roles : List Nat) : (s.admitCmd h op roles).state.fixed = s.fixed := by
  have w := State.acceptCmd_fixed s h op roles
  unfold State.admitCmd
  split <;> rename_i e <;> rw [e] at w
  · simpa [Admit.state] using w
  · simpa using w

@[simp] theorem State.keepRow_fixed (s : State) (i : Instr) (h : CmdHdr) (op : Nat) : (s.keepRow i h op).fixed = s.fixed := by
  simp [State.keepRow]

@[simp] theorem State.command_fixed (s : State) (i : Instr) (h : CmdHdr) (op : Nat) (roles : List Nat)
    (body : State → Binding → State) (hb : ∀ x b, (body x b).fixed = x.fixed) :
    (s.command i h op roles body).fixed = s.fixed := by
  have w := State.admitCmd_fixed s h op roles
  unfold State.command
  split <;> rename_i e <;> rw [e] at w
  · exact w
  · exact (State.keepRow_fixed _ _ _ _).trans w
  · exact (hb _ _).trans w

@[simp] theorem State.startPause_fixed (s : State) : (State.startPause s).fixed = s.fixed := by
  simp [State.startPause]

@[simp] theorem State.hold_fixed (s : State) (i : Instr) : (State.hold s i).fixed = s.fixed := by
  simp [State.hold]

@[simp] theorem State.holdCommand_fixed (s : State) (i : Instr) (h : CmdHdr) (op : Nat) (roles : List Nat) :
    (s.holdCommand i h op roles).fixed = s.fixed := by
  have w := State.acceptCmd_fixed s h op roles
  unfold State.holdCommand
  split <;> rename_i e <;> rw [e] at w <;> simpa using w

@[simp] theorem State.tell_fixed (s : State) (node : Nat) (m : MemberMsg) : (State.tell s node m).fixed = s.fixed := by
  simp [State.tell]

@[simp] theorem State.tellAll_fixed (s : State) (m : MemberMsg) : (State.tellAll s m).fixed = s.fixed := by
  simp [State.tellAll]

@[simp] theorem State.fanOut_fixed (before : State) (i : Instr) (h : CmdHdr) (op : Nat) (b : Binding) (after : State) :
    (State.fanOut before i h op b after).fixed = after.fixed := by
  unfold State.fanOut; dsimp only; split <;> simp

@[simp] theorem State.takeTurn_fixed (s : State) (i : Instr) (h : CmdHdr) (op : Nat) (b : Binding) : (State.takeTurn s i h op b).fixed = s.fixed := by
  simp [State.takeTurn]

@[simp] theorem State.managed_fixed (s : State) (i : Instr) (h : CmdHdr) (op : Nat) (roles : List Nat) (body : State → Binding → State)
    (hb : ∀ x b, (body x b).fixed = x.fixed) : (s.managed i h op roles body).fixed = s.fixed := by
  unfold State.managed
  split
  · simp
  · refine State.command_fixed _ _ _ _ _ _ (fun t b => ?_)
    split <;> simp [hb]

@[simp] theorem State.wait_fixed (s : State) (w : Waiting) : (State.wait s w).fixed = s.fixed := by
  simp [State.wait]

@[simp] theorem State.occurAt_fixed (s : State) (ring : Nat) (x : Rec) : (State.occurAt s ring x).fixed = s.fixed := by
  simp [State.occurAt]

@[simp] theorem State.record_fixed (s : State) (ring cls index code info : Nat) : (State.record s ring cls index code info).fixed = s.fixed := by
  simp [State.record]

@[simp] theorem State.recordSlice_fixed (s : State) (slice ctx code info : Nat) (cont : Option Nat) : (State.recordSlice s slice ctx code info cont).fixed = s.fixed := by
  simp [State.recordSlice]

@[simp] theorem State.stick_fixed (s : State) (ring bit : Nat) : (State.stick s ring bit).fixed = s.fixed := by
  simp [State.stick]

@[simp] theorem State.recovery_fixed (s : State) (row ring cls index code detail : Nat) (exposed : Bool) : (State.recovery s row ring cls index code detail exposed).fixed = s.fixed := by
  simp [State.recovery]

@[simp] theorem State.recoveryQuiet_fixed (s : State) (row : Nat) : (State.recoveryQuiet s row).fixed = s.fixed := by
  simp [State.recoveryQuiet]

@[simp] theorem State.setBayPower_fixed (s : State) (b : Nat) (p : BayPower) : (State.setBayPower s b p).fixed = s.fixed := by
  simp [State.setBayPower]

@[simp] theorem State.wakeBay_fixed (s : State) (b : Nat) : (State.wakeBay s b).fixed = s.fixed := by
  simp [State.wakeBay]

@[simp] theorem State.setCore_fixed (s : State) (u : CoreId) (c : Core) : (State.setCore s u c).fixed = s.fixed := by
  simp [State.setCore]

@[simp] theorem State.updCtx_fixed (s : State) (n : Nat) (f : Context → Context) : (State.updCtx s n f).fixed = s.fixed := by
  simp [State.updCtx]

@[simp] theorem State.updItem_fixed (s : State) (seq : Nat) (f : Item → Item) : (State.updItem s seq f).fixed = s.fixed := by
  simp [State.updItem]

@[simp] theorem State.updRun_fixed (s : State) (n : Nat) (f : Run → Run) : (State.updRun s n f).fixed = s.fixed := by
  simp [State.updRun]

@[simp] theorem State.updWork_fixed (s : State) (w : WorkRef) (f : Work → Work) : (State.updWork s w f).fixed = s.fixed := by
  unfold State.updWork; (repeat' split) <;> simp

@[simp] theorem State.updPort_fixed (s : State) (p : Nat) (f : Port → Port) : (State.updPort s p f).fixed = s.fixed := by
  simp [State.updPort]

@[simp] theorem State.updKs_fixed (s : State) (slice id : Nat) (f : KsTab → KsTab) : (State.updKs s slice id f).fixed = s.fixed := by
  simp [State.updKs]

@[simp] theorem State.memPut_fixed (s : State) (ca : Nat) (cs : List Course) : (State.memPut s ca cs).fixed = s.fixed := by
  simp [State.memPut]

@[simp] theorem State.memStore_fixed (s : State) (ca : Nat) (cs : List Course) : (State.memStore s ca cs).fixed = s.fixed := by
  simp [State.memStore]

@[simp] theorem State.setPoison_fixed (s : State) (ca : Nat) : (State.setPoison s ca).fixed = s.fixed := by
  simp [State.setPoison]

@[simp] theorem State.setL2_fixed (s : State) (b : Nat) (ls : List Line) : (State.setL2 s b ls).fixed = s.fixed := by
  simp [State.setL2]

@[simp] theorem State.updL2_fixed (s : State) (b la : Nat) (f : Line → Line) : (State.updL2 s b la f).fixed = s.fixed := by
  simp [State.updL2]

@[simp] theorem State.l2Install_fixed (s : State) (b la : Nat) (data : List Course) (dirty : Bool) (owner : Nat) (mask : List Nat) : (State.l2Install s b la data dirty owner mask).fixed = s.fixed := by
  unfold State.l2Install; (try dsimp only); (repeat' split) <;> first | rfl | (simp; done) | (simp_all; done)

@[simp] theorem State.notePeak_fixed (s : State) (b : Nat) : (State.notePeak s b).fixed = s.fixed := by
  simp [State.notePeak]

theorem mediumRead_ok_fixed {s t : State} {sl la obs} (h : s.mediumRead sl la obs = .ok t) : t.fixed = s.fixed := by
  unfold State.mediumRead at h; repeat' (split at h)
  all_goals cases h <;> simp
theorem mediumRead_err_fixed {s : State} {sl la obs e} (h : s.mediumRead sl la obs = .error e) : e.1.fixed = s.fixed := by
  unfold State.mediumRead at h; repeat' (split at h)
  all_goals cases h <;> simp

@[simp] theorem State.prefetch_fixed (s : State) (b la pageEnd sl : Nat) : (State.prefetch s b la pageEnd sl).fixed = s.fixed := by
  simp [State.prefetch]

theorem l2Read_ok_fixed {s : State} {b sl owner la c n stream obs r} (h : s.l2Read b sl owner la c n stream obs = .ok r) : r.1.fixed = s.fixed := by
  unfold State.l2Read at h; (try dsimp only at h); repeat' (split at h)
  all_goals first
    | (cases h; simp; done)
    | (cases h; done)
    | (cases h; simp [mediumRead_ok_fixed ‹State.mediumRead _ _ _ _ = _›])
theorem l2Read_err_fixed {s : State} {b sl owner la c n stream obs e} (h : s.l2Read b sl owner la c n stream obs = .error e) : e.1.fixed = s.fixed := by
  unfold State.l2Read at h; (try dsimp only at h); repeat' (split at h)
  all_goals first
    | (cases h; simp; done)
    | (cases h; done)
    | (cases h; simp [mediumRead_err_fixed ‹State.mediumRead _ _ _ _ = _›])

@[simp] theorem State.l2WriteBack_fixed (s : State) (b sl : Nat) (l : Line) : (State.l2WriteBack s b sl l).fixed = s.fixed := by
  unfold State.l2WriteBack; (repeat' split) <;> simp

@[simp] theorem State.evictHead_fixed (s : State) (u : CoreId) (b : Nat) : (State.evictHead s u b).fixed = s.fixed := by
  unfold State.evictHead; (try dsimp only); (repeat' split) <;> first | rfl | (simp; done) | (simp_all; done)

@[simp] theorem State.l1Install_fixed (s : State) (u : CoreId) (b : Nat) (l : Line) : (State.l1Install s u b l).fixed = s.fixed := by
  unfold State.l1Install; (try dsimp only); (repeat' split) <;> first | rfl | (simp; done) | (simp_all; done)

theorem l1Read_ok_fixed {s : State} {u b sl owner la c n obs r} (h : s.l1Read u b sl owner la c n obs = .ok r) : r.1.fixed = s.fixed := by
  unfold State.l1Read at h; (try dsimp only at h); repeat' (split at h)
  all_goals first
    | (cases h; simp; done)
    | (cases h; done)
    | (cases h; simp [l2Read_ok_fixed ‹State.l2Read _ _ _ _ _ _ _ _ _ = _›])
theorem l1Read_err_fixed {s : State} {u b sl owner la c n obs e} (h : s.l1Read u b sl owner la c n obs = .error e) : e.1.fixed = s.fixed := by
  unfold State.l1Read at h; (try dsimp only at h); repeat' (split at h)
  all_goals first
    | (cases h; simp; done)
    | (cases h; done)
    | (cases h; simp [l2Read_err_fixed ‹State.l2Read _ _ _ _ _ _ _ _ _ = _›])

@[simp] theorem State.cleanL1_fixed (s : State) (u : CoreId) (b : Nat) (p : Line → Bool) : (State.cleanL1 s u b p).fixed = s.fixed := by
  simp [State.cleanL1]

@[simp] theorem State.cleanL2_fixed (s : State) (b : Nat) (p : Line → Bool) : (State.cleanL2 s b p).fixed = s.fixed := by
  simp [State.cleanL2]

@[simp] theorem State.cleanBay_fixed (s : State) (b : Nat) (p : Line → Bool) : (State.cleanBay s b p).fixed = s.fixed := by
  simp [State.cleanBay]

@[simp] theorem State.discardBay_fixed (s : State) (b : Nat) (p : Line → Bool) : (State.discardBay s b p).fixed = s.fixed := by
  simp [State.discardBay]

@[simp] theorem State.cleanRange_fixed (s : State) (start n : Nat) : (State.cleanRange s start n).fixed = s.fixed := by
  simp [State.cleanRange]

@[simp] theorem State.invalidateRange_fixed (s : State) (start n : Nat) : (State.invalidateRange s start n).fixed = s.fixed := by
  simp [State.invalidateRange]

@[simp] theorem State.cleanOwner_fixed (s : State) (ctx : Nat) : (State.cleanOwner s ctx).fixed = s.fixed := by
  simp [State.cleanOwner]

@[simp] theorem State.tellReplica_fixed (s : State) (key : List Byte) (m : MemberMsg) : (State.tellReplica s key m).fixed = s.fixed := by
  unfold State.tellReplica; (repeat' split) <;> simp

@[simp] theorem State.abandon_fixed (s : State) (u : CoreId) : (State.abandon s u).fixed = s.fixed := by
  simp [State.abandon]

@[simp] theorem State.dropFiring_fixed (s : State) (u : CoreId) : (State.dropFiring s u).fixed = s.fixed := by
  simp [State.dropFiring]

@[simp] theorem State.endFirings_fixed (s : State) (w : WorkRef) : (State.endFirings s w).fixed = s.fixed := by
  simp [State.endFirings]

@[simp] theorem State.finishUnload_fixed (s : State) (w : Waiting) : (State.finishUnload s w).fixed = s.fixed := by
  unfold State.finishUnload; (repeat' split) <;> simp

@[simp] theorem State.trimAdmission_fixed (s : State) : (State.trimAdmission s).fixed = s.fixed := by
  simp [State.trimAdmission]

@[simp] theorem State.settleUnloads_fixed (s : State) : (State.settleUnloads s).fixed = s.fixed := by
  simp [State.settleUnloads]

@[simp] theorem State.commitPut_fixed (s : State) (i : Item) : (State.commitPut s i).fixed = s.fixed := by
  simp [State.commitPut]

@[simp] theorem State.commitWindows_fixed (s : State) (i : Item) : (State.commitWindows s i).fixed = s.fixed := by
  simp [State.commitWindows]

@[simp] theorem State.appendTo_fixed (s : State) (sl : Nat) (p : Nat × List Row) : (State.appendTo s sl p).fixed = s.fixed := by
  simp [State.appendTo]

@[simp] theorem State.commitAppends_fixed (s : State) (sl : Nat) (ps : List (Nat × List Row)) : (State.commitAppends s sl ps).fixed = s.fixed := by
  simp [State.commitAppends]

@[simp] theorem State.settleTurns_fixed (n : Nat) (s : State) : (State.settleTurns n s).fixed = s.fixed := by
  induction n generalizing s with
  | zero => rfl
  | succ n ih => unfold State.settleTurns; dsimp only; split <;> simp [ih]

@[simp] theorem State.settleAppends_fixed (s : State) : (State.settleAppends s).fixed = s.fixed := by
  unfold State.settleAppends
  first
  | (simp; done)
  | ((try dsimp only); (repeat' split); all_goals (first | rfl | (simp; done) | (simp_all; done)))
  | ((try dsimp only); repeat' (first | rfl | split | (simp; done) | simp only [ite_fixed]); done)

@[simp] theorem State.takeTurns_fixed (s : State) (i : Item) : (State.takeTurns s i).fixed = s.fixed := by
  simp [State.takeTurns]

@[simp] theorem State.joinTurn_fixed (s : State) (seq table : Nat) (rows : List Row) : (State.joinTurn s seq table rows).fixed = s.fixed := by
  simp [State.joinTurn]

@[simp] theorem State.mirrorAnswer_fixed (s : State) (i : Item) (cause : Nat) (a : Answer) : (State.mirrorAnswer s i cause a).fixed = s.fixed := by
  simp [State.mirrorAnswer]

@[simp] theorem State.retire_fixed (s : State) (seq : Nat) : (State.retire s seq).fixed = s.fixed := by
  unfold State.retire; (repeat' split) <;> simp

@[simp] theorem State.releaseResult_fixed (s : State) (seq : Nat) : (State.releaseResult s seq).fixed = s.fixed := by
  unfold State.releaseResult; (repeat' split) <;> simp

@[simp] theorem State.releaseFallback_fixed (s : State) (seq : Nat) : (State.releaseFallback s seq).fixed = s.fixed := by
  unfold State.releaseFallback; (repeat' split) <;> simp

@[simp] theorem State.finishRun_fixed (s : State) (num code : Nat) (w : Waiting) : (State.finishRun s num code w).fixed = s.fixed := by
  unfold State.finishRun; (repeat' split) <;> simp

@[simp] theorem State.endRun_fixed (s : State) (num code : Nat) : (State.endRun s num code).fixed = s.fixed := by
  unfold State.endRun; (repeat' split) <;> simp

@[simp] theorem State.recordBoth_fixed (s : State) (p : Place) (slice ctx code info : Nat) (cont : Option Nat) : (State.recordBoth s p slice ctx code info cont).fixed = s.fixed := by
  simp [State.recordBoth]

@[simp] theorem State.countCap_fixed (s : State) (ctx : Nat) (b : Bool) : (State.countCap s ctx b).fixed = s.fixed := by
  simp [State.countCap]

@[simp] theorem State.workErrorAt_fixed (s : State) (p : Place) (w : WorkRef) (batch code detail : Nat) (cont : Option Nat) :
    (s.workErrorAt p w batch code detail cont).fixed = s.fixed := by
  unfold State.workErrorAt
  split <;> split <;> simp

@[simp] theorem State.workError_fixed (s : State) (w : WorkRef) (code detail : Nat) : (State.workError s w code detail).fixed = s.fixed := by
  simp [State.workError]

@[simp] theorem State.workErrorB_fixed (s : State) (w : WorkRef) (batch : Option Nat) (code detail : Nat) : (State.workErrorB s w batch code detail).fixed = s.fixed := by
  simp [State.workErrorB]

@[simp] theorem State.endTrial_fixed (s : State) : (State.endTrial s).fixed = s.fixed := by
  simp [State.endTrial]

@[simp] theorem State.fencePair_fixed (s : State) (p : Nat) : (State.fencePair s p).fixed = s.fixed := by
  simp [State.fencePair]

@[simp] theorem State.dirtyLost_fixed (s : State) (owner : Nat) : (State.dirtyLost s owner).fixed = s.fixed := by
  unfold State.dirtyLost; (repeat' split) <;> simp

theorem charge_fixed {s t : State} {w batch kind n} (h : s.charge w batch kind n = some t) : t.fixed = s.fixed := by
  unfold State.charge at h; repeat' (split at h)
  all_goals cases h <;> simp
@[simp] theorem charge_getD_fixed (s : State) (w : WorkRef) (batch : Option Nat) (kind n : Nat) : ((s.charge w batch kind n).getD s).fixed = s.fixed := by
  cases h : s.charge w batch kind n with
  | none => rfl
  | some t => exact charge_fixed h

@[simp] theorem State.walkFill_fixed (s : State) (b : Nat) (p : Space) (va level : Nat) (e : List Course) : (State.walkFill s b p va level e).fixed = s.fixed := by
  simp [State.walkFill]

@[simp] theorem State.walkPurge_fixed (s : State) (b : Nat) (p : Space) (va : Nat) : (State.walkPurge s b p va).fixed = s.fixed := by
  simp [State.walkPurge]

/-- The state a walk step leaves. -/
def WalkStep.state : WalkStep → State
  | .fault t _ _ => t
  | .leaf t _ => t
  | .down t _ _ => t
@[simp] theorem WalkStep.state_fault (t a b) : (WalkStep.fault t a b).state = t := rfl
@[simp] theorem WalkStep.state_leaf (t a) : (WalkStep.leaf t a).state = t := rfl
@[simp] theorem WalkStep.state_down (t a b) : (WalkStep.down t a b).state = t := rfl
@[simp] theorem WalkStep.state_ite (c : Prop) [Decidable c] (a b : WalkStep) : (if c then a else b).state = if c then a.state else b.state := by
  split <;> rfl
@[simp] theorem State.walkStep_fixed (s : State) (b : Nat) (p : Space) (who : Asker) (store : Bool) (va table level : Nat) (obs : ReadObs) :
    (s.walkStep b p who store va table level obs).state.fixed = s.fixed := by
  simp [State.walkStep]

@[simp] theorem State.walkRun_fixed (k : Nat) (s : State) (b : Nat) (p : Space) (who : Asker) (store : Bool) (va table level : Nat) :
    (State.walkRun k s b p who store va table level).state.fixed = s.fixed := by
  induction k generalizing s table level with
  | zero => rfl
  | succ k ih =>
    have := State.walkStep_fixed s b p who store va table level .clean
    unfold State.walkRun
    split
    · simp_all [WalkStep.state]
    · exact this

@[simp] theorem State.translate_fixed (s : State) (b : Nat) (p : Space) (who : Asker) (store : Bool) (va : Nat) :
    (s.translate b p who store va).state.fixed = s.fixed := by
  unfold State.translate; dsimp only; repeat' split
  all_goals first | rfl | simp

@[simp] theorem State.setHod_fixed (s : State) (b c : Nat) (h : HodCh) : (State.setHod s b c h).fixed = s.fixed := by
  simp [State.setHod]

@[simp] theorem State.hodRecord_fixed (s : State) (b c : Nat) (h : HodCh) (code detail : Nat) (cont : Option Nat) : (State.hodRecord s b c h code detail cont).fixed = s.fixed := by
  simp [State.hodRecord]

@[simp] theorem State.hodClean_fixed (s : State) (b : Nat) (h : HodCh) : (State.hodClean s b h).fixed = s.fixed := by
  simp [State.hodClean]

@[simp] theorem State.hodInvalidate_fixed (s : State) (b : Nat) (h : HodCh) : (State.hodInvalidate s b h).fixed = s.fixed := by
  simp [State.hodInvalidate]

@[simp] theorem State.hodEdges_fixed (s : State) (b : Nat) (h : HodCh) : (State.hodEdges s b h).fixed = s.fixed := by
  simp [State.hodEdges]

@[simp] theorem State.hodGo_fixed (s : State) (b c : Nat) : (State.hodGo s b c).fixed = s.fixed := by
  simp [State.hodGo]

@[simp] theorem State.hodStop_fixed (s : State) (b c : Nat) (code detail : Nat) (cont : Option Nat) : (State.hodStop s b c code detail cont).fixed = s.fixed := by
  simp [State.hodStop]

@[simp] theorem State.hodDisable_fixed (s : State) (b c : Nat) (en : Bool) (code : Nat) : (State.hodDisable s b c en code).fixed = s.fixed := by
  simp [State.hodDisable]

@[simp] theorem State.hodRetire_fixed (s : State) (sl : Nat) : (State.hodRetire s sl).fixed = s.fixed := by
  simp [State.hodRetire]

@[simp] theorem State.hodCtl_fixed (s : State) (b c : Nat) (v : Course) : (State.hodCtl s b c v).fixed = s.fixed := by
  simp [State.hodCtl]

theorem hodPhys_ok_fixed {s : State} {b c kind dst store a r} (h : s.hodPhys b c kind dst store a = .ok r) : r.1.fixed = s.fixed := by
  have w := State.translate_fixed s b (s.hodSpace (s.hodOf b c)) .hod store a
  unfold State.hodPhys at h; dsimp only at h; repeat' (split at h)
  all_goals cases h
  all_goals first | rfl | simp_all
theorem hodPhys_err_fixed {s : State} {b c kind dst store a e} (h : s.hodPhys b c kind dst store a = .error e) : e.s.fixed = s.fixed := by
  have w := State.translate_fixed s b (s.hodSpace (s.hodOf b c)) .hod store a
  unfold State.hodPhys at h; dsimp only at h; repeat' (split at h)
  all_goals cases h
  all_goals first | rfl | simp_all

theorem hodLoad_ok_fixed {s : State} {sl ca n obs r} (h : s.hodLoad sl ca n obs = .ok r) : r.1.fixed = s.fixed := by
  unfold State.hodLoad at h; (try dsimp only at h); repeat' (split at h)
  all_goals first
    | (cases h; simp; done)
    | (cases h; done)
    | (cases h; simp [mediumRead_ok_fixed ‹State.mediumRead _ _ _ _ = _›])
theorem hodLoad_err_fixed {s : State} {sl ca n obs e} (h : s.hodLoad sl ca n obs = .error e) : e.s.fixed = s.fixed := by
  unfold State.hodLoad at h; (try dsimp only at h); repeat' (split at h)
  all_goals first
    | (cases h; simp; done)
    | (cases h; done)
    | (cases h; simp [mediumRead_err_fixed ‹State.mediumRead _ _ _ _ = _›])

theorem hodStore_ok_fixed {s t : State} {sl ca cs} (h : s.hodStore sl ca cs = .ok t) : t.fixed = s.fixed := by
  unfold State.hodStore at h; repeat' (split at h)
  all_goals cases h <;> simp
theorem hodStore_err_fixed {s : State} {sl ca cs e} (h : s.hodStore sl ca cs = .error e) : e.s.fixed = s.fixed := by
  unfold State.hodStore at h; repeat' (split at h)
  all_goals cases h <;> simp

theorem hodReadCa_ok_fixed {b c kind dst obs l} {s : State} {r} (h : State.hodReadCa b c kind dst obs l s = .ok r) : r.1.fixed = s.fixed := by
  induction l generalizing s obs r with
  | nil => unfold State.hodReadCa at h; cases h; rfl
  | cons x t ih =>
    unfold State.hodReadCa at h
    split at h
    · cases h
    · rename_i h1
      split at h
      · cases h
      · rename_i h2
        split at h
        · cases h
        · rename_i h3
          cases h
          exact (ih h3).trans ((hodLoad_ok_fixed h2).trans (hodPhys_ok_fixed h1))
theorem hodReadCa_err_fixed {b c kind dst obs l} {s : State} {e} (h : State.hodReadCa b c kind dst obs l s = .error e) : e.s.fixed = s.fixed := by
  induction l generalizing s obs e with
  | nil => unfold State.hodReadCa at h; cases h
  | cons x t ih =>
    unfold State.hodReadCa at h
    split at h
    · rename_i h1; cases h; exact hodPhys_err_fixed h1
    · rename_i h1
      split at h
      · rename_i h2; cases h; exact (hodLoad_err_fixed h2).trans (hodPhys_ok_fixed h1)
      · rename_i h2
        split at h
        · rename_i h3; cases h; exact (ih h3).trans ((hodLoad_ok_fixed h2).trans (hodPhys_ok_fixed h1))
        · cases h

theorem hodWriteCa_ok_fixed {b c kind l cs} {s t : State} (h : State.hodWriteCa b c kind l cs s = .ok t) : t.fixed = s.fixed := by
  induction l generalizing s cs with
  | nil => unfold State.hodWriteCa at h; cases h; rfl
  | cons x l ih =>
    unfold State.hodWriteCa at h
    split at h
    · cases h
    · rename_i h1
      split at h
      · cases h
      · rename_i h2; exact (ih h).trans ((hodStore_ok_fixed h2).trans (hodPhys_ok_fixed h1))
theorem hodWriteCa_err_fixed {b c kind l cs} {s : State} {e} (h : State.hodWriteCa b c kind l cs s = .error e) : e.s.fixed = s.fixed := by
  induction l generalizing s cs with
  | nil => unfold State.hodWriteCa at h; cases h
  | cons x l ih =>
    unfold State.hodWriteCa at h
    split at h
    · rename_i h1; cases h; exact hodPhys_err_fixed h1
    · rename_i h1
      split at h
      · rename_i h2; cases h; exact (hodStore_err_fixed h2).trans (hodPhys_ok_fixed h1)
      · rename_i h2; exact (ih h).trans ((hodStore_ok_fixed h2).trans (hodPhys_ok_fixed h1))

theorem hodRead_ok_fixed {s : State} {b c dst n obs r} (h : s.hodRead b c dst n obs = .ok r) : r.1.fixed = s.fixed := by
  simp only [State.hodRead, apply_ite] at h
  generalize linePieces _ _ _ = l at h
  generalize (fitList n 0 _ : List Course) = y at h
  by_cases hk : (if dst = true then (s.hodOf b c).dstKind else (s.hodOf b c).srcKind) = 2
  · rw [if_pos hk] at h; rw [← Except.ok.inj h]
  · rw [if_neg hk] at h; exact hodReadCa_ok_fixed h
theorem hodRead_err_fixed {s : State} {b c dst n obs e} (h : s.hodRead b c dst n obs = .error e) : e.s.fixed = s.fixed := by
  simp only [State.hodRead] at h
  generalize linePieces _ _ _ = l at h
  generalize (fitList n 0 _ : List Course) = y at h
  by_cases hk : (if dst = true then (s.hodOf b c).dstKind else (s.hodOf b c).srcKind) = 2
  · rw [if_pos hk] at h; exact absurd h (by simp)
  · rw [if_neg hk] at h; exact hodReadCa_err_fixed h

theorem hodWrite_ok_fixed {s t : State} {b c cs} (h : s.hodWrite b c cs = .ok t) : t.fixed = s.fixed := by
  unfold State.hodWrite at h; dsimp only at h; split at h
  · cases h; simp
  · exact hodWriteCa_ok_fixed h
theorem hodWrite_err_fixed {s : State} {b c cs e} (h : s.hodWrite b c cs = .error e) : e.s.fixed = s.fixed := by
  unfold State.hodWrite at h; dsimp only at h; split at h
  · cases h
  · exact hodWriteCa_err_fixed h

@[simp] theorem State.hodSettle_fixed (s : State) (b c : Nat) : (State.hodSettle s b c).fixed = s.fixed := by
  simp [State.hodSettle]

@[simp] theorem State.hodMoved_fixed (s : State) (b c n m lines : Nat) : (State.hodMoved s b c n m lines).fixed = s.fixed := by
  simp [State.hodMoved]

@[simp] theorem HodErr.stop_fixed (e : HodErr) (b c : Nat) : (e.stop b c).fixed = e.s.fixed := by simp [HodErr.stop]

theorem State.hodWriteThen_fixed (s s1 : State) (b c : Nat) (cs : List Course) (f : State → State) (w : s1.fixed = s.fixed)
    (hf : ∀ x, (f x).fixed = x.fixed) :
    (match s1.hodWrite b c cs with
      | .error e => e.stop b c
      | .ok s2 => f s2).fixed = s.fixed := by
  split
  · rename_i e; simp [hodWrite_err_fixed e, w]
  · rename_i e; rw [hf, hodWrite_ok_fixed e, w]
@[simp] theorem State.hodMoveLine_fixed (s : State) (b c : Nat) (obs : MemObs) : (s.hodMoveLine b c obs).fixed = s.fixed := by
  have key : ∀ r, (if (s.hodOf b c).op = 1 then Except.ok (s, (List.range (s.hodOf b c).chunk).map fun k => nth (s.hodOf b c).pattern (((s.hodOf b c).total - (s.hodOf b c).cnt + k) % (s.hodOf b c).fillLen) 0)
      else s.hodRead b c false (s.hodOf b c).chunk obs) = r → match r with
        | .error e => e.s.fixed = s.fixed
        | .ok x => x.1.fixed = s.fixed := by
    intro r h
    split at h
    · subst h; rfl
    · split
      · exact hodRead_err_fixed h
      · exact hodRead_ok_fixed h
  unfold State.hodMoveLine; simp only
  split
  · rename_i e; simpa using key _ e
  · rename_i e
    have k := key _ e
    split
    · rename_i e2
      rw [HodErr.stop_fixed]
      exact (hodWrite_err_fixed e2).trans k
    · rename_i e2; rw [State.hodMoved_fixed, hodWrite_ok_fixed e2]; exact k

@[simp] theorem State.hodCompareLine_fixed (s : State) (b c : Nat) (obs : MemObs) : (s.hodCompareLine b c obs).fixed = s.fixed := by
  unfold State.hodCompareLine; simp only
  split
  · rename_i e; simp [hodRead_err_fixed e]
  · rename_i e
    split
    · rename_i e2; simp [hodRead_err_fixed e2, hodRead_ok_fixed e]
    · rename_i e2
      split <;> simp [hodRead_ok_fixed e2, hodRead_ok_fixed e]

@[simp] theorem State.hodPackBlock_fixed (s : State) (b c : Nat) (obs : MemObs) : (s.hodPackBlock b c obs).fixed = s.fixed := by
  unfold State.hodPackBlock; simp only
  split
  · rename_i e; simp [hodRead_err_fixed e]
  · rename_i e
    exact State.hodWriteThen_fixed _ _ _ _ _ _ (hodRead_ok_fixed e) (by simp)

@[simp] theorem State.settError_fixed (s : State) (b c code : Nat) : (State.settError s b c code).fixed = s.fixed := by
  simp [State.settError]

@[simp] theorem State.hodUnpackBlock_fixed (s : State) (b c : Nat) (obs : MemObs) : (s.hodUnpackBlock b c obs).fixed = s.fixed := by
  unfold State.hodUnpackBlock; simp only
  split
  · rename_i e; simp [hodRead_err_fixed e]
  · rename_i e
    have w := hodRead_ok_fixed e
    split
    · simp_all
    · split
      · rename_i e2; simp_all [hodRead_err_fixed e2]
      · rename_i e2
        have w2 := hodRead_ok_fixed e2
        split
        · simp_all
        · split
          · simp_all
          · exact State.hodWriteThen_fixed _ _ _ _ _ (fun x => (x.bump 0x6301 3 [b] 0).hodMoved b c _ _ _) (w2.trans w) (by simp)

@[simp] theorem State.hodAdvance_fixed (s : State) (b c : Nat) (obs : MemObs) : (State.hodAdvance s b c obs).fixed = s.fixed := by
  unfold State.hodAdvance; (repeat' split) <;> simp

@[simp] theorem State.hodStart_fixed (s : State) (b c op : Nat) : (State.hodStart s b c op).fixed = s.fixed := by
  simp [State.hodStart]

@[simp] theorem State.settFail_fixed (s : State) (b : Nat) : (State.settFail s b).fixed = s.fixed := by
  simp [State.settFail]

@[simp] theorem State.updRange_fixed (s : State) (b : Nat) (f : RangeEng → RangeEng) : (State.updRange s b f).fixed = s.fixed := by
  simp [State.updRange]

@[simp] theorem State.rangeApply_fixed (s : State) (b : Nat) (o : RangeOp) (p : Line → Bool) : (State.rangeApply s b o p).fixed = s.fixed := by
  simp [State.rangeApply]

@[simp] theorem State.zeroRange_fixed (s : State) (o : RangeOp) : (State.zeroRange s o).fixed = s.fixed := by
  simp [State.zeroRange]

@[simp] theorem State.rangeQueue_fixed (s : State) (bays : List Nat) (op start n : Nat) : (State.rangeQueue s bays op start n).fixed = s.fixed := by
  simp [State.rangeQueue]

@[simp] theorem State.coverDone_fixed (s : State) (f : Fill) : (State.coverDone s f).fixed = s.fixed := by
  unfold State.coverDone; (repeat' split) <;> simp

@[simp] theorem State.fillDone_fixed (s : State) (f : Fill) : (State.fillDone s f).fixed = s.fixed := by
  simp [State.fillDone]

@[simp] theorem State.mediumLost_fixed (s : State) (la : Nat) : (State.mediumLost s la).fixed = s.fixed := by
  simp [State.mediumLost]

@[simp] theorem State.mediumCorrected_fixed (s : State) : (State.mediumCorrected s).fixed = s.fixed := by
  simp [State.mediumCorrected]

@[simp] theorem State.invalidate_fixed (s : State) (b : Nat) (i : Inval) : (State.invalidate s b i).fixed = s.fixed := by
  simp [State.invalidate]

@[simp] theorem State.queueInval_fixed (s : State) (kind tag va : Nat) : (State.queueInval s kind tag va).fixed = s.fixed := by
  simp [State.queueInval]

@[simp] theorem State.hodRegWrite_fixed (s : State) (b c off : Nat) (cs : List Course) : (State.hodRegWrite s b c off cs).fixed = s.fixed := by
  unfold State.hodRegWrite; (repeat' split) <;> simp

@[simp] theorem State.regWrite_fixed (s : State) (la : Nat) (cs : List Course) : (State.regWrite s la cs).fixed = s.fixed := by
  unfold State.regWrite; (repeat' split) <;> simp

@[simp] theorem State.endFiringWith_fixed (s : State) (b slot : Nat) (code detail : Nat) (cont : Option Nat) : (State.endFiringWith s b slot code detail cont).fixed = s.fixed := by
  unfold State.endFiringWith; (try dsimp only); (repeat' split) <;> first | rfl | (simp; done) | (simp_all; done)

@[simp] theorem State.trap_fixed (s : State) (p : Nat) (epc code detail : Nat) (cont : Option Nat) : (State.trap s p epc code detail cont).fixed = s.fixed := by
  simp [State.trap]

@[simp] theorem State.coreFault_fixed (s : State) (u : CoreId) (code detail : Nat) (cont : Option Nat) : (State.coreFault s u code detail cont).fixed = s.fixed := by
  unfold State.coreFault; (repeat' split) <;> simp

@[simp] theorem State.faultAt_fixed (s : State) (u : CoreId) (k code detail : Nat) (cont : Option Nat) : (State.faultAt s u k code detail cont).fixed = s.fixed := by
  unfold State.faultAt; (repeat' split) <;> simp

@[simp] theorem State.accessFault_fixed (s : State) (u : CoreId) (a : Access) (code level : Nat) : (State.accessFault s u a code level).fixed = s.fixed := by
  unfold State.accessFault; (repeat' split) <;> simp

@[simp] theorem State.noteLate_fixed (s : State) (u : CoreId) (since : Tick) (charge : Nat) : (State.noteLate s u since charge).fixed = s.fixed := by
  unfold State.noteLate; (repeat' split) <;> simp

theorem coreLoad_ok_fixed {s : State} {u t va n obs r} (h : s.coreLoad u t va n obs = .ok r) : r.1.fixed = s.fixed := by
  unfold State.coreLoad at h; (try dsimp only at h); repeat' (split at h)
  all_goals first
    | (cases h; simp; done)
    | (cases h; done)
    | (cases h; simp [mediumRead_ok_fixed ‹State.mediumRead _ _ _ _ = _›])
    | (cases h; simp [l1Read_ok_fixed ‹State.l1Read _ _ _ _ _ _ _ _ _ = _›])
    | (cases h; simp [l2Read_ok_fixed ‹State.l2Read _ _ _ _ _ _ _ _ _ = _›])
theorem coreLoad_err_fixed {s : State} {u t va n obs e} (h : s.coreLoad u t va n obs = .error e) : e.1.fixed = s.fixed := by
  unfold State.coreLoad at h; (try dsimp only at h); repeat' (split at h)
  all_goals first
    | (cases h; simp; done)
    | (cases h; done)
    | (cases h; simp [mediumRead_err_fixed ‹State.mediumRead _ _ _ _ = _›])
    | (cases h; simp [l1Read_err_fixed ‹State.l1Read _ _ _ _ _ _ _ _ _ = _›])
    | (cases h; simp [l2Read_err_fixed ‹State.l2Read _ _ _ _ _ _ _ _ _ = _›])

@[simp] theorem State.memWrite_fixed (s : State) (ca : Nat) (ws : List (Option Course)) : (s.memWrite ca ws).fixed = s.fixed := by
  unfold State.memWrite
  refine foldl_fixed _ (fun t k => ?_) _ _
  split <;> simp

theorem coreStore_ok_fixed {s : State} {u t va ws obs r} (h : s.coreStore u t va ws obs = .ok r) : r.fixed = s.fixed := by
  unfold State.coreStore at h; (try dsimp only at h); repeat' (split at h)
  all_goals first
    | (cases h; simp; done)
    | (cases h; done)
    | (cases h; simp [mediumRead_ok_fixed ‹State.mediumRead _ _ _ _ = _›])
    | (cases h; simp [l1Read_ok_fixed ‹State.l1Read _ _ _ _ _ _ _ _ _ = _›])
    | (cases h; simp [l2Read_ok_fixed ‹State.l2Read _ _ _ _ _ _ _ _ _ = _›])
theorem coreStore_err_fixed {s : State} {u t va ws obs e} (h : s.coreStore u t va ws obs = .error e) : e.1.fixed = s.fixed := by
  unfold State.coreStore at h; (try dsimp only at h); repeat' (split at h)
  all_goals first
    | (cases h; simp; done)
    | (cases h; done)
    | (cases h; simp [mediumRead_err_fixed ‹State.mediumRead _ _ _ _ = _›])
    | (cases h; simp [l1Read_err_fixed ‹State.l1Read _ _ _ _ _ _ _ _ _ = _›])
    | (cases h; simp [l2Read_err_fixed ‹State.l2Read _ _ _ _ _ _ _ _ _ = _›])

@[simp] theorem State.lockEntry_fixed (s : State) (u : CoreId) (a : Access) (t : TlbEntry) : (State.lockEntry s u a t).fixed = s.fixed := by
  simp [State.lockEntry]

@[simp] theorem State.completeAccess_fixed (s : State) (u : CoreId) (a : Access) (t : TlbEntry) (obs : MemObs) :
    (s.completeAccess u a t obs).fixed = s.fixed := by
  unfold State.completeAccess; simp only
  split
  · simp
  · split
    · simp
    · split
      · split
        · rename_i e; have w := coreStore_err_fixed e; split <;> simp_all
        · rename_i e; have w := coreStore_ok_fixed e; simp_all
      · split
        · rename_i e; have w := coreLoad_err_fixed e; split <;> simp_all
        · rename_i e; have w := coreLoad_ok_fixed e; simp_all

@[simp] theorem State.installTlb_fixed (s : State) (u : CoreId) (t : TlbEntry) : (State.installTlb s u t).fixed = s.fixed := by
  simp [State.installTlb]

@[simp] theorem walkResult_fixed (u : CoreId) (a : Access) (r : WalkStep) : (walkResult u a r).fixed = r.state.fixed := by
  unfold walkResult
  split <;> simp

theorem State.resumeAccess_fixed (s : State) (u : CoreId) (walk : Access → WalkStep) (hw : ∀ a, (walk a).state.fixed = s.fixed) :
    (s.resumeAccess u walk).fixed = s.fixed := by
  unfold State.resumeAccess
  (repeat' split) <;> simp [hw]

@[simp] theorem State.settle_fixed (s : State) (u : CoreId) : (s.settle u).fixed = s.fixed :=
  State.resumeAccess_fixed _ _ _ (by simp)

@[simp] theorem State.startAccess_fixed (s : State) (u : CoreId) (a : Access) (obs : MemObs) : (State.startAccess s u a obs).fixed = s.fixed := by
  unfold State.startAccess; (try dsimp only); (repeat' split) <;> first | rfl | (simp; done) | (simp_all; done)

/-- What a gate lets through keeps. -/
def Gate.fixedAs (s : State) : Gate → Prop
  | .stop o => ∀ t, o = .next t → t.fixed = s.fixed
  | .go t _ _ _ => t.fixed = s.fixed
theorem State.gateStone_fixed (s : State) (u : CoreId) (g : Fin 8) (i : Info) : (s.gateStone u g i).fixedAs s := by
  unfold State.gateStone; simp only
  repeat' split
  all_goals (simp only [Gate.fixedAs]; try intro t h; cases h)
  all_goals simp

theorem State.gateQuoin_fixed (s : State) (p : Nat) (g : Fin 8) (i : Info) : (s.gateQuoin p g i).fixedAs s := by
  unfold State.gateQuoin; simp only
  repeat' split
  all_goals (simp only [Gate.fixedAs]; try intro t h; cases h)
  all_goals simp

theorem State.gate_fixed (s : State) (u : CoreId) (g : Fin 8) (i : Info) : (s.gate u g i).fixedAs s := by
  unfold State.gate
  split
  · exact State.gateStone_fixed ..
  · exact State.gateQuoin_fixed ..

@[simp] theorem State.retireCore_fixed (s : State) (u : CoreId) (g : Fin 8) (i : Info) (k : Nat) (paired : Bool) (hold gap : Nat) (target : Option Nat) (annulNext keepBorrow : Bool) : (State.retireCore s u g i k paired hold gap target annulNext keepBorrow).fixed = s.fixed := by
  simp [State.retireCore]

/-- What an execution keeps. -/
def Res.fixedAs (s : State) : Res → Prop
  | .done t => t.fixed = s.fixed
  | .held t _ => t.fixed = s.fixed
  | .access t f => t.fixed = s.fixed ∧ ∀ x, (f x).fixed = x.fixed
  | .jump t _ _ => t.fixed = s.fixed
  | .fault t _ _ => t.fixed = s.fixed
  | .leave t => t.fixed = s.fixed
@[simp] theorem Res.fixedAs_done (s t : State) : (Res.done t).fixedAs s ↔ t.fixed = s.fixed := Iff.rfl
@[simp] theorem Res.fixedAs_held (s t : State) (n : Nat) : (Res.held t n).fixedAs s ↔ t.fixed = s.fixed := Iff.rfl
@[simp] theorem Res.fixedAs_access (s t : State) (f : State → State) : (Res.access t f).fixedAs s ↔ t.fixed = s.fixed ∧ ∀ x, (f x).fixed = x.fixed := Iff.rfl
@[simp] theorem Res.fixedAs_jump (s t : State) (a b : Nat) : (Res.jump t a b).fixedAs s ↔ t.fixed = s.fixed := Iff.rfl
@[simp] theorem Res.fixedAs_fault (s t : State) (a b : Nat) : (Res.fault t a b).fixedAs s ↔ t.fixed = s.fixed := Iff.rfl
@[simp] theorem Res.fixedAs_leave (s t : State) : (Res.leave t).fixedAs s ↔ t.fixed = s.fixed := Iff.rfl
theorem State.issue_fixed {s t : State} {u g i a b body} (hb : ∀ x c k, (body x c k).fixedAs x)
    (h : s.issue u g i a b body = .next t) : t.fixed = s.fixed := by
  have w := State.gate_fixed s u g i
  unfold State.issue at h
  split at h
  · rename_i e; rw [e] at w; exact w _ h
  · rename_i s1 k paired on e
    rw [e] at w; replace w : s1.fixed = s.fixed := w
    simp only at h
    split at h
    · obtain rfl := Host.Outcome.next.inj h; simp [w]
    split at h
    · obtain rfl := Host.Outcome.next.inj h; simp [w]
    split at h
    · obtain rfl := Host.Outcome.next.inj h; simp [w]
    have r := hb s1 (s1.coreOf u) k
    split at h <;> rename_i e2 <;> rw [e2] at r <;> simp only [Res.fixedAs] at r
    · obtain rfl := Host.Outcome.next.inj h; simp [w, r]
    · split at h
      · split at h <;> obtain rfl := Host.Outcome.next.inj h <;> simp [w, r]
      · obtain rfl := Host.Outcome.next.inj h; simp [w, r]
    · obtain rfl := Host.Outcome.next.inj h; rw [r.2]; simp [w, r.1]
    · obtain rfl := Host.Outcome.next.inj h; simp [w, r]
    · obtain rfl := Host.Outcome.next.inj h; simp [w, r]
    · obtain rfl := Host.Outcome.next.inj h; simp [w, r]

@[simp] theorem capRes_fixed (s t : State) (d : Nat) : (capRes t d).fixedAs s ↔ t.fixed = s.fixed := Iff.rfl

theorem State.pureOp_fixed {s t : State} {u g i f} (h : s.pureOp u g i f = .next t) : t.fixed = s.fixed :=
  State.issue_fixed (fun x c k => by simp) h

theorem State.tryOp_fixed {s t : State} {u g i f} (h : s.tryOp u g i f = .next t) : t.fixed = s.fixed :=
  State.issue_fixed (fun x c k => by split <;> simp) h

@[simp] theorem State.checkRunEnd_fixed (s : State) (w : WorkRef) : (State.checkRunEnd s w).fixed = s.fixed := by
  unfold State.checkRunEnd; (repeat' split) <;> simp

@[simp] theorem State.emit_fixed (s : State) (e : OpEnv) (outs : List (Nat × Token)) (last : Bool) : (State.emit s e outs last).fixed = s.fixed := by
  simp [State.emit]

theorem chargeAll_fixed {s t : State} {w batch l} (h : s.chargeAll w batch l = .ok t) : t.fixed = s.fixed := by
  induction l generalizing s with
  | nil => unfold State.chargeAll at h; cases h; rfl
  | cons x l ih =>
    unfold State.chargeAll at h
    split at h
    · rw [ih h, charge_fixed ‹_›]
    · cases h

theorem State.fire_fixed (s : State) (w : WorkRef) (idx code : Nat) (stream always : Bool)
    (cost : OpEnv → List Token → List (Nat × Nat)) (body : State → OpEnv → List Token → Fired)
    (hb : ∀ x e ts r, body x e ts = .ok r → r.1.fixed = x.fixed) :
    (s.fire w idx code stream always cost body).fixed = s.fixed := by
  unfold State.fire; simp only
  split
  · rfl
  · split
    · rfl
    · simp
    · split
      · simp
      · rename_i e
        have c := chargeAll_fixed e
        split
        · simp [c]
        · rename_i e2; have r := hb _ _ _ _ e2; simp [r, c]

@[simp] theorem State.overflow_fixed (s : State) (ctx : Nat) (b : Bool) : (State.overflow s ctx b).fixed = s.fixed := by
  simp [State.overflow]

@[simp] theorem State.noteB_fixed (s : State) (w : WorkRef) (b n : Nat) : (State.noteB s w b n).fixed = s.fixed := by
  unfold State.noteB; (repeat' split) <;> simp

theorem rowsOut_fixed {s : State} {e x r} (h : s.rowsOut e x = .ok r) : r.1.fixed = s.fixed := by
  unfold State.rowsOut at h
  split at h <;> cases h; rfl

@[simp] theorem State.noteQuarry_fixed (s : State) (w : WorkRef) (op : Nat) : (State.noteQuarry s w op).fixed = s.fixed := by
  unfold State.noteQuarry; (repeat' split) <;> simp

@[simp] theorem State.noteDecode_fixed (s : State) (w : WorkRef) (op : Nat) : (State.noteDecode s w op).fixed = s.fixed := by
  unfold State.noteDecode; dsimp only
  (repeat' split) <;> first | rfl | skip
  generalize hs : s.updItem _ _ = s1
  have w1 : s1.fixed = s.fixed := by rw [← hs]; simp
  cases s1.itemOf _ <;> simp [w1]

@[simp] theorem State.heatUp_fixed (s : State) (sl id : Nat) (cols : List Nat) (k : Nat) : (State.heatUp s sl id cols k).fixed = s.fixed := by
  simp [State.heatUp]

theorem probe_fixed {s : State} {e batch rows build r} (h : s.probe e batch rows build = .ok r) : r.1.fixed = s.fixed := by
  revert h
  unfold State.probe
  simp only [bind, Except.bind, pure, Except.pure, throw, throwThe, MonadExceptOf.throw]
  split
  · intro h; cases h
  · split
    · intro h; cases h
    · rename_i e; intro h; rw [← Except.ok.inj h]; simp [chargeAll_fixed e]

@[simp] theorem State.updBank_fixed (s : State) (b : Nat) (f : KsBank → KsBank) : (State.updBank s b f).fixed = s.fixed := by
  simp [State.updBank]

@[simp] theorem State.ksSlot_fixed (s : State) (b : Nat) (r : KsReq) : (State.ksSlot s b r).fixed = s.fixed := by
  simp [State.ksSlot]

@[simp] theorem State.ksError_fixed (s : State) (sl id bank pos : Nat) : (State.ksError s sl id bank pos).fixed = s.fixed := by
  simp [State.ksError]

@[simp] theorem State.ksIssue_fixed (s : State) (x : KsSearch) : (State.ksIssue s x).fixed = s.fixed := by
  simp [State.ksIssue]

@[simp] theorem State.ksSend_fixed (s : State) (x : KsSearch) (bank : Option Nat) : (State.ksSend s x bank).fixed = s.fixed := by
  simp [State.ksSend]

@[simp] theorem State.keyFinish_fixed (s : State) (w : WorkRef) (op code : Nat) : (State.keyFinish s w op code).fixed = s.fixed := by
  unfold State.keyFinish; (repeat' split) <;> simp

@[simp] theorem State.askFrom_fixed (s : State) (w : WorkRef) : (s.askFrom w).1.fixed = s.fixed := by
  cases w <;> simp [State.askFrom]

@[simp] theorem State.keyStart_fixed (s : State) (w : WorkRef) (op : Nat) (code : Nat) : (s.keyStart w op code).fixed = s.fixed := by
  unfold State.keyStart
  split
  · rfl
  · split
    · rfl
    · split
      · rfl
      · simp
      · split
        · rfl
        · dsimp only
          split
          · simp
          · rename_i e
            rw [State.keyFinish_fixed, foldl_fixed, State.updWork_fixed, State.askFrom_fixed, chargeAll_fixed e]
            intro t k; split <;> simp

@[simp] theorem State.ksDeliver_fixed (s : State) (x : KsSearch) (hit : Bool) (pos : Nat) (result : List Course) : (State.ksDeliver s x hit pos result).fixed = s.fixed := by
  unfold State.ksDeliver; (repeat' split) <;> simp

@[simp] theorem State.ksComplete_fixed (s : State) (id status : Nat) : (State.ksComplete s id status).fixed = s.fixed := by
  unfold State.ksComplete; (repeat' split) <;> simp

@[simp] theorem State.ksDrops_fixed (s : State) : s.ksDrops.fixed = s.fixed := by
  unfold State.ksDrops
  refine foldl_fixed _ (fun t w => ?_) _ _
  split
  · split <;> simp
  · rfl

@[simp] theorem State.ksQueue_fixed (s : State) (sl id kind pos : Nat) (images : List (List Course)) (host : Bool) (ctx : Nat) (core : Option CoreId) : (State.ksQueue s sl id kind pos images host ctx core).fixed = s.fixed := by
  simp [State.ksQueue]

@[simp] theorem State.ksEnter_fixed (s : State) (h : CmdHdr) (sl id kind pos : Nat) (images : List (List Course)) : (State.ksEnter s h sl id kind pos images).fixed = s.fixed := by
  simp [State.ksEnter]

@[simp] theorem State.ksRefill_fixed (s : State) (sl id : Nat) : (State.ksRefill s sl id).fixed = s.fixed := by
  unfold State.ksRefill
  refine foldl_fixed _ (fun t w => ?_) _ _
  (repeat' split) <;> simp

@[simp] theorem State.ksPop_fixed (s : State) (sl id : Nat) : (State.ksPop s sl id).fixed = s.fixed := by
  simp [State.ksPop]

@[simp] theorem State.ksSettle_fixed (s : State) (sl id : Nat) : (State.ksSettle s sl id).fixed = s.fixed := by
  unfold State.ksSettle; (repeat' split) <;> simp

@[simp] theorem State.stateInvalid_fixed (s : State) (m : DgMsg) : (State.stateInvalid s m).fixed = s.fixed := by
  unfold State.stateInvalid; (repeat' split) <;> simp

@[simp] theorem State.startLane_fixed (s : State) (bay lane : Nat) (m : DgMsg) : (State.startLane s bay lane m).fixed = s.fixed := by
  simp [State.startLane]

@[simp] theorem State.dgQueue_fixed (s : State) (bay : Nat) (m : DgMsg) : (State.dgQueue s bay m).fixed = s.fixed := by
  simp [State.dgQueue]

@[simp] theorem State.digestFinish_fixed (s : State) (w : WorkRef) (op : Nat) : (State.digestFinish s w op).fixed = s.fixed := by
  unfold State.digestFinish; (repeat' split) <;> simp

theorem State.areaLoad_fixed {s t : State} {u g inp n x rd ra off bad} (h : s.areaLoad u g inp n x rd ra off bad = .next t) : t.fixed = s.fixed :=
  State.tryOp_fixed h

theorem State.areaVload_fixed {s t : State} {u g inp e vd ra off bad} (h : s.areaVload u g inp e vd ra off bad = .next t) : t.fixed = s.fixed :=
  State.tryOp_fixed h

theorem chargeFiring_fixed {s t : State} {f kind n} (h : s.chargeFiring f kind n = some t) : t.fixed = s.fixed := charge_fixed h

theorem chargeCore_fixed {s t : State} {c kind n} (h : s.chargeCore c kind n = some t) : t.fixed = s.fixed := by
  unfold State.chargeCore at h
  split at h
  · exact charge_fixed h
  · cases h; rfl

theorem State.memRes_fixed (s : State) (u : CoreId) (c : Core) (a : Access) (obs : MemObs) : (s.memRes u c a obs).fixedAs s := by
  unfold State.memRes
  split
  · simp
  · rename_i e; simp [chargeCore_fixed e]

theorem State.ksUpdate_fixed (s : State) (u : CoreId) (c : Core) (loc kind pos : Nat) (image : Option Nat) :
    (s.ksUpdate u c loc kind pos image).fixedAs s := by
  unfold State.ksUpdate; simp only
  repeat' split
  all_goals first
    | (simp; done)
    | (have e := chargeFiring_fixed ‹s.chargeFiring _ _ _ = some _›; simp [e])

@[simp] theorem State.putTag_fixed (s : State) (u : CoreId) (d : DgPend) : (State.putTag s u d).fixed = s.fixed := by
  simp [State.putTag]

@[simp] theorem State.deliverFiring_fixed (s : State) (f : Firing) : (State.deliverFiring s f).fixed = s.fixed := by
  unfold State.deliverFiring; (repeat' split) <;> simp

@[simp] theorem State.completeFiring_fixed (s : State) (u : CoreId) (f : Firing) (c : Core) (n : Nat) : (State.completeFiring s u f c n).fixed = s.fixed := by
  unfold State.completeFiring; dsimp only
  split <;> split <;> first | (simp; done) | simp [chargeFiring_fixed ‹_›]

@[simp] theorem State.scrubStone_fixed (s : State) (b slot : Nat) : (State.scrubStone s b slot).fixed = s.fixed := by
  simp [State.scrubStone]

@[simp] theorem State.leaseTo_fixed (s : State) (b slot sl : Nat) : (State.leaseTo s b slot sl).fixed = s.fixed := by
  unfold State.leaseTo; (repeat' split) <;> simp

theorem State.crange_fixed {s t : State} {u g op rd ra rb} (h : s.crange u g op rd ra rb = .next t) : t.fixed = s.fixed :=
  State.issue_fixed (fun x c k => by dsimp only; repeat' split
                                     all_goals simp) h

@[simp] theorem State.startFiring_fixed (s : State) (b slot : Nat) (r : Ready) : (State.startFiring s b slot r).fixed = s.fixed := by
  unfold State.startFiring; (try dsimp only); (repeat' split) <;> first | rfl | (simp; done) | (simp_all; done)

@[simp] theorem State.passOn_fixed (s : State) (sl : Nat) (key : List Byte) : (State.passOn s sl key).fixed = s.fixed := by
  simp [State.passOn]

@[simp] theorem State.enterFlow_fixed (s : State) (seq : Nat) : (State.enterFlow s seq).fixed = s.fixed := by
  unfold State.enterFlow; (repeat' split) <;> simp

@[simp] theorem State.enterTable_fixed (s : State) (seq : Nat) : (State.enterTable s seq).fixed = s.fixed := by
  unfold State.enterTable; (repeat' split) <;> simp

@[simp] theorem State.takeRecord_fixed (sl gen iq port aq : Nat) (s : State) (r : ItemRec) : (State.takeRecord sl gen iq port aq s r).fixed = s.fixed := by
  unfold State.takeRecord; (try dsimp only); (repeat' split) <;> first | rfl | (simp; done) | (simp_all; done)

@[simp] theorem State.useLeaf_fixed (s : State) : (State.useLeaf s).fixed = s.fixed := by
  simp [State.useLeaf]

@[simp] theorem State.lateDiscard_fixed (s : State) (i : Item) : (State.lateDiscard s i).fixed = s.fixed := by
  simp [State.lateDiscard]

@[simp] theorem State.doubleFault_fixed (s : State) : (State.doubleFault s).fixed = s.fixed := by
  simp [State.doubleFault]

@[simp] theorem State.faultItem_fixed (s : State) (seq : Nat) : (State.faultItem s seq).fixed = s.fixed := by
  simp [State.faultItem]

@[simp] theorem State.releaseLost_fixed (s : State) (seq : Nat) : (State.releaseLost s seq).fixed = s.fixed := by
  simp [State.releaseLost]

@[simp] theorem State.tableParity_fixed (s : State) (p : ParityObs) : (State.tableParity s p).fixed = s.fixed := by
  unfold State.tableParity; (repeat' split) <;> simp

@[simp] theorem State.shedHeld_fixed (s : State) (seq : Nat) : (State.shedHeld s seq).fixed = s.fixed := by
  simp [State.shedHeld]

@[simp] theorem State.dropDiscarded_fixed (s : State) : (State.dropDiscarded s).fixed = s.fixed := by
  simp [State.dropDiscarded]

@[simp] theorem State.replicaAck_fixed (s : State) (seq : Nat) : (State.replicaAck s seq).fixed = s.fixed := by
  unfold State.replicaAck; (repeat' split) <;> simp

@[simp] theorem State.mirrorAck_fixed (s : State) (seq : Nat) : (State.mirrorAck s seq).fixed = s.fixed := by
  unfold State.mirrorAck; (repeat' split) <;> simp

@[simp] theorem State.replay_fixed (s : State) (i : Item) : (State.replay s i).fixed = s.fixed := by
  unfold State.replay; (repeat' split) <;> simp

@[simp] theorem State.noteSpace_fixed (s : State) : (State.noteSpace s).fixed = s.fixed := by
  simp [State.noteSpace]

@[simp] theorem State.closeSegs_fixed (s : State) (sl : Nat) : (State.closeSegs s sl).fixed = s.fixed := by
  simp [State.closeSegs]

@[simp] theorem State.secondOver_fixed (s : State) : (State.secondOver s).fixed = s.fixed := by
  simp [State.secondOver]

@[simp] theorem State.unwait_fixed (s : State) (w : Waiting) : (State.unwait s w).fixed = s.fixed := by
  simp [State.unwait]

@[simp] theorem State.sealedNow_fixed (t : Tick) (s : State) (w : Waiting) : (State.sealedNow t s w).fixed = s.fixed := by
  unfold State.sealedNow; (repeat' split) <;> simp

@[simp] theorem State.updMirror_fixed (s : State) (node seq : Nat) (f : Mirror → Mirror) : (State.updMirror s node seq f).fixed = s.fixed := by
  simp [State.updMirror]

@[simp] theorem State.dropMirrors_fixed (s : State) : (State.dropMirrors s).fixed = s.fixed := by
  simp [State.dropMirrors]

@[simp] theorem State.registerItem_fixed (s : State) (node : Nat) (i : Item) : (State.registerItem s node i).fixed = s.fixed := by
  simp [State.registerItem]

@[simp] theorem State.takeAnswer_fixed (s : State) (node seq cause : Nat) (a : AnswerOut) (record : List Byte) : (State.takeAnswer s node seq cause a record).fixed = s.fixed := by
  unfold State.takeAnswer; (repeat' split) <;> simp

@[simp] theorem State.coverMirrors_fixed (s : State) (x : Seal) : (State.coverMirrors s x).fixed = s.fixed := by
  simp [State.coverMirrors]

@[simp] theorem State.memberApplied_fixed (s : State) (node slice qid cid status detail : Nat) : (State.memberApplied s node slice qid cid status detail).fixed = s.fixed := by
  unfold State.memberApplied; (try dsimp only); (repeat' split) <;> first | rfl | (simp; done) | (simp_all; done)

@[simp] theorem State.memberIn_fixed (s : State) (src : Nat) (m : MemberMsg) : (State.memberIn s src m).fixed = s.fixed := by
  unfold State.memberIn; (repeat' split) <;> simp

@[simp] theorem State.memberCapsule_fixed (s : State) (img : List Byte) : (State.memberCapsule s img).fixed = s.fixed := by
  unfold State.memberCapsule; (repeat' split) <;> simp

@[simp] theorem State.replyMember_fixed (s : State) : (State.replyMember s).fixed = s.fixed := by
  unfold State.replyMember; (repeat' split) <;> simp

@[simp] theorem State.tsComplete_fixed (s : State) (w : Waiting) : (State.tsComplete s w).fixed = s.fixed := by
  unfold State.tsComplete; (repeat' split) <;> simp

@[simp] theorem State.tsSettle_fixed (s : State) : (State.tsSettle s).fixed = s.fixed := by
  simp [State.tsSettle]

@[simp] theorem State.tsSubmit_fixed (s : State) (w : Waiting) : (State.tsSubmit s w).fixed = s.fixed := by
  simp [State.tsSubmit]

theorem tsChecked_fixed (s : State) (b : Binding) (h : CmdHdr) (first count : Nat) {go : State → State}
    (hg : ∀ t, (go t).fixed = t.fixed) : (s.tsChecked b h first count go).fixed = s.fixed := by
  unfold State.tsChecked
  (repeat' split) <;> simp [hg]

@[simp] theorem State.failPartition_fixed (p : Nat) (s : State) (w : Waiting) : (State.failPartition p s w).fixed = s.fixed := by
  unfold State.failPartition; (repeat' split) <;> simp

@[simp] theorem State.startErase_fixed (s : State) (h : CmdHdr) (e : Erase) : (State.startErase s h e).fixed = s.fixed := by
  simp [State.startErase]

@[simp] theorem State.eraseEffect_fixed (s : State) (e : Erase) : (State.eraseEffect s e).fixed = s.fixed := by
  simp [State.eraseEffect]

@[simp] theorem State.eraseDone_fixed (p : Nat) (s : State) (w : Waiting) : (State.eraseDone p s w).fixed = s.fixed := by
  unfold State.eraseDone; (repeat' split) <;> simp

@[simp] theorem State.fillPool_fixed (s : State) (b sl g : Nat) : (State.fillPool s b sl g).fixed = s.fixed := by
  simp [State.fillPool]

@[simp] theorem State.fillPools_fixed (s : State) : (State.fillPools s).fixed = s.fixed := by
  simp [State.fillPools]

@[simp] theorem State.bindCopies_fixed (s : State) : (State.bindCopies s).fixed = s.fixed := by
  simp [State.bindCopies]

@[simp] theorem State.homeWarm_fixed (s : State) (warm : List Nat) : (State.homeWarm s warm).fixed = s.fixed := by
  simp [State.homeWarm]

@[simp] theorem State.applyTried_fixed (s : State) (t : Tried) : (State.applyTried s t).fixed = s.fixed := by
  simp [State.applyTried]

theorem admitCtx_fixed {s t : State} {c} (e : s.admitCtx c = .ok t) : t.fixed = s.fixed := by
  simp only [State.admitCtx] at e
  split at e
  · cases e
  · rw [← Except.ok.inj e]; simp

@[simp] theorem State.noteDemoted_fixed (s : State) : (State.noteDemoted s).fixed = s.fixed := by
  simp [State.noteDemoted]

@[simp] theorem State.verdictSpent_fixed (s : State) : (State.verdictSpent s).fixed = s.fixed := by
  simp [State.verdictSpent]

@[simp] theorem State.rerun_fixed (s : State) (why : Cause) : (State.rerun s why).fixed = s.fixed := by
  simp [State.rerun]

@[simp] theorem State.rerunRate_fixed (s : State) : (State.rerunRate s).fixed = s.fixed := by
  simp [State.rerunRate]

@[simp] theorem State.atRiskNow_fixed (s : State) : (State.atRiskNow s).fixed = s.fixed := by
  simp [State.atRiskNow]

@[simp] theorem State.raiseFactors_fixed (s : State) (sl : Nat) (im : Image) : (State.raiseFactors s sl im).fixed = s.fixed := by
  simp [State.raiseFactors]

theorem place_fixed {s : State} {sl im r} (e : s.place sl im = .ok r) : r.1.fixed = s.fixed := by
  unfold State.place at e
  (repeat' (split at e)) <;> first
    | (cases e; done)
    | (rw [← Except.ok.inj e]; simp; done)
    | (rename_i k _; rw [← Except.ok.inj e, State.raiseFactors_fixed, admitCtx_fixed k])

theorem loadImage_fixed {s : State} {sl d r} (e : s.loadImage sl d = .ok r) : r.1.fixed = s.fixed := by
  revert e
  unfold State.loadImage
  simp only [bind, Except.bind]
  split
  · intro e; cases e
  · split
    · intro e; cases e
    · exact place_fixed

@[simp] theorem State.dropTable_fixed (s : State) (sl id : Nat) : (State.dropTable s sl id).fixed = s.fixed := by
  simp [State.dropTable]

@[simp] theorem State.rehome_fixed (s : State) (bucket dst : Nat) : (State.rehome s bucket dst).fixed = s.fixed := by
  simp [State.rehome]

@[simp] theorem State.rehomeAll_fixed (s : State) (bay : Nat) : (State.rehomeAll s bay).fixed = s.fixed := by
  simp [State.rehomeAll]

@[simp] theorem State.pinTable_fixed (s : State) (sl id : Nat) (on : Bool) : (State.pinTable s sl id on).fixed = s.fixed := by
  simp [State.pinTable]

@[simp] theorem State.mapAshlars_fixed (s : State) (f : Ashlar → Ashlar) : (State.mapAshlars s f).fixed = s.fixed := by
  simp [State.mapAshlars]

@[simp] theorem State.moveFrames_fixed (s : State) (src dst n : Nat) : (s.moveFrames src dst n).fixed = s.fixed := by
  induction n with
  | zero => rfl
  | succ n ih => unfold State.moveFrames; dsimp only; rw [State.memStore_fixed, State.memStore_fixed, ih]

@[simp] theorem State.forgetVa_fixed (s : State) (slice va : Nat) : (State.forgetVa s slice va).fixed = s.fixed := by
  simp [State.forgetVa]

@[simp] theorem State.firingLost_fixed (s : State) (u : CoreId) : (State.firingLost s u).fixed = s.fixed := by
  unfold State.firingLost; (repeat' split) <;> simp

@[simp] theorem State.messageLost_fixed (s : State) (bay : Nat) (m : DgMsg) : (State.messageLost s bay m).fixed = s.fixed := by
  unfold State.messageLost; (repeat' split) <;> simp

@[simp] theorem State.clearBay_fixed (s : State) (bay : Nat) : (State.clearBay s bay).fixed = s.fixed := by
  simp [State.clearBay]

@[simp] theorem State.faultBay_fixed (s : State) (bay : Nat) : (State.faultBay s bay).fixed = s.fixed := by
  simp [State.faultBay]

@[simp] theorem State.loseBay_fixed (s : State) (bay : Nat) : (State.loseBay s bay).fixed = s.fixed := by
  simp [State.loseBay]

@[simp] theorem State.useSpare_fixed (s : State) (bay l : Nat) (lease : Option (Nat × Tick)) : (State.useSpare s bay l lease).fixed = s.fixed := by
  unfold State.useSpare; (repeat' split) <;> simp

@[simp] theorem State.fenceStone_fixed (s : State) (bay slot : Nat) : (State.fenceStone s bay slot).fixed = s.fixed := by
  unfold State.fenceStone; (repeat' split) <;> simp

@[simp] theorem State.failPath_fixed (s : State) (u : CoreId) : (State.failPath s u).fixed = s.fixed := by
  unfold State.failPath; (repeat' split) <;> simp

@[simp] theorem State.transferFailed_fixed (s : State) (u : CoreId) : (State.transferFailed s u).fixed = s.fixed := by
  simp [State.transferFailed]

@[simp] theorem State.recordLost_fixed (s : State) (ring : Nat) (stone held : Option Nat) : (State.recordLost s ring stone held).fixed = s.fixed := by
  unfold State.recordLost; (repeat' split) <;> simp

@[simp] theorem State.ledgerTransferFailed_fixed (s : State) (seq : Nat) : (State.ledgerTransferFailed s seq).fixed = s.fixed := by
  unfold State.ledgerTransferFailed; (repeat' split) <;> simp

@[simp] theorem State.floorWatch_fixed (s : State) : (State.floorWatch s).fixed = s.fixed := by
  simp [State.floorWatch]

@[simp] theorem State.enterFloor_fixed (s : State) (bay : Nat) : (State.enterFloor s bay).fixed = s.fixed := by
  simp [State.enterFloor]

@[simp] theorem State.floorCheck_fixed (s : State) (bay : Nat) : (State.floorCheck s bay).fixed = s.fixed := by
  simp [State.floorCheck]

@[simp] theorem State.settleExposed_fixed (s : State) : (State.settleExposed s).fixed = s.fixed := by
  simp [State.settleExposed]

@[simp] theorem State.unfenceBay_fixed (s : State) (bay : Nat) : (State.unfenceBay s bay).fixed = s.fixed := by
  simp [State.unfenceBay]

@[simp] theorem State.discardItem_fixed (s : State) (seq : Nat) : (State.discardItem s seq).fixed = s.fixed := by
  unfold State.discardItem; (repeat' split) <;> simp

@[simp] theorem State.endAnswered_fixed (s : State) (seq : Nat) : (State.endAnswered s seq).fixed = s.fixed := by
  simp [State.endAnswered]

@[simp] theorem State.discardRun_fixed (s : State) (num : Nat) : (State.discardRun s num).fixed = s.fixed := by
  unfold State.discardRun; (repeat' split) <;> simp

@[simp] theorem State.forgetTag_fixed (s : State) (sl gen : Nat) : (State.forgetTag s sl gen).fixed = s.fixed := by
  simp [State.forgetTag]

@[simp] theorem State.retireSlice_fixed (s : State) (sl : Nat) : (State.retireSlice s sl).fixed = s.fixed := by
  simp [State.retireSlice]

@[simp] theorem State.tryRaise_fixed (s : State) (sl : Nat) : (s.tryRaise sl).fixed = s.fixed := by
  unfold State.tryRaise
  split
  · rfl
  · dsimp only
    rw [ite_fixed]
    simp

@[simp] theorem State.startRaise_fixed (s : State) (sl : Nat) (r : Raise) : (State.startRaise s sl r).fixed = s.fixed := by
  simp [State.startRaise]

@[simp] theorem State.zeroFrames_fixed (s : State) (fs : List (Nat × Nat)) : (State.zeroFrames s fs).fixed = s.fixed := by
  simp [State.zeroFrames]

@[simp] theorem State.removeSlice_fixed (s : State) (sl : Nat) : (State.removeSlice s sl).fixed = s.fixed := by
  simp [State.removeSlice]

@[simp] theorem State.bindPid_fixed (s : State) (pid slice role : Nat) : (State.bindPid s pid slice role).fixed = s.fixed := by
  simp [State.bindPid]

@[simp] theorem State.applyAllot_fixed (s : State) (sl sub v : Nat) : (State.applyAllot s sl sub v).fixed = s.fixed := by
  simp [State.applyAllot]

theorem writeAllot_fixed {s t : State} {sl sub v} (e : s.writeAllot sl sub v = .ok t) : t.fixed = s.fixed := by
  simp only [State.writeAllot] at e
  (repeat' (split at e)) <;> first | (cases e; done) | (rw [← Except.ok.inj e]; simp; done)

@[simp] theorem State.issueCert_fixed (s : State) (meas : List Byte) : (State.issueCert s meas).fixed = s.fixed := by
  simp [State.issueCert]

@[simp] theorem State.makeReport_fixed (s : State) (nonce : List Byte) : (s.makeReport nonce).1.fixed = s.fixed := by
  simp [State.makeReport]

@[simp] theorem State.attestNow_fixed (s : State) (w : Waiting) : (State.attestNow s w).fixed = s.fixed := by
  unfold State.attestNow; (try dsimp only); (repeat' split) <;> first | rfl | (simp; done) | (simp_all; done)

theorem stage_fixed (t : TrustSt) (src off : Nat) (final : Bool) (d : List Byte) :
    (t.stage src off final d).1.otpSvn = t.otpSvn ∧ (t.stage src off final d).1.mramSvn = t.mramSvn ∧
      (t.stage src off final d).1.revoked = t.revoked := by
  have k : ∀ (t : TrustSt) d, (t.setInactive d).otpSvn = t.otpSvn ∧ (t.setInactive d).mramSvn = t.mramSvn ∧ (t.setInactive d).revoked = t.revoked := by
    intro t d; unfold TrustSt.setInactive; (repeat' split) <;> simp
  have f : ∀ (t : TrustSt), t.finishStage.1.otpSvn = t.otpSvn ∧ t.finishStage.1.mramSvn = t.mramSvn ∧ t.finishStage.1.revoked = t.revoked := by
    intro t; unfold TrustSt.finishStage; dsimp only; (repeat' split) <;> simp
  unfold TrustSt.stage
  dsimp only
  (repeat' split) <;> simp [k, f]
theorem stageData_fixed {s t : State} {v} (e : s.stageData v = .ok t) : t.fixed = s.fixed := by
  simp only [State.stageData] at e
  split at e
  · cases e
  · split at e
    · rw [← Except.ok.inj e]
      obtain ⟨a, b, c⟩ := stage_fixed s.trust 2 (beNat (v.take 4)) (beNat (slice v 4 1) == 1) (v.drop 5)
      show (_, _, _, _) = _
      rw [a, b, c]; rfl
    · cases e

@[simp] theorem State.activated_fixed (s : State) (w : Waiting) : (State.activated s w).fixed = s.fixed := by
  unfold State.activated; (repeat' split) <;> simp

@[simp] theorem State.newChallenge_fixed (s : State) : (State.newChallenge s).fixed = s.fixed := by
  simp [State.newChallenge]

@[simp] theorem State.flushLedger_fixed (s : State) : (State.flushLedger s).fixed = s.fixed := by
  simp [State.flushLedger]

@[simp] theorem State.raiseAll_fixed (s : State) : (State.raiseAll s).fixed = s.fixed := by
  simp [State.raiseAll]

@[simp] theorem State.tryUnlock_fixed (s : State) (d : List Byte) : (s.tryUnlock d).1.fixed = s.fixed := by
  unfold State.tryUnlock; dsimp only
  split
  · simp
  · split <;> simp

@[simp] theorem State.countTick_fixed (s : State) : (State.countTick s).fixed = s.fixed := by
  simp [State.countTick]

@[simp] theorem State.countParity_fixed (s : State) (badCopies : Nat) : (State.countParity s badCopies).fixed = s.fixed := by
  simp [State.countParity]

@[simp] theorem State.tick_fixed (s : State) (badCopies : Nat) : (State.tick s badCopies).fixed = s.fixed := by
  simp [State.tick]

@[simp] theorem State.ppsValid_fixed (s : State) : (State.ppsValid s).fixed = s.fixed := by
  simp [State.ppsValid]

@[simp] theorem State.ppsBad_fixed (s : State) : (State.ppsBad s).fixed = s.fixed := by
  simp [State.ppsBad]

@[simp] theorem State.putFlit_fixed (s : State) (p : Nat) (h : FlitHdr) (payload : List Byte) : (State.putFlit s p h payload).fixed = s.fixed := by
  simp [State.putFlit]

@[simp] theorem State.sendPlain_fixed (s : State) (p type : Nat) : (State.sendPlain s p type).fixed = s.fixed := by
  simp [State.sendPlain]

@[simp] theorem State.sendNew_fixed (s : State) (p : Nat) (f0 : TxFlit) : (State.sendNew s p f0).fixed = s.fixed := by
  simp [State.sendNew]

@[simp] theorem State.queueCapsule_fixed (s : State) (p vc dest : Nat) (b : List Byte) : (State.queueCapsule s p vc dest b).fixed = s.fixed := by
  simp [State.queueCapsule]

@[simp] theorem State.pullOutput_fixed (s : State) (p : Nat) : (State.pullOutput s p).fixed = s.fixed := by
  unfold State.pullOutput; (try dsimp only); (repeat' split) <;> first | rfl | (simp; done) | (simp_all; done)

@[simp] theorem State.pullMember_fixed (s : State) (p : Nat) : (State.pullMember s p).fixed = s.fixed := by
  unfold State.pullMember; (try dsimp only); (repeat' split) <;> first | rfl | (simp; done) | (simp_all; done)

@[simp] theorem State.sendNext_fixed (s : State) (p : Nat) : (State.sendNext s p).fixed = s.fixed := by
  unfold State.sendNext; (try dsimp only); (repeat' split) <;> first | rfl | (simp; done) | (simp_all; done)

@[simp] theorem State.settlePorts_fixed (s : State) : (State.settlePorts s).fixed = s.fixed := by
  simp [State.settlePorts]

@[simp] theorem State.darken_fixed (s : State) (p : Nat) (held : Bool) : (State.darken s p held).fixed = s.fixed := by
  simp [State.darken]

@[simp] theorem State.resendOn_fixed (s : State) (p : Nat) (fs : List TxFlit) : (State.resendOn s p fs).fixed = s.fixed := by
  simp [State.resendOn]

@[simp] theorem State.reportDown_fixed (s : State) (n : Nat) : (State.reportDown s n).fixed = s.fixed := by
  simp [State.reportDown]

@[simp] theorem State.portDown_fixed (s : State) (p : Nat) : (State.portDown s p).fixed = s.fixed := by
  unfold State.portDown; (try dsimp only); (repeat' split) <;> first | rfl | (simp; done) | (simp_all; done)

@[simp] theorem State.askRetry_fixed (s : State) (p : Nat) : (State.askRetry s p).fixed = s.fixed := by
  simp [State.askRetry]

@[simp] theorem State.badFlit_fixed (s : State) (p : Nat) : (State.badFlit s p).fixed = s.fixed := by
  simp [State.badFlit]

@[simp] theorem State.retrain_fixed (s : State) (p : Nat) : (State.retrain s p).fixed = s.fixed := by
  simp [State.retrain]

@[simp] theorem State.retryAsked_fixed (s : State) (p : Nat) (h : FlitHdr) : (State.retryAsked s p h).fixed = s.fixed := by
  simp [State.retryAsked]

@[simp] theorem State.refuseOn_fixed (s : State) (p : Nat) (h : CmdHdr) (status detail : Nat) : (State.refuseOn s p h status detail).fixed = s.fixed := by
  simp [State.refuseOn]

@[simp] theorem State.acceptCapsule_fixed (s : State) (p : Nat) (img : List Byte) : (State.acceptCapsule s p img).fixed = s.fixed := by
  unfold State.acceptCapsule; (try dsimp only); (repeat' split) <;> first | rfl | (simp; done) | (simp_all; done)

@[simp] theorem State.takeCommand_fixed (s : State) (p : Nat) (h : FlitHdr) (bytes : List Byte) : (State.takeCommand s p h bytes).fixed = s.fixed := by
  simp [State.takeCommand]

@[simp] theorem State.passFlit_fixed (s : State) (p : Nat) (h : FlitHdr) (bytes : List Byte) : (State.passFlit s p h bytes).fixed = s.fixed := by
  unfold State.passFlit; (repeat' split) <;> simp

@[simp] theorem State.takeMember_fixed (s : State) (p : Nat) (h : FlitHdr) (bytes : List Byte) : (State.takeMember s p h bytes).fixed = s.fixed := by
  simp [State.takeMember]

@[simp] theorem State.takePayload_fixed (s : State) (p : Nat) (h : FlitHdr) (bytes : List Byte) : (State.takePayload s p h bytes).fixed = s.fixed := by
  simp [State.takePayload]

@[simp] theorem State.takePayloadFlit_fixed (s : State) (p : Nat) (h : FlitHdr) (flit : List Byte) : (State.takePayloadFlit s p h flit).fixed = s.fixed := by
  simp [State.takePayloadFlit]

@[simp] theorem State.startTraining_fixed (s : State) (p : Nat) : (State.startTraining s p).fixed = s.fixed := by
  simp [State.startTraining]

@[simp] theorem State.finishTraining_fixed (s : State) (p : Nat) : (State.finishTraining s p).fixed = s.fixed := by
  unfold State.finishTraining; (try dsimp only); (repeat' split) <;> first | rfl | (simp; done) | (simp_all; done)

@[simp] theorem State.adoptRecord_fixed (s : State) (x : Mirror) (a : AnswerOut) : (State.adoptRecord s x a).fixed = s.fixed := by
  simp [State.adoptRecord]

@[simp] theorem State.takeOver_fixed (s : State) (x : Mirror) : (State.takeOver s x).fixed = s.fixed := by
  unfold State.takeOver; (repeat' split) <;> simp

@[simp] theorem State.redivide_fixed (s : State) : (State.redivide s).fixed = s.fixed := by
  simp [State.redivide]

@[simp] theorem State.declareLoss_fixed (s : State) (node : Nat) : (s.declareLoss node).fixed = s.fixed := by
  unfold State.declareLoss
  split
  · rfl
  · dsimp only
    rw [State.rerun_fixed, State.redivide_fixed, foldl_fixed]
    · split
      · rw [foldl_fixed _ (by simp)]; simp
      · rw [State.stick_fixed, foldl_fixed _ (by simp)]; simp
    · intro t f; split <;> simp

@[simp] theorem State.heardStop_fixed (s : State) (p : Nat) (h : FlitHdr) : (State.heardStop s p h).fixed = s.fixed := by
  simp [State.heardStop]

@[simp] theorem State.payloadIn_fixed (s : State) (p : Nat) (flit : List Byte) : (State.payloadIn s p flit).fixed = s.fixed := by
  unfold State.payloadIn; (repeat' split) <;> simp

@[simp] theorem State.sendReport_fixed (s : State) (p : Nat) : (State.sendReport s p).fixed = s.fixed := by
  simp [State.sendReport]

@[simp] theorem State.attestFailed_fixed (s : State) (p : Nat) : (State.attestFailed s p).fixed = s.fixed := by
  simp [State.attestFailed]

@[simp] theorem State.leavePorts_fixed (s : State) : (State.leavePorts s).fixed = s.fixed := by
  simp [State.leavePorts]

@[simp] theorem State.joinPorts_fixed (s : State) (serial : List Byte) (node : Nat) : (State.joinPorts s serial node).fixed = s.fixed := by
  unfold State.joinPorts; (try dsimp only); (repeat' split) <;> first | rfl | (simp; done) | (simp_all; done)

@[simp] theorem State.admitMember_fixed (s : State) (node : Nat) (serial : List Byte) : (State.admitMember s node serial).fixed = s.fixed := by
  simp [State.admitMember]

@[simp] theorem State.joinGroup_fixed (s : State) (node count : Nat) : (State.joinGroup s node count).fixed = s.fixed := by
  simp [State.joinGroup]

@[simp] theorem State.memberLeave_fixed (s : State) (node : Nat) : (State.memberLeave s node).fixed = s.fixed := by
  unfold State.memberLeave; (repeat' split) <;> simp

@[simp] theorem State.readGroup_fixed (s : State) (g : List Nat) (view : Option Nat) (d : ObjDef) (own : List Byte) :
    (s.readGroup g view d own).2.2.fixed = s.fixed := by
  unfold State.readGroup; dsimp only; (repeat' split) <;> first | rfl | simp

@[simp] theorem State.readAt_fixed (s : State) (a : Arch) (view : Option Nat) (d : ObjDef) (index sub : Nat) :
    (s.readAt a view d index sub).2.2.fixed = s.fixed := by
  unfold State.readAt; dsimp only; (repeat' split) <;> first | rfl | simp

theorem readObj_fixed {s : State} {c v a r} (h : s.readObj c v a = .ok r) : r.2.2.fixed = s.fixed := by
  unfold State.readObj at h
  repeat' (split at h)
  all_goals first | (cases h; done) | (rw [← Except.ok.inj h]; simp)

@[simp] theorem State.startStore_fixed (s : State) : (State.startStore s).fixed = s.fixed := by
  simp [State.startStore]

@[simp] theorem State.storeAnswered_fixed (s : State) (w : Waiting) : (State.storeAnswered s w).fixed = s.fixed := by
  unfold State.storeAnswered; (repeat' split) <;> simp

@[simp] theorem State.canSend_fixed (s : State) (function : Nat) (b : List Byte) : (State.canSend s function b).fixed = s.fixed := by
  simp [State.canSend]

@[simp] theorem State.canReply_fixed (s : State) (cs : Nat) (a : ObjAddr) (b : List Byte) : (State.canReply s cs a b).fixed = s.fixed := by
  simp [State.canReply]

@[simp] theorem State.canAbort_fixed (s : State) (a : ObjAddr) (code : Nat) : (State.canAbort s a code).fixed = s.fixed := by
  simp [State.canAbort]

@[simp] theorem State.portEnable_fixed (s : State) (p v : Nat) : (State.portEnable s p v).fixed = s.fixed := by
  simp [State.portEnable]

@[simp] theorem State.afterRws_fixed (s : State) (index sub v : Nat) : (State.afterRws s index sub v).fixed = s.fixed := by
  simp [State.afterRws]

@[simp] theorem State.writeRing_fixed (s : State) (n sub v : Nat) : (State.writeRing s n sub v).fixed = s.fixed := by
  simp [State.writeRing]

theorem writePin_fixed {s t : State} {sl v} (e : s.writePin sl v = .ok t) : t.fixed = s.fixed := by
  simp only [State.writePin] at e
  (repeat' (split at e)) <;> first | (cases e; done) | (rw [← Except.ok.inj e]; simp)

/-- What no effect takes back: the waiting commands stay as they are, the anti-rollback counter and its fuses do not
fall, and a revoked vendor key stays revoked (R534, R535). -/
def State.Kept (s t : State) : Prop :=
  t.pending = s.pending ∧ s.trust.otpSvn ≤ t.trust.otpSvn ∧ s.trust.counter ≤ t.trust.counter ∧
    ∀ k, s.trust.revoked.testBit k = true → t.trust.revoked.testBit k = true
theorem State.Kept.refl (s : State) : s.Kept s := ⟨rfl, Nat.le_refl _, Nat.le_refl _, fun _ h => h⟩
theorem State.Kept.trans {s t u : State} (h : s.Kept t) (k : t.Kept u) : s.Kept u :=
  ⟨k.1.trans h.1, Nat.le_trans h.2.1 k.2.1, Nat.le_trans h.2.2.1 k.2.2.1, fun n e => k.2.2.2 n (h.2.2.2 n e)⟩
theorem kept_of_fixed {s t : State} (h : t.fixed = s.fixed) : s.Kept t := by
  simp only [State.fixed, Prod.mk.injEq] at h
  obtain ⟨h1, h2, h3, h4⟩ := h
  simp [State.Kept, TrustSt.counter, h1, h2, h3, h4]
theorem fixed_congr_kept {s s' t : State} (h : s'.fixed = s.fixed) (k : s'.Kept t) : s.Kept t := (kept_of_fixed h).trans k
theorem State.Kept.after {s t u : State} (k : s.Kept t) (h : u.fixed = t.fixed) : s.Kept u := k.trans (kept_of_fixed h)
theorem commitSvn_kept {s t : State} {v} (e : s.commitSvn v = .ok t) : s.Kept t := by
  unfold State.commitSvn at e
  split at e
  · cases e
  · rename_i hv
    split at e
    · cases e
    · rw [← Except.ok.inj e]
      refine ⟨rfl, ?_, ?_, fun _ h => h⟩
      · have : s.trust.otpSvn ≤ s.trust.counter := Nat.le_max_left _ _
        show s.trust.otpSvn ≤ v
        omega
      · show s.trust.counter ≤ max v v
        omega

theorem withBit_testBit (m n k : Nat) (h : m.testBit k = true) : (withBit m n).testBit k = true := by
  simp [withBit, Nat.testBit_or, h]
theorem revokeKey_kept {s t : State} {v} (e : s.revokeKey v = .ok t) : s.Kept t := by
  unfold State.revokeKey at e
  (repeat' (split at e)) <;> first | (cases e; done) | skip
  rw [← Except.ok.inj e]
  exact ⟨rfl, Nat.le_refl _, Nat.le_refl _, fun k h => withBit_testBit _ _ _ h⟩

theorem clearOverflow_fixed {s t : State} {sl ctx} (e : s.clearOverflow sl ctx = .ok t) : t.fixed = s.fixed := by
  simp only [State.clearOverflow] at e
  (repeat' (split at e)) <;> first | (cases e; done) | (rw [← Except.ok.inj e]; simp; done)

theorem writeEpoch_fixed {s t : State} {v} (e : s.writeEpoch v = .ok t) : t.fixed = s.fixed := by
  simp only [State.writeEpoch] at e
  (repeat' (split at e)) <;> first | (cases e; done) | (rw [← Except.ok.inj e]; simp; done)

theorem writeStore_fixed {s t : State} {r v} (e : s.writeStore r v = .ok t) : t.fixed = s.fixed := by
  simp only [State.writeStore] at e
  (repeat' (split at e)) <;> first | (cases e; done) | (rw [← Except.ok.inj e]; simp; done)

theorem map_ok_fixed {α : Type} {s t : State} {x : Except ObjErr α} {f : α → State} (hf : ∀ y, (f y).fixed = s.fixed)
    (e : x.map f = .ok t) : t.fixed = s.fixed := by
  cases x with
  | error y => cases e
  | ok y => rw [← Except.ok.inj e]; exact hf y
theorem writeSlice_fixed {s t : State} {sl sub v} (e : s.writeSlice sl sub v = .ok t) : t.fixed = s.fixed := by
  unfold State.writeSlice at e
  split at e
  · split at e
    · cases e
    · exact map_ok_fixed (by simp) e
  · split at e
    · exact clearOverflow_fixed e
    · split at e
      · rw [← Except.ok.inj e]; simp
      · split at e
        · rw [← Except.ok.inj e]; simp
        · split at e
          · rename_i k; rw [← Except.ok.inj e]; exact writeAllot_fixed k
          · cases e

theorem writeBind_fixed {s t : State} {c v} (e : s.writeBind c v = .ok t) : t.fixed = s.fixed := by
  simp only [State.writeBind] at e
  (repeat' (split at e)) <;> first | (cases e; done) | (rw [← Except.ok.inj e]; simp; done)

theorem applyWrite_kept {s t : State} {c ar view sl d a v} (e : s.applyWrite c ar view sl d a v = .ok t) : s.Kept t := by
  unfold State.applyWrite at e
  dsimp only at e
  split at e
  · exact kept_of_fixed (writeStore_fixed e)
  · exact kept_of_fixed (writeStore_fixed e)
  · exact kept_of_fixed (map_ok_fixed (by simp) e)
  · exact kept_of_fixed (map_ok_fixed (by simp) e)
  · exact kept_of_fixed (writeBind_fixed e)
  · split at e
    · rw [← Except.ok.inj e]; exact kept_of_fixed (by simp)
    · cases e
  · exact kept_of_fixed (writeEpoch_fixed e)
  · exact kept_of_fixed (writePin_fixed e)
  · rw [← Except.ok.inj e]; exact kept_of_fixed (by simp)
  · rw [← Except.ok.inj e]; exact kept_of_fixed (by simp)
  · exact revokeKey_kept e
  · exact commitSvn_kept e
  · exact kept_of_fixed (stageData_fixed e)
  · split at e
    · rw [← Except.ok.inj e]; exact kept_of_fixed (by simp)
    · cases e
  · split at e
    · exact kept_of_fixed (writeSlice_fixed e)
    · split at e
      · rw [← Except.ok.inj e]; refine kept_of_fixed ?_; split <;> simp
      · split at e
        · rw [← Except.ok.inj e]; exact kept_of_fixed (by simp)
        · rw [← Except.ok.inj e]; exact kept_of_fixed (by simp)

theorem writeObj_kept {s t : State} {c view sl a v} (e : s.writeObj c view sl a v = .ok t) : s.Kept t := by
  unfold State.writeObj at e
  dsimp only at e
  (repeat' (split at e)) <;> first
    | (cases e; done)
    | exact applyWrite_kept e
    | (rw [← Except.ok.inj e]; exact .refl _)
theorem command_kept (s : State) (i : Instr) (h : CmdHdr) (op : Nat) (roles : List Nat) (body : State → Binding → State)
    (hb : ∀ (x : State) b, x.Kept (body x b)) : s.Kept (s.command i h op roles body) := by
  have w := State.admitCmd_fixed s h op roles
  unfold State.command
  split <;> rename_i e <;> rw [e] at w
  · exact kept_of_fixed w
  · exact kept_of_fixed ((State.keepRow_fixed _ _ _ _).trans w)
  · exact fixed_congr_kept w (hb _ _)

theorem objRefused_fixed {s t : State} {h op a} (e : s.objRefused h op a = some t) : t.fixed = s.fixed := by
  unfold State.objRefused at e
  repeat' (split at e)
  all_goals first
    | (cases e; done)
    | skip
  dsimp only at e
  split at e
  · rw [← Option.some.inj e]; simp
  · cases e

@[simp] theorem State.bandRead_fixed (s : State) (h : CmdHdr) (a : ObjAddr) : (s.bandRead h a).fixed = s.fixed := by
  unfold State.bandRead
  split
  · rename_i e; exact objRefused_fixed e
  · split
    · simp
    · refine State.command_fixed _ _ _ _ _ _ (fun t b => ?_)
      split
      · rename_i e; simp [readObj_fixed e]
      · simp

theorem managed_kept (s : State) (i : Instr) (h : CmdHdr) (op : Nat) (roles : List Nat) (body : State → Binding → State)
    (hb : ∀ (x : State) b, x.Kept (body x b)) : s.Kept (s.managed i h op roles body) := by
  unfold State.managed
  split
  · exact kept_of_fixed (by simp)
  · refine command_kept _ _ _ _ _ _ (fun t b => ?_)
    split
    · exact kept_of_fixed (by simp)
    · exact (hb t b).after (by simp)

theorem State.bandWrite_kept (s : State) (i : Instr) (h : CmdHdr) (a : ObjAddr) (v : List Byte) : s.Kept (s.bandWrite i h a v) := by
  unfold State.bandWrite
  split
  · rename_i e; exact kept_of_fixed (objRefused_fixed e)
  · refine managed_kept _ _ _ _ _ _ (fun t b => ?_)
    split
    · rename_i e
      refine (fixed_congr_kept (State.awake_fixed t) (writeObj_kept e)).after ?_
      split <;> simp
    · refine kept_of_fixed ?_
      dsimp only; split <;> simp

@[simp] theorem State.endSession_fixed (s : State) : (State.endSession s).fixed = s.fixed := by
  simp [State.endSession]

@[simp] theorem State.touched_fixed (s : State) : (State.touched s).fixed = s.fixed := by
  simp [State.touched]

@[simp] theorem State.displace_fixed (s : State) : (State.displace s).fixed = s.fixed := by
  unfold State.displace; (repeat' split) <;> simp

theorem canRead_fixed {s : State} {a r} (h : s.canRead a = .ok r) : r.2.fixed = s.fixed := by
  unfold State.canRead at h
  dsimp only at h
  split at h
  · cases h
  · split at h
    · rename_i e; rw [← Except.ok.inj h, readObj_fixed e]; split <;> simp
    · cases h

theorem State.canWrite_kept (s : State) (a : ObjAddr) (v : List Byte) : s.Kept (s.canWrite a v) := by
  unfold State.canWrite
  dsimp only
  split
  · exact kept_of_fixed (by simp)
  · split
    · rename_i e
      refine (fixed_congr_kept (State.awake_fixed s) (writeObj_kept e)).after ?_
      split <;> simp
    · refine kept_of_fixed ?_
      split <;> simp

theorem State.writeFrom_kept (s : State) (i : Instr) (src : ObjSrc) (a : ObjAddr) (v : List Byte) : s.Kept (s.writeFrom i src a v) := by
  unfold State.writeFrom
  split
  · exact State.bandWrite_kept ..
  · dsimp only
    split
    · exact kept_of_fixed (by simp)
    · split
      · exact .refl _
      · exact fixed_congr_kept (by simp) (State.canWrite_kept ..)

theorem State.serve_kept {s t : State} {f : State → State} (hf : ∀ x : State, x.Kept (f x)) (h : s.serve f = .next t) : s.Kept t := by
  unfold State.serve at h
  obtain rfl := Host.Outcome.next.inj h; clear h
  split
  · exact fixed_congr_kept (by simp) (hf _)
  · exact .refl _
theorem State.serve_fixed {s t : State} {f : State → State} (hf : ∀ x : State, (f x).fixed = x.fixed) (h : s.serve f = .next t) :
    t.fixed = s.fixed := by
  unfold State.serve at h
  obtain rfl := Host.Outcome.next.inj h; clear h
  split
  · rw [hf]; simp
  · rfl

theorem State.serveObj_kept {s t : State} {i fr w} {f : ObjAddr → State → State} (hf : ∀ a (x : State), x.Kept (f a x))
    (h : s.serveObj i fr w f = .next t) : s.Kept t := by
  unfold State.serveObj at h
  dsimp only at h
  split at h
  · rw [← Host.Outcome.next.inj h]; exact kept_of_fixed (by simp)
  · split at h
    · rw [← Host.Outcome.next.inj h]; exact .refl _
    · exact State.serve_kept (hf _) h
theorem State.serveObj_fixed {s t : State} {i fr w} {f : ObjAddr → State → State} (hf : ∀ a (x : State), (f a x).fixed = x.fixed)
    (h : s.serveObj i fr w f = .next t) : t.fixed = s.fixed := by
  unfold State.serveObj at h
  dsimp only at h
  split at h
  · rw [← Host.Outcome.next.inj h]; simp
  · split at h
    · rw [← Host.Outcome.next.inj h]
    · exact State.serve_fixed (hf _) h

@[simp] theorem State.setTransfer_fixed (s : State) (x : Option Transfer) : (State.setTransfer s x).fixed = s.fixed := by
  simp [State.setTransfer]

@[simp] theorem State.endTransfer_fixed (s : State) (x : Transfer) (code : Nat) : (State.endTransfer s x code).fixed = s.fixed := by
  simp [State.endTransfer]

@[simp] theorem State.sendSegments_fixed (s : State) (x : Transfer) : (State.sendSegments s x).fixed = s.fixed := by
  simp [State.sendSegments]

theorem State.segApply_kept (s : State) (x : Transfer) : s.Kept (s.segApply x) := by
  unfold State.segApply
  dsimp only
  split
  · exact .refl _
  · exact fixed_congr_kept (by simp) (State.canWrite_kept ..)

@[simp] theorem State.sessionResp_fixed (s : State) (code : Nat) : (State.sessionResp s code).fixed = s.fixed := by
  simp [State.sessionResp]

@[simp] theorem State.proofFails_fixed (s : State) : (State.proofFails s).fixed = s.fixed := by
  simp [State.proofFails]

@[simp] theorem State.bayTests_fixed (s : State) (bay : Nat) : (State.bayTests s bay).fixed = s.fixed := by
  simp [State.bayTests]

@[simp] theorem State.heldIn_fixed (s : State) (p : Nat) : (State.heldIn s p).fixed = s.fixed := by
  simp [State.heldIn]

@[simp] theorem State.sag_fixed (s : State) (cause : SagCause) : (State.sag s cause).fixed = s.fixed := by
  simp [State.sag]

@[simp] theorem State.enterAll_fixed (s : State) : (State.enterAll s).fixed = s.fixed := by
  simp [State.enterAll]

@[simp] theorem State.hubOff_fixed (s : State) : (State.hubOff s).fixed = s.fixed := by
  simp [State.hubOff]

@[simp] theorem State.powerLost_fixed (s : State) : (State.powerLost s).fixed = s.fixed := by
  unfold State.powerLost; (try dsimp only); (repeat' split) <;> first | rfl | (simp; done) | (simp_all; done)

@[simp] theorem State.fromT0_fixed (s : State) : (State.fromT0 s).fixed = s.fixed := by
  simp [State.fromT0]

theorem State.plinthUp_kept (s : State) (obs : StepObs) : s.Kept (s.plinthUp obs) := by
  have w : s.Kept { s with trust := { s.trust with otpSvn := s.trust.counter, mramSvn := s.trust.counter } } :=
    ⟨rfl, Nat.le_max_left _ _, Nat.le_max_left s.trust.counter _, fun _ h => h⟩
  refine w.after ?_
  unfold State.plinthUp
  dsimp only
  (repeat' split) <;> simp

theorem romBoot_fixed {s t : State} (e : s.romBoot = some t) : t.fixed = s.fixed := by
  unfold State.romBoot at e
  dsimp only at e
  by_cases ht : s.power.testEn = true
  · rw [if_pos ht] at e; cases e
  · rw [if_neg ht] at e
    obtain ⟨r, -, hr⟩ := Option.map_eq_some_iff.mp e
    rw [← hr]; simp

@[simp] theorem State.hubUp_fixed (s : State) (obs : StepObs) : (State.hubUp s obs).fixed = s.fixed := by
  simp [State.hubUp]

@[simp] theorem State.hbmUp_fixed (s : State) : (State.hbmUp s).fixed = s.fixed := by
  simp [State.hbmUp]

@[simp] theorem State.dramUp_fixed (s : State) (obs : StepObs) : (State.dramUp s obs).fixed = s.fixed := by
  unfold State.dramUp; (repeat' split) <;> simp

@[simp] theorem State.nandUp_fixed (s : State) (obs : StepObs) : (State.nandUp s obs).fixed = s.fixed := by
  simp [State.nandUp]

@[simp] theorem State.restoreSave_fixed (s : State) : (State.restoreSave s).fixed = s.fixed := by
  unfold State.restoreSave; (repeat' split) <;> simp

theorem powerStep_kept {s t : State} {obs} (e : s.powerStep obs = some t) : s.Kept t := by
  unfold State.powerStep at e
  split at e
  · rw [← Option.some.inj e]; exact State.plinthUp_kept ..
  · exact kept_of_fixed (romBoot_fixed e)
  · split at e
    · rw [← Option.some.inj e]; exact kept_of_fixed (by simp)
    · cases e
  all_goals first | (cases e; done) | (rw [← Option.some.inj e]; exact kept_of_fixed (by simp))

end Sys2Proof.Machine
end

