-- ==== Sys2Proof/Laws/FixedChisel.lean ====
section
/-! SUPPORT. What the Chisel instructions leave as it is (`State.fixed`), one lemma for each meaning. -/

set_option maxRecDepth 4000
namespace Sys2Proof.Machine

/-! ### ChiselScalar -/

theorem execAdd_fixed (u : CoreId) (g : Fin 8) (rd ra rb : Fin 32) (s : State) {t : State}
    (h : execAdd u g rd ra rb s = .next t) : t.fixed = s.fixed := by
  unfold execAdd at h
  first
  | exact State.pureOp_fixed h
  | exact State.tryOp_fixed h
  | exact State.areaLoad_fixed h
  | exact State.areaVload_fixed h
  | exact State.crange_fixed h

theorem execSub_fixed (u : CoreId) (g : Fin 8) (rd ra rb : Fin 32) (s : State) {t : State}
    (h : execSub u g rd ra rb s = .next t) : t.fixed = s.fixed := by
  unfold execSub at h
  first
  | exact State.pureOp_fixed h
  | exact State.tryOp_fixed h
  | exact State.areaLoad_fixed h
  | exact State.areaVload_fixed h
  | exact State.crange_fixed h

theorem execAdds_fixed (u : CoreId) (g : Fin 8) (rd ra rb : Fin 32) (s : State) {t : State}
    (h : execAdds u g rd ra rb s = .next t) : t.fixed = s.fixed := by
  unfold execAdds at h
  first
  | exact State.pureOp_fixed h
  | exact State.tryOp_fixed h
  | exact State.areaLoad_fixed h
  | exact State.areaVload_fixed h
  | exact State.crange_fixed h

theorem execSubs_fixed (u : CoreId) (g : Fin 8) (rd ra rb : Fin 32) (s : State) {t : State}
    (h : execSubs u g rd ra rb s = .next t) : t.fixed = s.fixed := by
  unfold execSubs at h
  first
  | exact State.pureOp_fixed h
  | exact State.tryOp_fixed h
  | exact State.areaLoad_fixed h
  | exact State.areaVload_fixed h
  | exact State.crange_fixed h

theorem execMul_fixed (u : CoreId) (g : Fin 8) (rd ra rb : Fin 32) (s : State) {t : State}
    (h : execMul u g rd ra rb s = .next t) : t.fixed = s.fixed := by
  unfold execMul at h
  first
  | exact State.pureOp_fixed h
  | exact State.tryOp_fixed h
  | exact State.areaLoad_fixed h
  | exact State.areaVload_fixed h
  | exact State.crange_fixed h

theorem execMulh_fixed (u : CoreId) (g : Fin 8) (rd ra rb : Fin 32) (s : State) {t : State}
    (h : execMulh u g rd ra rb s = .next t) : t.fixed = s.fixed := by
  unfold execMulh at h
  first
  | exact State.pureOp_fixed h
  | exact State.tryOp_fixed h
  | exact State.areaLoad_fixed h
  | exact State.areaVload_fixed h
  | exact State.crange_fixed h

theorem execMulhu_fixed (u : CoreId) (g : Fin 8) (rd ra rb : Fin 32) (s : State) {t : State}
    (h : execMulhu u g rd ra rb s = .next t) : t.fixed = s.fixed := by
  unfold execMulhu at h
  first
  | exact State.pureOp_fixed h
  | exact State.tryOp_fixed h
  | exact State.areaLoad_fixed h
  | exact State.areaVload_fixed h
  | exact State.crange_fixed h

theorem execAnd_fixed (u : CoreId) (g : Fin 8) (rd ra rb : Fin 32) (s : State) {t : State}
    (h : execAnd u g rd ra rb s = .next t) : t.fixed = s.fixed := by
  unfold execAnd at h
  first
  | exact State.pureOp_fixed h
  | exact State.tryOp_fixed h
  | exact State.areaLoad_fixed h
  | exact State.areaVload_fixed h
  | exact State.crange_fixed h

theorem execOr_fixed (u : CoreId) (g : Fin 8) (rd ra rb : Fin 32) (s : State) {t : State}
    (h : execOr u g rd ra rb s = .next t) : t.fixed = s.fixed := by
  unfold execOr at h
  first
  | exact State.pureOp_fixed h
  | exact State.tryOp_fixed h
  | exact State.areaLoad_fixed h
  | exact State.areaVload_fixed h
  | exact State.crange_fixed h

theorem execXor_fixed (u : CoreId) (g : Fin 8) (rd ra rb : Fin 32) (s : State) {t : State}
    (h : execXor u g rd ra rb s = .next t) : t.fixed = s.fixed := by
  unfold execXor at h
  first
  | exact State.pureOp_fixed h
  | exact State.tryOp_fixed h
  | exact State.areaLoad_fixed h
  | exact State.areaVload_fixed h
  | exact State.crange_fixed h

theorem execAndn_fixed (u : CoreId) (g : Fin 8) (rd ra rb : Fin 32) (s : State) {t : State}
    (h : execAndn u g rd ra rb s = .next t) : t.fixed = s.fixed := by
  unfold execAndn at h
  first
  | exact State.pureOp_fixed h
  | exact State.tryOp_fixed h
  | exact State.areaLoad_fixed h
  | exact State.areaVload_fixed h
  | exact State.crange_fixed h

theorem execShl_fixed (u : CoreId) (g : Fin 8) (rd ra rb : Fin 32) (s : State) {t : State}
    (h : execShl u g rd ra rb s = .next t) : t.fixed = s.fixed := by
  unfold execShl at h
  first
  | exact State.pureOp_fixed h
  | exact State.tryOp_fixed h
  | exact State.areaLoad_fixed h
  | exact State.areaVload_fixed h
  | exact State.crange_fixed h

theorem execShr_fixed (u : CoreId) (g : Fin 8) (rd ra rb : Fin 32) (s : State) {t : State}
    (h : execShr u g rd ra rb s = .next t) : t.fixed = s.fixed := by
  unfold execShr at h
  first
  | exact State.pureOp_fixed h
  | exact State.tryOp_fixed h
  | exact State.areaLoad_fixed h
  | exact State.areaVload_fixed h
  | exact State.crange_fixed h

theorem execSar_fixed (u : CoreId) (g : Fin 8) (rd ra rb : Fin 32) (s : State) {t : State}
    (h : execSar u g rd ra rb s = .next t) : t.fixed = s.fixed := by
  unfold execSar at h
  first
  | exact State.pureOp_fixed h
  | exact State.tryOp_fixed h
  | exact State.areaLoad_fixed h
  | exact State.areaVload_fixed h
  | exact State.crange_fixed h

theorem execMin_fixed (u : CoreId) (g : Fin 8) (rd ra rb : Fin 32) (s : State) {t : State}
    (h : execMin u g rd ra rb s = .next t) : t.fixed = s.fixed := by
  unfold execMin at h
  first
  | exact State.pureOp_fixed h
  | exact State.tryOp_fixed h
  | exact State.areaLoad_fixed h
  | exact State.areaVload_fixed h
  | exact State.crange_fixed h

theorem execMax_fixed (u : CoreId) (g : Fin 8) (rd ra rb : Fin 32) (s : State) {t : State}
    (h : execMax u g rd ra rb s = .next t) : t.fixed = s.fixed := by
  unfold execMax at h
  first
  | exact State.pureOp_fixed h
  | exact State.tryOp_fixed h
  | exact State.areaLoad_fixed h
  | exact State.areaVload_fixed h
  | exact State.crange_fixed h

theorem execMinu_fixed (u : CoreId) (g : Fin 8) (rd ra rb : Fin 32) (s : State) {t : State}
    (h : execMinu u g rd ra rb s = .next t) : t.fixed = s.fixed := by
  unfold execMinu at h
  first
  | exact State.pureOp_fixed h
  | exact State.tryOp_fixed h
  | exact State.areaLoad_fixed h
  | exact State.areaVload_fixed h
  | exact State.crange_fixed h

theorem execMaxu_fixed (u : CoreId) (g : Fin 8) (rd ra rb : Fin 32) (s : State) {t : State}
    (h : execMaxu u g rd ra rb s = .next t) : t.fixed = s.fixed := by
  unfold execMaxu at h
  first
  | exact State.pureOp_fixed h
  | exact State.tryOp_fixed h
  | exact State.areaLoad_fixed h
  | exact State.areaVload_fixed h
  | exact State.crange_fixed h

theorem execPopc_fixed (u : CoreId) (g : Fin 8) (rd ra : Fin 32) (s : State) {t : State}
    (h : execPopc u g rd ra s = .next t) : t.fixed = s.fixed := by
  unfold execPopc at h
  first
  | exact State.pureOp_fixed h
  | exact State.tryOp_fixed h
  | exact State.areaLoad_fixed h
  | exact State.areaVload_fixed h
  | exact State.crange_fixed h

theorem execClz_fixed (u : CoreId) (g : Fin 8) (rd ra : Fin 32) (s : State) {t : State}
    (h : execClz u g rd ra s = .next t) : t.fixed = s.fixed := by
  unfold execClz at h
  first
  | exact State.pureOp_fixed h
  | exact State.tryOp_fixed h
  | exact State.areaLoad_fixed h
  | exact State.areaVload_fixed h
  | exact State.crange_fixed h

theorem execSext_fixed (u : CoreId) (g : Fin 8) (n : Nat) (rd ra : Fin 32) (s : State) {t : State}
    (h : execSext u g n rd ra s = .next t) : t.fixed = s.fixed := by
  unfold execSext at h
  first
  | exact State.pureOp_fixed h
  | exact State.tryOp_fixed h
  | exact State.areaLoad_fixed h
  | exact State.areaVload_fixed h
  | exact State.crange_fixed h

theorem execZext_fixed (u : CoreId) (g : Fin 8) (n : Nat) (rd ra : Fin 32) (s : State) {t : State}
    (h : execZext u g n rd ra s = .next t) : t.fixed = s.fixed := by
  unfold execZext at h
  first
  | exact State.pureOp_fixed h
  | exact State.tryOp_fixed h
  | exact State.areaLoad_fixed h
  | exact State.areaVload_fixed h
  | exact State.crange_fixed h

theorem execAddi_fixed (u : CoreId) (g : Fin 8) (rd ra : Fin 32) (imm : BitVec 17) (s : State) {t : State}
    (h : execAddi u g rd ra imm s = .next t) : t.fixed = s.fixed := by
  unfold execAddi at h
  first
  | exact State.pureOp_fixed h
  | exact State.tryOp_fixed h
  | exact State.areaLoad_fixed h
  | exact State.areaVload_fixed h
  | exact State.crange_fixed h

theorem execAndi_fixed (u : CoreId) (g : Fin 8) (rd ra : Fin 32) (imm : BitVec 17) (s : State) {t : State}
    (h : execAndi u g rd ra imm s = .next t) : t.fixed = s.fixed := by
  unfold execAndi at h
  first
  | exact State.pureOp_fixed h
  | exact State.tryOp_fixed h
  | exact State.areaLoad_fixed h
  | exact State.areaVload_fixed h
  | exact State.crange_fixed h

theorem execOri_fixed (u : CoreId) (g : Fin 8) (rd ra : Fin 32) (imm : BitVec 17) (s : State) {t : State}
    (h : execOri u g rd ra imm s = .next t) : t.fixed = s.fixed := by
  unfold execOri at h
  first
  | exact State.pureOp_fixed h
  | exact State.tryOp_fixed h
  | exact State.areaLoad_fixed h
  | exact State.areaVload_fixed h
  | exact State.crange_fixed h

theorem execXori_fixed (u : CoreId) (g : Fin 8) (rd ra : Fin 32) (imm : BitVec 17) (s : State) {t : State}
    (h : execXori u g rd ra imm s = .next t) : t.fixed = s.fixed := by
  unfold execXori at h
  first
  | exact State.pureOp_fixed h
  | exact State.tryOp_fixed h
  | exact State.areaLoad_fixed h
  | exact State.areaVload_fixed h
  | exact State.crange_fixed h

theorem execShli_fixed (u : CoreId) (g : Fin 8) (rd ra : Fin 32) (amount : BitVec 6) (s : State) {t : State}
    (h : execShli u g rd ra amount s = .next t) : t.fixed = s.fixed := by
  unfold execShli at h
  first
  | exact State.pureOp_fixed h
  | exact State.tryOp_fixed h
  | exact State.areaLoad_fixed h
  | exact State.areaVload_fixed h
  | exact State.crange_fixed h

theorem execShri_fixed (u : CoreId) (g : Fin 8) (rd ra : Fin 32) (amount : BitVec 6) (s : State) {t : State}
    (h : execShri u g rd ra amount s = .next t) : t.fixed = s.fixed := by
  unfold execShri at h
  first
  | exact State.pureOp_fixed h
  | exact State.tryOp_fixed h
  | exact State.areaLoad_fixed h
  | exact State.areaVload_fixed h
  | exact State.crange_fixed h

theorem execSari_fixed (u : CoreId) (g : Fin 8) (rd ra : Fin 32) (amount : BitVec 6) (s : State) {t : State}
    (h : execSari u g rd ra amount s = .next t) : t.fixed = s.fixed := by
  unfold execSari at h
  first
  | exact State.pureOp_fixed h
  | exact State.tryOp_fixed h
  | exact State.areaLoad_fixed h
  | exact State.areaVload_fixed h
  | exact State.crange_fixed h

theorem execLi_fixed (u : CoreId) (g : Fin 8) (rd : Fin 32) (imm : BitVec 22) (s : State) {t : State}
    (h : execLi u g rd imm s = .next t) : t.fixed = s.fixed := by
  exact State.pureOp_fixed h

theorem execLih_fixed (u : CoreId) (g : Fin 8) (rd : Fin 32) (imm : BitVec 20) (s : State) {t : State}
    (h : execLih u g rd imm s = .next t) : t.fixed = s.fixed := by
  exact State.pureOp_fixed h

theorem execCmp_fixed (u : CoreId) (g : Fin 8) (cc : Nat) (pd : Fin 8) (ra rb : Fin 32) (s : State) {t : State}
    (h : execCmp u g cc pd ra rb s = .next t) : t.fixed = s.fixed := by
  exact State.pureOp_fixed h

theorem execCmpi_fixed (u : CoreId) (g : Fin 8) (cc : Nat) (pd : Fin 8) (ra : Fin 32) (imm : BitVec 14) (s : State) {t : State}
    (h : execCmpi u g cc pd ra imm s = .next t) : t.fixed = s.fixed := by
  exact State.pureOp_fixed h

theorem execPand_fixed (u : CoreId) (g : Fin 8) (pd pa pb : Fin 8) (s : State) {t : State}
    (h : execPand u g pd pa pb s = .next t) : t.fixed = s.fixed := by
  unfold execPand at h
  first
  | exact State.pureOp_fixed h
  | exact State.tryOp_fixed h
  | exact State.areaLoad_fixed h
  | exact State.areaVload_fixed h
  | exact State.crange_fixed h

theorem execPor_fixed (u : CoreId) (g : Fin 8) (pd pa pb : Fin 8) (s : State) {t : State}
    (h : execPor u g pd pa pb s = .next t) : t.fixed = s.fixed := by
  unfold execPor at h
  first
  | exact State.pureOp_fixed h
  | exact State.tryOp_fixed h
  | exact State.areaLoad_fixed h
  | exact State.areaVload_fixed h
  | exact State.crange_fixed h

theorem execPxor_fixed (u : CoreId) (g : Fin 8) (pd pa pb : Fin 8) (s : State) {t : State}
    (h : execPxor u g pd pa pb s = .next t) : t.fixed = s.fixed := by
  unfold execPxor at h
  first
  | exact State.pureOp_fixed h
  | exact State.tryOp_fixed h
  | exact State.areaLoad_fixed h
  | exact State.areaVload_fixed h
  | exact State.crange_fixed h

theorem execPandn_fixed (u : CoreId) (g : Fin 8) (pd pa pb : Fin 8) (s : State) {t : State}
    (h : execPandn u g pd pa pb s = .next t) : t.fixed = s.fixed := by
  unfold execPandn at h
  first
  | exact State.pureOp_fixed h
  | exact State.tryOp_fixed h
  | exact State.areaLoad_fixed h
  | exact State.areaVload_fixed h
  | exact State.crange_fixed h

theorem execPnot_fixed (u : CoreId) (g : Fin 8) (pd pa : Fin 8) (s : State) {t : State}
    (h : execPnot u g pd pa s = .next t) : t.fixed = s.fixed := by
  exact State.pureOp_fixed h

theorem execPmov_fixed (u : CoreId) (g : Fin 8) (pd : Fin 8) (ra : Fin 32) (s : State) {t : State}
    (h : execPmov u g pd ra s = .next t) : t.fixed = s.fixed := by
  exact State.pureOp_fixed h

theorem execPget_fixed (u : CoreId) (g : Fin 8) (rd : Fin 32) (pa : Fin 8) (s : State) {t : State}
    (h : execPget u g rd pa s = .next t) : t.fixed = s.fixed := by
  unfold execPget at h
  first
  | exact State.pureOp_fixed h
  | exact State.tryOp_fixed h
  | exact State.areaLoad_fixed h
  | exact State.areaVload_fixed h
  | exact State.crange_fixed h

theorem execPpop_fixed (u : CoreId) (g : Fin 8) (rd : Fin 32) (pa : Fin 8) (s : State) {t : State}
    (h : execPpop u g rd pa s = .next t) : t.fixed = s.fixed := by
  unfold execPpop at h
  first
  | exact State.pureOp_fixed h
  | exact State.tryOp_fixed h
  | exact State.areaLoad_fixed h
  | exact State.areaVload_fixed h
  | exact State.crange_fixed h

theorem execPfirst_fixed (u : CoreId) (g : Fin 8) (rd : Fin 32) (pa : Fin 8) (s : State) {t : State}
    (h : execPfirst u g rd pa s = .next t) : t.fixed = s.fixed := by
  unfold execPfirst at h
  first
  | exact State.pureOp_fixed h
  | exact State.tryOp_fixed h
  | exact State.areaLoad_fixed h
  | exact State.areaVload_fixed h
  | exact State.crange_fixed h

theorem execRdctl_fixed (u : CoreId) (g : Fin 8) (rd : Fin 32) (num : BitVec 8) (s : State) {t : State}
    (h : execRdctl u g rd num s = .next t) : t.fixed = s.fixed := by
  unfold execRdctl at h
  refine State.issue_fixed (fun x c k => ?_) h; clear h; (repeat' split) <;> simp

theorem execWrctl_fixed (u : CoreId) (g : Fin 8) (ra : Fin 32) (num : BitVec 8) (s : State) {t : State}
    (h : execWrctl u g ra num s = .next t) : t.fixed = s.fixed := by
  exact State.pureOp_fixed h

/-! ### ChiselDecimal -/

theorem execDadd_fixed (u : CoreId) (g : Fin 8) (rd ra rb : Fin 32) (s : State) {t : State}
    (h : execDadd u g rd ra rb s = .next t) : t.fixed = s.fixed := by
  unfold execDadd at h
  first
  | exact State.pureOp_fixed h
  | exact State.tryOp_fixed h
  | exact State.areaLoad_fixed h
  | exact State.areaVload_fixed h
  | exact State.crange_fixed h

theorem execDsub_fixed (u : CoreId) (g : Fin 8) (rd ra rb : Fin 32) (s : State) {t : State}
    (h : execDsub u g rd ra rb s = .next t) : t.fixed = s.fixed := by
  unfold execDsub at h
  first
  | exact State.pureOp_fixed h
  | exact State.tryOp_fixed h
  | exact State.areaLoad_fixed h
  | exact State.areaVload_fixed h
  | exact State.crange_fixed h

theorem execDaddC_fixed (u : CoreId) (g : Fin 8) (rd ra rb : Fin 32) (s : State) {t : State}
    (h : execDaddC u g rd ra rb s = .next t) : t.fixed = s.fixed := by
  unfold execDaddC at h
  first
  | exact State.pureOp_fixed h
  | exact State.tryOp_fixed h
  | exact State.areaLoad_fixed h
  | exact State.areaVload_fixed h
  | exact State.crange_fixed h

theorem execDmul_fixed (u : CoreId) (g : Fin 8) (rd ra rb : Fin 32) (s : State) {t : State}
    (h : execDmul u g rd ra rb s = .next t) : t.fixed = s.fixed := by
  unfold execDmul at h
  first
  | exact State.pureOp_fixed h
  | exact State.tryOp_fixed h
  | exact State.areaLoad_fixed h
  | exact State.areaVload_fixed h
  | exact State.crange_fixed h

theorem execDmulW_fixed (u : CoreId) (g : Fin 8) (rd ra rb : Fin 32) (s : State) {t : State}
    (h : execDmulW u g rd ra rb s = .next t) : t.fixed = s.fixed := by
  exact State.tryOp_fixed h

theorem execDabs_fixed (u : CoreId) (g : Fin 8) (rd ra : Fin 32) (s : State) {t : State}
    (h : execDabs u g rd ra s = .next t) : t.fixed = s.fixed := by
  unfold execDabs at h
  first
  | exact State.pureOp_fixed h
  | exact State.tryOp_fixed h
  | exact State.areaLoad_fixed h
  | exact State.areaVload_fixed h
  | exact State.crange_fixed h

theorem execDneg_fixed (u : CoreId) (g : Fin 8) (rd ra : Fin 32) (s : State) {t : State}
    (h : execDneg u g rd ra s = .next t) : t.fixed = s.fixed := by
  unfold execDneg at h
  first
  | exact State.pureOp_fixed h
  | exact State.tryOp_fixed h
  | exact State.areaLoad_fixed h
  | exact State.areaVload_fixed h
  | exact State.crange_fixed h

theorem execDcmpEq_fixed (u : CoreId) (g : Fin 8) (pd : Fin 8) (ra rb : Fin 32) (s : State) {t : State}
    (h : execDcmpEq u g pd ra rb s = .next t) : t.fixed = s.fixed := by
  unfold execDcmpEq at h
  first
  | exact State.pureOp_fixed h
  | exact State.tryOp_fixed h
  | exact State.areaLoad_fixed h
  | exact State.areaVload_fixed h
  | exact State.crange_fixed h

theorem execDcmpNe_fixed (u : CoreId) (g : Fin 8) (pd : Fin 8) (ra rb : Fin 32) (s : State) {t : State}
    (h : execDcmpNe u g pd ra rb s = .next t) : t.fixed = s.fixed := by
  unfold execDcmpNe at h
  first
  | exact State.pureOp_fixed h
  | exact State.tryOp_fixed h
  | exact State.areaLoad_fixed h
  | exact State.areaVload_fixed h
  | exact State.crange_fixed h

theorem execDcmpLt_fixed (u : CoreId) (g : Fin 8) (pd : Fin 8) (ra rb : Fin 32) (s : State) {t : State}
    (h : execDcmpLt u g pd ra rb s = .next t) : t.fixed = s.fixed := by
  unfold execDcmpLt at h
  first
  | exact State.pureOp_fixed h
  | exact State.tryOp_fixed h
  | exact State.areaLoad_fixed h
  | exact State.areaVload_fixed h
  | exact State.crange_fixed h

theorem execDcmpGe_fixed (u : CoreId) (g : Fin 8) (pd : Fin 8) (ra rb : Fin 32) (s : State) {t : State}
    (h : execDcmpGe u g pd ra rb s = .next t) : t.fixed = s.fixed := by
  unfold execDcmpGe at h
  first
  | exact State.pureOp_fixed h
  | exact State.tryOp_fixed h
  | exact State.areaLoad_fixed h
  | exact State.areaVload_fixed h
  | exact State.crange_fixed h

theorem execDext_fixed (u : CoreId) (g : Fin 8) (n : Nat) (rd ra : Fin 32) (s : State) {t : State}
    (h : execDext u g n rd ra s = .next t) : t.fixed = s.fixed := by
  exact State.tryOp_fixed h

theorem execDpack_fixed (u : CoreId) (g : Fin 8) (n : Nat) (rd ra : Fin 32) (s : State) {t : State}
    (h : execDpack u g n rd ra s = .next t) : t.fixed = s.fixed := by
  unfold execDpack at h
  first
  | exact State.pureOp_fixed h
  | exact State.tryOp_fixed h
  | exact State.areaLoad_fixed h
  | exact State.areaVload_fixed h
  | exact State.crange_fixed h

theorem execDcvtD_fixed (u : CoreId) (g : Fin 8) (rd ra : Fin 32) (s : State) {t : State}
    (h : execDcvtD u g rd ra s = .next t) : t.fixed = s.fixed := by
  exact State.pureOp_fixed h

theorem execDcvtI_fixed (u : CoreId) (g : Fin 8) (n : Nat) (rd ra : Fin 32) (s : State) {t : State}
    (h : execDcvtI u g n rd ra s = .next t) : t.fixed = s.fixed := by
  unfold execDcvtI at h
  first
  | exact State.pureOp_fixed h
  | exact State.tryOp_fixed h
  | exact State.areaLoad_fixed h
  | exact State.areaVload_fixed h
  | exact State.crange_fixed h

theorem execDcvtU_fixed (u : CoreId) (g : Fin 8) (n : Nat) (rd ra : Fin 32) (s : State) {t : State}
    (h : execDcvtU u g n rd ra s = .next t) : t.fixed = s.fixed := by
  unfold execDcvtU at h
  first
  | exact State.pureOp_fixed h
  | exact State.tryOp_fixed h
  | exact State.areaLoad_fixed h
  | exact State.areaVload_fixed h
  | exact State.crange_fixed h

theorem execDfit_fixed (u : CoreId) (g : Fin 8) (rd ra : Fin 32) (wide : Bool) (k n : Nat) (s : State) {t : State}
    (h : execDfit u g rd ra wide k n s = .next t) : t.fixed = s.fixed := by
  exact State.tryOp_fixed h

theorem execDsl_fixed (u : CoreId) (g : Fin 8) (rd ra : Fin 32) (k : Nat) (s : State) {t : State}
    (h : execDsl u g rd ra k s = .next t) : t.fixed = s.fixed := by
  unfold execDsl at h
  first
  | exact State.pureOp_fixed h
  | exact State.tryOp_fixed h
  | exact State.areaLoad_fixed h
  | exact State.areaVload_fixed h
  | exact State.crange_fixed h

/-! ### ChiselVector -/

theorem execVadd_fixed (u : CoreId) (g : Fin 8) (e : Fin 4) (vd va vb : Fin 16) (s : State) {t : State}
    (h : execVadd u g e vd va vb s = .next t) : t.fixed = s.fixed := by
  unfold execVadd at h
  first
  | exact State.pureOp_fixed h
  | exact State.tryOp_fixed h
  | exact State.areaLoad_fixed h
  | exact State.areaVload_fixed h
  | exact State.crange_fixed h

theorem execVsub_fixed (u : CoreId) (g : Fin 8) (e : Fin 4) (vd va vb : Fin 16) (s : State) {t : State}
    (h : execVsub u g e vd va vb s = .next t) : t.fixed = s.fixed := by
  unfold execVsub at h
  first
  | exact State.pureOp_fixed h
  | exact State.tryOp_fixed h
  | exact State.areaLoad_fixed h
  | exact State.areaVload_fixed h
  | exact State.crange_fixed h

theorem execVmin_fixed (u : CoreId) (g : Fin 8) (e : Fin 4) (vd va vb : Fin 16) (s : State) {t : State}
    (h : execVmin u g e vd va vb s = .next t) : t.fixed = s.fixed := by
  unfold execVmin at h
  first
  | exact State.pureOp_fixed h
  | exact State.tryOp_fixed h
  | exact State.areaLoad_fixed h
  | exact State.areaVload_fixed h
  | exact State.crange_fixed h

theorem execVmax_fixed (u : CoreId) (g : Fin 8) (e : Fin 4) (vd va vb : Fin 16) (s : State) {t : State}
    (h : execVmax u g e vd va vb s = .next t) : t.fixed = s.fixed := by
  unfold execVmax at h
  first
  | exact State.pureOp_fixed h
  | exact State.tryOp_fixed h
  | exact State.areaLoad_fixed h
  | exact State.areaVload_fixed h
  | exact State.crange_fixed h

theorem execVminu_fixed (u : CoreId) (g : Fin 8) (e : Fin 4) (vd va vb : Fin 16) (s : State) {t : State}
    (h : execVminu u g e vd va vb s = .next t) : t.fixed = s.fixed := by
  unfold execVminu at h
  first
  | exact State.pureOp_fixed h
  | exact State.tryOp_fixed h
  | exact State.areaLoad_fixed h
  | exact State.areaVload_fixed h
  | exact State.crange_fixed h

theorem execVmaxu_fixed (u : CoreId) (g : Fin 8) (e : Fin 4) (vd va vb : Fin 16) (s : State) {t : State}
    (h : execVmaxu u g e vd va vb s = .next t) : t.fixed = s.fixed := by
  unfold execVmaxu at h
  first
  | exact State.pureOp_fixed h
  | exact State.tryOp_fixed h
  | exact State.areaLoad_fixed h
  | exact State.areaVload_fixed h
  | exact State.crange_fixed h

theorem execVand_fixed (u : CoreId) (g : Fin 8) (e : Fin 4) (vd va vb : Fin 16) (s : State) {t : State}
    (h : execVand u g e vd va vb s = .next t) : t.fixed = s.fixed := by
  unfold execVand at h
  first
  | exact State.pureOp_fixed h
  | exact State.tryOp_fixed h
  | exact State.areaLoad_fixed h
  | exact State.areaVload_fixed h
  | exact State.crange_fixed h

theorem execVor_fixed (u : CoreId) (g : Fin 8) (e : Fin 4) (vd va vb : Fin 16) (s : State) {t : State}
    (h : execVor u g e vd va vb s = .next t) : t.fixed = s.fixed := by
  unfold execVor at h
  first
  | exact State.pureOp_fixed h
  | exact State.tryOp_fixed h
  | exact State.areaLoad_fixed h
  | exact State.areaVload_fixed h
  | exact State.crange_fixed h

theorem execVxor_fixed (u : CoreId) (g : Fin 8) (e : Fin 4) (vd va vb : Fin 16) (s : State) {t : State}
    (h : execVxor u g e vd va vb s = .next t) : t.fixed = s.fixed := by
  unfold execVxor at h
  first
  | exact State.pureOp_fixed h
  | exact State.tryOp_fixed h
  | exact State.areaLoad_fixed h
  | exact State.areaVload_fixed h
  | exact State.crange_fixed h

theorem execVsel_fixed (u : CoreId) (g : Fin 8) (pm : Fin 8) (e : Fin 4) (vd va vb : Fin 16) (s : State) {t : State}
    (h : execVsel u g pm e vd va vb s = .next t) : t.fixed = s.fixed := by
  unfold execVsel at h
  first
  | exact State.pureOp_fixed h
  | exact State.tryOp_fixed h
  | exact State.areaLoad_fixed h
  | exact State.areaVload_fixed h
  | exact State.crange_fixed h

theorem execVshl_fixed (u : CoreId) (g : Fin 8) (e : Fin 4) (vd va : Fin 16) (rb : Fin 32) (s : State) {t : State}
    (h : execVshl u g e vd va rb s = .next t) : t.fixed = s.fixed := by
  unfold execVshl at h
  first
  | exact State.pureOp_fixed h
  | exact State.tryOp_fixed h
  | exact State.areaLoad_fixed h
  | exact State.areaVload_fixed h
  | exact State.crange_fixed h

theorem execVshr_fixed (u : CoreId) (g : Fin 8) (e : Fin 4) (vd va : Fin 16) (rb : Fin 32) (s : State) {t : State}
    (h : execVshr u g e vd va rb s = .next t) : t.fixed = s.fixed := by
  unfold execVshr at h
  first
  | exact State.pureOp_fixed h
  | exact State.tryOp_fixed h
  | exact State.areaLoad_fixed h
  | exact State.areaVload_fixed h
  | exact State.crange_fixed h

theorem execVsar_fixed (u : CoreId) (g : Fin 8) (e : Fin 4) (vd va : Fin 16) (rb : Fin 32) (s : State) {t : State}
    (h : execVsar u g e vd va rb s = .next t) : t.fixed = s.fixed := by
  unfold execVsar at h
  first
  | exact State.pureOp_fixed h
  | exact State.tryOp_fixed h
  | exact State.areaLoad_fixed h
  | exact State.areaVload_fixed h
  | exact State.crange_fixed h

theorem execVbc_fixed (u : CoreId) (g : Fin 8) (e : Fin 4) (vd : Fin 16) (ra : Fin 32) (s : State) {t : State}
    (h : execVbc u g e vd ra s = .next t) : t.fixed = s.fixed := by
  exact State.pureOp_fixed h

theorem execVext_fixed (u : CoreId) (g : Fin 8) (e : Fin 4) (rd : Fin 32) (va : Fin 16) (rb : Fin 32) (s : State) {t : State}
    (h : execVext u g e rd va rb s = .next t) : t.fixed = s.fixed := by
  exact State.pureOp_fixed h

theorem execVredadd_fixed (u : CoreId) (g : Fin 8) (e : Fin 4) (rd : Fin 32) (va : Fin 16) (s : State) {t : State}
    (h : execVredadd u g e rd va s = .next t) : t.fixed = s.fixed := by
  exact State.pureOp_fixed h

theorem execVhash_fixed (u : CoreId) (g : Fin 8) (e : Fin 4) (vd va : Fin 16) (s : State) {t : State}
    (h : execVhash u g e vd va s = .next t) : t.fixed = s.fixed := by
  exact State.pureOp_fixed h

theorem execVcmp_fixed (u : CoreId) (g : Fin 8) (cc : Nat) (e : Fin 4) (pd : Fin 8) (va vb : Fin 16) (s : State) {t : State}
    (h : execVcmp u g cc e pd va vb s = .next t) : t.fixed = s.fixed := by
  exact State.tryOp_fixed h

theorem execVgath_fixed (u : CoreId) (g : Fin 8) (inp : Bool) (e : Fin 4) (vd : Fin 16) (ra : Fin 32) (vb : Fin 16) (bad : Bool) (s : State) {t : State}
    (h : execVgath u g inp e vd ra vb bad s = .next t) : t.fixed = s.fixed := by
  unfold execVgath at h
  first
  | exact State.pureOp_fixed h
  | exact State.tryOp_fixed h
  | exact State.areaLoad_fixed h
  | exact State.areaVload_fixed h
  | exact State.crange_fixed h

theorem execVdict_fixed (u : CoreId) (g : Fin 8) (inp : Bool) (e : Fin 4) (vd : Fin 16) (ra : Fin 32) (vb : Fin 16) (bad : Bool) (s : State) {t : State}
    (h : execVdict u g inp e vd ra vb bad s = .next t) : t.fixed = s.fixed := by
  unfold execVdict at h
  first
  | exact State.pureOp_fixed h
  | exact State.tryOp_fixed h
  | exact State.areaLoad_fixed h
  | exact State.areaVload_fixed h
  | exact State.crange_fixed h

theorem execVunpk_fixed (u : CoreId) (g : Fin 8) (inp : Bool) (w : Nat) (signed : Bool) (e : Fin 4) (vd : Fin 16) (ra rb : Fin 32) (bad : Bool) (s : State) {t : State}
    (h : execVunpk u g inp w signed e vd ra rb bad s = .next t) : t.fixed = s.fixed := by
  unfold execVunpk at h
  first
  | exact State.pureOp_fixed h
  | exact State.tryOp_fixed h
  | exact State.areaLoad_fixed h
  | exact State.areaVload_fixed h
  | exact State.crange_fixed h

theorem execVpack_fixed (u : CoreId) (g : Fin 8) (w : Nat) (e : Fin 4) (va : Fin 16) (ra rb : Fin 32) (s : State) {t : State}
    (h : execVpack u g w e va ra rb s = .next t) : t.fixed = s.fixed := by
  exact State.tryOp_fixed h

/-! ### ChiselControl -/

theorem execBr_fixed (u : CoreId) (g : Fin 8) (cc : Nat) (annul : Bool) (ra rb : Fin 32) (off : BitVec 13) (s : State) {t : State}
    (h : execBr u g cc annul ra rb off s = .next t) : t.fixed = s.fixed := by
  unfold execBr at h
  refine State.issue_fixed (fun x c k => ?_) h; clear h; (try dsimp only); (repeat' split); all_goals (first | (simp; done) | exact State.memRes_fixed .. | exact State.ksUpdate_fixed .. | (simp [charge_fixed ‹State.charge _ _ _ _ = _›]; done) | (simp_all; done))

theorem execJ_fixed (u : CoreId) (g : Fin 8) (off : BitVec 26) (s : State) {t : State}
    (h : execJ u g off s = .next t) : t.fixed = s.fixed := by
  unfold execJ at h
  refine State.issue_fixed (fun x c k => ?_) h; clear h; (repeat' split) <;> simp

theorem execCall_fixed (u : CoreId) (g : Fin 8) (off : BitVec 26) (s : State) {t : State}
    (h : execCall u g off s = .next t) : t.fixed = s.fixed := by
  unfold execCall at h
  refine State.issue_fixed (fun x c k => ?_) h; clear h; (repeat' split) <;> simp

theorem State.jumpTo_fixed {s t : State} {u g writes legal ra f} (h : s.jumpTo u g writes legal ra f = .next t) : t.fixed = s.fixed :=
  State.issue_fixed (fun x c k => by dsimp only; split <;> simp) h
theorem execJr_fixed (u : CoreId) (g : Fin 8) (ra : Fin 32) (s : State) {t : State} (h : execJr u g ra s = .next t) : t.fixed = s.fixed :=
  State.jumpTo_fixed h

theorem execCallr_fixed (u : CoreId) (g : Fin 8) (ra : Fin 32) (s : State) {t : State} (h : execCallr u g ra s = .next t) :
    t.fixed = s.fixed := State.jumpTo_fixed h

theorem execRet_fixed (u : CoreId) (g : Fin 8) (ra : Fin 32) (s : State) {t : State} (h : execRet u g ra s = .next t) :
    t.fixed = s.fixed := State.jumpTo_fixed h

theorem execNopInstruction_fixed (u : CoreId) (g : Fin 8) (s : State) {t : State}
    (h : execNopInstruction u g s = .next t) : t.fixed = s.fixed := by
  exact State.pureOp_fixed h

/-! ### ChiselMemory -/

theorem execLs_fixed (u : CoreId) (g : Fin 8) (n : Nat) (x : Bool) (rd ra : Fin 32) (off : BitVec 13) (bad : Bool) (s : State) {t : State}
    (h : execLs u g n x rd ra off bad s = .next t) : t.fixed = s.fixed := by
  exact State.areaLoad_fixed h

theorem execLt_fixed (u : CoreId) (g : Fin 8) (n : Nat) (x : Bool) (rd ra : Fin 32) (off : BitVec 13) (bad : Bool) (s : State) {t : State}
    (h : execLt u g n x rd ra off bad s = .next t) : t.fixed = s.fixed := by
  exact State.areaLoad_fixed h

theorem execSs_fixed (u : CoreId) (g : Fin 8) (n : Nat) (rd ra : Fin 32) (off : BitVec 13) (s : State) {t : State}
    (h : execSs u g n rd ra off s = .next t) : t.fixed = s.fixed := by
  exact State.tryOp_fixed h

theorem execVls_fixed (u : CoreId) (g : Fin 8) (e : Fin 4) (vd : Fin 16) (ra : Fin 32) (off : BitVec 13) (bad : Bool) (s : State) {t : State}
    (h : execVls u g e vd ra off bad s = .next t) : t.fixed = s.fixed := by
  exact State.areaVload_fixed h

theorem execVlt_fixed (u : CoreId) (g : Fin 8) (e : Fin 4) (vd : Fin 16) (ra : Fin 32) (off : BitVec 13) (bad : Bool) (s : State) {t : State}
    (h : execVlt u g e vd ra off bad s = .next t) : t.fixed = s.fixed := by
  exact State.areaVload_fixed h

theorem execVss_fixed (u : CoreId) (g : Fin 8) (e : Fin 4) (vd : Fin 16) (ra : Fin 32) (off : BitVec 13) (s : State) {t : State}
    (h : execVss u g e vd ra off s = .next t) : t.fixed = s.fixed := by
  exact State.tryOp_fixed h

theorem execLm_fixed (u : CoreId) (g : Fin 8) (n : Nat) (x : Bool) (rd ra : Fin 32) (off : BitVec 13) (obs : MemObs) (s : State) {t : State}
    (h : execLm u g n x rd ra off obs s = .next t) : t.fixed = s.fixed := by
  unfold execLm at h
  refine State.issue_fixed (fun x c k => ?_) h; clear h; (try dsimp only); (repeat' split); all_goals (first | (simp; done) | exact State.memRes_fixed .. | exact State.ksUpdate_fixed .. | (simp [charge_fixed ‹State.charge _ _ _ _ = _›]; done) | (simp_all; done))

theorem execSm_fixed (u : CoreId) (g : Fin 8) (n : Nat) (rd ra : Fin 32) (off : BitVec 13) (obs : MemObs) (s : State) {t : State}
    (h : execSm u g n rd ra off obs s = .next t) : t.fixed = s.fixed := by
  unfold execSm at h
  refine State.issue_fixed (fun x c k => ?_) h; clear h; (try dsimp only); (repeat' split); all_goals (first | (simp; done) | exact State.memRes_fixed .. | exact State.ksUpdate_fixed .. | (simp [charge_fixed ‹State.charge _ _ _ _ = _›]; done) | (simp_all; done))

theorem execVlm_fixed (u : CoreId) (g : Fin 8) (e : Fin 4) (vd : Fin 16) (ra : Fin 32) (off : BitVec 13) (obs : MemObs) (s : State) {t : State}
    (h : execVlm u g e vd ra off obs s = .next t) : t.fixed = s.fixed := by
  unfold execVlm at h
  refine State.issue_fixed (fun x c k => ?_) h; clear h; (try dsimp only); (repeat' split); all_goals (first | (simp; done) | exact State.memRes_fixed .. | exact State.ksUpdate_fixed .. | (simp [charge_fixed ‹State.charge _ _ _ _ = _›]; done) | (simp_all; done))

theorem execVsm_fixed (u : CoreId) (g : Fin 8) (e : Fin 4) (vd : Fin 16) (ra : Fin 32) (off : BitVec 13) (obs : MemObs) (s : State) {t : State}
    (h : execVsm u g e vd ra off obs s = .next t) : t.fixed = s.fixed := by
  unfold execVsm at h
  refine State.issue_fixed (fun x c k => ?_) h; clear h; (try dsimp only); (repeat' split); all_goals (first | (simp; done) | exact State.memRes_fixed .. | exact State.ksUpdate_fixed .. | (simp [charge_fixed ‹State.charge _ _ _ _ = _›]; done) | (simp_all; done))

theorem execFence_fixed (u : CoreId) (g : Fin 8) (s : State) {t : State}
    (h : execFence u g s = .next t) : t.fixed = s.fixed := by
  unfold execFence at h
  refine State.issue_fixed (fun x c k => ?_) h; clear h; (repeat' split) <;> simp

theorem execTlock_fixed (u : CoreId) (g : Fin 8) (rd ra : Fin 32) (s : State) {t : State}
    (h : execTlock u g rd ra s = .next t) : t.fixed = s.fixed := by
  unfold execTlock at h
  refine State.issue_fixed (fun x c k => ?_) h; clear h; (repeat' split) <;> simp

theorem execTunlock_fixed (u : CoreId) (g : Fin 8) (ra : Fin 32) (s : State) {t : State}
    (h : execTunlock u g ra s = .next t) : t.fixed = s.fixed := by
  unfold execTunlock at h
  refine State.issue_fixed (fun x c k => ?_) h; clear h; (repeat' split) <;> simp

/-! ### ChiselEngine -/

theorem execKsFind_fixed (u : CoreId) (g : Fin 8) (rd ra : Fin 32) (loc : BitVec 8) (s : State) {t : State}
    (h : execKsFind u g rd ra loc s = .next t) : t.fixed = s.fixed := by
  unfold execKsFind at h
  refine State.issue_fixed (fun x c k => ?_) h; clear h; (try dsimp only); (repeat' split); all_goals (first | (simp; done) | exact State.memRes_fixed .. | exact State.ksUpdate_fixed .. | (simp [chargeFiring_fixed ‹State.chargeFiring _ _ _ _ = _›]; done) | (simp_all; done))

theorem execKsIns_fixed (u : CoreId) (g : Fin 8) (ra rb : Fin 32) (loc : BitVec 8) (s : State) {t : State}
    (h : execKsIns u g ra rb loc s = .next t) : t.fixed = s.fixed := by
  unfold execKsIns at h
  refine State.issue_fixed (fun x c k => ?_) h; clear h; (try dsimp only); (repeat' split); all_goals (first | (simp; done) | exact State.memRes_fixed .. | exact State.ksUpdate_fixed .. | (simp [charge_fixed ‹State.charge _ _ _ _ = _›]; done) | (simp_all; done))

theorem execKsDel_fixed (u : CoreId) (g : Fin 8) (rb : Fin 32) (loc : BitVec 8) (s : State) {t : State}
    (h : execKsDel u g rb loc s = .next t) : t.fixed = s.fixed := by
  unfold execKsDel at h
  refine State.issue_fixed (fun x c k => ?_) h; clear h; (try dsimp only); (repeat' split); all_goals (first | (simp; done) | exact State.memRes_fixed .. | exact State.ksUpdate_fixed .. | (simp [charge_fixed ‹State.charge _ _ _ _ = _›]; done) | (simp_all; done))

theorem execEmit_fixed (u : CoreId) (g port : Fin 8) (ra rb : Fin 32) (s : State) {t : State} (h : execEmit u g port ra rb s = .next t) :
    t.fixed = s.fixed := by
  unfold execEmit at h
  refine State.issue_fixed (fun x c k => ?_) h
  clear h
  split
  · simp
  · dsimp only
    generalize emitToken _ _ _ _ = tok
    (repeat' split) <;> simp

theorem execDgSub_fixed (u : CoreId) (g : Fin 8) (ra : Fin 32) (s : State) {t : State}
    (h : execDgSub u g ra s = .next t) : t.fixed = s.fixed := by
  unfold execDgSub at h
  refine State.issue_fixed (fun x c k => ?_) h; clear h; (try dsimp only); (repeat' split); all_goals (first | (simp; done) | exact State.memRes_fixed .. | exact State.ksUpdate_fixed .. | (simp [chargeFiring_fixed ‹State.chargeFiring _ _ _ _ = _›]; done) | (simp_all; done))

theorem execDgWait_fixed (u : CoreId) (g : Fin 8) (s : State) {t : State}
    (h : execDgWait u g s = .next t) : t.fixed = s.fixed := by
  unfold execDgWait at h
  refine State.issue_fixed (fun x c k => ?_) h; clear h; (repeat' split) <;> simp

theorem execEndFiring_fixed (u : CoreId) (g : Fin 8) (s : State) {t : State}
    (h : execEndFiring u g s = .next t) : t.fixed = s.fixed := by
  unfold execEndFiring at h
  refine State.issue_fixed (fun x c k => ?_) h; clear h; (try dsimp only); (repeat' split); all_goals (first | (simp; done) | exact State.memRes_fixed .. | exact State.ksUpdate_fixed .. | (simp [charge_fixed ‹State.charge _ _ _ _ = _›]; done) | (simp_all; done))

theorem execCycleBoundCutoff_fixed (u : CoreId) (s : State) {t : State}
    (h : execCycleBoundCutoff u s = .next t) : t.fixed = s.fixed := by
  unfold execCycleBoundCutoff at h; obtain rfl := Host.Outcome.next.inj h; clear h
  (repeat' split) <;> simp

/-! ### ChiselSuper -/

theorem execLease_fixed (u : CoreId) (g : Fin 8) (rd ra rb : Fin 32) (s : State) {t : State}
    (h : execLease u g rd ra rb s = .next t) : t.fixed = s.fixed := by
  unfold execLease at h
  refine State.issue_fixed (fun x c k => ?_) h; clear h; (try dsimp only); (repeat' split); all_goals (first | (simp; done) | exact State.memRes_fixed .. | exact State.ksUpdate_fixed .. | (simp [charge_fixed ‹State.charge _ _ _ _ = _›]; done) | (simp_all; done))

theorem execScrub_fixed (u : CoreId) (g : Fin 8) (ra : Fin 32) (s : State) {t : State}
    (h : execScrub u g ra s = .next t) : t.fixed = s.fixed := by
  unfold execScrub at h
  refine State.issue_fixed (fun x c k => ?_) h; clear h; (repeat' split) <;> simp

theorem execTinvA_fixed (u : CoreId) (g : Fin 8) (ra rb : Fin 32) (s : State) {t : State}
    (h : execTinvA u g ra rb s = .next t) : t.fixed = s.fixed := by
  unfold execTinvA at h
  refine State.issue_fixed (fun x c k => ?_) h; clear h; (repeat' split) <;> simp

theorem execTinvT_fixed (u : CoreId) (g : Fin 8) (rb : Fin 32) (s : State) {t : State}
    (h : execTinvT u g rb s = .next t) : t.fixed = s.fixed := by
  unfold execTinvT at h
  refine State.issue_fixed (fun x c k => ?_) h; clear h; (repeat' split) <;> simp

theorem execTinvAll_fixed (u : CoreId) (g : Fin 8) (s : State) {t : State}
    (h : execTinvAll u g s = .next t) : t.fixed = s.fixed := by
  unfold execTinvAll at h
  refine State.issue_fixed (fun x c k => ?_) h; clear h; (repeat' split) <;> simp

theorem execTsync_fixed (u : CoreId) (g : Fin 8) (ra : Fin 32) (s : State) {t : State}
    (h : execTsync u g ra s = .next t) : t.fixed = s.fixed := by
  unfold execTsync at h
  refine State.issue_fixed (fun x c k => ?_) h; clear h; (try dsimp only); (repeat' split); all_goals (first | (simp; done) | exact State.memRes_fixed .. | exact State.ksUpdate_fixed .. | (simp [charge_fixed ‹State.charge _ _ _ _ = _›]; done) | (simp_all; done))

theorem execCrangeClean_fixed (u : CoreId) (g : Fin 8) (rd ra rb : Fin 32) (s : State) {t : State}
    (h : execCrangeClean u g rd ra rb s = .next t) : t.fixed = s.fixed := by
  exact State.crange_fixed h

theorem execCrangeInv_fixed (u : CoreId) (g : Fin 8) (rd ra rb : Fin 32) (s : State) {t : State}
    (h : execCrangeInv u g rd ra rb s = .next t) : t.fixed = s.fixed := by
  exact State.crange_fixed h

theorem execCrangeCinv_fixed (u : CoreId) (g : Fin 8) (rd ra rb : Fin 32) (s : State) {t : State}
    (h : execCrangeCinv u g rd ra rb s = .next t) : t.fixed = s.fixed := by
  exact State.crange_fixed h

theorem execCrangeZero_fixed (u : CoreId) (g : Fin 8) (rd ra rb : Fin 32) (s : State) {t : State}
    (h : execCrangeZero u g rd ra rb s = .next t) : t.fixed = s.fixed := by
  exact State.crange_fixed h

theorem execBorrow_fixed (u : CoreId) (g : Fin 8) (s : State) {t : State}
    (h : execBorrow u g s = .next t) : t.fixed = s.fixed := by
  unfold execBorrow at h
  refine State.issue_fixed (fun x c k => ?_) h; clear h; (repeat' split) <;> simp

theorem execSret_fixed (u : CoreId) (g : Fin 8) (s : State) {t : State}
    (h : execSret u g s = .next t) : t.fixed = s.fixed := by
  unfold execSret at h
  refine State.issue_fixed (fun x c k => ?_) h; clear h; (repeat' split) <;> simp

end Sys2Proof.Machine
end

