-- ==== Sys2Proof/Laws/FixedEvents.lean ====
section
/-! SUPPORT. What the commands of the files up to Store leave as it is (`State.fixed`), one lemma for each meaning. -/

set_option maxRecDepth 4000
namespace Sys2Proof.Machine

/-! ### Hod -/

theorem execHodCopy_fixed (bay ch : Nat) (s : State) {t : State}
    (h : execHodCopy bay ch s = .next t) : t.fixed = s.fixed := by
  unfold execHodCopy at h; obtain rfl := Host.Outcome.next.inj h; clear h
  simp

theorem execHodFill_fixed (bay ch : Nat) (s : State) {t : State}
    (h : execHodFill bay ch s = .next t) : t.fixed = s.fixed := by
  unfold execHodFill at h; obtain rfl := Host.Outcome.next.inj h; clear h
  simp

theorem execHodCompare_fixed (bay ch : Nat) (s : State) {t : State}
    (h : execHodCompare bay ch s = .next t) : t.fixed = s.fixed := by
  unfold execHodCompare at h; obtain rfl := Host.Outcome.next.inj h; clear h
  simp

theorem execHodPack_fixed (bay ch : Nat) (s : State) {t : State}
    (h : execHodPack bay ch s = .next t) : t.fixed = s.fixed := by
  unfold execHodPack at h; obtain rfl := Host.Outcome.next.inj h; clear h
  simp

theorem execHodUnpack_fixed (bay ch : Nat) (s : State) {t : State}
    (h : execHodUnpack bay ch s = .next t) : t.fixed = s.fixed := by
  unfold execHodUnpack at h; obtain rfl := Host.Outcome.next.inj h; clear h
  simp

theorem execHodDisable_fixed (bay ch : Nat) (s : State) {t : State}
    (h : execHodDisable bay ch s = .next t) : t.fixed = s.fixed := by
  unfold execHodDisable at h; obtain rfl := Host.Outcome.next.inj h; clear h
  simp

theorem execHodLineDone_fixed (bay ch : Nat) (fault : Option Nat) (s : State) {t : State}
    (h : execHodLineDone bay ch fault s = .next t) : t.fixed = s.fixed := by
  unfold execHodLineDone at h; obtain rfl := Host.Outcome.next.inj h; clear h
  (repeat' split) <;> simp

theorem execSettVerifyHandoff_fixed (bay ch other : Nat) (pass : Bool) (s : State) {t : State}
    (h : execSettVerifyHandoff bay ch other pass s = .next t) : t.fixed = s.fixed := by
  unfold execSettVerifyHandoff at h; obtain rfl := Host.Outcome.next.inj h; clear h
  simp

/-! ### MemEvents -/

theorem execRangeSetVisit_fixed (bay : Nat) (s : State) {t : State}
    (h : execRangeSetVisit bay s = .next t) : t.fixed = s.fixed := by
  unfold execRangeSetVisit at h; obtain rfl := Host.Outcome.next.inj h; clear h
  (repeat' split) <;> simp

theorem execRangeZeroWrite_fixed (bay : Nat) (s : State) {t : State}
    (h : execRangeZeroWrite bay s = .next t) : t.fixed = s.fixed := by
  unfold execRangeZeroWrite at h; obtain rfl := Host.Outcome.next.inj h; clear h
  (repeat' split) <;> simp

theorem execRangeOpDone_fixed (bay : Nat) (s : State) {t : State}
    (h : execRangeOpDone bay s = .next t) : t.fixed = s.fixed := by
  unfold execRangeOpDone at h; obtain rfl := Host.Outcome.next.inj h; clear h
  (repeat' split) <;> simp

theorem execCacheFillSector_fixed (bay line : Nat) (obs : ReadObs) (s : State) {t : State}
    (h : execCacheFillSector bay line obs s = .next t) : t.fixed = s.fixed := by
  unfold execCacheFillSector at h; obtain rfl := Host.Outcome.next.inj h; clear h
  (repeat' split) <;> simp

theorem execEvictionWriteback_fixed (bay slot : Nat) (parityBad : Bool) (s : State) {t : State}
    (h : execEvictionWriteback bay slot parityBad s = .next t) : t.fixed = s.fixed := by
  unfold execEvictionWriteback at h; obtain rfl := Host.Outcome.next.inj h; clear h
  (try dsimp only); (repeat' split) <;> first | rfl | (simp; done) | (simp_all; done)

theorem execL2VictimAck_fixed (bay line : Nat) (s : State) {t : State}
    (h : execL2VictimAck bay line s = .next t) : t.fixed = s.fixed := by
  unfold execL2VictimAck at h; obtain rfl := Host.Outcome.next.inj h; clear h
  simp

theorem execMemoryStoreAck_fixed (u : CoreId) (s : State) {t : State}
    (h : execMemoryStoreAck u s = .next t) : t.fixed = s.fixed := by
  unfold execMemoryStoreAck at h; obtain rfl := Host.Outcome.next.inj h; clear h
  simp

theorem execPatrolRead_fixed (line : Nat) (obs : ReadObs) (s : State) {t : State}
    (h : execPatrolRead line obs s = .next t) : t.fixed = s.fixed := by
  unfold execPatrolRead at h; obtain rfl := Host.Outcome.next.inj h; clear h
  (repeat' split) <;> simp

theorem execBoundPairRebuild_fixed (frame newFrame : Nat) (s : State) {t : State} (h : execBoundPairRebuild frame newFrame s = .next t) :
    t.fixed = s.fixed := by
  unfold execBoundPairRebuild at h
  obtain rfl := Host.Outcome.next.inj h; clear h
  dsimp only
  split
  · rfl
  · rw [ite_fixed]
    generalize hm : Memory.putCourses _ _ _ = m
    simp

theorem execInvalidateEffect_fixed (bay : Nat) (s : State) {t : State}
    (h : execInvalidateEffect bay s = .next t) : t.fixed = s.fixed := by
  unfold execInvalidateEffect at h; obtain rfl := Host.Outcome.next.inj h; clear h
  (repeat' split) <;> simp

/-! ### Regs -/

theorem execRegisterWrite_fixed (ca : Nat) (value : List Course) (s : State) {t : State}
    (h : execRegisterWrite ca value s = .next t) : t.fixed = s.fixed := by
  unfold execRegisterWrite at h; obtain rfl := Host.Outcome.next.inj h; clear h
  simp

/-! ### CoreMemory -/

theorem execWalkReadDone_fixed (u : CoreId) (obs : ReadObs) (s : State) {t : State} (h : execWalkReadDone u obs s = .next t) : t.fixed = s.fixed := by
  unfold execWalkReadDone at h
  obtain rfl := Host.Outcome.next.inj h
  exact State.resumeAccess_fixed _ _ _ (by simp)

/-! ### Operators -/

theorem execItemIn_fixed (w : WorkRef) (op : Nat) (s : State) {t : State}
    (h : execItemIn w op s = .next t) : t.fixed = s.fixed := by
  unfold execItemIn at h; obtain rfl := Host.Outcome.next.inj h; clear h
  (try dsimp only); (repeat' split) <;> first | rfl | (simp; done) | (simp_all; done)

theorem execDecode_fixed (w : WorkRef) (op : Nat) (s : State) {t : State}
    (h : execDecode w op s = .next t) : t.fixed = s.fixed := by
  unfold execDecode at h; obtain rfl := Host.Outcome.next.inj h; clear h
  refine (State.fire_fixed _ _ _ _ _ _ _ _ (fun x e ts r hr => ?_)).trans (by simp); revert hr; (try simp only [bind, Except.bind, pure, Except.pure, throw, throwThe, MonadExceptOf.throw, MonadExcept.throw])
  (repeat' split) <;> intro hr <;> first | (cases hr; done) | (rw [← Except.ok.inj hr]; done) | (rw [← Except.ok.inj hr]; simp; done) | exact rowsOut_fixed hr

theorem execEncode_fixed (w : WorkRef) (op : Nat) (s : State) {t : State}
    (h : execEncode w op s = .next t) : t.fixed = s.fixed := by
  unfold execEncode at h; obtain rfl := Host.Outcome.next.inj h; clear h
  refine State.fire_fixed _ _ _ _ _ _ _ _ (fun x e ts r hr => ?_); revert hr; (try simp only [bind, Except.bind, pure, Except.pure, throw, throwThe, MonadExceptOf.throw, MonadExcept.throw])
  (repeat' split) <;> intro hr <;> first | (cases hr; done) | (rw [← Except.ok.inj hr]; done) | (rw [← Except.ok.inj hr]; simp; done) | exact rowsOut_fixed hr

theorem execScan_fixed (w : WorkRef) (op : Nat) (s : State) {t : State} (h : execScan w op s = .next t) : t.fixed = s.fixed := by
  unfold execScan at h
  obtain rfl := Host.Outcome.next.inj h; clear h
  split
  · split
    · rfl
    · dsimp only
      (repeat' split) <;> first | rfl | (simp; done) | (rename_i e _ _ _; simp [chargeAll_fixed e]; done)
  · rfl

theorem execFilter_fixed (w : WorkRef) (op : Nat) (s : State) {t : State}
    (h : execFilter w op s = .next t) : t.fixed = s.fixed := by
  unfold execFilter at h; obtain rfl := Host.Outcome.next.inj h; clear h
  refine State.fire_fixed _ _ _ _ _ _ _ _ (fun x e ts r hr => ?_); revert hr; (try simp only [bind, Except.bind, pure, Except.pure, throw, throwThe, MonadExceptOf.throw, MonadExcept.throw])
  (repeat' split) <;> intro hr <;> first | (cases hr; done) | (rw [← Except.ok.inj hr]; done) | (rw [← Except.ok.inj hr]; simp; done) | exact rowsOut_fixed hr

theorem execRoute_fixed (w : WorkRef) (op : Nat) (s : State) {t : State}
    (h : execRoute w op s = .next t) : t.fixed = s.fixed := by
  unfold execRoute at h; obtain rfl := Host.Outcome.next.inj h; clear h
  refine State.fire_fixed _ _ _ _ _ _ _ _ (fun x e ts r hr => ?_); revert hr; (try simp only [bind, Except.bind, pure, Except.pure, throw, throwThe, MonadExceptOf.throw, MonadExcept.throw])
  (repeat' split) <;> intro hr <;> first | (cases hr; done) | (rw [← Except.ok.inj hr]; done) | (rw [← Except.ok.inj hr]; simp; done) | exact rowsOut_fixed hr

theorem execUnion_fixed (w : WorkRef) (op : Nat) (s : State) {t : State} (h : execUnion w op s = .next t) : t.fixed = s.fixed := by
  unfold execUnion at h
  obtain rfl := Host.Outcome.next.inj h; clear h
  split
  · rfl
  · dsimp only
    split
    · refine (State.fire_fixed _ _ _ _ _ _ _ _ (fun x e ts r hr => ?_))
      rw [← Except.ok.inj hr]
    · (repeat' split) <;> simp

theorem execHashBuild_fixed (w : WorkRef) (op : Nat) (s : State) {t : State}
    (h : execHashBuild w op s = .next t) : t.fixed = s.fixed := by
  unfold execHashBuild at h; obtain rfl := Host.Outcome.next.inj h; clear h
  refine State.fire_fixed _ _ _ _ _ _ _ _ (fun x e ts r hr => ?_); revert hr; (try simp only [bind, Except.bind, pure, Except.pure, throw, throwThe, MonadExceptOf.throw, MonadExcept.throw])
  (repeat' split) <;> intro hr <;> first | (cases hr; done) | (rw [← Except.ok.inj hr]; done) | (rw [← Except.ok.inj hr]; simp; done) | exact rowsOut_fixed hr

theorem execHashProbe_fixed (w : WorkRef) (op : Nat) (s : State) {t : State} (h : execHashProbe w op s = .next t) : t.fixed = s.fixed := by
  unfold execHashProbe at h
  obtain rfl := Host.Outcome.next.inj h; clear h
  split
  · rfl
  · dsimp only
    split
    · exact State.fire_fixed _ _ _ _ _ _ _ _ (fun x e ts r hr => probe_fixed hr)
    · split
      · rfl
      · split
        · split <;> simp
        · split
          · simp
          · rename_i e; rw [State.emit_fixed, probe_fixed e]; simp

theorem execMergeJoin_fixed (w : WorkRef) (op : Nat) (s : State) {t : State} (h : execMergeJoin w op s = .next t) : t.fixed = s.fixed := by
  unfold execMergeJoin at h
  obtain rfl := Host.Outcome.next.inj h; clear h
  refine (State.fire_fixed _ _ _ _ _ _ _ _ (fun x e ts r hr => ?_))
  revert hr
  simp only [bind, Except.bind, pure, Except.pure, throw, throwThe, MonadExceptOf.throw]
  (repeat' split) <;> intro hr <;> first
    | (cases hr; done)
    | (rw [← Except.ok.inj hr]; simp; done)
    | (rename_i e; rw [← Except.ok.inj hr]; simp [chargeAll_fixed e]; done)

theorem execSort_fixed (w : WorkRef) (op : Nat) (s : State) {t : State}
    (h : execSort w op s = .next t) : t.fixed = s.fixed := by
  unfold execSort at h; obtain rfl := Host.Outcome.next.inj h; clear h
  refine State.fire_fixed _ _ _ _ _ _ _ _ (fun x e ts r hr => ?_); revert hr; (try simp only [bind, Except.bind, pure, Except.pure, throw, throwThe, MonadExceptOf.throw, MonadExcept.throw])
  (repeat' split) <;> intro hr <;> first | (cases hr; done) | (rw [← Except.ok.inj hr]; done) | (rw [← Except.ok.inj hr]; simp; done) | exact rowsOut_fixed hr

theorem execTopK_fixed (w : WorkRef) (op : Nat) (s : State) {t : State}
    (h : execTopK w op s = .next t) : t.fixed = s.fixed := by
  unfold execTopK at h; obtain rfl := Host.Outcome.next.inj h; clear h
  refine State.fire_fixed _ _ _ _ _ _ _ _ (fun x e ts r hr => ?_); revert hr; (try simp only [bind, Except.bind, pure, Except.pure, throw, throwThe, MonadExceptOf.throw, MonadExcept.throw])
  (repeat' split) <;> intro hr <;> first | (cases hr; done) | (rw [← Except.ok.inj hr]; done) | (rw [← Except.ok.inj hr]; simp; done) | exact rowsOut_fixed hr

theorem execGroupAgg_fixed (w : WorkRef) (op : Nat) (s : State) {t : State} (h : execGroupAgg w op s = .next t) : t.fixed = s.fixed := by
  unfold execGroupAgg at h
  obtain rfl := Host.Outcome.next.inj h; clear h
  refine (State.fire_fixed _ _ _ _ _ _ _ _ (fun x e ts r hr => ?_))
  revert hr
  simp only [bind, Except.bind, pure, Except.pure, throw, throwThe, MonadExceptOf.throw]
  (repeat' split) <;> intro hr <;> first
    | (cases hr; done)
    | (rw [← Except.ok.inj hr]; simp; done)
    | (rename_i e; rw [← Except.ok.inj hr]; simp [chargeAll_fixed e]; done)

theorem execWindowAgg_fixed (w : WorkRef) (op : Nat) (s : State) {t : State}
    (h : execWindowAgg w op s = .next t) : t.fixed = s.fixed := by
  unfold execWindowAgg at h; obtain rfl := Host.Outcome.next.inj h; clear h
  refine State.fire_fixed _ _ _ _ _ _ _ _ (fun x e ts r hr => ?_); revert hr; (try simp only [bind, Except.bind, pure, Except.pure, throw, throwThe, MonadExceptOf.throw, MonadExcept.throw])
  (repeat' split) <;> intro hr <;> first | (cases hr; done) | (rw [← Except.ok.inj hr]; done) | (rw [← Except.ok.inj hr]; simp; done) | exact rowsOut_fixed hr

theorem execStateGetReadDone_fixed (seq : Nat) (s : State) {t : State}
    (h : execStateGetReadDone seq s = .next t) : t.fixed = s.fixed := by
  unfold execStateGetReadDone at h; obtain rfl := Host.Outcome.next.inj h; clear h
  (repeat' split) <;> simp

theorem execStateGet_fixed (w : WorkRef) (op : Nat) (s : State) {t : State} (h : execStateGet w op s = .next t) : t.fixed = s.fixed := by
  unfold execStateGet at h
  obtain rfl := Host.Outcome.next.inj h; clear h
  split
  · rfl
  · split
    · rfl
    · split
      · rfl
      · refine (State.fire_fixed _ _ _ _ _ _ _ _ (fun x e ts r hr => ?_))
        rw [← Except.ok.inj hr]

theorem execStatePut_fixed (w : WorkRef) (op : Nat) (s : State) {t : State} (h : execStatePut w op s = .next t) : t.fixed = s.fixed := by
  unfold execStatePut at h
  obtain rfl := Host.Outcome.next.inj h; clear h
  have key : ∀ x : State, x.fixed = s.fixed → (match w with
    | .item q => x.retire q
    | .run _ => x : State).fixed = s.fixed := by
    intro x hx; split <;> simp [hx]
  refine key _ (State.fire_fixed _ _ _ _ _ _ _ _ (fun x e ts r hr => ?_))
  revert hr
  simp only [bind, Except.bind, pure, Except.pure, throw, throwThe, MonadExceptOf.throw]
  (repeat' split) <;> intro hr <;> first
    | (cases hr; done)
    | (rw [← Except.ok.inj hr]; done)
    | (rw [← Except.ok.inj hr]; simp; done)

theorem execVerdictOut_fixed (w : WorkRef) (op : Nat) (s : State) {t : State}
    (h : execVerdictOut w op s = .next t) : t.fixed = s.fixed := by
  unfold execVerdictOut at h; obtain rfl := Host.Outcome.next.inj h; clear h
  refine State.fire_fixed _ _ _ _ _ _ _ _ (fun x e ts r hr => ?_); revert hr; (try simp only [bind, Except.bind, pure, Except.pure, throw, throwThe, MonadExceptOf.throw, MonadExcept.throw])
  (repeat' split) <;> intro hr <;> first | (cases hr; done) | (rw [← Except.ok.inj hr]; done) | (rw [← Except.ok.inj hr]; simp; done) | exact rowsOut_fixed hr

theorem execResultOut_fixed (w : WorkRef) (op : Nat) (s : State) {t : State}
    (h : execResultOut w op s = .next t) : t.fixed = s.fixed := by
  unfold execResultOut at h; obtain rfl := Host.Outcome.next.inj h; clear h
  refine State.fire_fixed _ _ _ _ _ _ _ _ (fun x e ts r hr => ?_); revert hr; (try simp only [bind, Except.bind, pure, Except.pure, throw, throwThe, MonadExceptOf.throw, MonadExcept.throw])
  (repeat' split) <;> intro hr <;> first | (cases hr; done) | (rw [← Except.ok.inj hr]; done) | (rw [← Except.ok.inj hr]; simp; done) | exact rowsOut_fixed hr

theorem execLedgerAppend_fixed (w : WorkRef) (op : Nat) (s : State) {t : State} (h : execLedgerAppend w op s = .next t) : t.fixed = s.fixed := by
  unfold execLedgerAppend at h
  obtain rfl := Host.Outcome.next.inj h; clear h
  have key : ∀ x : State, x.fixed = s.fixed → (match w with
    | .item q => x.retire q
    | .run _ => x : State).fixed = s.fixed := by
    intro x hx; split <;> simp [hx]
  refine key _ (State.fire_fixed _ _ _ _ _ _ _ _ (fun x e ts r hr => ?_))
  revert hr
  simp only [bind, Except.bind, pure, Except.pure, throw, throwThe, MonadExceptOf.throw]
  (repeat' split) <;> intro hr <;> first
    | (cases hr; done)
    | (rw [← Except.ok.inj hr]; done)
    | (rw [← Except.ok.inj hr]; simp; done)

theorem execTableAppend_fixed (w : WorkRef) (op : Nat) (s : State) {t : State} (h : execTableAppend w op s = .next t) : t.fixed = s.fixed := by
  unfold execTableAppend at h
  obtain rfl := Host.Outcome.next.inj h; clear h
  have key : ∀ x : State, x.fixed = s.fixed → (match w with
    | .item q => x.settleAppends.retire q
    | .run _ => x : State).fixed = s.fixed := by
    intro x hx; split <;> simp [hx]
  refine key _ (State.fire_fixed _ _ _ _ _ _ _ _ (fun x e ts r hr => ?_))
  revert hr
  simp only [bind, Except.bind, pure, Except.pure, throw, throwThe, MonadExceptOf.throw]
  (repeat' split) <;> intro hr <;> first
    | (cases hr; done)
    | (rw [← Except.ok.inj hr]; done)
    | (rw [← Except.ok.inj hr]; simp; done)

/-! ### Keystone -/

theorem execKsFrameStart_fixed (bay : Nat) (s : State) {t : State}
    (h : execKsFrameStart bay s = .next t) : t.fixed = s.fixed := by
  unfold execKsFrameStart at h; obtain rfl := Host.Outcome.next.inj h; clear h
  simp

theorem execKsParityRewrite_fixed (sl id bank pos : Nat) (s : State) {t : State} (h : execKsParityRewrite sl id bank pos s = .next t) :
    t.fixed = s.fixed := by
  unfold execKsParityRewrite at h
  obtain rfl := Host.Outcome.next.inj h; clear h
  split
  · rfl
  · split
    · rfl
    · dsimp only
      rw [ite_fixed, ite_fixed]
      simp

theorem execKeyLookup_fixed (w : WorkRef) (op : Nat) (s : State) {t : State}
    (h : execKeyLookup w op s = .next t) : t.fixed = s.fixed := by
  unfold execKeyLookup at h; obtain rfl := Host.Outcome.next.inj h; clear h
  simp

theorem execKeyJoin_fixed (w : WorkRef) (op : Nat) (s : State) {t : State}
    (h : execKeyJoin w op s = .next t) : t.fixed = s.fixed := by
  unfold execKeyJoin at h; obtain rfl := Host.Outcome.next.inj h; clear h
  simp

theorem execKsSearchResult_fixed (id : Nat) (bad : List Nat) (s : State) {t : State}
    (h : execKsSearchResult id bad s = .next t) : t.fixed = s.fixed := by
  unfold execKsSearchResult at h; obtain rfl := Host.Outcome.next.inj h; clear h
  (try dsimp only); (repeat' split) <;> first | rfl | (simp; done) | (simp_all; done)

theorem execKsUpdateHead_fixed (sl id : Nat) (s : State) {t : State}
    (h : execKsUpdateHead sl id s = .next t) : t.fixed = s.fixed := by
  unfold execKsUpdateHead at h; obtain rfl := Host.Outcome.next.inj h; clear h
  dsimp only
  (repeat' split) <;> simp

theorem execKsMove_fixed (sl id bank : Nat) (bad : Bool) (s : State) {t : State}
    (h : execKsMove sl id bank bad s = .next t) : t.fixed = s.fixed := by
  unfold execKsMove at h; obtain rfl := Host.Outcome.next.inj h; clear h
  (repeat' split) <;> simp

theorem execKsCommit_fixed (sl id : Nat) (s : State) {t : State}
    (h : execKsCommit sl id s = .next t) : t.fixed = s.fixed := by
  unfold execKsCommit at h; obtain rfl := Host.Outcome.next.inj h; clear h
  (repeat' split) <;> simp

theorem execKsLoadSwitch_fixed (sl id : Nat) (s : State) {t : State}
    (h : execKsLoadSwitch sl id s = .next t) : t.fixed = s.fixed := by
  unfold execKsLoadSwitch at h; obtain rfl := Host.Outcome.next.inj h; clear h
  (repeat' split) <;> simp

theorem execKsJournalFold_fixed (sl id : Nat) (s : State) {t : State}
    (h : execKsJournalFold sl id s = .next t) : t.fixed = s.fixed := by
  unfold execKsJournalFold at h; obtain rfl := Host.Outcome.next.inj h; clear h
  simp

theorem execKsCopyRebuild_fixed (sl id bank : Nat) (s : State) {t : State}
    (h : execKsCopyRebuild sl id bank s = .next t) : t.fixed = s.fixed := by
  unfold execKsCopyRebuild at h; obtain rfl := Host.Outcome.next.inj h; clear h
  (repeat' split) <;> simp

theorem execKsCreate_fixed (h : CmdHdr) (param : List Byte) (s : State) {t : State}
    (h0 : execKsCreate h param s = .next t) : t.fixed = s.fixed := by
  unfold execKsCreate at h0; obtain rfl := Host.Outcome.next.inj h0; clear h0
  split
  · simp
  · refine State.managed_fixed _ _ _ _ _ _ (fun t b => ?_)
    (try dsimp only); (repeat' split) <;> first | rfl | (simp; done) | (simp_all; done)

theorem execKsDrop_fixed (h : CmdHdr) (table : Nat) (s : State) {t : State}
    (h0 : execKsDrop h table s = .next t) : t.fixed = s.fixed := by
  unfold execKsDrop at h0; obtain rfl := Host.Outcome.next.inj h0; clear h0
  refine State.managed_fixed _ _ _ _ _ _ (fun t b => ?_)
  (repeat' split) <;> simp

theorem execKsInsert_fixed (h : CmdHdr) (table position : Nat) (entry : List Byte) (s : State) {t : State}
    (h0 : execKsInsert h table position entry s = .next t) : t.fixed = s.fixed := by
  unfold execKsInsert at h0; obtain rfl := Host.Outcome.next.inj h0; clear h0
  refine State.managed_fixed _ _ _ _ _ _ (fun t b => ?_)
  (repeat' split) <;> simp

theorem execKsDelete_fixed (h : CmdHdr) (table position : Nat) (s : State) {t : State}
    (h0 : execKsDelete h table position s = .next t) : t.fixed = s.fixed := by
  unfold execKsDelete at h0; obtain rfl := Host.Outcome.next.inj h0; clear h0
  refine State.managed_fixed _ _ _ _ _ _ (fun t b => ?_)
  (repeat' split) <;> simp

theorem execKsLoad_fixed (h : CmdHdr) (table count : Nat) (entries : List Byte) (s : State) {t : State}
    (h0 : execKsLoad h table count entries s = .next t) : t.fixed = s.fixed := by
  unfold execKsLoad at h0; obtain rfl := Host.Outcome.next.inj h0; clear h0
  refine State.managed_fixed _ _ _ _ _ _ (fun t b => ?_)
  (repeat' split) <;> simp

theorem execKsRead_fixed (h : CmdHdr) (table first last : Nat) (s : State) {t : State}
    (h0 : execKsRead h table first last s = .next t) : t.fixed = s.fixed := by
  unfold execKsRead at h0; obtain rfl := Host.Outcome.next.inj h0; clear h0
  refine State.command_fixed _ _ _ _ _ _ (fun t b => ?_)
  (repeat' split) <;> simp

/-! ### Digest -/

theorem execDgKeyLoad_fixed (h : CmdHdr) (slot alg : Nat) (wrapped : List Byte) (s : State) {t : State}
    (e : execDgKeyLoad h slot alg wrapped s = .next t) : t.fixed = s.fixed := by
  unfold execDgKeyLoad at e
  obtain rfl := Host.Outcome.next.inj e; clear e
  refine State.managed_fixed _ _ _ _ _ _ (fun t b => ?_)
  dsimp only
  rw [ite_fixed]
  split
  · simp
  · split
    · simp
    · split <;> simp

theorem execDgKeyClear_fixed (h : CmdHdr) (slot : Nat) (s : State) {t : State}
    (h0 : execDgKeyClear h slot s = .next t) : t.fixed = s.fixed := by
  unfold execDgKeyClear at h0; obtain rfl := Host.Outcome.next.inj h0; clear h0
  refine State.managed_fixed _ _ _ _ _ _ (fun t b => ?_)
  (repeat' split) <;> simp

theorem execDigestLaneStart_fixed (bay lane : Nat) (s : State) {t : State}
    (h : execDigestLaneStart bay lane s = .next t) : t.fixed = s.fixed := by
  unfold execDigestLaneStart at h; obtain rfl := Host.Outcome.next.inj h; clear h
  (repeat' split) <;> simp

theorem execDigest_fixed (w : WorkRef) (op : Nat) (s : State) {t : State} (h : execDigest w op s = .next t) : t.fixed = s.fixed := by
  unfold execDigest at h
  obtain rfl := Host.Outcome.next.inj h; clear h
  dsimp only
  (repeat' split) <;> first
    | rfl
    | (simp; done)
    | skip
  rw [State.digestFinish_fixed, foldl_fixed, State.advanceFree_fixed, State.updWork_fixed, State.askFrom_fixed,
    chargeAll_fixed ‹State.chargeAll _ _ _ _ = _›]
  intro t k; split <;> simp

theorem execDigestBlockDone_fixed (bay lane : Nat) (s : State) {t : State} (h : execDigestBlockDone bay lane s = .next t) : t.fixed = s.fixed := by
  unfold execDigestBlockDone at h
  obtain rfl := Host.Outcome.next.inj h; clear h
  split
  · rfl
  · dsimp only
    (repeat' split) <;> simp

/-! ### Firing -/

theorem execMap_fixed (w : WorkRef) (op : Nat) (s : State) {t : State}
    (h : execMap w op s = .next t) : t.fixed = s.fixed := by
  unfold execMap at h; obtain rfl := Host.Outcome.next.inj h; clear h
  (repeat' split) <;> simp

theorem execFiringDispatch_fixed (bay slot : Nat) (l1iParity : Bool) (s : State) {t : State}
    (h : execFiringDispatch bay slot l1iParity s = .next t) : t.fixed = s.fixed := by
  unfold execFiringDispatch at h; obtain rfl := Host.Outcome.next.inj h; clear h
  (repeat' split) <;> simp

/-! ### Ingress -/

theorem execItemSubmit_fixed (h : CmdHdr) (port : Nat) (param data : List Byte) (s : State) {t : State}
    (h0 : execItemSubmit h port param data s = .next t) : t.fixed = s.fixed := by
  unfold execItemSubmit at h0; obtain rfl := Host.Outcome.next.inj h0; clear h0
  (repeat' split) <;> simp

theorem execItemIngressRelease_fixed (seq : Nat) (s : State) {t : State}
    (h : execItemIngressRelease seq s = .next t) : t.fixed = s.fixed := by
  unfold execItemIngressRelease at h; obtain rfl := Host.Outcome.next.inj h; clear h
  (repeat' split) <;> simp

theorem execFlowQueueLeave_fixed (bay : Nat) (s : State) {t : State} (h : execFlowQueueLeave bay s = .next t) : t.fixed = s.fixed := by
  unfold execFlowQueueLeave at h
  obtain rfl := Host.Outcome.next.inj h; clear h
  dsimp only
  (repeat' split) <;> first
    | rfl
    | (simp; done)
    | (rename_i e; simp [charge_fixed e]; done)

/-! ### Arbiter -/

theorem execArbiterResultArrival_fixed (seq : Nat) (s : State) {t : State}
    (h : execArbiterResultArrival seq s = .next t) : t.fixed = s.fixed := by
  unfold execArbiterResultArrival at h; obtain rfl := Host.Outcome.next.inj h; clear h
  (repeat' split) <;> simp

theorem execArbiterTick_fixed (parity : List ParityObs) (s : State) {t : State}
    (h : execArbiterTick parity s = .next t) : t.fixed = s.fixed := by
  unfold execArbiterTick at h; obtain rfl := Host.Outcome.next.inj h; clear h
  simp

theorem execFiringEndConfirm_fixed (seq : Nat) (s : State) {t : State}
    (h : execFiringEndConfirm seq s = .next t) : t.fixed = s.fixed := by
  unfold execFiringEndConfirm at h; obtain rfl := Host.Outcome.next.inj h; clear h
  (repeat' split) <;> simp

theorem execStatePutAck_fixed (seq : Nat) (s : State) {t : State}
    (h : execStatePutAck seq s = .next t) : t.fixed = s.fixed := by
  unfold execStatePutAck at h; obtain rfl := Host.Outcome.next.inj h; clear h
  (repeat' split) <;> simp

theorem execReplicaStateAck_fixed (seq : Nat) (s : State) {t : State}
    (h : execReplicaStateAck seq s = .next t) : t.fixed = s.fixed := by
  unfold execReplicaStateAck at h; obtain rfl := Host.Outcome.next.inj h; clear h
  (repeat' split) <;> simp

theorem execAnswerMirrorAck_fixed (seq : Nat) (s : State) {t : State}
    (h : execAnswerMirrorAck seq s = .next t) : t.fixed = s.fixed := by
  unfold execAnswerMirrorAck at h; obtain rfl := Host.Outcome.next.inj h; clear h
  (repeat' split) <;> simp

theorem execItemReplay_fixed (seq : Nat) (s : State) {t : State}
    (h : execItemReplay seq s = .next t) : t.fixed = s.fixed := by
  unfold execItemReplay at h; obtain rfl := Host.Outcome.next.inj h; clear h
  (repeat' split) <;> simp

theorem execInputHashReady_fixed (seq : Nat) (s : State) {t : State}
    (h : execInputHashReady seq s = .next t) : t.fixed = s.fixed := by
  unfold execInputHashReady at h; obtain rfl := Host.Outcome.next.inj h; clear h
  simp

/-! ### Ledger -/

theorem execLedgerRecordEnter_fixed (s : State) {t : State}
    (h : execLedgerRecordEnter s = .next t) : t.fixed = s.fixed := by
  unfold execLedgerRecordEnter at h; obtain rfl := Host.Outcome.next.inj h; clear h
  (repeat' split) <;> simp

theorem execLedgerNandProgram_fixed (s : State) {t : State}
    (h : execLedgerNandProgram s = .next t) : t.fixed = s.fixed := by
  unfold execLedgerNandProgram at h; obtain rfl := Host.Outcome.next.inj h; clear h
  (repeat' split) <;> simp

theorem execSegmentCloseSecond_fixed (s : State) {t : State}
    (h : execSegmentCloseSecond s = .next t) : t.fixed = s.fixed := by
  unfold execSegmentCloseSecond at h; obtain rfl := Host.Outcome.next.inj h; clear h
  simp

theorem execSealMake_fixed (s : State) {t : State}
    (h : execSealMake s = .next t) : t.fixed = s.fixed := by
  unfold execSealMake at h; obtain rfl := Host.Outcome.next.inj h; clear h
  simp

theorem execSealWrite_fixed (s : State) {t : State}
    (h : execSealWrite s = .next t) : t.fixed = s.fixed := by
  unfold execSealWrite at h; obtain rfl := Host.Outcome.next.inj h; clear h
  (repeat' split) <;> simp

theorem execLedgerProof_fixed (h : CmdHdr) (itemId answerTick : Nat) (s : State) {t : State}
    (h0 : execLedgerProof h itemId answerTick s = .next t) : t.fixed = s.fixed := by
  unfold execLedgerProof at h0; obtain rfl := Host.Outcome.next.inj h0; clear h0
  refine State.managed_fixed _ _ _ _ _ _ (fun t b => ?_)
  (repeat' split) <;> simp

theorem execLedgerSealNow_fixed (h : CmdHdr) (s : State) {t : State}
    (h0 : execLedgerSealNow h s = .next t) : t.fixed = s.fixed := by
  unfold execLedgerSealNow at h0; obtain rfl := Host.Outcome.next.inj h0; clear h0
  refine State.managed_fixed _ _ _ _ _ _ (fun t b => ?_)
  (repeat' split) <;> simp

theorem execLedgerRead_fixed (h : CmdHdr) (kind count firstLeaf seqNo : Nat) (s : State) {t : State}
    (e : execLedgerRead h kind count firstLeaf seqNo s = .next t) : t.fixed = s.fixed := by
  unfold execLedgerRead at e
  obtain rfl := Host.Outcome.next.inj e; clear e
  refine State.managed_fixed _ _ _ _ _ _ (fun t b => ?_)
  (repeat' split) <;> simp

theorem execAnswerEgress_fixed (sl aq : Nat) (s : State) {t : State}
    (h : execAnswerEgress sl aq s = .next t) : t.fixed = s.fixed := by
  unfold execAnswerEgress at h; obtain rfl := Host.Outcome.next.inj h; clear h
  (try dsimp only); (repeat' split) <;> first | rfl | (simp; done) | (simp_all; done)

/-! ### Store -/

theorem execTsWrite_fixed (h : CmdHdr) (first count : Nat) (data : List Byte) (s : State) {t : State}
    (e : execTsWrite h first count data s = .next t) : t.fixed = s.fixed := by
  unfold execTsWrite at e
  obtain rfl := Host.Outcome.next.inj e; clear e
  refine State.managed_fixed _ _ _ _ _ _ (fun t b => ?_)
  rw [ite_fixed, ite_fixed, tsChecked_fixed]
  · simp
  · intro x; dsimp only; split <;> simp

theorem execTsRead_fixed (h : CmdHdr) (first count : Nat) (s : State) {t : State} (e : execTsRead h first count s = .next t) : t.fixed = s.fixed := by
  unfold execTsRead at e
  obtain rfl := Host.Outcome.next.inj e; clear e
  exact State.managed_fixed _ _ _ _ _ _ (fun t b => tsChecked_fixed _ _ _ _ _ (by simp))

theorem execTsTrim_fixed (h : CmdHdr) (first count : Nat) (s : State) {t : State} (e : execTsTrim h first count s = .next t) : t.fixed = s.fixed := by
  unfold execTsTrim at e
  obtain rfl := Host.Outcome.next.inj e; clear e
  exact State.managed_fixed _ _ _ _ _ _ (fun t b => tsChecked_fixed _ _ _ _ _ (by simp))

theorem execTsBlockProgrammed_fixed (sl block : Nat) (s : State) {t : State}
    (h : execTsBlockProgrammed sl block s = .next t) : t.fixed = s.fixed := by
  unfold execTsBlockProgrammed at h; obtain rfl := Host.Outcome.next.inj h; clear h
  (repeat' split) <;> simp

theorem execStoreStatus_fixed (h : CmdHdr) (s : State) {t : State}
    (h0 : execStoreStatus h s = .next t) : t.fixed = s.fixed := by
  unfold execStoreStatus at h0; obtain rfl := Host.Outcome.next.inj h0; clear h0
  refine State.managed_fixed _ _ _ _ _ _ (fun t b => ?_)
  (repeat' split) <;> simp

theorem execSanitise_fixed (h : CmdHdr) (partition scope mode sealSeq : Nat) (s : State) {t : State}
    (h0 : execSanitise h partition scope mode sealSeq s = .next t) : t.fixed = s.fixed := by
  unfold execSanitise at h0; obtain rfl := Host.Outcome.next.inj h0; clear h0
  refine State.managed_fixed _ _ _ _ _ _ (fun t b => ?_)
  (repeat' split) <;> simp

theorem execFormat_fixed (h : CmdHdr) (partition : Nat) (s : State) {t : State}
    (h0 : execFormat h partition s = .next t) : t.fixed = s.fixed := by
  unfold execFormat at h0; obtain rfl := Host.Outcome.next.inj h0; clear h0
  refine State.managed_fixed _ _ _ _ _ _ (fun t b => ?_)
  (repeat' split) <;> simp

theorem execEraseUnitDone_fixed (partition thousandths : Nat) (s : State) {t : State}
    (h : execEraseUnitDone partition thousandths s = .next t) : t.fixed = s.fixed := by
  unfold execEraseUnitDone at h; obtain rfl := Host.Outcome.next.inj h; clear h
  (repeat' split) <;> simp

theorem execNandPageRefresh_fixed (page errors : Nat) (s : State) {t : State}
    (h : execNandPageRefresh page errors s = .next t) : t.fixed = s.fixed := by
  unfold execNandPageRefresh at h; obtain rfl := Host.Outcome.next.inj h; clear h
  simp

end Sys2Proof.Machine
end

