-- ==== Sys2Proof/Laws/FixedCommands.lean ====
section
/-! SUPPORT. What the commands of the files from Load on leave as it is (`State.fixed`), one lemma for each meaning. -/

set_option maxRecDepth 4000
namespace Sys2Proof.Machine

/-! ### Load -/

theorem execPipelineLoad_fixed (h : CmdHdr) (image : List Byte) (s : State) {t : State}
    (e : execPipelineLoad h image s = .next t) : t.fixed = s.fixed := by
  unfold execPipelineLoad at e
  obtain rfl := Host.Outcome.next.inj e; clear e
  refine State.managed_fixed _ _ _ _ _ _ (fun t b => ?_)
  split
  · simp
  · rename_i k; simp [loadImage_fixed k]

theorem execPipelineUnload_fixed (h : CmdHdr) (ctx : Nat) (s : State) {t : State}
    (h0 : execPipelineUnload h ctx s = .next t) : t.fixed = s.fixed := by
  unfold execPipelineUnload at h0; obtain rfl := Host.Outcome.next.inj h0; clear h0
  refine State.managed_fixed _ _ _ _ _ _ (fun t b => ?_)
  (repeat' split) <;> simp

theorem execContextRun_fixed (h : CmdHdr) (ctx batchCount : Nat) (data : List Byte) (s : State) {t : State}
    (e : execContextRun h ctx batchCount data s = .next t) : t.fixed = s.fixed := by
  unfold execContextRun at e
  obtain rfl := Host.Outcome.next.inj e; clear e
  refine State.command_fixed _ _ _ _ _ _ (fun t b => ?_)
  split
  · simp
  · dsimp only
    rw [ite_fixed, ite_fixed]
    simp

theorem execTableCreate_fixed (h : CmdHdr) (table columns factor : Nat) (types : List Byte) (s : State) {t : State}
    (h0 : execTableCreate h table columns factor types s = .next t) : t.fixed = s.fixed := by
  unfold execTableCreate at h0; obtain rfl := Host.Outcome.next.inj h0; clear h0
  refine State.managed_fixed _ _ _ _ _ _ (fun t b => ?_)
  (repeat' split) <;> simp

theorem execTableDrop_fixed (h : CmdHdr) (table : Nat) (s : State) {t : State}
    (h0 : execTableDrop h table s = .next t) : t.fixed = s.fixed := by
  unfold execTableDrop at h0; obtain rfl := Host.Outcome.next.inj h0; clear h0
  refine State.managed_fixed _ _ _ _ _ _ (fun t b => ?_)
  (repeat' split) <;> simp

/-! ### Mason -/

theorem execBucketLoadMove_fixed (bucket dst srcLoad dstLoad : Nat) (s : State) {t : State}
    (h : execBucketLoadMove bucket dst srcLoad dstLoad s = .next t) : t.fixed = s.fixed := by
  unfold execBucketLoadMove at h; obtain rfl := Host.Outcome.next.inj h; clear h
  simp

theorem execBucketMoveHandover_fixed (bucket : Nat) (s : State) {t : State}
    (h : execBucketMoveHandover bucket s = .next t) : t.fixed = s.fixed := by
  unfold execBucketMoveHandover at h; obtain rfl := Host.Outcome.next.inj h; clear h
  (repeat' split) <;> simp

theorem execHeatPeriodHalving_fixed (s : State) {t : State}
    (h : execHeatPeriodHalving s = .next t) : t.fixed = s.fixed := by
  unfold execHeatPeriodHalving at h; obtain rfl := Host.Outcome.next.inj h; clear h
  simp

theorem execAshlarTierMove_fixed (slice table col idx tier : Nat) (s : State) {t : State}
    (h : execAshlarTierMove slice table col idx tier s = .next t) : t.fixed = s.fixed := by
  unfold execAshlarTierMove at h; obtain rfl := Host.Outcome.next.inj h; clear h
  (repeat' split) <;> simp

theorem execMigration_fixed (slice va dstFrame : Nat) (s : State) {t : State} (h : execMigration slice va dstFrame s = .next t) :
    t.fixed = s.fixed := by
  unfold execMigration at h
  obtain rfl := Host.Outcome.next.inj h; clear h
  dsimp only
  split
  · rfl
  · rw [ite_fixed]
    simp

/-! ### Faults -/

theorem execBayLost_fixed (bay : Nat) (s : State) {t : State}
    (h : execBayLost bay s = .next t) : t.fixed = s.fixed := by
  unfold execBayLost at h; obtain rfl := Host.Outcome.next.inj h; clear h
  simp

theorem execStoneFault_fixed (bay slot : Nat) (s : State) {t : State}
    (h : execStoneFault bay slot s = .next t) : t.fixed = s.fixed := by
  unfold execStoneFault at h; obtain rfl := Host.Outcome.next.inj h; clear h
  simp

theorem execStoneHangTimeout_fixed (bay slot : Nat) (s : State) {t : State}
    (h : execStoneHangTimeout bay slot s = .next t) : t.fixed = s.fixed := by
  unfold execStoneHangTimeout at h; obtain rfl := Host.Outcome.next.inj h; clear h
  simp

theorem execPchFailed_fixed (pch : Nat) (s : State) {t : State}
    (h : execPchFailed pch s = .next t) : t.fixed = s.fixed := by
  unfold execPchFailed at h; obtain rfl := Host.Outcome.next.inj h; clear h
  simp

theorem execDramChannelLost_fixed (ch : Nat) (s : State) {t : State}
    (h : execDramChannelLost ch s = .next t) : t.fixed = s.fixed := by
  unfold execDramChannelLost at h; obtain rfl := Host.Outcome.next.inj h; clear h
  simp

theorem execOnfiChannelLost_fixed (ch : Nat) (s : State) {t : State}
    (h : execOnfiChannelLost ch s = .next t) : t.fixed = s.fixed := by
  unfold execOnfiChannelLost at h; obtain rfl := Host.Outcome.next.inj h; clear h
  simp

theorem execDigestLaneFault_fixed (bay lane : Nat) (s : State) {t : State}
    (h : execDigestLaneFault bay lane s = .next t) : t.fixed = s.fixed := by
  unfold execDigestLaneFault at h; obtain rfl := Host.Outcome.next.inj h; clear h
  (try dsimp only); (repeat' split) <;> first | rfl | (simp; done) | (simp_all; done)

theorem execQuoinMismatch_fixed (pair : Nat) (s : State) {t : State}
    (h : execQuoinMismatch pair s = .next t) : t.fixed = s.fixed := by
  unfold execQuoinMismatch at h; obtain rfl := Host.Outcome.next.inj h; clear h
  simp

theorem execTransferReplay_fixed (x : Transfer494) (attempt : Nat) (s : State) {t : State}
    (h : execTransferReplay x attempt s = .next t) : t.fixed = s.fixed := by
  unfold execTransferReplay at h; obtain rfl := Host.Outcome.next.inj h; clear h
  (repeat' split) <;> simp

/-! ### Thermal -/

theorem execThrottleStepChange_fixed (bay : Nat) (temp : Int) (s : State) {t : State}
    (h : execThrottleStepChange bay temp s = .next t) : t.fixed = s.fixed := by
  unfold execThrottleStepChange at h; obtain rfl := Host.Outcome.next.inj h; clear h
  simp

theorem execThermalFloorExit_fixed (s : State) {t : State}
    (h : execThermalFloorExit s = .next t) : t.fixed = s.fixed := by
  unfold execThermalFloorExit at h; obtain rfl := Host.Outcome.next.inj h; clear h
  simp

theorem execThermalTrip_fixed (bay : Nat) (temp : Int) (s : State) {t : State}
    (h : execThermalTrip bay temp s = .next t) : t.fixed = s.fixed := by
  unfold execThermalTrip at h; obtain rfl := Host.Outcome.next.inj h; clear h
  simp

theorem execBayReoffer_fixed (bay : Nat) (temp : Int) (selfTest : Bool) (s : State) {t : State}
    (h : execBayReoffer bay temp selfTest s = .next t) : t.fixed = s.fixed := by
  unfold execBayReoffer at h; obtain rfl := Host.Outcome.next.inj h; clear h
  (repeat' split) <;> simp

/-! ### Queues -/

theorem execNop_fixed (h : CmdHdr) (s : State) {t : State}
    (h0 : execNop h s = .next t) : t.fixed = s.fixed := by
  unfold execNop at h0; obtain rfl := Host.Outcome.next.inj h0; clear h0
  refine State.command_fixed _ _ _ _ _ _ (fun t b => ?_)
  (repeat' split) <;> simp

theorem execQueueCreate_fixed (h : CmdHdr) (qid kind pair depth : Nat) (s : State) {t : State}
    (h0 : execQueueCreate h qid kind pair depth s = .next t) : t.fixed = s.fixed := by
  unfold execQueueCreate at h0; obtain rfl := Host.Outcome.next.inj h0; clear h0
  refine State.managed_fixed _ _ _ _ _ _ (fun t b => ?_)
  (repeat' split) <;> simp

theorem execQueueDelete_fixed (h : CmdHdr) (qid : Nat) (s : State) {t : State}
    (h0 : execQueueDelete h qid s = .next t) : t.fixed = s.fixed := by
  unfold execQueueDelete at h0; obtain rfl := Host.Outcome.next.inj h0; clear h0
  refine State.managed_fixed _ _ _ _ _ _ (fun t b => ?_)
  (repeat' split) <;> simp

/-! ### Slices -/

theorem execSliceResetDrained_fixed (slice : Nat) (s : State) {t : State}
    (h : execSliceResetDrained slice s = .next t) : t.fixed = s.fixed := by
  unfold execSliceResetDrained at h; obtain rfl := Host.Outcome.next.inj h; clear h
  (repeat' split) <;> simp

theorem execQueueReset_fixed (h : CmdHdr) (qid : Nat) (s : State) {t : State}
    (h0 : execQueueReset h qid s = .next t) : t.fixed = s.fixed := by
  unfold execQueueReset at h0; obtain rfl := Host.Outcome.next.inj h0; clear h0
  refine State.managed_fixed _ _ _ _ _ _ (fun t b => ?_)
  (repeat' split) <;> simp

theorem execSliceCreate_fixed (h : CmdHdr) (slice levels : Nat) (s : State) {t : State}
    (h0 : execSliceCreate h slice levels s = .next t) : t.fixed = s.fixed := by
  unfold execSliceCreate at h0; obtain rfl := Host.Outcome.next.inj h0; clear h0
  refine State.managed_fixed _ _ _ _ _ _ (fun t b => ?_)
  (repeat' split) <;> simp

theorem execSliceReset_fixed (h : CmdHdr) (slice : Nat) (s : State) {t : State}
    (h0 : execSliceReset h slice s = .next t) : t.fixed = s.fixed := by
  unfold execSliceReset at h0; obtain rfl := Host.Outcome.next.inj h0; clear h0
  refine State.managed_fixed _ _ _ _ _ _ (fun t b => ?_)
  (repeat' split) <;> simp

theorem execSliceRemove_fixed (h : CmdHdr) (slice : Nat) (s : State) {t : State}
    (h0 : execSliceRemove h slice s = .next t) : t.fixed = s.fixed := by
  unfold execSliceRemove at h0; obtain rfl := Host.Outcome.next.inj h0; clear h0
  refine State.managed_fixed _ _ _ _ _ _ (fun t b => ?_)
  (repeat' split) <;> simp

theorem execSliceBind_fixed (h : CmdHdr) (pid slice role : Nat) (s : State) {t : State}
    (h0 : execSliceBind h pid slice role s = .next t) : t.fixed = s.fixed := by
  unfold execSliceBind at h0; obtain rfl := Host.Outcome.next.inj h0; clear h0
  refine State.managed_fixed _ _ _ _ _ _ (fun t b => ?_)
  (repeat' split) <;> simp

theorem execSliceUnbind_fixed (h : CmdHdr) (pid : Nat) (s : State) {t : State}
    (h0 : execSliceUnbind h pid s = .next t) : t.fixed = s.fixed := by
  unfold execSliceUnbind at h0; obtain rfl := Host.Outcome.next.inj h0; clear h0
  refine State.managed_fixed _ _ _ _ _ _ (fun t b => ?_)
  (repeat' split) <;> simp

theorem execStateClear_fixed (h : CmdHdr) (space : Nat) (s : State) {t : State}
    (h0 : execStateClear h space s = .next t) : t.fixed = s.fixed := by
  unfold execStateClear at h0; obtain rfl := Host.Outcome.next.inj h0; clear h0
  refine State.managed_fixed _ _ _ _ _ _ (fun t b => ?_)
  (repeat' split) <;> simp

/-! ### Trust -/

theorem execIdentityCertIssue_fixed (s : State) {t : State}
    (h : execIdentityCertIssue s = .next t) : t.fixed = s.fixed := by
  unfold execIdentityCertIssue at h; obtain rfl := Host.Outcome.next.inj h; clear h
  simp

theorem execAttest_fixed (h : CmdHdr) (nonce : List Byte) (s : State) {t : State}
    (h0 : execAttest h nonce s = .next t) : t.fixed = s.fixed := by
  unfold execAttest at h0; obtain rfl := Host.Outcome.next.inj h0; clear h0
  refine State.managed_fixed _ _ _ _ _ _ (fun t b => ?_)
  (repeat' split) <;> simp

theorem execAttestTokenGain_fixed (s : State) {t : State}
    (h : execAttestTokenGain s = .next t) : t.fixed = s.fixed := by
  unfold execAttestTokenGain at h; obtain rfl := Host.Outcome.next.inj h; clear h
  simp

theorem execHssTreeGenerate_fixed (s : State) {t : State}
    (h : execHssTreeGenerate s = .next t) : t.fixed = s.fixed := by
  unfold execHssTreeGenerate at h; obtain rfl := Host.Outcome.next.inj h; clear h
  simp

theorem execFwStage_fixed (h : CmdHdr) (offset : Nat) (final : Bool) (data : List Byte) (s : State) {t : State}
    (e : execFwStage h offset final data s = .next t) : t.fixed = s.fixed := by
  unfold execFwStage at e
  obtain rfl := Host.Outcome.next.inj e; clear e
  refine State.managed_fixed _ _ _ _ _ _ (fun t b => ?_)
  rw [State.fail_fixed]
  obtain ⟨x, y, z⟩ := stage_fixed t.trust 1 offset final data
  show (_, _, _, _) = _
  rw [x, y, z]; rfl

theorem execFwActivate_fixed (h : CmdHdr) (s : State) {t : State}
    (h0 : execFwActivate h s = .next t) : t.fixed = s.fixed := by
  unfold execFwActivate at h0; obtain rfl := Host.Outcome.next.inj h0; clear h0
  refine State.managed_fixed _ _ _ _ _ _ (fun t b => ?_)
  (repeat' split) <;> simp

theorem execFwStateCopyDone_fixed (s : State) {t : State}
    (h : execFwStateCopyDone s = .next t) : t.fixed = s.fixed := by
  unfold execFwStateCopyDone at h; obtain rfl := Host.Outcome.next.inj h; clear h
  simp

theorem execFwTrialExpiry_fixed (s : State) {t : State}
    (h : execFwTrialExpiry s = .next t) : t.fixed = s.fixed := by
  unfold execFwTrialExpiry at h; obtain rfl := Host.Outcome.next.inj h; clear h
  simp

theorem execTrialPairFailure_fixed (s : State) {t : State}
    (h : execTrialPairFailure s = .next t) : t.fixed = s.fixed := by
  unfold execTrialPairFailure at h; obtain rfl := Host.Outcome.next.inj h; clear h
  simp

theorem execDebugScrubDone_fixed (s : State) {t : State}
    (h : execDebugScrubDone s = .next t) : t.fixed = s.fixed := by
  unfold execDebugScrubDone at h; obtain rfl := Host.Outcome.next.inj h; clear h
  simp

/-! ### Time -/

theorem execRefclkLost_fixed (s : State) {t : State}
    (h : execRefclkLost s = .next t) : t.fixed = s.fixed := by
  unfold execRefclkLost at h; obtain rfl := Host.Outcome.next.inj h; clear h
  simp

theorem execRefclkRestored_fixed (s : State) {t : State}
    (h : execRefclkRestored s = .next t) : t.fixed = s.fixed := by
  unfold execRefclkRestored at h; obtain rfl := Host.Outcome.next.inj h; clear h
  simp

theorem execPpsInEdge_fixed (s : State) {t : State}
    (h : execPpsInEdge s = .next t) : t.fixed = s.fixed := by
  unfold execPpsInEdge at h; obtain rfl := Host.Outcome.next.inj h; clear h
  simp

theorem execPpsEdgeMissed_fixed (s : State) {t : State}
    (h : execPpsEdgeMissed s = .next t) : t.fixed = s.fixed := by
  unfold execPpsEdgeMissed at h; obtain rfl := Host.Outcome.next.inj h; clear h
  simp

theorem execTimeMarkWrite_fixed (s : State) {t : State}
    (h : execTimeMarkWrite s = .next t) : t.fixed = s.fixed := by
  unfold execTimeMarkWrite at h; obtain rfl := Host.Outcome.next.inj h; clear h
  simp

/-! ### Link -/

theorem execFlitSend_fixed (port : Nat) (s : State) {t : State}
    (h : execFlitSend port s = .next t) : t.fixed = s.fixed := by
  unfold execFlitSend at h; obtain rfl := Host.Outcome.next.inj h; clear h
  simp

theorem execIdleKeepaliveSend_fixed (port : Nat) (s : State) {t : State}
    (h : execIdleKeepaliveSend port s = .next t) : t.fixed = s.fixed := by
  unfold execIdleKeepaliveSend at h; obtain rfl := Host.Outcome.next.inj h; clear h
  simp

theorem execLaneFault_fixed (port lane : Nat) (s : State) {t : State}
    (h : execLaneFault port lane s = .next t) : t.fixed = s.fixed := by
  unfold execLaneFault at h; obtain rfl := Host.Outcome.next.inj h; clear h
  simp

theorem execKeepaliveMiss_fixed (port : Nat) (s : State) {t : State}
    (h : execKeepaliveMiss port s = .next t) : t.fixed = s.fixed := by
  unfold execKeepaliveMiss at h; obtain rfl := Host.Outcome.next.inj h; clear h
  simp

theorem execRetryReqResend_fixed (port : Nat) (s : State) {t : State}
    (h : execRetryReqResend port s = .next t) : t.fixed = s.fixed := by
  unfold execRetryReqResend at h; obtain rfl := Host.Outcome.next.inj h; clear h
  simp

/-! ### Group -/

theorem execSignalDetect_fixed (port : Nat) (s : State) {t : State}
    (h : execSignalDetect port s = .next t) : t.fixed = s.fixed := by
  unfold execSignalDetect at h; obtain rfl := Host.Outcome.next.inj h; clear h
  simp

theorem execPortTrainingRetry_fixed (port : Nat) (s : State) {t : State}
    (h : execPortTrainingRetry port s = .next t) : t.fixed = s.fixed := by
  unfold execPortTrainingRetry at h; obtain rfl := Host.Outcome.next.inj h; clear h
  simp

theorem execPortTrained_fixed (port : Nat) (s : State) {t : State}
    (h : execPortTrained port s = .next t) : t.fixed = s.fixed := by
  unfold execPortTrained at h; obtain rfl := Host.Outcome.next.inj h; clear h
  simp

theorem execPortStateTimeout_fixed (port : Nat) (s : State) {t : State}
    (h : execPortStateTimeout port s = .next t) : t.fixed = s.fixed := by
  unfold execPortStateTimeout at h; obtain rfl := Host.Outcome.next.inj h; clear h
  simp

theorem execMemberLossReport_fixed (node : Nat) (s : State) {t : State}
    (h : execMemberLossReport node s = .next t) : t.fixed = s.fixed := by
  unfold execMemberLossReport at h; obtain rfl := Host.Outcome.next.inj h; clear h
  simp

theorem execProbeTimeout_fixed (node : Nat) (s : State) {t : State}
    (h : execProbeTimeout node s = .next t) : t.fixed = s.fixed := by
  unfold execProbeTimeout at h; obtain rfl := Host.Outcome.next.inj h; clear h
  simp

theorem execFlitReceivePayload_fixed (port : Nat) (flit : List Byte) (s : State) {t : State}
    (h : execFlitReceivePayload port flit s = .next t) : t.fixed = s.fixed := by
  unfold execFlitReceivePayload at h; obtain rfl := Host.Outcome.next.inj h; clear h
  simp

theorem execIdleFlitReceive_fixed (port : Nat) (flit : List Byte) (s : State) {t : State}
    (h : execIdleFlitReceive port flit s = .next t) : t.fixed = s.fixed := by
  unfold execIdleFlitReceive at h; obtain rfl := Host.Outcome.next.inj h; clear h
  (repeat' split) <;> simp

theorem execRetryReqReceive_fixed (port : Nat) (flit : List Byte) (s : State) {t : State}
    (h : execRetryReqReceive port flit s = .next t) : t.fixed = s.fixed := by
  unfold execRetryReqReceive at h; obtain rfl := Host.Outcome.next.inj h; clear h
  (repeat' split) <;> simp

theorem execInitReceive_fixed (port : Nat) (flit : List Byte) (s : State) {t : State}
    (h : execInitReceive port flit s = .next t) : t.fixed = s.fixed := by
  unfold execInitReceive at h; obtain rfl := Host.Outcome.next.inj h; clear h
  (repeat' split) <;> simp

theorem execHello_fixed (port : Nat) (msg : List Byte) (s : State) {t : State}
    (h : execHello port msg s = .next t) : t.fixed = s.fixed := by
  unfold execHello at h; obtain rfl := Host.Outcome.next.inj h; clear h
  simp

theorem execAttestReportReceive_fixed (port : Nat) (report : List Byte) (s : State) {t : State}
    (h : execAttestReportReceive port report s = .next t) : t.fixed = s.fixed := by
  unfold execAttestReportReceive at h; obtain rfl := Host.Outcome.next.inj h; clear h
  simp

theorem execSyncReqSend_fixed (port frac : Nat) (s : State) {t : State}
    (h : execSyncReqSend port frac s = .next t) : t.fixed = s.fixed := by
  unfold execSyncReqSend at h; obtain rfl := Host.Outcome.next.inj h; clear h
  simp

theorem execSyncReqReceive_fixed (port frac : Nat) (msg : List Byte) (s : State) {t : State}
    (h : execSyncReqReceive port frac msg s = .next t) : t.fixed = s.fixed := by
  unfold execSyncReqReceive at h; obtain rfl := Host.Outcome.next.inj h; clear h
  simp

theorem execSyncRespReceive_fixed (port frac : Nat) (msg : List Byte) (s : State) {t : State}
    (h : execSyncRespReceive port frac msg s = .next t) : t.fixed = s.fixed := by
  unfold execSyncRespReceive at h; obtain rfl := Host.Outcome.next.inj h; clear h
  (try dsimp only); (repeat' split) <;> first | rfl | (simp; done) | (simp_all; done)

theorem execRouteEpochUpdate_fixed (epoch : Nat) (routes : List (Nat × Nat)) (s : State) {t : State}
    (h : execRouteEpochUpdate epoch routes s = .next t) : t.fixed = s.fixed := by
  unfold execRouteEpochUpdate at h; obtain rfl := Host.Outcome.next.inj h; clear h
  simp

theorem execMinorityDetected_fixed (s : State) {t : State}
    (h : execMinorityDetected s = .next t) : t.fixed = s.fixed := by
  unfold execMinorityDetected at h; obtain rfl := Host.Outcome.next.inj h; clear h
  simp

theorem execMemberJoin_fixed (node : Nat) (serial : List Byte) (count : Nat) (s : State) {t : State}
    (h : execMemberJoin node serial count s = .next t) : t.fixed = s.fixed := by
  unfold execMemberJoin at h; obtain rfl := Host.Outcome.next.inj h; clear h
  simp

theorem execLeaveDrainComplete_fixed (node : Nat) (s : State) {t : State}
    (h : execLeaveDrainComplete node s = .next t) : t.fixed = s.fixed := by
  unfold execLeaveDrainComplete at h; obtain rfl := Host.Outcome.next.inj h; clear h
  simp

/-! ### Objects -/

theorem execObjRead_fixed (h : CmdHdr) (a : ObjAddr) (s : State) {t : State}
    (h0 : execObjRead h a s = .next t) : t.fixed = s.fixed := by
  unfold execObjRead at h0; obtain rfl := Host.Outcome.next.inj h0; clear h0
  simp

theorem execObjWrite_kept (h0 : CmdHdr) (a : ObjAddr) (value : List Byte) (s : State) {t : State} (h : execObjWrite h0 a value s = .next t) : s.Kept t := by
  unfold execObjWrite at h
  obtain rfl := Host.Outcome.next.inj h; clear h
  (repeat' split) <;> first | exact State.writeFrom_kept .. | exact State.bandWrite_kept .. | exact .refl _

theorem execPinRequest_kept (src : ObjSrc) (table pin : Nat) (s : State) {t : State} (h : execPinRequest src table pin s = .next t) : s.Kept t := by
  unfold execPinRequest at h
  obtain rfl := Host.Outcome.next.inj h; clear h
  (repeat' split) <;> first | exact State.writeFrom_kept .. | exact State.bandWrite_kept .. | exact .refl _

theorem execMemberLeave_kept (src : ObjSrc) (node : Nat) (s : State) {t : State} (h : execMemberLeave src node s = .next t) : s.Kept t := by
  unfold execMemberLeave at h
  obtain rfl := Host.Outcome.next.inj h; clear h
  (repeat' split) <;> first | exact State.writeFrom_kept .. | exact State.bandWrite_kept .. | exact .refl _

theorem execFwStageData_kept (src : ObjSrc) (value : List Byte) (s : State) {t : State} (h : execFwStageData src value s = .next t) : s.Kept t := by
  unfold execFwStageData at h
  obtain rfl := Host.Outcome.next.inj h; clear h
  (repeat' split) <;> first | exact State.writeFrom_kept .. | exact State.bandWrite_kept .. | exact .refl _

theorem execSvnCommit_kept (src : ObjSrc) (svn : Nat) (s : State) {t : State} (h : execSvnCommit src svn s = .next t) : s.Kept t := by
  unfold execSvnCommit at h
  obtain rfl := Host.Outcome.next.inj h; clear h
  (repeat' split) <;> first | exact State.writeFrom_kept .. | exact State.bandWrite_kept .. | exact .refl _

theorem execVendorKeyRevoke_kept (src : ObjSrc) (value : Nat) (s : State) {t : State} (h : execVendorKeyRevoke src value s = .next t) : s.Kept t := by
  unfold execVendorKeyRevoke at h
  obtain rfl := Host.Outcome.next.inj h; clear h
  (repeat' split) <;> first | exact State.writeFrom_kept .. | exact State.bandWrite_kept .. | exact .refl _

theorem execSliceKek_kept (src : ObjSrc) (slice : Nat) (delivery : List Byte) (s : State) {t : State} (h : execSliceKek src slice delivery s = .next t) : s.Kept t := by
  unfold execSliceKek at h
  obtain rfl := Host.Outcome.next.inj h; clear h
  (repeat' split) <;> first | exact State.writeFrom_kept .. | exact State.bandWrite_kept .. | exact .refl _

theorem execCanfdKeyOperator_kept (src : ObjSrc) (delivery : List Byte) (s : State) {t : State} (h : execCanfdKeyOperator src delivery s = .next t) : s.Kept t := by
  unfold execCanfdKeyOperator at h
  obtain rfl := Host.Outcome.next.inj h; clear h
  (repeat' split) <;> first | exact State.writeFrom_kept .. | exact State.bandWrite_kept .. | exact .refl _

theorem execCanfdKeyCustodian_kept (src : ObjSrc) (delivery : List Byte) (s : State) {t : State} (h : execCanfdKeyCustodian src delivery s = .next t) : s.Kept t := by
  unfold execCanfdKeyCustodian at h
  obtain rfl := Host.Outcome.next.inj h; clear h
  (repeat' split) <;> first | exact State.writeFrom_kept .. | exact State.bandWrite_kept .. | exact .refl _

theorem execCustodianBind_kept (src : ObjSrc) (value : Nat) (s : State) {t : State} (h : execCustodianBind src value s = .next t) : s.Kept t := by
  unfold execCustodianBind at h
  obtain rfl := Host.Outcome.next.inj h; clear h
  (repeat' split) <;> first | exact State.writeFrom_kept .. | exact State.bandWrite_kept .. | exact .refl _

theorem execDebugUnlock_kept (src : ObjSrc) (token : List Byte) (s : State) {t : State} (h : execDebugUnlock src token s = .next t) : s.Kept t := by
  unfold execDebugUnlock at h
  obtain rfl := Host.Outcome.next.inj h; clear h
  (repeat' split) <;> first | exact State.writeFrom_kept .. | exact State.bandWrite_kept .. | exact .refl _

theorem execEpochSecond_kept (src : ObjSrc) (value : Nat) (s : State) {t : State} (h : execEpochSecond src value s = .next t) : s.Kept t := by
  unfold execEpochSecond at h
  obtain rfl := Host.Outcome.next.inj h; clear h
  (repeat' split) <;> first | exact State.writeFrom_kept .. | exact State.bandWrite_kept .. | exact .refl _

theorem execAllotmentWrite_kept (src : ObjSrc) (slice sub value : Nat) (s : State) {t : State} (h : execAllotmentWrite src slice sub value s = .next t) : s.Kept t := by
  unfold execAllotmentWrite at h
  obtain rfl := Host.Outcome.next.inj h; clear h
  (repeat' split) <;> first | exact State.writeFrom_kept .. | exact State.bandWrite_kept .. | exact .refl _

theorem execOverflowClear_kept (src : ObjSrc) (slice ctx : Nat) (s : State) {t : State} (h : execOverflowClear src slice ctx s = .next t) : s.Kept t := by
  unfold execOverflowClear at h
  obtain rfl := Host.Outcome.next.inj h; clear h
  (repeat' split) <;> first | exact State.writeFrom_kept .. | exact State.bandWrite_kept .. | exact .refl _

theorem execStore_kept (src : ObjSrc) (value : Nat) (s : State) {t : State} (h : execStore src value s = .next t) : s.Kept t := by
  unfold execStore at h
  obtain rfl := Host.Outcome.next.inj h; clear h
  (repeat' split) <;> first | exact State.writeFrom_kept .. | exact State.bandWrite_kept .. | exact .refl _

theorem execStoreMramDone_fixed (ok : Bool) (s : State) {t : State}
    (h : execStoreMramDone ok s = .next t) : t.fixed = s.fixed := by
  unfold execStoreMramDone at h; obtain rfl := Host.Outcome.next.inj h; clear h
  (repeat' split) <;> simp

theorem execRestore_kept (src : ObjSrc) (value : Nat) (s : State) {t : State} (h : execRestore src value s = .next t) : s.Kept t := by
  unfold execRestore at h
  obtain rfl := Host.Outcome.next.inj h; clear h
  (repeat' split) <;> first | exact State.writeFrom_kept .. | exact State.bandWrite_kept .. | exact .refl _

theorem execRingAck_kept (src : ObjSrc) (a : ObjAddr) (n : Nat) (s : State) {t : State} (h : execRingAck src a n s = .next t) : s.Kept t := by
  unfold execRingAck at h
  obtain rfl := Host.Outcome.next.inj h; clear h
  (repeat' split) <;> first | exact State.writeFrom_kept .. | exact State.bandWrite_kept .. | exact .refl _

theorem execRingOverflowClear_kept (src : ObjSrc) (a : ObjAddr) (v : Nat) (s : State) {t : State} (h : execRingOverflowClear src a v s = .next t) : s.Kept t := by
  unfold execRingOverflowClear at h
  obtain rfl := Host.Outcome.next.inj h; clear h
  (repeat' split) <;> first | exact State.writeFrom_kept .. | exact State.bandWrite_kept .. | exact .refl _

theorem execFirstClear_kept (src : ObjSrc) (a : ObjAddr) (v : Nat) (s : State) {t : State} (h : execFirstClear src a v s = .next t) : s.Kept t := by
  unfold execFirstClear at h
  obtain rfl := Host.Outcome.next.inj h; clear h
  (repeat' split) <;> first | exact State.writeFrom_kept .. | exact State.bandWrite_kept .. | exact .refl _

theorem execCoalesceEntryClose_fixed (ring : Nat) (s : State) {t : State}
    (h : execCoalesceEntryClose ring s = .next t) : t.fixed = s.fixed := by
  unfold execCoalesceEntryClose at h; obtain rfl := Host.Outcome.next.inj h; clear h
  simp

/-! ### CanFd -/

theorem execRead_fixed (frame : List Byte) (s : State) {t : State} (h : execRead frame s = .next t) : t.fixed = s.fixed := by
  unfold execRead at h
  refine State.serveObj_fixed (fun a x => ?_) h
  split
  · simp
  · rename_i e; have w := canRead_fixed e; split <;> simp_all

theorem execWrite_kept (frame : List Byte) (s : State) {t : State} (h : execWrite frame s = .next t) : s.Kept t := by
  unfold execWrite at h
  refine State.serveObj_kept (fun a x => ?_) h
  dsimp only
  (repeat' split) <;> first | exact State.canWrite_kept .. | exact kept_of_fixed (by simp)

theorem execSegRead_fixed (frame : List Byte) (s : State) {t : State} (h : execSegRead frame s = .next t) : t.fixed = s.fixed := by
  unfold execSegRead at h
  refine State.serveObj_fixed (fun a x => ?_) h
  split
  · simp
  · rename_i e; have w := canRead_fixed e; split <;> simp_all

theorem execSegWrite_kept (frame : List Byte) (s : State) {t : State} (h : execSegWrite frame s = .next t) : s.Kept t := by
  unfold execSegWrite at h
  refine State.serveObj_kept (fun a x => ?_) h
  dsimp only
  (repeat' split) <;> first | exact fixed_congr_kept (by simp) (State.segApply_kept ..) | exact kept_of_fixed (by simp)

theorem execSegData_kept (frame : List Byte) (s : State) {t : State} (h : execSegData frame s = .next t) : s.Kept t := by
  unfold execSegData at h
  split at h
  · split at h
    · exact State.serve_kept (fun x => .refl _) h
    · split at h
      · rw [← Host.Outcome.next.inj h]; exact kept_of_fixed (by simp)
      · split at h
        · rw [← Host.Outcome.next.inj h]; exact .refl _
        · dsimp only at h
          split at h
          · rw [← Host.Outcome.next.inj h]; exact kept_of_fixed (by simp)
          · rw [← Host.Outcome.next.inj h]
            refine fixed_congr_kept ?_ (State.segApply_kept ..)
            split <;> simp
  · exact State.serve_kept (fun x => .refl _) h

theorem execSegAck_fixed (frame : List Byte) (s : State) {t : State} (h : execSegAck frame s = .next t) : t.fixed = s.fixed := by
  unfold execSegAck at h
  split at h
  · split at h
    · exact State.serve_fixed (fun x => rfl) h
    · split at h
      · rw [← Host.Outcome.next.inj h]
      · split at h <;> rw [← Host.Outcome.next.inj h] <;> simp
  · exact State.serve_fixed (fun x => rfl) h

theorem execAbort_fixed (frame : List Byte) (s : State) {t : State}
    (h : execAbort frame s = .next t) : t.fixed = s.fixed := by
  unfold execAbort at h; obtain rfl := Host.Outcome.next.inj h; clear h
  simp

theorem execSegmentTimeout_fixed (s : State) {t : State}
    (h : execSegmentTimeout s = .next t) : t.fixed = s.fixed := by
  unfold execSegmentTimeout at h; obtain rfl := Host.Outcome.next.inj h; clear h
  (repeat' split) <;> simp

theorem execPath_fixed (frame : List Byte) (s : State) {t : State} (h : execPath frame s = .next t) : t.fixed = s.fixed := by
  unfold execPath at h
  refine State.serve_fixed (fun x => ?_) h
  (try dsimp only)
  (repeat' split) <;> first | rfl | (simp; done)

theorem execSessionOpen_fixed (frame : List Byte) (s : State) {t : State} (h : execSessionOpen frame s = .next t) : t.fixed = s.fixed := by
  unfold execSessionOpen at h
  refine State.serve_fixed (fun x => ?_) h
  (try dsimp only)
  (repeat' split) <;> first | rfl | (simp; done)

theorem execSessionProve_fixed (frame : List Byte) (s : State) {t : State} (h : execSessionProve frame s = .next t) : t.fixed = s.fixed := by
  unfold execSessionProve at h
  refine State.serve_fixed (fun x => ?_) h
  (try dsimp only)
  (repeat' split) <;> first | rfl | (simp; done)

theorem execSessionClose_fixed (frame : List Byte) (s : State) {t : State} (h : execSessionClose frame s = .next t) : t.fixed = s.fixed := by
  unfold execSessionClose at h
  refine State.serve_fixed (fun x => ?_) h
  (try dsimp only)
  (repeat' split) <;> first | rfl | (simp; done)

theorem execSessionProofTimeout_fixed (s : State) {t : State}
    (h : execSessionProofTimeout s = .next t) : t.fixed = s.fixed := by
  unfold execSessionProofTimeout at h; obtain rfl := Host.Outcome.next.inj h; clear h
  simp

theorem execSessionIdleTimeout_fixed (s : State) {t : State}
    (h : execSessionIdleTimeout s = .next t) : t.fixed = s.fixed := by
  unfold execSessionIdleTimeout at h; obtain rfl := Host.Outcome.next.inj h; clear h
  simp

theorem execSessionLockoutEnd_fixed (s : State) {t : State}
    (h : execSessionLockoutEnd s = .next t) : t.fixed = s.fixed := by
  unfold execSessionLockoutEnd at h; obtain rfl := Host.Outcome.next.inj h; clear h
  simp

theorem execHeartbeat_fixed (s : State) {t : State}
    (h : execHeartbeat s = .next t) : t.fixed = s.fixed := by
  unfold execHeartbeat at h; obtain rfl := Host.Outcome.next.inj h; clear h
  simp

theorem execCanfdBusError_fixed (transmit : Bool) (weight : Nat) (s : State) {t : State}
    (h : execCanfdBusError transmit weight s = .next t) : t.fixed = s.fixed := by
  unfold execCanfdBusError at h; obtain rfl := Host.Outcome.next.inj h; clear h
  simp

theorem execCanfdBusOffRecovery_fixed (s : State) {t : State}
    (h : execCanfdBusOffRecovery s = .next t) : t.fixed = s.fixed := by
  unfold execCanfdBusOffRecovery at h; obtain rfl := Host.Outcome.next.inj h; clear h
  simp

/-! ### Power -/

theorem execBayIdleTimeout_fixed (bay : Nat) (s : State) {t : State}
    (h : execBayIdleTimeout bay s = .next t) : t.fixed = s.fixed := by
  unfold execBayIdleTimeout at h; obtain rfl := Host.Outcome.next.inj h; clear h
  simp

theorem execBayWakeRequest_fixed (bay : Nat) (s : State) {t : State}
    (h : execBayWakeRequest bay s = .next t) : t.fixed = s.fixed := by
  unfold execBayWakeRequest at h; obtain rfl := Host.Outcome.next.inj h; clear h
  simp

theorem execBayWakeDone_fixed (bay : Nat) (s : State) {t : State}
    (h : execBayWakeDone bay s = .next t) : t.fixed = s.fixed := by
  unfold execBayWakeDone at h; obtain rfl := Host.Outcome.next.inj h; clear h
  simp

theorem execHubIdleTimeout_fixed (s : State) {t : State}
    (h : execHubIdleTimeout s = .next t) : t.fixed = s.fixed := by
  unfold execHubIdleTimeout at h; obtain rfl := Host.Outcome.next.inj h; clear h
  simp

theorem execHubWake_fixed (s : State) {t : State}
    (h : execHubWake s = .next t) : t.fixed = s.fixed := by
  unfold execHubWake at h; obtain rfl := Host.Outcome.next.inj h; clear h
  simp

theorem execHbmSelfRefreshEntry_fixed (dram : Bool) (s : State) {t : State}
    (h : execHbmSelfRefreshEntry dram s = .next t) : t.fixed = s.fixed := by
  unfold execHbmSelfRefreshEntry at h; obtain rfl := Host.Outcome.next.inj h; clear h
  simp

theorem execHbmSelfRefreshExit_fixed (dram : Bool) (s : State) {t : State}
    (h : execHbmSelfRefreshExit dram s = .next t) : t.fixed = s.fixed := by
  unfold execHbmSelfRefreshExit at h; obtain rfl := Host.Outcome.next.inj h; clear h
  simp

theorem execVholdMeasure_fixed (mv : Nat) (s : State) {t : State}
    (h : execVholdMeasure mv s = .next t) : t.fixed = s.fixed := by
  unfold execVholdMeasure at h; obtain rfl := Host.Outcome.next.inj h; clear h
  simp

theorem execSagDetect_fixed (cause : SagCause) (s : State) {t : State}
    (h : execSagDetect cause s = .next t) : t.fixed = s.fixed := by
  unfold execSagDetect at h; obtain rfl := Host.Outcome.next.inj h; clear h
  simp

theorem execSaveSetWritten_fixed (s : State) {t : State}
    (h : execSaveSetWritten s = .next t) : t.fixed = s.fixed := by
  unfold execSaveSetWritten at h; obtain rfl := Host.Outcome.next.inj h; clear h
  (repeat' split) <;> simp

theorem execHeldTickWrite_fixed (s : State) {t : State}
    (h : execHeldTickWrite s = .next t) : t.fixed = s.fixed := by
  unfold execHeldTickWrite at h; obtain rfl := Host.Outcome.next.inj h; clear h
  simp

theorem execVholdExhausted_fixed (s : State) {t : State}
    (h : execVholdExhausted s = .next t) : t.fixed = s.fixed := by
  unfold execVholdExhausted at h; obtain rfl := Host.Outcome.next.inj h; clear h
  simp

theorem execSupplyReturnInHold_fixed (s : State) {t : State}
    (h : execSupplyReturnInHold s = .next t) : t.fixed = s.fixed := by
  unfold execSupplyReturnInHold at h; obtain rfl := Host.Outcome.next.inj h; clear h
  simp

theorem execVauxValid_fixed (canNode medium : Nat) (testEn : Bool) (s : State) {t : State}
    (h : execVauxValid canNode medium testEn s = .next t) : t.fixed = s.fixed := by
  unfold execVauxValid at h; obtain rfl := Host.Outcome.next.inj h; clear h
  simp

theorem execPgoodRise_fixed (k : Nat) (s : State) {t : State}
    (h : execPgoodRise k s = .next t) : t.fixed = s.fixed := by
  unfold execPgoodRise at h; obtain rfl := Host.Outcome.next.inj h; clear h
  simp

theorem execPgoodTimeout_fixed (k : Nat) (s : State) {t : State}
    (h : execPgoodTimeout k s = .next t) : t.fixed = s.fixed := by
  unfold execPgoodTimeout at h; obtain rfl := Host.Outcome.next.inj h; clear h
  simp

theorem execRailSequenceRetry_fixed (s : State) {t : State}
    (h : execRailSequenceRetry s = .next t) : t.fixed = s.fixed := by
  unfold execRailSequenceRetry at h; obtain rfl := Host.Outcome.next.inj h; clear h
  (repeat' split) <;> simp

theorem execPgoodFall_fixed (k : Nat) (s : State) {t : State}
    (h : execPgoodFall k s = .next t) : t.fixed = s.fixed := by
  unfold execPgoodFall at h; obtain rfl := Host.Outcome.next.inj h; clear h
  simp

theorem execResetN_fixed (s : State) {t : State}
    (h : execResetN s = .next t) : t.fixed = s.fixed := by
  unfold execResetN at h; obtain rfl := Host.Outcome.next.inj h; clear h
  simp

theorem execPowerUpStepDone_kept (obs : StepObs) (s : State) {t : State} (h : execPowerUpStepDone obs s = .next t) : s.Kept t := by
  unfold execPowerUpStepDone at h
  obtain rfl := Host.Outcome.next.inj h; clear h
  split
  · exact .refl _
  · split
    · exact .refl _
    · rename_i e; exact (powerStep_kept e).after rfl

theorem execStandbyPairReady_fixed (s : State) {t : State}
    (h : execStandbyPairReady s = .next t) : t.fixed = s.fixed := by
  unfold execStandbyPairReady at h; obtain rfl := Host.Outcome.next.inj h; clear h
  simp

/-! ### Pause -/

/-- An outcome whose next state keeps what `s` has. -/
theorem nextOr_kept {o : Out} {s : State} (h : ∀ t, o = .next t → s.Kept t) : s.Kept (o.nextOr s) := by
  cases o with
  | next t => exact h t rfl
  | fault _ => exact .refl _
  | refused _ => exact .refl _

theorem State.runHeld_kept (s : State) (i : Instr) : s.Kept (s.runHeld i) := by
  cases i with
  | queueCreate => exact nextOr_kept fun _ k => kept_of_fixed (by apply execQueueCreate_fixed; exact k)
  | queueDelete => exact nextOr_kept fun _ k => kept_of_fixed (by apply execQueueDelete_fixed; exact k)
  | queueReset => exact nextOr_kept fun _ k => kept_of_fixed (by apply execQueueReset_fixed; exact k)
  | sliceCreate => exact nextOr_kept fun _ k => kept_of_fixed (by apply execSliceCreate_fixed; exact k)
  | sliceReset => exact nextOr_kept fun _ k => kept_of_fixed (by apply execSliceReset_fixed; exact k)
  | sliceRemove => exact nextOr_kept fun _ k => kept_of_fixed (by apply execSliceRemove_fixed; exact k)
  | sliceBind => exact nextOr_kept fun _ k => kept_of_fixed (by apply execSliceBind_fixed; exact k)
  | sliceUnbind => exact nextOr_kept fun _ k => kept_of_fixed (by apply execSliceUnbind_fixed; exact k)
  | stateClear => exact nextOr_kept fun _ k => kept_of_fixed (by apply execStateClear_fixed; exact k)
  | pipelineLoad => exact nextOr_kept fun _ k => kept_of_fixed (by apply execPipelineLoad_fixed; exact k)
  | pipelineUnload => exact nextOr_kept fun _ k => kept_of_fixed (by apply execPipelineUnload_fixed; exact k)
  | tableCreate => exact nextOr_kept fun _ k => kept_of_fixed (by apply execTableCreate_fixed; exact k)
  | tableDrop => exact nextOr_kept fun _ k => kept_of_fixed (by apply execTableDrop_fixed; exact k)
  | ksCreate => exact nextOr_kept fun _ k => kept_of_fixed (by apply execKsCreate_fixed; exact k)
  | ksDrop => exact nextOr_kept fun _ k => kept_of_fixed (by apply execKsDrop_fixed; exact k)
  | ksInsert => exact nextOr_kept fun _ k => kept_of_fixed (by apply execKsInsert_fixed; exact k)
  | ksDelete => exact nextOr_kept fun _ k => kept_of_fixed (by apply execKsDelete_fixed; exact k)
  | ksLoad => exact nextOr_kept fun _ k => kept_of_fixed (by apply execKsLoad_fixed; exact k)
  | dgKeyLoad => exact nextOr_kept fun _ k => kept_of_fixed (by apply execDgKeyLoad_fixed; exact k)
  | dgKeyClear => exact nextOr_kept fun _ k => kept_of_fixed (by apply execDgKeyClear_fixed; exact k)
  | ledgerProof => exact nextOr_kept fun _ k => kept_of_fixed (by apply execLedgerProof_fixed; exact k)
  | ledgerSealNow => exact nextOr_kept fun _ k => kept_of_fixed (by apply execLedgerSealNow_fixed; exact k)
  | ledgerRead => exact nextOr_kept fun _ k => kept_of_fixed (by apply execLedgerRead_fixed; exact k)
  | tsWrite => exact nextOr_kept fun _ k => kept_of_fixed (by apply execTsWrite_fixed; exact k)
  | tsRead => exact nextOr_kept fun _ k => kept_of_fixed (by apply execTsRead_fixed; exact k)
  | tsTrim => exact nextOr_kept fun _ k => kept_of_fixed (by apply execTsTrim_fixed; exact k)
  | storeStatus => exact nextOr_kept fun _ k => kept_of_fixed (by apply execStoreStatus_fixed; exact k)
  | sanitise => exact nextOr_kept fun _ k => kept_of_fixed (by apply execSanitise_fixed; exact k)
  | format => exact nextOr_kept fun _ k => kept_of_fixed (by apply execFormat_fixed; exact k)
  | attest => exact nextOr_kept fun _ k => kept_of_fixed (by apply execAttest_fixed; exact k)
  | fwStage => exact nextOr_kept fun _ k => kept_of_fixed (by apply execFwStage_fixed; exact k)
  | fwActivate => exact nextOr_kept fun _ k => kept_of_fixed (by apply execFwActivate_fixed; exact k)
  | objRead => exact nextOr_kept fun _ k => kept_of_fixed (by apply execObjRead_fixed; exact k)
  | objWrite => exact nextOr_kept fun _ k => by apply execObjWrite_kept; exact k
  | pinRequest => exact nextOr_kept fun _ k => by apply execPinRequest_kept; exact k
  | memberLeave => exact nextOr_kept fun _ k => by apply execMemberLeave_kept; exact k
  | fwStageData => exact nextOr_kept fun _ k => by apply execFwStageData_kept; exact k
  | svnCommit => exact nextOr_kept fun _ k => by apply execSvnCommit_kept; exact k
  | vendorKeyRevoke => exact nextOr_kept fun _ k => by apply execVendorKeyRevoke_kept; exact k
  | sliceKek => exact nextOr_kept fun _ k => by apply execSliceKek_kept; exact k
  | canfdKeyOperator => exact nextOr_kept fun _ k => by apply execCanfdKeyOperator_kept; exact k
  | canfdKeyCustodian => exact nextOr_kept fun _ k => by apply execCanfdKeyCustodian_kept; exact k
  | custodianBind => exact nextOr_kept fun _ k => by apply execCustodianBind_kept; exact k
  | debugUnlock => exact nextOr_kept fun _ k => by apply execDebugUnlock_kept; exact k
  | epochSecond => exact nextOr_kept fun _ k => by apply execEpochSecond_kept; exact k
  | allotmentWrite => exact nextOr_kept fun _ k => by apply execAllotmentWrite_kept; exact k
  | overflowClear => exact nextOr_kept fun _ k => by apply execOverflowClear_kept; exact k
  | store => exact nextOr_kept fun _ k => by apply execStore_kept; exact k
  | restore => exact nextOr_kept fun _ k => by apply execRestore_kept; exact k
  | ringAck => exact nextOr_kept fun _ k => by apply execRingAck_kept; exact k
  | ringOverflowClear => exact nextOr_kept fun _ k => by apply execRingOverflowClear_kept; exact k
  | firstClear => exact nextOr_kept fun _ k => by apply execFirstClear_kept; exact k
  | read => exact nextOr_kept fun _ k => kept_of_fixed (by apply execRead_fixed; exact k)
  | write => exact nextOr_kept fun _ k => by apply execWrite_kept; exact k
  | segRead => exact nextOr_kept fun _ k => kept_of_fixed (by apply execSegRead_fixed; exact k)
  | segWrite => exact nextOr_kept fun _ k => by apply execSegWrite_kept; exact k
  | segData => exact nextOr_kept fun _ k => by apply execSegData_kept; exact k
  | nop => exact nextOr_kept fun _ k => kept_of_fixed (by apply execNop_fixed; exact k)
  | contextRun => exact nextOr_kept fun _ k => kept_of_fixed (by apply execContextRun_fixed; exact k)
  | ksRead => exact nextOr_kept fun _ k => kept_of_fixed (by apply execKsRead_fixed; exact k)
  | itemSubmit => exact nextOr_kept fun _ k => kept_of_fixed (by apply execItemSubmit_fixed; exact k)
  | _ => exact .refl s

theorem foldl_kept {β : Type} (f : State → β → State) (hf : ∀ (s : State) x, s.Kept (f s x)) (l : List β) (s : State) :
    s.Kept (l.foldl f s) := by
  induction l generalizing s with
  | nil => exact .refl s
  | cons x t ih => exact (hf s x).trans (ih _)

theorem State.resumeRow_kept (s : State) (i : Instr) : s.Kept (s.resumeRow i) := by
  unfold State.resumeRow
  exact fixed_congr_kept rfl (State.runHeld_kept _ _)

theorem State.startWaiting_kept (s : State) : s.Kept s.startWaiting := by
  unfold State.startWaiting
  split
  · exact .refl s
  · refine foldl_kept _ (fun t i => ?_) _ _
    split
    · exact State.resumeRow_kept _ _
    · exact .refl t

theorem State.settlePause_kept (s : State) : s.Kept s.settlePause := by
  unfold State.settlePause
  split
  · exact .refl s
  · split
    · exact .refl s
    · exact fixed_congr_kept rfl (foldl_kept _ State.resumeRow_kept _ _)

theorem State.runRemote_kept (s : State) (e : Nat × Instr) : s.Kept (s.runRemote e) := by
  unfold State.runRemote
  split
  · exact .refl s
  · split
    · exact kept_of_fixed (by simp)
    · exact fixed_congr_kept rfl (State.runHeld_kept _ _)

theorem State.runOwnTurn_kept (s : State) (i : Instr) : s.Kept (s.runOwnTurn i) := by
  unfold State.runOwnTurn
  split
  · exact .refl s
  · exact fixed_congr_kept rfl (State.runHeld_kept _ _)

theorem State.turnFan_kept (s : State) (f : Fan) : s.Kept (s.turnFan f) := by
  unfold State.turnFan
  dsimp only
  (repeat' split) <;> first
    | exact fixed_congr_kept rfl (State.runOwnTurn_kept _ _)
    | exact kept_of_fixed (by simp)
    | exact .refl s

theorem State.serveMembers_kept (s : State) : s.Kept s.serveMembers := by
  unfold State.serveMembers
  split
  · exact .refl s
  · have k : s.Kept (s.group.inbox.foldl State.runRemote { s with group := { s.group with inbox := [] } }) :=
      fixed_congr_kept rfl (foldl_kept _ State.runRemote_kept _ _)
    exact (k.trans (foldl_kept _ State.turnFan_kept _ _)).after rfl

theorem execDeviceTimeTick_kept (badCopies : Nat) (s : State) {t : State}
    (h : execDeviceTimeTick badCopies s = .next t) : s.Kept t := by
  unfold execDeviceTimeTick at h; obtain rfl := Host.Outcome.next.inj h; clear h
  exact ((fixed_congr_kept (State.tick_fixed s badCopies) (State.settlePause_kept _)).trans (State.serveMembers_kept _)).trans
    (State.startWaiting_kept _)

end Sys2Proof.Machine
end

