-- ==== Sys2Proof/Laws/Issue.lean ====
section
/-! SUPPORT. What an instruction that issues comes to, once for each way its execution can end. -/

namespace Sys2Proof.Machine

/-! ### Association lists and cores -/

theorem tget_tset_self {α β : Type} [DecidableEq α] (k : α) (v : β) (l : List (α × β)) : tget k (tset k v l) = some v := by
  induction l with
  | nil => simp [tset, tget]
  | cons e t ih =>
    obtain ⟨a, b⟩ := e
    unfold tset
    split
    · simp [tget]
    · rename_i h; simp [tget, h, ih]

theorem tget_tset_ne {α β : Type} [DecidableEq α] {k j : α} (h : j ≠ k) (v : β) (l : List (α × β)) :
    tget j (tset k v l) = tget j l := by
  induction l with
  | nil => simp [tset, tget, Ne.symm h]
  | cons e t ih =>
    obtain ⟨a, b⟩ := e
    unfold tset
    split
    · rename_i hk; subst hk; simp [tget, Ne.symm h]
    · simp only [tget, ih]

theorem tgetD_tset_self {α β : Type} [DecidableEq α] (k : α) (d v : β) (l : List (α × β)) : tgetD k d (tset k v l) = v := by
  simp [tgetD, tget_tset_self]

theorem tgetD_tset_ne {α β : Type} [DecidableEq α] {k j : α} (h : j ≠ k) (d v : β) (l : List (α × β)) :
    tgetD j d (tset k v l) = tgetD j d l := by
  simp [tgetD, tget_tset_ne h]

@[simp] theorem State.coreOf_setCore_self (s : State) (u : CoreId) (c : Core) : (s.setCore u c).coreOf u = c :=
  tgetD_tset_self ..

theorem State.coreOf_setCore_ne {u v : CoreId} (h : v ≠ u) (s : State) (c : Core) : (s.setCore u c).coreOf v = s.coreOf v :=
  tgetD_tset_ne h ..

theorem OnlyCore.setCore (s : State) (u : CoreId) (c : Core) : OnlyCore s (s.setCore u c) u :=
  ⟨rfl, fun _ h => State.coreOf_setCore_ne h s c⟩

theorem OnlyCore.trans {s t r : State} {u : CoreId} (h : OnlyCore s t u) (k : OnlyCore t r u) : OnlyCore s r u :=
  ⟨by rw [k.1, h.1], fun v hv => (k.2 v hv).trans (h.2 v hv)⟩

/-! ### Retiring -/

/-- An ordinary instruction retires. -/
theorem retireCore_retires (s : State) (u : CoreId) (g : Fin 8) (i : Info) (k : Nat) (p : Bool) (hold gap : Nat) (tg : Option Nat)
    (ht : i.transfer = false) : Retires s (s.retireCore u g i k p hold gap tg false false) u (s.coreOf u) := by
  refine ⟨?_, ?_, ?_, ?_, ?_, ?_, OnlyCore.setCore ..⟩ <;> simp [State.retireCore, ht, Core.regs, Core.nextIndex]
  all_goals rfl

/-- A transfer outside a delay slot retires. -/
theorem retireCore_transfers (s : State) (u : CoreId) (g : Fin 8) (i : Info) (k : Nat) (p : Bool) (hold gap : Nat) (tg : Option Nat)
    (an kb : Bool) (ht : i.transfer = true) (hs : (s.coreOf u).slot = none) :
    Transfers s (s.retireCore u g i k p hold gap tg an kb) u (s.coreOf u) tg an := by
  refine ⟨?_, ?_, ?_, ?_, ?_, OnlyCore.setCore ..⟩ <;> simp [State.retireCore, ht, hs, Core.regs]

/-- The registers of the core alone were written before it retired. -/
theorem Retires.of_setCore {s t : State} {u : CoreId} {d : Core} (h : Retires (s.setCore u d) t u d)
    (hd : d.pc = (s.coreOf u).pc ∧ d.slot = (s.coreOf u).slot ∧ d.budget = (s.coreOf u).budget) : Retires s t u d := by
  obtain ⟨hp, hs, hb⟩ := hd
  obtain ⟨h1, h2, h3, h4, h5, h6, h7⟩ := h
  refine ⟨h1, ?_, h3, h4, h5, ?_, (OnlyCore.setCore s u d).trans h7⟩
  · rw [h2, State.coreOf_setCore_self]; simp only [Core.nextIndex, hp, hs]
  · rw [h6, State.coreOf_setCore_self, hb]

theorem Transfers.of_setCore {s t : State} {u : CoreId} {d : Core} {tg an} (h : Transfers (s.setCore u d) t u d tg an)
    (hd : d.pc = (s.coreOf u).pc ∧ d.budget = (s.coreOf u).budget) : Transfers s t u d tg an := by
  obtain ⟨hp, hb⟩ := hd
  obtain ⟨h1, h2, h3, h4, h5, h6⟩ := h
  refine ⟨h1, ?_, ?_, h4, ?_, (OnlyCore.setCore s u d).trans h6⟩
  · rw [h2, State.coreOf_setCore_self, hp]
  · rw [h3, State.coreOf_setCore_self, hp]
  · rw [h5, State.coreOf_setCore_self, hb]

/-! ### Issuing -/

variable {s s1 s2 : State} {u : CoreId} {g : Fin 8} {i : Info} {an kb : Bool} {body : State → Core → Nat → Res}

/-- An instruction that issues runs its body; what is left to say is how the body ends. -/
theorem issue_eq (h : Issues s u g i s1) : ∃ k p, s.gate u g i = .go s1 k p true ∧ s.issue u g i an kb body =
    match body s1 (s1.coreOf u) k with
    | .done t => .next (t.retireCore u g i k p 0 2 none (i.transfer && an && (s1.coreOf u).slot.isNone) kb)
    | .held t n =>
      match (t.coreOf u).firing with
      | some f =>
        if !f.predict ∧ f.cycleBound ≤ n then .next (t.coreFault u 0x0381 f.boundDetail none)
        else .next (t.retireCore u g i k p n 2 none (i.transfer && an && (s1.coreOf u).slot.isNone) kb)
      | none => .next (t.retireCore u g i k p n 2 none (i.transfer && an && (s1.coreOf u).slot.isNone) kb)
    | .access t f => .next (f (t.retireCore u g i k p 0 2 none (i.transfer && an && (s1.coreOf u).slot.isNone) kb))
    | .jump t n gap => .next (t.retireCore u g i k p 0 gap (some n) false kb)
    | .fault t code detail => .next (t.faultAt u k code detail none)
    | .leave t => .next t := by
  obtain ⟨⟨k, p, hg⟩, ha, ht⟩ := h
  refine ⟨k, p, hg, ?_⟩
  unfold State.issue
  rw [hg]
  have hs : ¬(i.transfer = true ∧ (s1.coreOf u).slot.isSome = true) := by
    rintro ⟨a, b⟩; rw [ht a] at b; exact absurd b (by simp)
  simp only [ha, Bool.false_eq_true, if_false, Bool.not_true, hs]
  all_goals rfl

/-- It completes. -/
theorem issue_done (h : Issues s u g i s1) (ht : i.transfer = false) (hb : ∀ k, body s1 (s1.coreOf u) k = .done s2) :
    ∃ t, s.issue u g i an false body = .next t ∧ Retires s2 t u (s2.coreOf u) := by
  obtain ⟨k, p, -, e⟩ := issue_eq (an := an) (kb := false) (body := body) h
  rw [e, hb k]
  simp only [ht, Bool.false_and]
  exact ⟨_, rfl, retireCore_retires _ _ _ _ _ _ _ _ _ ht⟩

/-- It completes by writing registers of its core. -/
theorem issue_sets {d : Core} (h : Issues s u g i s1) (ht : i.transfer = false)
    (hb : ∀ k, body s1 (s1.coreOf u) k = .done (s1.setCore u d))
    (hd : d.pc = (s1.coreOf u).pc ∧ d.slot = (s1.coreOf u).slot ∧ d.budget = (s1.coreOf u).budget) :
    ∃ t, s.issue u g i an false body = .next t ∧ Retires s1 t u d := by
  obtain ⟨t, e, r⟩ := issue_done (an := an) h ht hb
  rw [State.coreOf_setCore_self] at r
  exact ⟨t, e, r.of_setCore hd⟩

/-- It completes and starts an access. -/
theorem issue_access {f : State → State} (h : Issues s u g i s1) (ht : i.transfer = false)
    (hb : ∀ k, body s1 (s1.coreOf u) k = .access s2 f) :
    ∃ t, s.issue u g i an false body = .next t ∧ ∃ r, Retires s2 r u (s2.coreOf u) ∧ t = f r := by
  obtain ⟨k, p, -, e⟩ := issue_eq (an := an) (kb := false) (body := body) h
  rw [e, hb k]
  simp only [ht, Bool.false_and]
  exact ⟨_, rfl, _, retireCore_retires _ _ _ _ _ _ _ _ _ ht, rfl⟩

/-- It faults. -/
theorem issue_fault {code detail : Nat} (h : Issues s u g i s1) (hb : ∀ k, body s1 (s1.coreOf u) k = .fault s2 code detail) :
    ∃ t, s.issue u g i an kb body = .next t ∧ ∃ k, t = s2.faultAt u k code detail none := by
  obtain ⟨k, p, -, e⟩ := issue_eq (an := an) (kb := kb) (body := body) h
  rw [e, hb k]
  exact ⟨_, rfl, k, rfl⟩

/-- It leaves the core by itself. -/
theorem issue_leave (h : Issues s u g i s1) (hb : ∀ k, body s1 (s1.coreOf u) k = .leave s2) :
    s.issue u g i an kb body = .next s2 := by
  obtain ⟨k, p, -, e⟩ := issue_eq (an := an) (kb := kb) (body := body) h
  rw [e, hb k]

/-- It transfers to a target. -/
theorem issue_jump {d : Core} {n gap : Nat} (h : Issues s u g i s1) (ht : i.transfer = true)
    (hb : ∀ k, body s1 (s1.coreOf u) k = .jump (s1.setCore u d) n gap)
    (hd : d.pc = (s1.coreOf u).pc ∧ d.slot = (s1.coreOf u).slot ∧ d.budget = (s1.coreOf u).budget) :
    ∃ t, s.issue u g i an kb body = .next t ∧ Transfers s1 t u d (some n) false := by
  obtain ⟨k, p, -, e⟩ := issue_eq (an := an) (kb := kb) (body := body) h
  rw [e, hb k]
  have hn : ((s1.setCore u d).coreOf u).slot = none := by rw [State.coreOf_setCore_self, hd.2.1]; exact h.2.2 ht
  have r := retireCore_transfers (s1.setCore u d) u g i k p 0 gap (some n) false kb ht hn
  rw [State.coreOf_setCore_self] at r
  exact ⟨_, rfl, r.of_setCore ⟨hd.1, hd.2.2⟩⟩

/-- An instruction that only changes registers. -/
theorem pureOp_retires {f : Core → Core} {d : Core} (h : Issues s u g i s1) (ht : i.transfer = false)
    (e : f (s1.coreOf u) = d)
    (hd : d.pc = (s1.coreOf u).pc ∧ d.slot = (s1.coreOf u).slot ∧ d.budget = (s1.coreOf u).budget) :
    ∃ t, s.pureOp u g i f = .next t ∧ Retires s1 t u d :=
  issue_sets h ht (fun _ => by rw [← e]) hd

/-- An instruction that changes registers unless it faults. -/
theorem tryOp_retires {f : Core → Except Nat Core} {d : Core} (h : Issues s u g i s1) (ht : i.transfer = false)
    (e : f (s1.coreOf u) = .ok d)
    (hd : d.pc = (s1.coreOf u).pc ∧ d.slot = (s1.coreOf u).slot ∧ d.budget = (s1.coreOf u).budget) :
    ∃ t, s.tryOp u g i f = .next t ∧ Retires s1 t u d :=
  issue_sets h ht (fun _ => by simp only [e]) hd

theorem tryOp_faults {f : Core → Except Nat Core} {code : Nat} (h : Issues s u g i s1) (e : f (s1.coreOf u) = .error code) :
    ∃ t, s.tryOp u g i f = .next t ∧ ∃ k, t = s1.faultAt u k code 0 none :=
  issue_fault h (fun _ => by simp only [e])

end Sys2Proof.Machine
end

