-- ==== Sys2Proof/Laws/Memory.lean ====
section
/-! SUPPORT. The memory: a read after a write gives the value written, a write leaves every other byte alone, and every
operation keeps the canonical form. -/

namespace Sys2Proof.Machine

/-- A write leaves every other byte alone. -/
theorem Memory.get_put_ne {a c : Nat} (h : c ≠ a) (b : Byte) (m : Memory) : Memory.get c (Memory.put a b m) = Memory.get c m := by
  induction m with
  | nil =>
    unfold Memory.put
    split
    · rfl
    · simp [Memory.get, Ne.symm h]
  | cons e t ih =>
    obtain ⟨k, v⟩ := e
    unfold Memory.put
    split
    · split
      · rfl
      · simp [Memory.get, Ne.symm h]
    · split
      · rename_i hk
        subst hk
        split
        · simp [Memory.get, Ne.symm h]
        · simp [Memory.get, Ne.symm h]
      · simp only [Memory.get, ih]

/-- In a canonical memory nothing is listed below its first address. -/
theorem Memory.get_of_lt {a : Nat} {m : Memory} (h : ∀ e ∈ m, a < e.1) : Memory.get a m = 0 := by
  induction m with
  | nil => rfl
  | cons e t ih =>
    obtain ⟨k, v⟩ := e
    have hk : a < k := h (k, v) (by simp)
    simp only [Memory.get, if_neg (Nat.ne_of_gt hk)]
    exact ih fun e he => h e (List.mem_cons_of_mem _ he)

theorem Memory.wf_cons {k : Nat} {v : Byte} {t : Memory} :
    Memory.wf ((k, v) :: t) = true ↔ v ≠ 0 ∧ (∀ e ∈ t, k < e.1) ∧ Memory.wf t = true := by
  simp [Memory.wf, and_assoc]

/-- A byte written reads back. -/
theorem Memory.get_put_self (a : Nat) (b : Byte) {m : Memory} (h : Memory.wf m = true) :
    Memory.get a (Memory.put a b m) = b := by
  induction m with
  | nil =>
    unfold Memory.put
    split
    · simp [Memory.get, *]
    · simp [Memory.get]
  | cons e t ih =>
    obtain ⟨k, v⟩ := e
    obtain ⟨-, ht, hw⟩ := Memory.wf_cons.mp h
    unfold Memory.put
    split
    · rename_i hlt
      split
      · rename_i hb
        rw [hb]
        refine Memory.get_of_lt fun e he => ?_
        rcases List.mem_cons.mp he with rfl | he
        · exact hlt
        · exact Nat.lt_trans hlt (ht e he)
      · simp [Memory.get]
    · split
      · rename_i hk
        subst hk
        split
        · rename_i hb; rw [hb]; exact Memory.get_of_lt ht
        · simp [Memory.get]
      · rename_i hk
        simp only [Memory.get, if_neg hk, ih hw]

/-- The addresses a write may list. -/
theorem Memory.mem_put {a : Nat} {b : Byte} {m : Memory} {e : Host.Cell} (h : e ∈ Memory.put a b m) : e = (a, b) ∨ e ∈ m := by
  induction m with
  | nil =>
    unfold Memory.put at h
    split at h
    · exact absurd h (by simp)
    · exact .inl (by simpa using h)
  | cons x t ih =>
    obtain ⟨k, v⟩ := x
    unfold Memory.put at h
    split at h
    · split at h
      · exact .inr h
      · rcases List.mem_cons.mp h with h | h
        · exact .inl h
        · exact .inr h
    · split at h
      · rename_i hk
        split at h
        · exact .inr (List.mem_cons_of_mem _ h)
        · rcases List.mem_cons.mp h with h | h
          · exact .inl (hk ▸ h)
          · exact .inr (List.mem_cons_of_mem _ h)
      · rcases List.mem_cons.mp h with h | h
        · exact .inr (h ▸ List.mem_cons_self)
        · exact (ih h).imp_right (List.mem_cons_of_mem _)

/-- Writing a byte keeps the canonical form. -/
theorem Memory.put_wf (a : Nat) (b : Byte) {m : Memory} (h : Memory.wf m = true) : Memory.wf (Memory.put a b m) = true := by
  induction m with
  | nil =>
    unfold Memory.put
    split
    · rfl
    · exact Memory.wf_cons.mpr ⟨‹_›, by simp, rfl⟩
  | cons x t ih =>
    obtain ⟨k, v⟩ := x
    obtain ⟨hv, ht, hw⟩ := Memory.wf_cons.mp h
    unfold Memory.put
    split
    · rename_i hlt
      split
      · exact h
      · refine Memory.wf_cons.mpr ⟨‹_›, fun e he => ?_, h⟩
        rcases List.mem_cons.mp he with rfl | he
        · exact hlt
        · exact Nat.lt_trans hlt (ht e he)
    · rename_i hlt
      split
      · split
        · exact hw
        · exact Memory.wf_cons.mpr ⟨‹_›, ht, hw⟩
      · rename_i hk
        refine Memory.wf_cons.mpr ⟨hv, fun e he => ?_, ih hw⟩
        rcases Memory.mem_put he with rfl | he
        · show k < a; omega
        · exact ht e he

theorem Memory.putBytes_wf (a : Nat) (bs : List Byte) {m : Memory} (h : Memory.wf m = true) :
    Memory.wf (Memory.putBytes a bs m) = true := by
  induction bs generalizing a m with
  | nil => exact h
  | cons b t ih => exact ih (a + 1) (Memory.put_wf a b h)

theorem Memory.putPair_wf (ca : Nat) (c0 c1 : Course) {m : Memory} (h : Memory.wf m = true) :
    Memory.wf (Memory.putPair ca c0 c1 m) = true := Memory.putBytes_wf _ _ h

theorem Memory.putCourse_wf (ca : Nat) (c : Course) {m : Memory} (h : Memory.wf m = true) :
    Memory.wf (Memory.putCourse ca c m) = true := by
  unfold Memory.putCourse
  split <;> exact Memory.putPair_wf _ _ _ h

/-- Writing courses keeps the canonical form. -/
theorem Memory.putCourses_wf (ca : Nat) (cs : List Course) {m : Memory} (h : Memory.wf m = true) :
    Memory.wf (Memory.putCourses ca cs m) = true := by
  induction cs generalizing ca m with
  | nil => exact h
  | cons c t ih => exact ih (ca + 1) (Memory.putCourse_wf ca c h)

/-- Bytes outside those written read as before. -/
theorem Memory.get_putBytes_of_out {a c : Nat} {bs : List Byte} (h : c < a ∨ a + bs.length ≤ c) (m : Memory) :
    Memory.get c (Memory.putBytes a bs m) = Memory.get c m := by
  induction bs generalizing a m with
  | nil => rfl
  | cons b t ih =>
    simp only [List.length_cons] at h
    rw [Memory.putBytes, ih (by omega), Memory.get_put_ne (by omega)]

theorem pairBytes_length (c0 c1 : Course) : (pairBytes c0 c1).length = 3 := rfl

/-- Writing a course leaves every byte outside its pair alone (R58). -/
theorem Memory.get_putCourse_of_out {ca c : Nat} (x : Course) (h : c < ca / 2 * 3 ∨ ca / 2 * 3 + 3 ≤ c) (m : Memory) :
    Memory.get c (Memory.putCourse ca x m) = Memory.get c m := by
  unfold Memory.putCourse Memory.putPair
  split
  · exact Memory.get_putBytes_of_out (by rw [pairBytes_length]; exact h) m
  · have : (ca - 1) / 2 = ca / 2 := by omega
    exact Memory.get_putBytes_of_out (by rw [pairBytes_length, this]; exact h) m

/-- Writing courses leaves every byte outside their pairs alone. -/
theorem Memory.get_putCourses_of_out {ca c : Nat} {cs : List Course} (h : c < ca / 2 * 3 ∨ (ca + cs.length + 1) / 2 * 3 ≤ c)
    (m : Memory) : Memory.get c (Memory.putCourses ca cs m) = Memory.get c m := by
  induction cs generalizing ca m with
  | nil => rfl
  | cons x t ih =>
    simp only [List.length_cons] at h
    rw [Memory.putCourses, ih (by omega), Memory.get_putCourse_of_out _ (by omega)]

end Sys2Proof.Machine
end

