-- ==== Sys2Proof/Laws/MemoryState.lean ====
section
/-! SUPPORT. The operations of the machine on its memory keep the canonical form. -/

namespace Sys2Proof.Machine

/-- Taking entries away keeps the canonical form. -/
theorem Memory.filter_wf (p : Host.Cell → Bool) {m : Memory} (h : Memory.wf m = true) : Memory.wf (m.filter p) = true := by
  induction m with
  | nil => exact h
  | cons x t ih =>
    obtain ⟨k, v⟩ := x
    obtain ⟨hv, ht, hw⟩ := Memory.wf_cons.mp h
    rw [List.filter_cons]
    split
    · exact Memory.wf_cons.mpr ⟨hv, fun e he => ht e (List.mem_filter.mp he).1, ih hw⟩
    · exact ih hw

/-- What each step of a fold keeps, the fold keeps. -/
theorem State.foldl_wf {α : Type} (f : State → α → State)
    (step : ∀ (t : State) (x : α), Memory.wf t.mem = true → Memory.wf (f t x).mem = true) (l : List α) {s : State}
    (h : Memory.wf s.mem = true) : Memory.wf (l.foldl f s).mem = true := by
  induction l generalizing s with
  | nil => exact h
  | cons x t ih => exact ih (step s x h)

/-- A store and its bound copies keep the canonical form. -/
theorem State.memPut_wf (ca : Nat) (cs : List Course) {s : State} (h : Memory.wf s.mem = true) :
    Memory.wf (s.memPut ca cs).mem = true := by
  show Memory.wf ((s.partners (caLocal ca / 4096)).foldl
    (fun m f => Memory.putCourses (f * 4096 + caLocal ca % 4096) cs m) (Memory.putCourses (caLocal ca) cs s.mem)) = true
  have all : ∀ (l : List Nat) (m : Memory), Memory.wf m = true →
      Memory.wf (l.foldl (fun m f => Memory.putCourses (f * 4096 + caLocal ca % 4096) cs m) m) = true := by
    intro l
    induction l with
    | nil => exact fun m hm => hm
    | cons f t ih => exact fun m hm => ih _ (Memory.putCourses_wf _ _ hm)
  exact all _ _ (Memory.putCourses_wf _ _ h)

theorem State.memStore_wf (ca : Nat) (cs : List Course) {s : State} (h : Memory.wf s.mem = true) :
    Memory.wf (s.memStore ca cs).mem = true := State.memPut_wf ca cs h

/-- Moving frames keeps the canonical form (R197). -/
theorem State.moveFrames_wf (src dst n : Nat) {s : State} (h : Memory.wf s.mem = true) :
    Memory.wf (s.moveFrames src dst n).mem = true := by
  induction n with
  | zero => exact h
  | succ n ih => exact State.memStore_wf _ _ (State.memStore_wf _ _ ih)

theorem State.l2Install_wf (b la : Nat) (data : List Course) (dirty : Bool) (owner : Nat) (mask : List Nat) {s : State}
    (h : Memory.wf s.mem = true) : Memory.wf (s.l2Install b la data dirty owner mask).mem = true := by
  unfold State.l2Install
  dsimp only
  split
  · split
    · exact State.memPut_wf _ _ h
    · exact h
  · exact h

theorem State.l2WriteBack_wf (b sl : Nat) (l : Line) {s : State} (h : Memory.wf s.mem = true) :
    Memory.wf (s.l2WriteBack b sl l).mem = true := by
  unfold State.l2WriteBack
  split
  · exact h
  · exact State.l2Install_wf _ _ _ _ _ _ h

theorem State.evictHead_wf (u : CoreId) (b : Nat) {s : State} (h : Memory.wf s.mem = true) :
    Memory.wf (s.evictHead u b).mem = true := by
  unfold State.evictHead
  dsimp only
  split
  · exact h
  · exact State.l2WriteBack_wf _ _ _ h

/-- Cleaning the lines of a bay keeps the canonical form. -/
theorem State.cleanBay_wf (b : Nat) (p : Line → Bool) {s : State} (h : Memory.wf s.mem = true) :
    Memory.wf (s.cleanBay b p).mem = true := by
  have l1 : ∀ (t : State) (u : CoreId), Memory.wf t.mem = true → Memory.wf (t.cleanL1 u b p).mem = true :=
    fun t u ht => State.foldl_wf _ (fun _ _ hx => State.l2WriteBack_wf _ _ _ hx) _ ht
  exact State.foldl_wf _ (fun _ _ hx => State.memPut_wf _ _ hx) _
    (show Memory.wf (((s.coresOfBay b).foldl (fun (t : State) u => t.cleanL1 u b p) s).setL2 b _).mem = true from
      State.foldl_wf _ l1 _ h)

theorem State.cleanRange_wf (start n : Nat) {s : State} (h : Memory.wf s.mem = true) :
    Memory.wf (s.cleanRange start n).mem = true :=
  State.foldl_wf _ (fun _ _ ht => State.cleanBay_wf _ _ ht) _ h

/-- Dropping lines writes no memory. -/
theorem State.discardBay_mem (b : Nat) (p : Line → Bool) (s : State) : (s.discardBay b p).mem = s.mem := rfl

/-- An invalidate of a range keeps the canonical form. -/
theorem State.invalidateRange_wf (start n : Nat) {s : State} (h : Memory.wf s.mem = true) :
    Memory.wf (s.invalidateRange start n).mem = true := by
  unfold State.invalidateRange
  refine State.foldl_wf _ (fun t b ht => ?_) _ h
  rw [State.discardBay_mem]
  exact State.cleanBay_wf b _ ht

/-- Zeroing the frames of a removed slice keeps the canonical form (R405). -/
theorem State.zeroFrames_wf (fs : List (Nat × Nat)) {s : State} (h : Memory.wf s.mem = true) :
    Memory.wf (s.zeroFrames fs).mem = true :=
  Memory.filter_wf _ (State.foldl_wf _ (fun _ _ ht => State.invalidateRange_wf _ _ ht) fs h)

/-- Rebuilding a bound pair keeps the canonical form (R302). -/
theorem execBoundPairRebuild_wf {frame newFrame : Nat} {s t : State} (h : Memory.wf s.mem = true)
    (e : execBoundPairRebuild frame newFrame s = .next t) : Memory.wf t.mem = true := by
  simp only [execBoundPairRebuild, Host.Outcome.next.injEq] at e
  subst e
  have put : Memory.wf (Memory.putCourses (newFrame * 4096) (s.memLoad (frame * 4096) 4096) s.mem) = true :=
    Memory.putCourses_wf _ _ h
  generalize s.memLoad (frame * 4096) 4096 = cs at put ⊢
  split
  · exact h
  · split
    · split
      · exact h
      · exact put
    · split
      · exact h
      · exact put

end Sys2Proof.Machine
end

