-- ==== Sys2Proof/Laws/Sett.lean ====
section
/-! SUPPORT. The room that the Sett compressor can take (R347, R353, R193). -/

namespace Sys2Proof.Machine

/-- A block is at most nine courses longer than its payload (R347). -/
theorem settBlock_length_le (raw : Bool) (xf k : Nat) (u pay : List Course) :
    (settBlock raw xf k u pay).length ≤ pay.length + 9 := by
  unfold settBlock
  have pad : (if pay.length % 2 = 1 then [(0 : Course)] else []).length ≤ 1 := by split <;> simp
  simp only [List.length_append, List.length_cons, List.length_nil, natCrs]
  omega

/-- A packed block is at most nine courses longer than its input (R353). -/
theorem settPack_length_le (xf k : Nat) (u : List Course) : (settPack xf k u).length ≤ u.length + 9 := by
  unfold settPack
  extract_lets pay good
  split
  · rename_i h
    have := settBlock_length_le false xf k u pay
    omega
  · exact settBlock_length_le ..

/-- An ashlar of one block takes at most nine courses more in the store (R193). -/
theorem Ashlar.storeRoom_le (a : Ashlar) (h : a.courses.length ≤ 65536) : a.storeRoom ≤ a.courses.length + 9 := by
  unfold Ashlar.storeRoom
  cases e : a.courses with
  | nil => simp [settPackAll]
  | cons c l =>
    rw [e] at h
    have := settPack_length_le 0 0 (c :: l)
    simpa [settPackAll, List.take_of_length_le h, List.drop_of_length_le h] using this

end Sys2Proof.Machine
end

