-- ==== Sys2Proof/Laws/State.lean ====
section
/-! SUPPORT. What the small updates of State leave as it is: one lemma for each field and each update, and for the field
that changes what it becomes, so that no later proof unfolds an update of the record. -/

namespace Sys2Proof.Machine

/-! #### advanceFree -/

section
variable (s : State)
@[simp] theorem State.advanceFree_pending : (State.advanceFree s).pending = s.pending := rfl
@[simp] theorem State.advanceFree_free : (State.advanceFree s).free = s.free + 1 := rfl
@[simp] theorem State.advanceFree_time : (State.advanceFree s).time = s.time := rfl
@[simp] theorem State.advanceFree_therm : (State.advanceFree s).therm = s.therm := rfl
@[simp] theorem State.advanceFree_objs : (State.advanceFree s).objs = s.objs := rfl
@[simp] theorem State.advanceFree_stored : (State.advanceFree s).stored = s.stored := rfl
@[simp] theorem State.advanceFree_slices : (State.advanceFree s).slices = s.slices := rfl
@[simp] theorem State.advanceFree_bindings : (State.advanceFree s).bindings = s.bindings := rfl
@[simp] theorem State.advanceFree_host : (State.advanceFree s).host = s.host := rfl
@[simp] theorem State.advanceFree_ctxs : (State.advanceFree s).ctxs = s.ctxs := rfl
@[simp] theorem State.advanceFree_items : (State.advanceFree s).items = s.items := rfl
@[simp] theorem State.advanceFree_nextSeq : (State.advanceFree s).nextSeq = s.nextSeq := rfl
@[simp] theorem State.advanceFree_runs : (State.advanceFree s).runs = s.runs := rfl
@[simp] theorem State.advanceFree_nextRun : (State.advanceFree s).nextRun = s.nextRun := rfl
@[simp] theorem State.advanceFree_flowState : (State.advanceFree s).flowState = s.flowState := rfl
@[simp] theorem State.advanceFree_windows : (State.advanceFree s).windows = s.windows := rfl
@[simp] theorem State.advanceFree_hashTables : (State.advanceFree s).hashTables = s.hashTables := rfl
@[simp] theorem State.advanceFree_tables : (State.advanceFree s).tables = s.tables := rfl
@[simp] theorem State.advanceFree_dicts : (State.advanceFree s).dicts = s.dicts := rfl
@[simp] theorem State.advanceFree_mason : (State.advanceFree s).mason = s.mason := rfl
@[simp] theorem State.advanceFree_cores : (State.advanceFree s).cores = s.cores := rfl
@[simp] theorem State.advanceFree_ks : (State.advanceFree s).ks = s.ks := rfl
@[simp] theorem State.advanceFree_mem : (State.advanceFree s).mem = s.mem := rfl
@[simp] theorem State.advanceFree_memx : (State.advanceFree s).memx = s.memx := rfl
@[simp] theorem State.advanceFree_hod : (State.advanceFree s).hod = s.hod := rfl
@[simp] theorem State.advanceFree_dg : (State.advanceFree s).dg = s.dg := rfl
@[simp] theorem State.advanceFree_led : (State.advanceFree s).led = s.led := rfl
@[simp] theorem State.advanceFree_st : (State.advanceFree s).st = s.st := rfl
@[simp] theorem State.advanceFree_ports : (State.advanceFree s).ports = s.ports := rfl
@[simp] theorem State.advanceFree_group : (State.advanceFree s).group = s.group := rfl
@[simp] theorem State.advanceFree_can : (State.advanceFree s).can = s.can := rfl
@[simp] theorem State.advanceFree_err : (State.advanceFree s).err = s.err := rfl
@[simp] theorem State.advanceFree_power : (State.advanceFree s).power = s.power := rfl
@[simp] theorem State.advanceFree_trust : (State.advanceFree s).trust = s.trust := rfl
@[simp] theorem State.advanceFree_quoin : (State.advanceFree s).quoin = s.quoin := rfl
end

/-! #### setObj -/

section
variable (s : State) (index sub : Nat) (path : List Nat) (slice : Nat) (v : ObjVal)
@[simp] theorem State.setObj_pending : (State.setObj s index sub path slice v).pending = s.pending := rfl
@[simp] theorem State.setObj_free : (State.setObj s index sub path slice v).free = s.free := rfl
@[simp] theorem State.setObj_time : (State.setObj s index sub path slice v).time = s.time := rfl
@[simp] theorem State.setObj_therm : (State.setObj s index sub path slice v).therm = s.therm := rfl
@[simp] theorem State.setObj_objs : (State.setObj s index sub path slice v).objs = tset ⟨index, sub, path, slice⟩ v s.objs := rfl
@[simp] theorem State.setObj_stored : (State.setObj s index sub path slice v).stored = s.stored := rfl
@[simp] theorem State.setObj_slices : (State.setObj s index sub path slice v).slices = s.slices := rfl
@[simp] theorem State.setObj_bindings : (State.setObj s index sub path slice v).bindings = s.bindings := rfl
@[simp] theorem State.setObj_host : (State.setObj s index sub path slice v).host = s.host := rfl
@[simp] theorem State.setObj_ctxs : (State.setObj s index sub path slice v).ctxs = s.ctxs := rfl
@[simp] theorem State.setObj_items : (State.setObj s index sub path slice v).items = s.items := rfl
@[simp] theorem State.setObj_nextSeq : (State.setObj s index sub path slice v).nextSeq = s.nextSeq := rfl
@[simp] theorem State.setObj_runs : (State.setObj s index sub path slice v).runs = s.runs := rfl
@[simp] theorem State.setObj_nextRun : (State.setObj s index sub path slice v).nextRun = s.nextRun := rfl
@[simp] theorem State.setObj_flowState : (State.setObj s index sub path slice v).flowState = s.flowState := rfl
@[simp] theorem State.setObj_windows : (State.setObj s index sub path slice v).windows = s.windows := rfl
@[simp] theorem State.setObj_hashTables : (State.setObj s index sub path slice v).hashTables = s.hashTables := rfl
@[simp] theorem State.setObj_tables : (State.setObj s index sub path slice v).tables = s.tables := rfl
@[simp] theorem State.setObj_dicts : (State.setObj s index sub path slice v).dicts = s.dicts := rfl
@[simp] theorem State.setObj_mason : (State.setObj s index sub path slice v).mason = s.mason := rfl
@[simp] theorem State.setObj_cores : (State.setObj s index sub path slice v).cores = s.cores := rfl
@[simp] theorem State.setObj_ks : (State.setObj s index sub path slice v).ks = s.ks := rfl
@[simp] theorem State.setObj_mem : (State.setObj s index sub path slice v).mem = s.mem := rfl
@[simp] theorem State.setObj_memx : (State.setObj s index sub path slice v).memx = s.memx := rfl
@[simp] theorem State.setObj_hod : (State.setObj s index sub path slice v).hod = s.hod := rfl
@[simp] theorem State.setObj_dg : (State.setObj s index sub path slice v).dg = s.dg := rfl
@[simp] theorem State.setObj_led : (State.setObj s index sub path slice v).led = s.led := rfl
@[simp] theorem State.setObj_st : (State.setObj s index sub path slice v).st = s.st := rfl
@[simp] theorem State.setObj_ports : (State.setObj s index sub path slice v).ports = s.ports := rfl
@[simp] theorem State.setObj_group : (State.setObj s index sub path slice v).group = s.group := rfl
@[simp] theorem State.setObj_can : (State.setObj s index sub path slice v).can = s.can := rfl
@[simp] theorem State.setObj_err : (State.setObj s index sub path slice v).err = s.err := rfl
@[simp] theorem State.setObj_power : (State.setObj s index sub path slice v).power = s.power := rfl
@[simp] theorem State.setObj_trust : (State.setObj s index sub path slice v).trust = s.trust := rfl
@[simp] theorem State.setObj_quoin : (State.setObj s index sub path slice v).quoin = s.quoin := rfl
end

/-! #### bumpBy -/

section
variable (s : State) (index sub : Nat) (path : List Nat) (slice lim n : Nat)
@[simp] theorem State.bumpBy_pending : (State.bumpBy s index sub path slice lim n).pending = s.pending := rfl
@[simp] theorem State.bumpBy_free : (State.bumpBy s index sub path slice lim n).free = s.free := rfl
@[simp] theorem State.bumpBy_time : (State.bumpBy s index sub path slice lim n).time = s.time := rfl
@[simp] theorem State.bumpBy_therm : (State.bumpBy s index sub path slice lim n).therm = s.therm := rfl
@[simp] theorem State.bumpBy_objs : (State.bumpBy s index sub path slice lim n).objs = tset ⟨index, sub, path, slice⟩ (.num (min lim (s.objNum index sub path slice 0 + n))) s.objs := rfl
@[simp] theorem State.bumpBy_stored : (State.bumpBy s index sub path slice lim n).stored = s.stored := rfl
@[simp] theorem State.bumpBy_slices : (State.bumpBy s index sub path slice lim n).slices = s.slices := rfl
@[simp] theorem State.bumpBy_bindings : (State.bumpBy s index sub path slice lim n).bindings = s.bindings := rfl
@[simp] theorem State.bumpBy_host : (State.bumpBy s index sub path slice lim n).host = s.host := rfl
@[simp] theorem State.bumpBy_ctxs : (State.bumpBy s index sub path slice lim n).ctxs = s.ctxs := rfl
@[simp] theorem State.bumpBy_items : (State.bumpBy s index sub path slice lim n).items = s.items := rfl
@[simp] theorem State.bumpBy_nextSeq : (State.bumpBy s index sub path slice lim n).nextSeq = s.nextSeq := rfl
@[simp] theorem State.bumpBy_runs : (State.bumpBy s index sub path slice lim n).runs = s.runs := rfl
@[simp] theorem State.bumpBy_nextRun : (State.bumpBy s index sub path slice lim n).nextRun = s.nextRun := rfl
@[simp] theorem State.bumpBy_flowState : (State.bumpBy s index sub path slice lim n).flowState = s.flowState := rfl
@[simp] theorem State.bumpBy_windows : (State.bumpBy s index sub path slice lim n).windows = s.windows := rfl
@[simp] theorem State.bumpBy_hashTables : (State.bumpBy s index sub path slice lim n).hashTables = s.hashTables := rfl
@[simp] theorem State.bumpBy_tables : (State.bumpBy s index sub path slice lim n).tables = s.tables := rfl
@[simp] theorem State.bumpBy_dicts : (State.bumpBy s index sub path slice lim n).dicts = s.dicts := rfl
@[simp] theorem State.bumpBy_mason : (State.bumpBy s index sub path slice lim n).mason = s.mason := rfl
@[simp] theorem State.bumpBy_cores : (State.bumpBy s index sub path slice lim n).cores = s.cores := rfl
@[simp] theorem State.bumpBy_ks : (State.bumpBy s index sub path slice lim n).ks = s.ks := rfl
@[simp] theorem State.bumpBy_mem : (State.bumpBy s index sub path slice lim n).mem = s.mem := rfl
@[simp] theorem State.bumpBy_memx : (State.bumpBy s index sub path slice lim n).memx = s.memx := rfl
@[simp] theorem State.bumpBy_hod : (State.bumpBy s index sub path slice lim n).hod = s.hod := rfl
@[simp] theorem State.bumpBy_dg : (State.bumpBy s index sub path slice lim n).dg = s.dg := rfl
@[simp] theorem State.bumpBy_led : (State.bumpBy s index sub path slice lim n).led = s.led := rfl
@[simp] theorem State.bumpBy_st : (State.bumpBy s index sub path slice lim n).st = s.st := rfl
@[simp] theorem State.bumpBy_ports : (State.bumpBy s index sub path slice lim n).ports = s.ports := rfl
@[simp] theorem State.bumpBy_group : (State.bumpBy s index sub path slice lim n).group = s.group := rfl
@[simp] theorem State.bumpBy_can : (State.bumpBy s index sub path slice lim n).can = s.can := rfl
@[simp] theorem State.bumpBy_err : (State.bumpBy s index sub path slice lim n).err = s.err := rfl
@[simp] theorem State.bumpBy_power : (State.bumpBy s index sub path slice lim n).power = s.power := rfl
@[simp] theorem State.bumpBy_trust : (State.bumpBy s index sub path slice lim n).trust = s.trust := rfl
@[simp] theorem State.bumpBy_quoin : (State.bumpBy s index sub path slice lim n).quoin = s.quoin := rfl
end

/-! #### bump -/

section
variable (s : State) (index sub : Nat) (path : List Nat) (slice : Nat)
@[simp] theorem State.bump_pending : (State.bump s index sub path slice).pending = s.pending := rfl
@[simp] theorem State.bump_free : (State.bump s index sub path slice).free = s.free := rfl
@[simp] theorem State.bump_time : (State.bump s index sub path slice).time = s.time := rfl
@[simp] theorem State.bump_therm : (State.bump s index sub path slice).therm = s.therm := rfl
@[simp] theorem State.bump_stored : (State.bump s index sub path slice).stored = s.stored := rfl
@[simp] theorem State.bump_slices : (State.bump s index sub path slice).slices = s.slices := rfl
@[simp] theorem State.bump_bindings : (State.bump s index sub path slice).bindings = s.bindings := rfl
@[simp] theorem State.bump_host : (State.bump s index sub path slice).host = s.host := rfl
@[simp] theorem State.bump_ctxs : (State.bump s index sub path slice).ctxs = s.ctxs := rfl
@[simp] theorem State.bump_items : (State.bump s index sub path slice).items = s.items := rfl
@[simp] theorem State.bump_nextSeq : (State.bump s index sub path slice).nextSeq = s.nextSeq := rfl
@[simp] theorem State.bump_runs : (State.bump s index sub path slice).runs = s.runs := rfl
@[simp] theorem State.bump_nextRun : (State.bump s index sub path slice).nextRun = s.nextRun := rfl
@[simp] theorem State.bump_flowState : (State.bump s index sub path slice).flowState = s.flowState := rfl
@[simp] theorem State.bump_windows : (State.bump s index sub path slice).windows = s.windows := rfl
@[simp] theorem State.bump_hashTables : (State.bump s index sub path slice).hashTables = s.hashTables := rfl
@[simp] theorem State.bump_tables : (State.bump s index sub path slice).tables = s.tables := rfl
@[simp] theorem State.bump_dicts : (State.bump s index sub path slice).dicts = s.dicts := rfl
@[simp] theorem State.bump_mason : (State.bump s index sub path slice).mason = s.mason := rfl
@[simp] theorem State.bump_cores : (State.bump s index sub path slice).cores = s.cores := rfl
@[simp] theorem State.bump_ks : (State.bump s index sub path slice).ks = s.ks := rfl
@[simp] theorem State.bump_mem : (State.bump s index sub path slice).mem = s.mem := rfl
@[simp] theorem State.bump_memx : (State.bump s index sub path slice).memx = s.memx := rfl
@[simp] theorem State.bump_hod : (State.bump s index sub path slice).hod = s.hod := rfl
@[simp] theorem State.bump_dg : (State.bump s index sub path slice).dg = s.dg := rfl
@[simp] theorem State.bump_led : (State.bump s index sub path slice).led = s.led := rfl
@[simp] theorem State.bump_st : (State.bump s index sub path slice).st = s.st := rfl
@[simp] theorem State.bump_ports : (State.bump s index sub path slice).ports = s.ports := rfl
@[simp] theorem State.bump_group : (State.bump s index sub path slice).group = s.group := rfl
@[simp] theorem State.bump_can : (State.bump s index sub path slice).can = s.can := rfl
@[simp] theorem State.bump_err : (State.bump s index sub path slice).err = s.err := rfl
@[simp] theorem State.bump_power : (State.bump s index sub path slice).power = s.power := rfl
@[simp] theorem State.bump_trust : (State.bump s index sub path slice).trust = s.trust := rfl
@[simp] theorem State.bump_quoin : (State.bump s index sub path slice).quoin = s.quoin := rfl
end

/-! #### updSlice -/

section
variable (s : State) (n : Nat) (f : SliceSt → SliceSt)
@[simp] theorem State.updSlice_pending : (State.updSlice s n f).pending = s.pending := rfl
@[simp] theorem State.updSlice_free : (State.updSlice s n f).free = s.free := rfl
@[simp] theorem State.updSlice_time : (State.updSlice s n f).time = s.time := rfl
@[simp] theorem State.updSlice_therm : (State.updSlice s n f).therm = s.therm := rfl
@[simp] theorem State.updSlice_objs : (State.updSlice s n f).objs = s.objs := rfl
@[simp] theorem State.updSlice_stored : (State.updSlice s n f).stored = s.stored := rfl
@[simp] theorem State.updSlice_slices : (State.updSlice s n f).slices = tupd n sliceAbsent f s.slices := rfl
@[simp] theorem State.updSlice_bindings : (State.updSlice s n f).bindings = s.bindings := rfl
@[simp] theorem State.updSlice_host : (State.updSlice s n f).host = s.host := rfl
@[simp] theorem State.updSlice_ctxs : (State.updSlice s n f).ctxs = s.ctxs := rfl
@[simp] theorem State.updSlice_items : (State.updSlice s n f).items = s.items := rfl
@[simp] theorem State.updSlice_nextSeq : (State.updSlice s n f).nextSeq = s.nextSeq := rfl
@[simp] theorem State.updSlice_runs : (State.updSlice s n f).runs = s.runs := rfl
@[simp] theorem State.updSlice_nextRun : (State.updSlice s n f).nextRun = s.nextRun := rfl
@[simp] theorem State.updSlice_flowState : (State.updSlice s n f).flowState = s.flowState := rfl
@[simp] theorem State.updSlice_windows : (State.updSlice s n f).windows = s.windows := rfl
@[simp] theorem State.updSlice_hashTables : (State.updSlice s n f).hashTables = s.hashTables := rfl
@[simp] theorem State.updSlice_tables : (State.updSlice s n f).tables = s.tables := rfl
@[simp] theorem State.updSlice_dicts : (State.updSlice s n f).dicts = s.dicts := rfl
@[simp] theorem State.updSlice_mason : (State.updSlice s n f).mason = s.mason := rfl
@[simp] theorem State.updSlice_cores : (State.updSlice s n f).cores = s.cores := rfl
@[simp] theorem State.updSlice_ks : (State.updSlice s n f).ks = s.ks := rfl
@[simp] theorem State.updSlice_mem : (State.updSlice s n f).mem = s.mem := rfl
@[simp] theorem State.updSlice_memx : (State.updSlice s n f).memx = s.memx := rfl
@[simp] theorem State.updSlice_hod : (State.updSlice s n f).hod = s.hod := rfl
@[simp] theorem State.updSlice_dg : (State.updSlice s n f).dg = s.dg := rfl
@[simp] theorem State.updSlice_led : (State.updSlice s n f).led = s.led := rfl
@[simp] theorem State.updSlice_st : (State.updSlice s n f).st = s.st := rfl
@[simp] theorem State.updSlice_ports : (State.updSlice s n f).ports = s.ports := rfl
@[simp] theorem State.updSlice_group : (State.updSlice s n f).group = s.group := rfl
@[simp] theorem State.updSlice_can : (State.updSlice s n f).can = s.can := rfl
@[simp] theorem State.updSlice_err : (State.updSlice s n f).err = s.err := rfl
@[simp] theorem State.updSlice_power : (State.updSlice s n f).power = s.power := rfl
@[simp] theorem State.updSlice_trust : (State.updSlice s n f).trust = s.trust := rfl
@[simp] theorem State.updSlice_quoin : (State.updSlice s n f).quoin = s.quoin := rfl
end

/-! #### wait -/

section
variable (s : State) (w : Waiting)
@[simp] theorem State.wait_pending : (State.wait s w).pending = s.pending := rfl
@[simp] theorem State.wait_free : (State.wait s w).free = s.free := rfl
@[simp] theorem State.wait_time : (State.wait s w).time = s.time := rfl
@[simp] theorem State.wait_therm : (State.wait s w).therm = s.therm := rfl
@[simp] theorem State.wait_objs : (State.wait s w).objs = s.objs := rfl
@[simp] theorem State.wait_stored : (State.wait s w).stored = s.stored := rfl
@[simp] theorem State.wait_slices : (State.wait s w).slices = s.slices := rfl
@[simp] theorem State.wait_bindings : (State.wait s w).bindings = s.bindings := rfl
@[simp] theorem State.wait_host : (State.wait s w).host = { s.host with waiting := s.host.waiting ++ [w] } := rfl
@[simp] theorem State.wait_ctxs : (State.wait s w).ctxs = s.ctxs := rfl
@[simp] theorem State.wait_items : (State.wait s w).items = s.items := rfl
@[simp] theorem State.wait_nextSeq : (State.wait s w).nextSeq = s.nextSeq := rfl
@[simp] theorem State.wait_runs : (State.wait s w).runs = s.runs := rfl
@[simp] theorem State.wait_nextRun : (State.wait s w).nextRun = s.nextRun := rfl
@[simp] theorem State.wait_flowState : (State.wait s w).flowState = s.flowState := rfl
@[simp] theorem State.wait_windows : (State.wait s w).windows = s.windows := rfl
@[simp] theorem State.wait_hashTables : (State.wait s w).hashTables = s.hashTables := rfl
@[simp] theorem State.wait_tables : (State.wait s w).tables = s.tables := rfl
@[simp] theorem State.wait_dicts : (State.wait s w).dicts = s.dicts := rfl
@[simp] theorem State.wait_mason : (State.wait s w).mason = s.mason := rfl
@[simp] theorem State.wait_cores : (State.wait s w).cores = s.cores := rfl
@[simp] theorem State.wait_ks : (State.wait s w).ks = s.ks := rfl
@[simp] theorem State.wait_mem : (State.wait s w).mem = s.mem := rfl
@[simp] theorem State.wait_memx : (State.wait s w).memx = s.memx := rfl
@[simp] theorem State.wait_hod : (State.wait s w).hod = s.hod := rfl
@[simp] theorem State.wait_dg : (State.wait s w).dg = s.dg := rfl
@[simp] theorem State.wait_led : (State.wait s w).led = s.led := rfl
@[simp] theorem State.wait_st : (State.wait s w).st = s.st := rfl
@[simp] theorem State.wait_ports : (State.wait s w).ports = s.ports := rfl
@[simp] theorem State.wait_group : (State.wait s w).group = s.group := rfl
@[simp] theorem State.wait_can : (State.wait s w).can = s.can := rfl
@[simp] theorem State.wait_err : (State.wait s w).err = s.err := rfl
@[simp] theorem State.wait_power : (State.wait s w).power = s.power := rfl
@[simp] theorem State.wait_trust : (State.wait s w).trust = s.trust := rfl
@[simp] theorem State.wait_quoin : (State.wait s w).quoin = s.quoin := rfl
end

/-! #### unwait -/

section
variable (s : State) (w : Waiting)
@[simp] theorem State.unwait_pending : (State.unwait s w).pending = s.pending := rfl
@[simp] theorem State.unwait_free : (State.unwait s w).free = s.free := rfl
@[simp] theorem State.unwait_time : (State.unwait s w).time = s.time := rfl
@[simp] theorem State.unwait_therm : (State.unwait s w).therm = s.therm := rfl
@[simp] theorem State.unwait_objs : (State.unwait s w).objs = s.objs := rfl
@[simp] theorem State.unwait_stored : (State.unwait s w).stored = s.stored := rfl
@[simp] theorem State.unwait_slices : (State.unwait s w).slices = s.slices := rfl
@[simp] theorem State.unwait_bindings : (State.unwait s w).bindings = s.bindings := rfl
@[simp] theorem State.unwait_host : (State.unwait s w).host = { s.host with waiting := s.host.waiting.filter fun x => x != w } := rfl
@[simp] theorem State.unwait_ctxs : (State.unwait s w).ctxs = s.ctxs := rfl
@[simp] theorem State.unwait_items : (State.unwait s w).items = s.items := rfl
@[simp] theorem State.unwait_nextSeq : (State.unwait s w).nextSeq = s.nextSeq := rfl
@[simp] theorem State.unwait_runs : (State.unwait s w).runs = s.runs := rfl
@[simp] theorem State.unwait_nextRun : (State.unwait s w).nextRun = s.nextRun := rfl
@[simp] theorem State.unwait_flowState : (State.unwait s w).flowState = s.flowState := rfl
@[simp] theorem State.unwait_windows : (State.unwait s w).windows = s.windows := rfl
@[simp] theorem State.unwait_hashTables : (State.unwait s w).hashTables = s.hashTables := rfl
@[simp] theorem State.unwait_tables : (State.unwait s w).tables = s.tables := rfl
@[simp] theorem State.unwait_dicts : (State.unwait s w).dicts = s.dicts := rfl
@[simp] theorem State.unwait_mason : (State.unwait s w).mason = s.mason := rfl
@[simp] theorem State.unwait_cores : (State.unwait s w).cores = s.cores := rfl
@[simp] theorem State.unwait_ks : (State.unwait s w).ks = s.ks := rfl
@[simp] theorem State.unwait_mem : (State.unwait s w).mem = s.mem := rfl
@[simp] theorem State.unwait_memx : (State.unwait s w).memx = s.memx := rfl
@[simp] theorem State.unwait_hod : (State.unwait s w).hod = s.hod := rfl
@[simp] theorem State.unwait_dg : (State.unwait s w).dg = s.dg := rfl
@[simp] theorem State.unwait_led : (State.unwait s w).led = s.led := rfl
@[simp] theorem State.unwait_st : (State.unwait s w).st = s.st := rfl
@[simp] theorem State.unwait_ports : (State.unwait s w).ports = s.ports := rfl
@[simp] theorem State.unwait_group : (State.unwait s w).group = s.group := rfl
@[simp] theorem State.unwait_can : (State.unwait s w).can = s.can := rfl
@[simp] theorem State.unwait_err : (State.unwait s w).err = s.err := rfl
@[simp] theorem State.unwait_power : (State.unwait s w).power = s.power := rfl
@[simp] theorem State.unwait_trust : (State.unwait s w).trust = s.trust := rfl
@[simp] theorem State.unwait_quoin : (State.unwait s w).quoin = s.quoin := rfl
end

/-! #### stick -/

section
variable (s : State) (ring bit : Nat)
@[simp] theorem State.stick_pending : (State.stick s ring bit).pending = s.pending := rfl
@[simp] theorem State.stick_free : (State.stick s ring bit).free = s.free := rfl
@[simp] theorem State.stick_time : (State.stick s ring bit).time = s.time := rfl
@[simp] theorem State.stick_therm : (State.stick s ring bit).therm = s.therm := rfl
@[simp] theorem State.stick_objs : (State.stick s ring bit).objs = s.objs := rfl
@[simp] theorem State.stick_stored : (State.stick s ring bit).stored = s.stored := rfl
@[simp] theorem State.stick_slices : (State.stick s ring bit).slices = s.slices := rfl
@[simp] theorem State.stick_bindings : (State.stick s ring bit).bindings = s.bindings := rfl
@[simp] theorem State.stick_host : (State.stick s ring bit).host = s.host := rfl
@[simp] theorem State.stick_ctxs : (State.stick s ring bit).ctxs = s.ctxs := rfl
@[simp] theorem State.stick_items : (State.stick s ring bit).items = s.items := rfl
@[simp] theorem State.stick_nextSeq : (State.stick s ring bit).nextSeq = s.nextSeq := rfl
@[simp] theorem State.stick_runs : (State.stick s ring bit).runs = s.runs := rfl
@[simp] theorem State.stick_nextRun : (State.stick s ring bit).nextRun = s.nextRun := rfl
@[simp] theorem State.stick_flowState : (State.stick s ring bit).flowState = s.flowState := rfl
@[simp] theorem State.stick_windows : (State.stick s ring bit).windows = s.windows := rfl
@[simp] theorem State.stick_hashTables : (State.stick s ring bit).hashTables = s.hashTables := rfl
@[simp] theorem State.stick_tables : (State.stick s ring bit).tables = s.tables := rfl
@[simp] theorem State.stick_dicts : (State.stick s ring bit).dicts = s.dicts := rfl
@[simp] theorem State.stick_mason : (State.stick s ring bit).mason = s.mason := rfl
@[simp] theorem State.stick_cores : (State.stick s ring bit).cores = s.cores := rfl
@[simp] theorem State.stick_ks : (State.stick s ring bit).ks = s.ks := rfl
@[simp] theorem State.stick_mem : (State.stick s ring bit).mem = s.mem := rfl
@[simp] theorem State.stick_memx : (State.stick s ring bit).memx = s.memx := rfl
@[simp] theorem State.stick_hod : (State.stick s ring bit).hod = s.hod := rfl
@[simp] theorem State.stick_dg : (State.stick s ring bit).dg = s.dg := rfl
@[simp] theorem State.stick_led : (State.stick s ring bit).led = s.led := rfl
@[simp] theorem State.stick_st : (State.stick s ring bit).st = s.st := rfl
@[simp] theorem State.stick_ports : (State.stick s ring bit).ports = s.ports := rfl
@[simp] theorem State.stick_group : (State.stick s ring bit).group = s.group := rfl
@[simp] theorem State.stick_can : (State.stick s ring bit).can = s.can := rfl
@[simp] theorem State.stick_err : (State.stick s ring bit).err = { s.err with rings := tupd ring ringEmpty (fun r => { r with sticky := withBit r.sticky bit }) s.err.rings } := rfl
@[simp] theorem State.stick_power : (State.stick s ring bit).power = s.power := rfl
@[simp] theorem State.stick_trust : (State.stick s ring bit).trust = s.trust := rfl
@[simp] theorem State.stick_quoin : (State.stick s ring bit).quoin = s.quoin := rfl
end

/-! #### setCore -/

section
variable (s : State) (u : CoreId) (c : Core)
@[simp] theorem State.setCore_pending : (State.setCore s u c).pending = s.pending := rfl
@[simp] theorem State.setCore_free : (State.setCore s u c).free = s.free := rfl
@[simp] theorem State.setCore_time : (State.setCore s u c).time = s.time := rfl
@[simp] theorem State.setCore_therm : (State.setCore s u c).therm = s.therm := rfl
@[simp] theorem State.setCore_objs : (State.setCore s u c).objs = s.objs := rfl
@[simp] theorem State.setCore_stored : (State.setCore s u c).stored = s.stored := rfl
@[simp] theorem State.setCore_slices : (State.setCore s u c).slices = s.slices := rfl
@[simp] theorem State.setCore_bindings : (State.setCore s u c).bindings = s.bindings := rfl
@[simp] theorem State.setCore_host : (State.setCore s u c).host = s.host := rfl
@[simp] theorem State.setCore_ctxs : (State.setCore s u c).ctxs = s.ctxs := rfl
@[simp] theorem State.setCore_items : (State.setCore s u c).items = s.items := rfl
@[simp] theorem State.setCore_nextSeq : (State.setCore s u c).nextSeq = s.nextSeq := rfl
@[simp] theorem State.setCore_runs : (State.setCore s u c).runs = s.runs := rfl
@[simp] theorem State.setCore_nextRun : (State.setCore s u c).nextRun = s.nextRun := rfl
@[simp] theorem State.setCore_flowState : (State.setCore s u c).flowState = s.flowState := rfl
@[simp] theorem State.setCore_windows : (State.setCore s u c).windows = s.windows := rfl
@[simp] theorem State.setCore_hashTables : (State.setCore s u c).hashTables = s.hashTables := rfl
@[simp] theorem State.setCore_tables : (State.setCore s u c).tables = s.tables := rfl
@[simp] theorem State.setCore_dicts : (State.setCore s u c).dicts = s.dicts := rfl
@[simp] theorem State.setCore_mason : (State.setCore s u c).mason = s.mason := rfl
@[simp] theorem State.setCore_cores : (State.setCore s u c).cores = tset u c s.cores := rfl
@[simp] theorem State.setCore_ks : (State.setCore s u c).ks = s.ks := rfl
@[simp] theorem State.setCore_mem : (State.setCore s u c).mem = s.mem := rfl
@[simp] theorem State.setCore_memx : (State.setCore s u c).memx = s.memx := rfl
@[simp] theorem State.setCore_hod : (State.setCore s u c).hod = s.hod := rfl
@[simp] theorem State.setCore_dg : (State.setCore s u c).dg = s.dg := rfl
@[simp] theorem State.setCore_led : (State.setCore s u c).led = s.led := rfl
@[simp] theorem State.setCore_st : (State.setCore s u c).st = s.st := rfl
@[simp] theorem State.setCore_ports : (State.setCore s u c).ports = s.ports := rfl
@[simp] theorem State.setCore_group : (State.setCore s u c).group = s.group := rfl
@[simp] theorem State.setCore_can : (State.setCore s u c).can = s.can := rfl
@[simp] theorem State.setCore_err : (State.setCore s u c).err = s.err := rfl
@[simp] theorem State.setCore_power : (State.setCore s u c).power = s.power := rfl
@[simp] theorem State.setCore_trust : (State.setCore s u c).trust = s.trust := rfl
@[simp] theorem State.setCore_quoin : (State.setCore s u c).quoin = s.quoin := rfl
end

/-! #### updCtx -/

section
variable (s : State) (n : Nat) (f : Context → Context)
@[simp] theorem State.updCtx_pending : (State.updCtx s n f).pending = s.pending := rfl
@[simp] theorem State.updCtx_free : (State.updCtx s n f).free = s.free := rfl
@[simp] theorem State.updCtx_time : (State.updCtx s n f).time = s.time := rfl
@[simp] theorem State.updCtx_therm : (State.updCtx s n f).therm = s.therm := rfl
@[simp] theorem State.updCtx_objs : (State.updCtx s n f).objs = s.objs := rfl
@[simp] theorem State.updCtx_stored : (State.updCtx s n f).stored = s.stored := rfl
@[simp] theorem State.updCtx_slices : (State.updCtx s n f).slices = s.slices := rfl
@[simp] theorem State.updCtx_bindings : (State.updCtx s n f).bindings = s.bindings := rfl
@[simp] theorem State.updCtx_host : (State.updCtx s n f).host = s.host := rfl
@[simp] theorem State.updCtx_ctxs : (State.updCtx s n f).ctxs = mapIf (fun c => c.num == n) f s.ctxs := rfl
@[simp] theorem State.updCtx_items : (State.updCtx s n f).items = s.items := rfl
@[simp] theorem State.updCtx_nextSeq : (State.updCtx s n f).nextSeq = s.nextSeq := rfl
@[simp] theorem State.updCtx_runs : (State.updCtx s n f).runs = s.runs := rfl
@[simp] theorem State.updCtx_nextRun : (State.updCtx s n f).nextRun = s.nextRun := rfl
@[simp] theorem State.updCtx_flowState : (State.updCtx s n f).flowState = s.flowState := rfl
@[simp] theorem State.updCtx_windows : (State.updCtx s n f).windows = s.windows := rfl
@[simp] theorem State.updCtx_hashTables : (State.updCtx s n f).hashTables = s.hashTables := rfl
@[simp] theorem State.updCtx_tables : (State.updCtx s n f).tables = s.tables := rfl
@[simp] theorem State.updCtx_dicts : (State.updCtx s n f).dicts = s.dicts := rfl
@[simp] theorem State.updCtx_mason : (State.updCtx s n f).mason = s.mason := rfl
@[simp] theorem State.updCtx_cores : (State.updCtx s n f).cores = s.cores := rfl
@[simp] theorem State.updCtx_ks : (State.updCtx s n f).ks = s.ks := rfl
@[simp] theorem State.updCtx_mem : (State.updCtx s n f).mem = s.mem := rfl
@[simp] theorem State.updCtx_memx : (State.updCtx s n f).memx = s.memx := rfl
@[simp] theorem State.updCtx_hod : (State.updCtx s n f).hod = s.hod := rfl
@[simp] theorem State.updCtx_dg : (State.updCtx s n f).dg = s.dg := rfl
@[simp] theorem State.updCtx_led : (State.updCtx s n f).led = s.led := rfl
@[simp] theorem State.updCtx_st : (State.updCtx s n f).st = s.st := rfl
@[simp] theorem State.updCtx_ports : (State.updCtx s n f).ports = s.ports := rfl
@[simp] theorem State.updCtx_group : (State.updCtx s n f).group = s.group := rfl
@[simp] theorem State.updCtx_can : (State.updCtx s n f).can = s.can := rfl
@[simp] theorem State.updCtx_err : (State.updCtx s n f).err = s.err := rfl
@[simp] theorem State.updCtx_power : (State.updCtx s n f).power = s.power := rfl
@[simp] theorem State.updCtx_trust : (State.updCtx s n f).trust = s.trust := rfl
@[simp] theorem State.updCtx_quoin : (State.updCtx s n f).quoin = s.quoin := rfl
end

/-! #### updItem -/

section
variable (s : State) (seq : Nat) (f : Item → Item)
@[simp] theorem State.updItem_pending : (State.updItem s seq f).pending = s.pending := rfl
@[simp] theorem State.updItem_free : (State.updItem s seq f).free = s.free := rfl
@[simp] theorem State.updItem_time : (State.updItem s seq f).time = s.time := rfl
@[simp] theorem State.updItem_therm : (State.updItem s seq f).therm = s.therm := rfl
@[simp] theorem State.updItem_objs : (State.updItem s seq f).objs = s.objs := rfl
@[simp] theorem State.updItem_stored : (State.updItem s seq f).stored = s.stored := rfl
@[simp] theorem State.updItem_slices : (State.updItem s seq f).slices = s.slices := rfl
@[simp] theorem State.updItem_bindings : (State.updItem s seq f).bindings = s.bindings := rfl
@[simp] theorem State.updItem_host : (State.updItem s seq f).host = s.host := rfl
@[simp] theorem State.updItem_ctxs : (State.updItem s seq f).ctxs = s.ctxs := rfl
@[simp] theorem State.updItem_items : (State.updItem s seq f).items = mapIf (fun i => i.seq == seq) f s.items := rfl
@[simp] theorem State.updItem_nextSeq : (State.updItem s seq f).nextSeq = s.nextSeq := rfl
@[simp] theorem State.updItem_runs : (State.updItem s seq f).runs = s.runs := rfl
@[simp] theorem State.updItem_nextRun : (State.updItem s seq f).nextRun = s.nextRun := rfl
@[simp] theorem State.updItem_flowState : (State.updItem s seq f).flowState = s.flowState := rfl
@[simp] theorem State.updItem_windows : (State.updItem s seq f).windows = s.windows := rfl
@[simp] theorem State.updItem_hashTables : (State.updItem s seq f).hashTables = s.hashTables := rfl
@[simp] theorem State.updItem_tables : (State.updItem s seq f).tables = s.tables := rfl
@[simp] theorem State.updItem_dicts : (State.updItem s seq f).dicts = s.dicts := rfl
@[simp] theorem State.updItem_mason : (State.updItem s seq f).mason = s.mason := rfl
@[simp] theorem State.updItem_cores : (State.updItem s seq f).cores = s.cores := rfl
@[simp] theorem State.updItem_ks : (State.updItem s seq f).ks = s.ks := rfl
@[simp] theorem State.updItem_mem : (State.updItem s seq f).mem = s.mem := rfl
@[simp] theorem State.updItem_memx : (State.updItem s seq f).memx = s.memx := rfl
@[simp] theorem State.updItem_hod : (State.updItem s seq f).hod = s.hod := rfl
@[simp] theorem State.updItem_dg : (State.updItem s seq f).dg = s.dg := rfl
@[simp] theorem State.updItem_led : (State.updItem s seq f).led = s.led := rfl
@[simp] theorem State.updItem_st : (State.updItem s seq f).st = s.st := rfl
@[simp] theorem State.updItem_ports : (State.updItem s seq f).ports = s.ports := rfl
@[simp] theorem State.updItem_group : (State.updItem s seq f).group = s.group := rfl
@[simp] theorem State.updItem_can : (State.updItem s seq f).can = s.can := rfl
@[simp] theorem State.updItem_err : (State.updItem s seq f).err = s.err := rfl
@[simp] theorem State.updItem_power : (State.updItem s seq f).power = s.power := rfl
@[simp] theorem State.updItem_trust : (State.updItem s seq f).trust = s.trust := rfl
@[simp] theorem State.updItem_quoin : (State.updItem s seq f).quoin = s.quoin := rfl
end

/-! #### updRun -/

section
variable (s : State) (n : Nat) (f : Run → Run)
@[simp] theorem State.updRun_pending : (State.updRun s n f).pending = s.pending := rfl
@[simp] theorem State.updRun_free : (State.updRun s n f).free = s.free := rfl
@[simp] theorem State.updRun_time : (State.updRun s n f).time = s.time := rfl
@[simp] theorem State.updRun_therm : (State.updRun s n f).therm = s.therm := rfl
@[simp] theorem State.updRun_objs : (State.updRun s n f).objs = s.objs := rfl
@[simp] theorem State.updRun_stored : (State.updRun s n f).stored = s.stored := rfl
@[simp] theorem State.updRun_slices : (State.updRun s n f).slices = s.slices := rfl
@[simp] theorem State.updRun_bindings : (State.updRun s n f).bindings = s.bindings := rfl
@[simp] theorem State.updRun_host : (State.updRun s n f).host = s.host := rfl
@[simp] theorem State.updRun_ctxs : (State.updRun s n f).ctxs = s.ctxs := rfl
@[simp] theorem State.updRun_items : (State.updRun s n f).items = s.items := rfl
@[simp] theorem State.updRun_nextSeq : (State.updRun s n f).nextSeq = s.nextSeq := rfl
@[simp] theorem State.updRun_runs : (State.updRun s n f).runs = mapIf (fun r => r.num == n) f s.runs := rfl
@[simp] theorem State.updRun_nextRun : (State.updRun s n f).nextRun = s.nextRun := rfl
@[simp] theorem State.updRun_flowState : (State.updRun s n f).flowState = s.flowState := rfl
@[simp] theorem State.updRun_windows : (State.updRun s n f).windows = s.windows := rfl
@[simp] theorem State.updRun_hashTables : (State.updRun s n f).hashTables = s.hashTables := rfl
@[simp] theorem State.updRun_tables : (State.updRun s n f).tables = s.tables := rfl
@[simp] theorem State.updRun_dicts : (State.updRun s n f).dicts = s.dicts := rfl
@[simp] theorem State.updRun_mason : (State.updRun s n f).mason = s.mason := rfl
@[simp] theorem State.updRun_cores : (State.updRun s n f).cores = s.cores := rfl
@[simp] theorem State.updRun_ks : (State.updRun s n f).ks = s.ks := rfl
@[simp] theorem State.updRun_mem : (State.updRun s n f).mem = s.mem := rfl
@[simp] theorem State.updRun_memx : (State.updRun s n f).memx = s.memx := rfl
@[simp] theorem State.updRun_hod : (State.updRun s n f).hod = s.hod := rfl
@[simp] theorem State.updRun_dg : (State.updRun s n f).dg = s.dg := rfl
@[simp] theorem State.updRun_led : (State.updRun s n f).led = s.led := rfl
@[simp] theorem State.updRun_st : (State.updRun s n f).st = s.st := rfl
@[simp] theorem State.updRun_ports : (State.updRun s n f).ports = s.ports := rfl
@[simp] theorem State.updRun_group : (State.updRun s n f).group = s.group := rfl
@[simp] theorem State.updRun_can : (State.updRun s n f).can = s.can := rfl
@[simp] theorem State.updRun_err : (State.updRun s n f).err = s.err := rfl
@[simp] theorem State.updRun_power : (State.updRun s n f).power = s.power := rfl
@[simp] theorem State.updRun_trust : (State.updRun s n f).trust = s.trust := rfl
@[simp] theorem State.updRun_quoin : (State.updRun s n f).quoin = s.quoin := rfl
end

/-! #### updPort -/

section
variable (s : State) (p : Nat) (f : Port → Port)
@[simp] theorem State.updPort_pending : (State.updPort s p f).pending = s.pending := rfl
@[simp] theorem State.updPort_free : (State.updPort s p f).free = s.free := rfl
@[simp] theorem State.updPort_time : (State.updPort s p f).time = s.time := rfl
@[simp] theorem State.updPort_therm : (State.updPort s p f).therm = s.therm := rfl
@[simp] theorem State.updPort_objs : (State.updPort s p f).objs = s.objs := rfl
@[simp] theorem State.updPort_stored : (State.updPort s p f).stored = s.stored := rfl
@[simp] theorem State.updPort_slices : (State.updPort s p f).slices = s.slices := rfl
@[simp] theorem State.updPort_bindings : (State.updPort s p f).bindings = s.bindings := rfl
@[simp] theorem State.updPort_host : (State.updPort s p f).host = s.host := rfl
@[simp] theorem State.updPort_ctxs : (State.updPort s p f).ctxs = s.ctxs := rfl
@[simp] theorem State.updPort_items : (State.updPort s p f).items = s.items := rfl
@[simp] theorem State.updPort_nextSeq : (State.updPort s p f).nextSeq = s.nextSeq := rfl
@[simp] theorem State.updPort_runs : (State.updPort s p f).runs = s.runs := rfl
@[simp] theorem State.updPort_nextRun : (State.updPort s p f).nextRun = s.nextRun := rfl
@[simp] theorem State.updPort_flowState : (State.updPort s p f).flowState = s.flowState := rfl
@[simp] theorem State.updPort_windows : (State.updPort s p f).windows = s.windows := rfl
@[simp] theorem State.updPort_hashTables : (State.updPort s p f).hashTables = s.hashTables := rfl
@[simp] theorem State.updPort_tables : (State.updPort s p f).tables = s.tables := rfl
@[simp] theorem State.updPort_dicts : (State.updPort s p f).dicts = s.dicts := rfl
@[simp] theorem State.updPort_mason : (State.updPort s p f).mason = s.mason := rfl
@[simp] theorem State.updPort_cores : (State.updPort s p f).cores = s.cores := rfl
@[simp] theorem State.updPort_ks : (State.updPort s p f).ks = s.ks := rfl
@[simp] theorem State.updPort_mem : (State.updPort s p f).mem = s.mem := rfl
@[simp] theorem State.updPort_memx : (State.updPort s p f).memx = s.memx := rfl
@[simp] theorem State.updPort_hod : (State.updPort s p f).hod = s.hod := rfl
@[simp] theorem State.updPort_dg : (State.updPort s p f).dg = s.dg := rfl
@[simp] theorem State.updPort_led : (State.updPort s p f).led = s.led := rfl
@[simp] theorem State.updPort_st : (State.updPort s p f).st = s.st := rfl
@[simp] theorem State.updPort_ports : (State.updPort s p f).ports = tupd p portReset f s.ports := rfl
@[simp] theorem State.updPort_group : (State.updPort s p f).group = s.group := rfl
@[simp] theorem State.updPort_can : (State.updPort s p f).can = s.can := rfl
@[simp] theorem State.updPort_err : (State.updPort s p f).err = s.err := rfl
@[simp] theorem State.updPort_power : (State.updPort s p f).power = s.power := rfl
@[simp] theorem State.updPort_trust : (State.updPort s p f).trust = s.trust := rfl
@[simp] theorem State.updPort_quoin : (State.updPort s p f).quoin = s.quoin := rfl
end

/-! #### updKs -/

section
variable (s : State) (slice id : Nat) (f : KsTab → KsTab)
@[simp] theorem State.updKs_pending : (State.updKs s slice id f).pending = s.pending := rfl
@[simp] theorem State.updKs_free : (State.updKs s slice id f).free = s.free := rfl
@[simp] theorem State.updKs_time : (State.updKs s slice id f).time = s.time := rfl
@[simp] theorem State.updKs_therm : (State.updKs s slice id f).therm = s.therm := rfl
@[simp] theorem State.updKs_objs : (State.updKs s slice id f).objs = s.objs := rfl
@[simp] theorem State.updKs_stored : (State.updKs s slice id f).stored = s.stored := rfl
@[simp] theorem State.updKs_slices : (State.updKs s slice id f).slices = s.slices := rfl
@[simp] theorem State.updKs_bindings : (State.updKs s slice id f).bindings = s.bindings := rfl
@[simp] theorem State.updKs_host : (State.updKs s slice id f).host = s.host := rfl
@[simp] theorem State.updKs_ctxs : (State.updKs s slice id f).ctxs = s.ctxs := rfl
@[simp] theorem State.updKs_items : (State.updKs s slice id f).items = s.items := rfl
@[simp] theorem State.updKs_nextSeq : (State.updKs s slice id f).nextSeq = s.nextSeq := rfl
@[simp] theorem State.updKs_runs : (State.updKs s slice id f).runs = s.runs := rfl
@[simp] theorem State.updKs_nextRun : (State.updKs s slice id f).nextRun = s.nextRun := rfl
@[simp] theorem State.updKs_flowState : (State.updKs s slice id f).flowState = s.flowState := rfl
@[simp] theorem State.updKs_windows : (State.updKs s slice id f).windows = s.windows := rfl
@[simp] theorem State.updKs_hashTables : (State.updKs s slice id f).hashTables = s.hashTables := rfl
@[simp] theorem State.updKs_tables : (State.updKs s slice id f).tables = s.tables := rfl
@[simp] theorem State.updKs_dicts : (State.updKs s slice id f).dicts = s.dicts := rfl
@[simp] theorem State.updKs_mason : (State.updKs s slice id f).mason = s.mason := rfl
@[simp] theorem State.updKs_cores : (State.updKs s slice id f).cores = s.cores := rfl
@[simp] theorem State.updKs_ks : (State.updKs s slice id f).ks = { s.ks with tables := mapIf (fun t => t.slice == slice && t.id == id) f s.ks.tables } := rfl
@[simp] theorem State.updKs_mem : (State.updKs s slice id f).mem = s.mem := rfl
@[simp] theorem State.updKs_memx : (State.updKs s slice id f).memx = s.memx := rfl
@[simp] theorem State.updKs_hod : (State.updKs s slice id f).hod = s.hod := rfl
@[simp] theorem State.updKs_dg : (State.updKs s slice id f).dg = s.dg := rfl
@[simp] theorem State.updKs_led : (State.updKs s slice id f).led = s.led := rfl
@[simp] theorem State.updKs_st : (State.updKs s slice id f).st = s.st := rfl
@[simp] theorem State.updKs_ports : (State.updKs s slice id f).ports = s.ports := rfl
@[simp] theorem State.updKs_group : (State.updKs s slice id f).group = s.group := rfl
@[simp] theorem State.updKs_can : (State.updKs s slice id f).can = s.can := rfl
@[simp] theorem State.updKs_err : (State.updKs s slice id f).err = s.err := rfl
@[simp] theorem State.updKs_power : (State.updKs s slice id f).power = s.power := rfl
@[simp] theorem State.updKs_trust : (State.updKs s slice id f).trust = s.trust := rfl
@[simp] theorem State.updKs_quoin : (State.updKs s slice id f).quoin = s.quoin := rfl
end

/-! #### setHod -/

section
variable (s : State) (b c : Nat) (h : HodCh)
@[simp] theorem State.setHod_pending : (State.setHod s b c h).pending = s.pending := rfl
@[simp] theorem State.setHod_free : (State.setHod s b c h).free = s.free := rfl
@[simp] theorem State.setHod_time : (State.setHod s b c h).time = s.time := rfl
@[simp] theorem State.setHod_therm : (State.setHod s b c h).therm = s.therm := rfl
@[simp] theorem State.setHod_objs : (State.setHod s b c h).objs = s.objs := rfl
@[simp] theorem State.setHod_stored : (State.setHod s b c h).stored = s.stored := rfl
@[simp] theorem State.setHod_slices : (State.setHod s b c h).slices = s.slices := rfl
@[simp] theorem State.setHod_bindings : (State.setHod s b c h).bindings = s.bindings := rfl
@[simp] theorem State.setHod_host : (State.setHod s b c h).host = s.host := rfl
@[simp] theorem State.setHod_ctxs : (State.setHod s b c h).ctxs = s.ctxs := rfl
@[simp] theorem State.setHod_items : (State.setHod s b c h).items = s.items := rfl
@[simp] theorem State.setHod_nextSeq : (State.setHod s b c h).nextSeq = s.nextSeq := rfl
@[simp] theorem State.setHod_runs : (State.setHod s b c h).runs = s.runs := rfl
@[simp] theorem State.setHod_nextRun : (State.setHod s b c h).nextRun = s.nextRun := rfl
@[simp] theorem State.setHod_flowState : (State.setHod s b c h).flowState = s.flowState := rfl
@[simp] theorem State.setHod_windows : (State.setHod s b c h).windows = s.windows := rfl
@[simp] theorem State.setHod_hashTables : (State.setHod s b c h).hashTables = s.hashTables := rfl
@[simp] theorem State.setHod_tables : (State.setHod s b c h).tables = s.tables := rfl
@[simp] theorem State.setHod_dicts : (State.setHod s b c h).dicts = s.dicts := rfl
@[simp] theorem State.setHod_mason : (State.setHod s b c h).mason = s.mason := rfl
@[simp] theorem State.setHod_cores : (State.setHod s b c h).cores = s.cores := rfl
@[simp] theorem State.setHod_ks : (State.setHod s b c h).ks = s.ks := rfl
@[simp] theorem State.setHod_mem : (State.setHod s b c h).mem = s.mem := rfl
@[simp] theorem State.setHod_memx : (State.setHod s b c h).memx = s.memx := rfl
@[simp] theorem State.setHod_hod : (State.setHod s b c h).hod = { s.hod with ch := tset (b, c) h s.hod.ch } := rfl
@[simp] theorem State.setHod_dg : (State.setHod s b c h).dg = s.dg := rfl
@[simp] theorem State.setHod_led : (State.setHod s b c h).led = s.led := rfl
@[simp] theorem State.setHod_st : (State.setHod s b c h).st = s.st := rfl
@[simp] theorem State.setHod_ports : (State.setHod s b c h).ports = s.ports := rfl
@[simp] theorem State.setHod_group : (State.setHod s b c h).group = s.group := rfl
@[simp] theorem State.setHod_can : (State.setHod s b c h).can = s.can := rfl
@[simp] theorem State.setHod_err : (State.setHod s b c h).err = s.err := rfl
@[simp] theorem State.setHod_power : (State.setHod s b c h).power = s.power := rfl
@[simp] theorem State.setHod_trust : (State.setHod s b c h).trust = s.trust := rfl
@[simp] theorem State.setHod_quoin : (State.setHod s b c h).quoin = s.quoin := rfl
end

/-! #### awake -/

section
variable (s : State)
@[simp] theorem State.awake_pending : (State.awake s).pending = s.pending := rfl
@[simp] theorem State.awake_free : (State.awake s).free = s.free := rfl
@[simp] theorem State.awake_time : (State.awake s).time = s.time := rfl
@[simp] theorem State.awake_therm : (State.awake s).therm = s.therm := rfl
@[simp] theorem State.awake_objs : (State.awake s).objs = s.objs := rfl
@[simp] theorem State.awake_stored : (State.awake s).stored = s.stored := rfl
@[simp] theorem State.awake_slices : (State.awake s).slices = s.slices := rfl
@[simp] theorem State.awake_bindings : (State.awake s).bindings = s.bindings := rfl
@[simp] theorem State.awake_host : (State.awake s).host = s.host := rfl
@[simp] theorem State.awake_ctxs : (State.awake s).ctxs = s.ctxs := rfl
@[simp] theorem State.awake_items : (State.awake s).items = s.items := rfl
@[simp] theorem State.awake_nextSeq : (State.awake s).nextSeq = s.nextSeq := rfl
@[simp] theorem State.awake_runs : (State.awake s).runs = s.runs := rfl
@[simp] theorem State.awake_nextRun : (State.awake s).nextRun = s.nextRun := rfl
@[simp] theorem State.awake_flowState : (State.awake s).flowState = s.flowState := rfl
@[simp] theorem State.awake_windows : (State.awake s).windows = s.windows := rfl
@[simp] theorem State.awake_hashTables : (State.awake s).hashTables = s.hashTables := rfl
@[simp] theorem State.awake_tables : (State.awake s).tables = s.tables := rfl
@[simp] theorem State.awake_dicts : (State.awake s).dicts = s.dicts := rfl
@[simp] theorem State.awake_mason : (State.awake s).mason = s.mason := rfl
@[simp] theorem State.awake_cores : (State.awake s).cores = s.cores := rfl
@[simp] theorem State.awake_ks : (State.awake s).ks = s.ks := rfl
@[simp] theorem State.awake_mem : (State.awake s).mem = s.mem := rfl
@[simp] theorem State.awake_memx : (State.awake s).memx = s.memx := rfl
@[simp] theorem State.awake_hod : (State.awake s).hod = s.hod := rfl
@[simp] theorem State.awake_dg : (State.awake s).dg = s.dg := rfl
@[simp] theorem State.awake_led : (State.awake s).led = s.led := rfl
@[simp] theorem State.awake_st : (State.awake s).st = s.st := rfl
@[simp] theorem State.awake_ports : (State.awake s).ports = s.ports := rfl
@[simp] theorem State.awake_group : (State.awake s).group = s.group := rfl
@[simp] theorem State.awake_can : (State.awake s).can = s.can := rfl
@[simp] theorem State.awake_err : (State.awake s).err = s.err := rfl
@[simp] theorem State.awake_power : (State.awake s).power = { s.power with hubAsleep := false, hubIdle := s.time.count } := rfl
@[simp] theorem State.awake_trust : (State.awake s).trust = s.trust := rfl
@[simp] theorem State.awake_quoin : (State.awake s).quoin = s.quoin := rfl
end

/-! #### setL2 -/

section
variable (s : State) (b : Nat) (ls : List Line)
@[simp] theorem State.setL2_pending : (State.setL2 s b ls).pending = s.pending := rfl
@[simp] theorem State.setL2_free : (State.setL2 s b ls).free = s.free := rfl
@[simp] theorem State.setL2_time : (State.setL2 s b ls).time = s.time := rfl
@[simp] theorem State.setL2_therm : (State.setL2 s b ls).therm = s.therm := rfl
@[simp] theorem State.setL2_objs : (State.setL2 s b ls).objs = s.objs := rfl
@[simp] theorem State.setL2_stored : (State.setL2 s b ls).stored = s.stored := rfl
@[simp] theorem State.setL2_slices : (State.setL2 s b ls).slices = s.slices := rfl
@[simp] theorem State.setL2_bindings : (State.setL2 s b ls).bindings = s.bindings := rfl
@[simp] theorem State.setL2_host : (State.setL2 s b ls).host = s.host := rfl
@[simp] theorem State.setL2_ctxs : (State.setL2 s b ls).ctxs = s.ctxs := rfl
@[simp] theorem State.setL2_items : (State.setL2 s b ls).items = s.items := rfl
@[simp] theorem State.setL2_nextSeq : (State.setL2 s b ls).nextSeq = s.nextSeq := rfl
@[simp] theorem State.setL2_runs : (State.setL2 s b ls).runs = s.runs := rfl
@[simp] theorem State.setL2_nextRun : (State.setL2 s b ls).nextRun = s.nextRun := rfl
@[simp] theorem State.setL2_flowState : (State.setL2 s b ls).flowState = s.flowState := rfl
@[simp] theorem State.setL2_windows : (State.setL2 s b ls).windows = s.windows := rfl
@[simp] theorem State.setL2_hashTables : (State.setL2 s b ls).hashTables = s.hashTables := rfl
@[simp] theorem State.setL2_tables : (State.setL2 s b ls).tables = s.tables := rfl
@[simp] theorem State.setL2_dicts : (State.setL2 s b ls).dicts = s.dicts := rfl
@[simp] theorem State.setL2_mason : (State.setL2 s b ls).mason = s.mason := rfl
@[simp] theorem State.setL2_cores : (State.setL2 s b ls).cores = s.cores := rfl
@[simp] theorem State.setL2_ks : (State.setL2 s b ls).ks = s.ks := rfl
@[simp] theorem State.setL2_mem : (State.setL2 s b ls).mem = s.mem := rfl
@[simp] theorem State.setL2_memx : (State.setL2 s b ls).memx = { s.memx with l2 := tset b ls s.memx.l2 } := rfl
@[simp] theorem State.setL2_hod : (State.setL2 s b ls).hod = s.hod := rfl
@[simp] theorem State.setL2_dg : (State.setL2 s b ls).dg = s.dg := rfl
@[simp] theorem State.setL2_led : (State.setL2 s b ls).led = s.led := rfl
@[simp] theorem State.setL2_st : (State.setL2 s b ls).st = s.st := rfl
@[simp] theorem State.setL2_ports : (State.setL2 s b ls).ports = s.ports := rfl
@[simp] theorem State.setL2_group : (State.setL2 s b ls).group = s.group := rfl
@[simp] theorem State.setL2_can : (State.setL2 s b ls).can = s.can := rfl
@[simp] theorem State.setL2_err : (State.setL2 s b ls).err = s.err := rfl
@[simp] theorem State.setL2_power : (State.setL2 s b ls).power = s.power := rfl
@[simp] theorem State.setL2_trust : (State.setL2 s b ls).trust = s.trust := rfl
@[simp] theorem State.setL2_quoin : (State.setL2 s b ls).quoin = s.quoin := rfl
end

/-! #### setPoison -/

section
variable (s : State) (ca : Nat)
@[simp] theorem State.setPoison_pending : (State.setPoison s ca).pending = s.pending := rfl
@[simp] theorem State.setPoison_free : (State.setPoison s ca).free = s.free := rfl
@[simp] theorem State.setPoison_time : (State.setPoison s ca).time = s.time := rfl
@[simp] theorem State.setPoison_therm : (State.setPoison s ca).therm = s.therm := rfl
@[simp] theorem State.setPoison_objs : (State.setPoison s ca).objs = s.objs := rfl
@[simp] theorem State.setPoison_stored : (State.setPoison s ca).stored = s.stored := rfl
@[simp] theorem State.setPoison_slices : (State.setPoison s ca).slices = s.slices := rfl
@[simp] theorem State.setPoison_bindings : (State.setPoison s ca).bindings = s.bindings := rfl
@[simp] theorem State.setPoison_host : (State.setPoison s ca).host = s.host := rfl
@[simp] theorem State.setPoison_ctxs : (State.setPoison s ca).ctxs = s.ctxs := rfl
@[simp] theorem State.setPoison_items : (State.setPoison s ca).items = s.items := rfl
@[simp] theorem State.setPoison_nextSeq : (State.setPoison s ca).nextSeq = s.nextSeq := rfl
@[simp] theorem State.setPoison_runs : (State.setPoison s ca).runs = s.runs := rfl
@[simp] theorem State.setPoison_nextRun : (State.setPoison s ca).nextRun = s.nextRun := rfl
@[simp] theorem State.setPoison_flowState : (State.setPoison s ca).flowState = s.flowState := rfl
@[simp] theorem State.setPoison_windows : (State.setPoison s ca).windows = s.windows := rfl
@[simp] theorem State.setPoison_hashTables : (State.setPoison s ca).hashTables = s.hashTables := rfl
@[simp] theorem State.setPoison_tables : (State.setPoison s ca).tables = s.tables := rfl
@[simp] theorem State.setPoison_dicts : (State.setPoison s ca).dicts = s.dicts := rfl
@[simp] theorem State.setPoison_mason : (State.setPoison s ca).mason = s.mason := rfl
@[simp] theorem State.setPoison_cores : (State.setPoison s ca).cores = s.cores := rfl
@[simp] theorem State.setPoison_ks : (State.setPoison s ca).ks = s.ks := rfl
@[simp] theorem State.setPoison_mem : (State.setPoison s ca).mem = s.mem := rfl
@[simp] theorem State.setPoison_memx : (State.setPoison s ca).memx = { s.memx with poison := if s.poisoned ca then s.memx.poison else lineOf (caLocal ca) :: s.memx.poison } := rfl
@[simp] theorem State.setPoison_hod : (State.setPoison s ca).hod = s.hod := rfl
@[simp] theorem State.setPoison_dg : (State.setPoison s ca).dg = s.dg := rfl
@[simp] theorem State.setPoison_led : (State.setPoison s ca).led = s.led := rfl
@[simp] theorem State.setPoison_st : (State.setPoison s ca).st = s.st := rfl
@[simp] theorem State.setPoison_ports : (State.setPoison s ca).ports = s.ports := rfl
@[simp] theorem State.setPoison_group : (State.setPoison s ca).group = s.group := rfl
@[simp] theorem State.setPoison_can : (State.setPoison s ca).can = s.can := rfl
@[simp] theorem State.setPoison_err : (State.setPoison s ca).err = s.err := rfl
@[simp] theorem State.setPoison_power : (State.setPoison s ca).power = s.power := rfl
@[simp] theorem State.setPoison_trust : (State.setPoison s ca).trust = s.trust := rfl
@[simp] theorem State.setPoison_quoin : (State.setPoison s ca).quoin = s.quoin := rfl
end

/-! #### touched -/

section
variable (s : State)
@[simp] theorem State.touched_pending : (State.touched s).pending = s.pending := rfl
@[simp] theorem State.touched_free : (State.touched s).free = s.free := rfl
@[simp] theorem State.touched_time : (State.touched s).time = s.time := rfl
@[simp] theorem State.touched_therm : (State.touched s).therm = s.therm := rfl
@[simp] theorem State.touched_objs : (State.touched s).objs = s.objs := rfl
@[simp] theorem State.touched_stored : (State.touched s).stored = s.stored := rfl
@[simp] theorem State.touched_slices : (State.touched s).slices = s.slices := rfl
@[simp] theorem State.touched_bindings : (State.touched s).bindings = s.bindings := rfl
@[simp] theorem State.touched_host : (State.touched s).host = s.host := rfl
@[simp] theorem State.touched_ctxs : (State.touched s).ctxs = s.ctxs := rfl
@[simp] theorem State.touched_items : (State.touched s).items = s.items := rfl
@[simp] theorem State.touched_nextSeq : (State.touched s).nextSeq = s.nextSeq := rfl
@[simp] theorem State.touched_runs : (State.touched s).runs = s.runs := rfl
@[simp] theorem State.touched_nextRun : (State.touched s).nextRun = s.nextRun := rfl
@[simp] theorem State.touched_flowState : (State.touched s).flowState = s.flowState := rfl
@[simp] theorem State.touched_windows : (State.touched s).windows = s.windows := rfl
@[simp] theorem State.touched_hashTables : (State.touched s).hashTables = s.hashTables := rfl
@[simp] theorem State.touched_tables : (State.touched s).tables = s.tables := rfl
@[simp] theorem State.touched_dicts : (State.touched s).dicts = s.dicts := rfl
@[simp] theorem State.touched_mason : (State.touched s).mason = s.mason := rfl
@[simp] theorem State.touched_cores : (State.touched s).cores = s.cores := rfl
@[simp] theorem State.touched_ks : (State.touched s).ks = s.ks := rfl
@[simp] theorem State.touched_mem : (State.touched s).mem = s.mem := rfl
@[simp] theorem State.touched_memx : (State.touched s).memx = s.memx := rfl
@[simp] theorem State.touched_hod : (State.touched s).hod = s.hod := rfl
@[simp] theorem State.touched_dg : (State.touched s).dg = s.dg := rfl
@[simp] theorem State.touched_led : (State.touched s).led = s.led := rfl
@[simp] theorem State.touched_st : (State.touched s).st = s.st := rfl
@[simp] theorem State.touched_ports : (State.touched s).ports = s.ports := rfl
@[simp] theorem State.touched_group : (State.touched s).group = s.group := rfl
@[simp] theorem State.touched_can : (State.touched s).can = { s.can with lastRequest := s.now } := rfl
@[simp] theorem State.touched_err : (State.touched s).err = s.err := rfl
@[simp] theorem State.touched_power : (State.touched s).power = s.power := rfl
@[simp] theorem State.touched_trust : (State.touched s).trust = s.trust := rfl
@[simp] theorem State.touched_quoin : (State.touched s).quoin = s.quoin := rfl
end

/-! #### setTransfer -/

section
variable (s : State) (x : Option Transfer)
@[simp] theorem State.setTransfer_pending : (State.setTransfer s x).pending = s.pending := rfl
@[simp] theorem State.setTransfer_free : (State.setTransfer s x).free = s.free := rfl
@[simp] theorem State.setTransfer_time : (State.setTransfer s x).time = s.time := rfl
@[simp] theorem State.setTransfer_therm : (State.setTransfer s x).therm = s.therm := rfl
@[simp] theorem State.setTransfer_objs : (State.setTransfer s x).objs = s.objs := rfl
@[simp] theorem State.setTransfer_stored : (State.setTransfer s x).stored = s.stored := rfl
@[simp] theorem State.setTransfer_slices : (State.setTransfer s x).slices = s.slices := rfl
@[simp] theorem State.setTransfer_bindings : (State.setTransfer s x).bindings = s.bindings := rfl
@[simp] theorem State.setTransfer_host : (State.setTransfer s x).host = s.host := rfl
@[simp] theorem State.setTransfer_ctxs : (State.setTransfer s x).ctxs = s.ctxs := rfl
@[simp] theorem State.setTransfer_items : (State.setTransfer s x).items = s.items := rfl
@[simp] theorem State.setTransfer_nextSeq : (State.setTransfer s x).nextSeq = s.nextSeq := rfl
@[simp] theorem State.setTransfer_runs : (State.setTransfer s x).runs = s.runs := rfl
@[simp] theorem State.setTransfer_nextRun : (State.setTransfer s x).nextRun = s.nextRun := rfl
@[simp] theorem State.setTransfer_flowState : (State.setTransfer s x).flowState = s.flowState := rfl
@[simp] theorem State.setTransfer_windows : (State.setTransfer s x).windows = s.windows := rfl
@[simp] theorem State.setTransfer_hashTables : (State.setTransfer s x).hashTables = s.hashTables := rfl
@[simp] theorem State.setTransfer_tables : (State.setTransfer s x).tables = s.tables := rfl
@[simp] theorem State.setTransfer_dicts : (State.setTransfer s x).dicts = s.dicts := rfl
@[simp] theorem State.setTransfer_mason : (State.setTransfer s x).mason = s.mason := rfl
@[simp] theorem State.setTransfer_cores : (State.setTransfer s x).cores = s.cores := rfl
@[simp] theorem State.setTransfer_ks : (State.setTransfer s x).ks = s.ks := rfl
@[simp] theorem State.setTransfer_mem : (State.setTransfer s x).mem = s.mem := rfl
@[simp] theorem State.setTransfer_memx : (State.setTransfer s x).memx = s.memx := rfl
@[simp] theorem State.setTransfer_hod : (State.setTransfer s x).hod = s.hod := rfl
@[simp] theorem State.setTransfer_dg : (State.setTransfer s x).dg = s.dg := rfl
@[simp] theorem State.setTransfer_led : (State.setTransfer s x).led = s.led := rfl
@[simp] theorem State.setTransfer_st : (State.setTransfer s x).st = s.st := rfl
@[simp] theorem State.setTransfer_ports : (State.setTransfer s x).ports = s.ports := rfl
@[simp] theorem State.setTransfer_group : (State.setTransfer s x).group = s.group := rfl
@[simp] theorem State.setTransfer_can : (State.setTransfer s x).can = { s.can with transfer := x } := rfl
@[simp] theorem State.setTransfer_err : (State.setTransfer s x).err = s.err := rfl
@[simp] theorem State.setTransfer_power : (State.setTransfer s x).power = s.power := rfl
@[simp] theorem State.setTransfer_trust : (State.setTransfer s x).trust = s.trust := rfl
@[simp] theorem State.setTransfer_quoin : (State.setTransfer s x).quoin = s.quoin := rfl
end

end Sys2Proof.Machine
end

