-- ==== Sys2Proof/Tests/Slice0.lean ====
section
/-! SUPPORT. Tests: for each obligation with hypotheses a state and operands that meet them (witness_<obligation>), ill-formed
terms that the check refuses, and values of the spec's own examples. -/

set_option maxRecDepth 8000

namespace Sys2Proof.Tests

open Sys2Proof Sys2Proof.Machine

/-! ### Small states -/

/-- A device with one core that is not as it is after reset. -/
def withCore (u : CoreId) (c : Core) : State := { State.reset with cores := [(u, c)] }

/-- A Quoin core with some scalar, vector and predicate registers set. -/
def coreWith (ss vs : List Nat) : Core :=
  { coreReset (.quoin 0) with
    s := fitList 32 0 (ss.map (BitVec.ofNat 60))
    v := fitList 16 0 (vs.map (BitVec.ofNat 768)) }

/-- A firing of a MAP of a G item with one output port of courses and a work area of one line. -/
def firing : Firing where
  start := 0
  w := .item 1
  op := 1
  slice := 1
  gen := 0
  ctx := 0
  cls := 0
  nout := 1
  codeLen := 8
  cycleBound := 1000
  boundDetail := 0
  scratch := 1
  predict := false
  outLayouts := [.fields []]
  inputs := []
  workArea := []
  input := List.replicate 64 0
  emitted := []
  digests := []

/-- A stone that runs it. -/
def stoneCore : Core := { coreReset (.stone 0 0) with firing := some firing, budget := 100 }

/-! ### Witnesses: a core that issues -/

/-- A Quoin core that waits for nothing issues any instruction of a defined encoding. -/
theorem issues_quoin (c : Core) (i : Info) (h : i.legal = true) (ha : c.access = none) (hn : c.annul = false)
    (hs : c.slot = none) : Issues (withCore (.quoin 0) c) (.quoin 0) 0 i (withCore (.quoin 0) c) := by
  have hc : (withCore (.quoin 0) c).coreOf (.quoin 0) = c := by simp [withCore, State.coreOf, tgetD, tget]
  refine ⟨⟨0, false, ?_⟩, by rw [hc, hn], fun _ => by rw [hc, hs]⟩
  have hw : (withCore (.quoin 0) c).settle (.quoin 0) = withCore (.quoin 0) c := by
    unfold State.settle State.resumeAccess; rw [hc, ha]
  have hq : (withCore (.quoin 0) c).quoin.fenced = [] := rfl
  have hx : (withCore (.quoin 0) c).awaits (.quoin 0) (i.reads ++ i.writes) = false := rfl
  simp [State.gate, State.gateQuoin, hw, hq, hc, ha, hx, h, Core.executes, hn, Core.pr]

theorem witness_ScalarThreeRegisterResults : Issues (withCore (.quoin 0) (coreWith [] [])) (.quoin 0) 0
    (infoS 4 (rS [31, 0]) (rS [0]) true) (withCore (.quoin 0) (coreWith [] [])) := issues_quoin _ _ rfl rfl rfl rfl

theorem witness_SaturatingSumsSetOverflow : Issues (withCore (.quoin 0) (coreWith [0, 2 ^ 59 - 1, 1] [])) (.quoin 0) 0
    (infoS 1 (rS [1, 2]) (rS [31] ++ [rOvf]) true) (withCore (.quoin 0) (coreWith [0, 2 ^ 59 - 1, 1] [])) :=
  issues_quoin _ _ rfl rfl rfl rfl

theorem witness_ScalarOneRegisterResults : Issues (withCore (.quoin 0) (coreWith [0, 2 ^ 60 - 1] [])) (.quoin 0) 0
    (infoS 2 (rS [1]) (rS [1]) true) (withCore (.quoin 0) (coreWith [0, 2 ^ 60 - 1] [])) := issues_quoin _ _ rfl rfl rfl rfl

theorem witness_ImmediateResults : Issues (withCore (.quoin 0) (coreWith [] [])) (.quoin 0) 0 (infoS 1 [] (rS [31]) true)
      (withCore (.quoin 0) (coreWith [] [])) ∧
    Issues (withCore (.quoin 0) (coreWith [] [])) (.quoin 0) 0 (infoS 1 (rS [31]) (rS [31]) true)
      (withCore (.quoin 0) (coreWith [] [])) := ⟨issues_quoin _ _ rfl rfl rfl rfl, issues_quoin _ _ rfl rfl rfl rfl⟩

theorem witness_PredicateResults : (0 ≤ 5 ∧ 5 ≤ 5 ∧ Claims.conditionOf 0 0 0 ∧ Claims.conditionOf 5 0 0 ∧
      ¬Claims.conditionOf 4 0 0) ∧
    Issues (withCore (.quoin 0) (coreWith [] [])) (.quoin 0) 0 (infoS 1 (rP [7, 0]) (rP [0]) true)
      (withCore (.quoin 0) (coreWith [] [])) ∧
    Issues (withCore (.quoin 0) (coreWith [] [])) (.quoin 0) 0 (infoS 1 (rS [0, 1]) (rP [7]) true)
      (withCore (.quoin 0) (coreWith [] [])) ∧
    Issues (withCore (.quoin 0) (coreWith [] [])) (.quoin 0) 0 (infoS 2 (rP [7]) (rS [31]) true)
      (withCore (.quoin 0) (coreWith [] [])) :=
  ⟨⟨by decide, by decide, rfl, Nat.le_refl _, Nat.lt_irrefl _⟩,
    issues_quoin _ _ rfl rfl rfl rfl, issues_quoin _ _ rfl rfl rfl rfl, issues_quoin _ _ rfl rfl rfl rfl⟩

/-- The pairs s2 and s30, and the quad s28, are the first and the last a decimal instruction names. -/
theorem witness_DecimalTwoPairResults : pairOk 2 = true ∧ pairOk 30 = true ∧ quadOk 28 = true ∧ quadOk 4 = true ∧
    (coreWith [] []).pairDec 2 = some 0 ∧ (coreWith [] []).pairDec 30 = some 0 ∧
    Issues (withCore (.quoin 0) (coreWith [] [])) (.quoin 0) 0 { infoS 8 (rPair [2, 30]) (rPair [30] ++ [rOvf]) true with occ := 2 }
      (withCore (.quoin 0) (coreWith [] [])) ∧
    Issues (withCore (.quoin 0) (coreWith [] [])) (.quoin 0) 0 { infoS 10 (rPair [2, 30]) (rQuad 28) true with occ := 2 }
      (withCore (.quoin 0) (coreWith [] [])) ∧
    Issues (withCore (.quoin 0) (coreWith [] [])) (.quoin 0) 0 (infoS 3 (rPair [2, 30] ++ [.ctl 3]) (rPair [30] ++ [.ctl 3]) true)
      (withCore (.quoin 0) (coreWith [] [])) :=
  ⟨rfl, rfl, rfl, rfl, by decide, by decide, issues_quoin _ _ rfl rfl rfl rfl, issues_quoin _ _ rfl rfl rfl rfl, issues_quoin _ _ rfl rfl rfl rfl⟩

theorem witness_DecimalOnePairResults : (pairOk 2 = true ∧ dcvtOk 5 31 2 = true ∧ dcvtOk 6 30 2 = true ∧
      dfitOk 2 4 true 59 10 = true ∧ dfitOk 30 30 false 29 1 = true) ∧
    ((coreWith [] []).pairDec 2 = some 0 ∧ (coreWith [] []).quadDec 4 = some 0 ∧
      decOf (((coreWith [] []).group 2 2).drop 9) = some 0 ∧ decOf (((coreWith [] []).group 2 2).drop 2) = some 0) ∧
    Issues (withCore (.quoin 0) (coreWith [] [])) (.quoin 0) 0 (infoS 3 (rPair [2]) (rPair [30] ++ [rOvf]) true)
      (withCore (.quoin 0) (coreWith [] [])) ∧
    Issues (withCore (.quoin 0) (coreWith [] [])) (.quoin 0) 0 (infoS 6 (rS [0]) (rPair [30]) true)
      (withCore (.quoin 0) (coreWith [] [])) ∧
    Issues (withCore (.quoin 0) (coreWith [] [])) (.quoin 0) 0 { infoS 8 (rQuad 4) (rPair [2] ++ [rOvf]) true with occ := 2 }
      (withCore (.quoin 0) (coreWith [] [])) :=
  ⟨by decide, by decide, issues_quoin _ _ rfl rfl rfl rfl, issues_quoin _ _ rfl rfl rfl rfl, issues_quoin _ _ rfl rfl rfl rfl⟩

/-- A valid pair for a compare, and a limb of 4095 that is none. -/
theorem witness_DecimalComparesAndInvalidLimbs : ((coreWith [] []).pairDec 2 = some 0 ∧
      (coreWith [0, 0, 0, 4095] []).pairDec 2 = none) ∧
    Issues (withCore (.quoin 0) (coreWith [] [])) (.quoin 0) 0 (infoS 3 (rPair [2, 4]) (rP [7]) true)
      (withCore (.quoin 0) (coreWith [] [])) ∧
    Issues (withCore (.quoin 0) (coreWith [0, 0, 0, 4095] [])) (.quoin 0) 0 { infoS 8 (rPair [2, 4]) (rPair [6] ++ [rOvf]) true with occ := 2 }
      (withCore (.quoin 0) (coreWith [0, 0, 0, 4095] [])) :=
  ⟨by decide, issues_quoin _ _ rfl rfl rfl rfl, issues_quoin _ _ rfl rfl rfl rfl⟩

theorem witness_VectorElementResults : Issues (withCore (.quoin 0) (coreWith [] [])) (.quoin 0) 0
      (infoV 1 1 (rV [15, 0] ++ rP [7]) (rV [0]) true) (withCore (.quoin 0) (coreWith [] [])) ∧
    Issues (withCore (.quoin 0) (coreWith [] [])) (.quoin 0) 0 (infoV 1 2 (rV [15] ++ rS [31]) (rV [0]) true)
      (withCore (.quoin 0) (coreWith [] [])) := ⟨issues_quoin _ _ rfl rfl rfl rfl, issues_quoin _ _ rfl rfl rfl rfl⟩

set_option exponentiation.threshold 1024 in
/-- Guard p0 enables every element; no element is enabled under p1, which is 0 after reset. -/
theorem witness_VectorReductionResults : ((coreWith [] []).noElem 0 3 = false ∧ (coreWith [] []).noElem 1 3 = true) ∧
    (∀ i < elemCount 3, vcmpElem 3 9 (elems 3 0) (elems 3 0) i = some true) ∧
    Issues (withCore (.quoin 0) (coreWith [] [])) (.quoin 0) 0 { infoV 1 2 (rV [0] ++ rS [1]) (rS [2]) true with elem := false }
      (withCore (.quoin 0) (coreWith [] [])) ∧
    Issues (withCore (.quoin 0) (coreWith [] [])) (.quoin 0) 0 (infoV 2 8 (rV [0]) (rV [1]) true)
      (withCore (.quoin 0) (coreWith [] [])) ∧
    Issues (withCore (.quoin 0) (coreWith [] [])) (.quoin 0) 0 (infoV 1 3 (rV [0, 1]) (rP [1]) true)
      (withCore (.quoin 0) (coreWith [] [])) :=
  ⟨by decide, by decide, issues_quoin _ _ rfl rfl rfl rfl, issues_quoin _ _ rfl rfl rfl rfl, issues_quoin _ _ rfl rfl rfl rfl⟩

/-- A stone with a firing issues an instruction; the areas hold the elements named, and the fields are 1 to 96 bits wide. -/
theorem witness_VectorGatherResults : (stoneCore.noElem 0 3 = false ∧ widthOk 0 12 = true ∧ widthOk 3 96 = true ∧ widthOk 0 1 = true) ∧
    (∀ i < elemCount 0, (stoneCore.areaRead true (0 + i * 0) 1).isSome = true ∧ (stoneCore.areaRead false 127 1).isSome = true) ∧
    (0 + (0 + 63 * 12 + 12 - 1) / 12 + 1 ≤ stoneCore.workSize) ∧
    Issues (withCore (.stone 0 0) stoneCore) (.stone 0 0) 0
      (infoV 2 6 (rV [0] ++ rS [0] ++ areaReads true) (rV [1]) true) (withCore (.stone 0 0) stoneCore) ∧
    Issues (withCore (.stone 0 0) stoneCore) (.stone 0 0) 0
      { infoV 2 1 (rV [0] ++ rS [1, 2] ++ [rWork]) [rWork] true with alone := false } (withCore (.stone 0 0) stoneCore) :=
  ⟨by decide, by decide, by decide, ⟨⟨_, _, rfl⟩, rfl, fun _ => rfl⟩, ⟨⟨_, _, rfl⟩, rfl, fun _ => rfl⟩⟩

/-- The access of 5 courses at 123 is the last one inside the work area of one line. -/
theorem witness_AreaLoadsAndStores : (123 % 128 + 5 ≤ 128 ∧ 123 + 5 ≤ stoneCore.workSize ∧
      Claims.addressOf { stoneCore with s := fitList 32 0 [0, 123] } 1 0 = 123 ∧ Claims.addressOf stoneCore 0 0 % 64 = 0 ∧
      ∀ k < 64, Claims.addressOf stoneCore 0 0 + k < stoneCore.workSize ∧ k < stoneCore.inputSize) ∧
    Issues (withCore (.stone 0 0) stoneCore) (.stone 0 0) 0 (infoS 3 (rS [1] ++ [rWork]) (rS [2]) true)
      (withCore (.stone 0 0) stoneCore) ∧
    Issues (withCore (.stone 0 0) stoneCore) (.stone 0 0) 0 (infoS 1 (rS [2, 1]) [rWork] true) (withCore (.stone 0 0) stoneCore) ∧
    Issues (withCore (.stone 0 0) stoneCore) (.stone 0 0) 0 (infoV 1 3 (rS [0] ++ [rWork]) (rV [2]) true)
      (withCore (.stone 0 0) stoneCore) ∧
    Issues (withCore (.stone 0 0) stoneCore) (.stone 0 0) 0 (infoV 1 1 (rV [2] ++ rS [0]) [rWork] true)
      (withCore (.stone 0 0) stoneCore) :=
  ⟨by decide, ⟨⟨_, _, rfl⟩, rfl, fun _ => rfl⟩, ⟨⟨_, _, rfl⟩, rfl, fun _ => rfl⟩, ⟨⟨_, _, rfl⟩, rfl, fun _ => rfl⟩,
    ⟨⟨_, _, rfl⟩, rfl, fun _ => rfl⟩⟩

theorem witness_MemoryInstructionsStartTheirAccess :
    ((withCore (.stone 0 0) stoneCore).chargeCore stoneCore 4 1 = some (withCore (.stone 0 0) stoneCore)) ∧
    Issues (withCore (.stone 0 0) stoneCore) (.stone 0 0) 0 (infoS 360 (rS [1]) (rS [2]) true) (withCore (.stone 0 0) stoneCore) ∧
    Issues (withCore (.stone 0 0) stoneCore) (.stone 0 0) 0 (infoS 1 (rS [2, 1]) [] true) (withCore (.stone 0 0) stoneCore) ∧
    Issues (withCore (.stone 0 0) stoneCore) (.stone 0 0) 0 (infoV 1 360 (rS [0]) (rV [2]) true) (withCore (.stone 0 0) stoneCore) ∧
    Issues (withCore (.stone 0 0) stoneCore) (.stone 0 0) 0 (infoV 1 1 (rV [2] ++ rS [0]) [] true) (withCore (.stone 0 0) stoneCore) ∧
    Issues (withCore (.stone 0 0) stoneCore) (.stone 0 0) 0 (infoS 1800 (rS [1]) (rS [2]) true) (withCore (.stone 0 0) stoneCore) :=
  ⟨rfl, ⟨⟨_, _, rfl⟩, rfl, fun _ => rfl⟩, ⟨⟨_, _, rfl⟩, rfl, fun _ => rfl⟩, ⟨⟨_, _, rfl⟩, rfl, fun _ => rfl⟩,
    ⟨⟨_, _, rfl⟩, rfl, fun _ => rfl⟩, ⟨⟨_, _, rfl⟩, rfl, fun _ => rfl⟩⟩

/-- A stone reads control register 8, the last of the user registers, and writes 2 and 3; a Quoin core reads 0x25. -/
theorem witness_PlainControlResults : (ctlReadable false 8 = true ∧ ctlReadable true 0x25 = true ∧ ctlWritable false 3 = true ∧
      ctlWritable true 0x24 = true ∧ stoneCore.storesOut = 0 ∧ { stoneCore with storesOut := 1 }.storesOut ≠ 0) ∧
    (∀ f, stoneCore.firing = some f → f.predict = true ∨ stoneCore.sched.ackAt < f.cycleBound) ∧
    Issues (withCore (.stone 0 0) stoneCore) (.stone 0 0) 0 (infoS 2 [.ctl 8] (rS [1]) true) (withCore (.stone 0 0) stoneCore) ∧
    Issues (withCore (.stone 0 0) stoneCore) (.stone 0 0) 0 (infoS 1 (rS [1] ++ [.ctl 3]) [.ctl 3] true) (withCore (.stone 0 0) stoneCore) ∧
    Issues (withCore (.stone 0 0) stoneCore) (.stone 0 0) 0 { infoS 1 [] [] true with alone := true }
      (withCore (.stone 0 0) stoneCore) :=
  ⟨by decide, fun f h => by cases h; decide, ⟨⟨_, _, rfl⟩, rfl, fun _ => rfl⟩, ⟨⟨_, _, rfl⟩, rfl, fun _ => rfl⟩,
    ⟨⟨_, _, rfl⟩, rfl, fun _ => rfl⟩⟩

/-- Condition 0 holds of two zeros and condition 1 does not; a target of 0 lies in the kernel. -/
theorem witness_TransfersTakeTheirDelaySlot : (Claims.conditionOf 0 (stoneCore.sr 1) (stoneCore.sr 2) ∧
      ¬Claims.conditionOf 1 (stoneCore.sr 1) (stoneCore.sr 2)) ∧
    (∀ f, stoneCore.firing = some f → (stoneCore.sr 31).toNat < f.codeLen) ∧
    Issues (withCore (.stone 0 0) stoneCore) (.stone 0 0) 0 { infoS 1 (rS [1, 2]) [] true with alone := true, transfer := true, br := true }
      (withCore (.stone 0 0) stoneCore) ∧
    Issues (withCore (.stone 0 0) stoneCore) (.stone 0 0) 0 { infoS 1 [] [] true with alone := true, transfer := true }
      (withCore (.stone 0 0) stoneCore) ∧
    Issues (withCore (.stone 0 0) stoneCore) (.stone 0 0) 0 { infoS 1 (rS [31]) (rS [31]) true with alone := true, transfer := true }
      (withCore (.stone 0 0) stoneCore) :=
  ⟨⟨rfl, fun h => h rfl⟩, fun f h => by cases h; decide, ⟨⟨_, _, rfl⟩, rfl, fun _ => rfl⟩, ⟨⟨_, _, rfl⟩, rfl, fun _ => rfl⟩,
    ⟨⟨_, _, rfl⟩, rfl, fun _ => rfl⟩⟩

/-! ### Witnesses: engines -/

/-- The image of a G pipeline with one Keystone declaration, in exact mode with a key of 2 courses. -/
def image : Image := { headerOf [] with
  deadline := 1000, decls := [{ loc := 0, mode := 0, key := 2, table := 1, write := true, at_ := 0 }] }

/-- Its table, and a device in which it is loaded in slice 1 and its MAP runs. -/
def ksTable : KsTab := { slice := 1, id := 1, mode := 0, key := 2, capacity := 256, copies := 1, committed := [], image := [], journal := [],
                         held := [], queue := [], started := false, committedHead := false }

def withEngines : State := { withCore (.stone 0 0) stoneCore with
  slices := [(0, sliceZero), (1, sliceZero)], ctxs := [newContext 0 1 image], ks := { State.reset.ks with tables := [ksTable] } }

theorem witness_KeystoneInstructions :
    (withEngines.declOf stoneCore 0 = some (firing, { loc := 0, mode := 0, key := 2, table := 1, write := true, at_ := 0 }) ∧
      withEngines.ksTab 1 1 = some ksTable ∧ withEngines.chargeFiring firing 3 1 = some withEngines ∧ stoneCore.heldSince = none ∧
      ksImageLen 0 2 ≤ stoneCore.workSize ∧ ksImageOk 0 2 (stoneCore.workRead 0 (ksImageLen 0 2)) = true) ∧
    Issues withEngines (.stone 0 0) 0 (infoS 160 (rS [1] ++ [rWork]) [.s 1, .s 2] true) withEngines ∧
    Issues withEngines (.stone 0 0) 0 (infoS 160 (rS [1] ++ [rWork]) [.s 30, .s 31] true) withEngines ∧
    Issues withEngines (.stone 0 0) 0 { infoS 1 (rS [1, 2]) [] true with occ := 160, alone := true } withEngines ∧
    Issues withEngines (.stone 0 0) 0 { infoS 1 (rS [2]) [] true with occ := 160, alone := true } withEngines :=
  ⟨⟨rfl, rfl, rfl, rfl, by decide, by decide⟩, ⟨⟨_, _, rfl⟩, rfl, fun _ => rfl⟩, ⟨⟨_, _, rfl⟩, rfl, fun _ => rfl⟩,
    ⟨⟨_, _, rfl⟩, rfl, fun _ => rfl⟩, ⟨⟨_, _, rfl⟩, rfl, fun _ => rfl⟩⟩

/-- An emit of no row, and a message of algorithm 0 with no fragment and no last byte whose descriptor is all zero but for
the tag length. -/
def digestCore : Core := { stoneCore with firing := some { firing with workArea := [(1, 0xFFF), (2, 32)] } }

theorem witness_FiringEngineInstructions :
    (0 < firing.nout ∧ 0 * (Layout.fields []).imageSize ≤ max 256 (scratchCourses - (firing.scratch * 128 + firing.input.length +
        ((firing.emitted.map fun e => e.2.rows.length * e.2.layout.imageSize).filter fun n => decide (256 < n)).sum)) ∧ stateRowsOk stoneCore (.fields []) (emitToken stoneCore (.fields []) 0 0).rows = true) ∧
    (∃ r, dgCheck (withCore (.stone 0 0) digestCore) digestCore 1 0 = .ok r) ∧
    (withCore (.stone 0 0) digestCore).chargeFiring firing 5 1 = some (withCore (.stone 0 0) digestCore) ∧
    (withCore (.stone 0 0) stoneCore).digesting (.stone 0 0) = false ∧ (coreReset (.quoin 0)).firing = none ∧
    endCycle stoneCore 0 < firing.cycleBound ∧
    Issues (withCore (.stone 0 0) stoneCore) (.stone 0 0) 0 { infoS 1 (rS [1, 2] ++ [rOvf]) [] true with occ := 2, alone := true }
      (withCore (.stone 0 0) stoneCore) ∧
    Issues (withCore (.stone 0 0) digestCore) (.stone 0 0) 0 (infoS 1 (rS [1] ++ [rWork]) [] true) (withCore (.stone 0 0) digestCore) ∧
    Issues (withCore (.stone 0 0) stoneCore) (.stone 0 0) 0 { infoS 1 [] [] true with alone := true }
      (withCore (.stone 0 0) stoneCore) :=
  ⟨by decide, ⟨_, rfl⟩, rfl, rfl, rfl, by decide, ⟨⟨_, _, rfl⟩, rfl, fun _ => rfl⟩, ⟨⟨_, _, rfl⟩, rfl, fun _ => rfl⟩,
    ⟨⟨_, _, rfl⟩, rfl, fun _ => rfl⟩⟩

/-! ### Witnesses: supervisor instructions -/

/-- An invalidate that has not reached bay 3 keeps tsync of that bay, and no other, waiting. -/
theorem witness_SupervisorQueues :
    (let s : State := { State.reset with memx := { State.reset.memx with invals := [⟨2, 0, 0, [3]⟩] } };
      State.reset.syncDone 0 3 = true ∧ s.syncDone 0 3 = false ∧ s.syncDone 0 4 = true ∧ s.syncDone 1 4 = false) ∧
    (∀ b ∈ List.range 16, (State.reset.rangeOf b).queue.length < 4) ∧
    Issues (withCore (.quoin 0) (coreWith [] [])) (.quoin 0) 0 (infoS 1 (rS [3, 1, 2]) [] true)
      (withCore (.quoin 0) (coreWith [] [])) := ⟨by decide, by decide, issues_quoin _ _ rfl rfl rfl rfl⟩

/-- Stone 0 of bay 0 is free to lease, unless another slice holds it since less than 1,250 ticks; it is busy while it
fires. -/
theorem witness_SupervisorUnits : (State.reset.leaseFree 0 0 1 = true ∧
      { State.reset with mason := { State.reset.mason with leases := [((0, 0), (2, 0))] } }.leaseFree 0 0 1 = false ∧
      State.reset.stoneBusy 0 0 = false ∧ (withCore (.stone 0 0) stoneCore).stoneBusy 0 0 = true) ∧
    Issues (withCore (.quoin 0) (coreWith [] [])) (.quoin 0) 0 (infoS 1 (rS [1, 2]) (rS [3]) true)
      (withCore (.quoin 0) (coreWith [] [])) := ⟨by decide, issues_quoin _ _ rfl rfl rfl rfl⟩

/-- Under p1, which is 0 after reset, an instruction passes the gate and does not execute; an annulled one neither. -/
theorem witness_GuardedOffAndAnnulledDoNothing :
    (∃ k p, State.gate (withCore (.quoin 0) (coreWith [] [])) (.quoin 0) 1 (infoS 1 (rS [1, 2]) (rS [3]) true) =
      .go (withCore (.quoin 0) (coreWith [] [])) k p false) ∧
    (∃ k p, State.gate (withCore (.stone 0 0) { stoneCore with annul := true }) (.stone 0 0) 0 (infoS 1 (rS [1, 2]) (rS [3]) true) =
      .go (withCore (.stone 0 0) { stoneCore with annul := true }) k p false) := ⟨⟨_, _, rfl⟩, ⟨_, _, rfl⟩⟩

theorem witness_UndefinedEncodingsStopOrTrap : stoneCore.firing.isSome = true ∧ State.reset.quoin.fenced = [] ∧
    (State.reset.coreOf (.quoin 1)).access = none ∧ (State.reset.coreOf (.quoin 1)).annul = false ∧
    State.reset.awaits (.quoin 1) (rS [1] ++ rS [2]) = false ∧ ¬(1 ≤ 5 ∧ 5 ≤ 4) ∧ ¬(1 ≤ 0 ∧ 0 ≤ 4) := by decide

theorem witness_RegistersAndControlRegisters : 31 < stoneCore.s.length ∧ 7 < stoneCore.p.length ∧ 15 < stoneCore.v.length := by
  decide

/-! ### Witnesses: time, heat, queues and the arbiter -/

/-- A device at a tick. -/
def atTick (n : Nat) (s : State) : State := { s with time := { s.time with count := n } }

/-- The header of a command of a process with command 5 on the admin queue. -/
def header (pid : Nat) : CmdHdr := { fence := false, pid := pid, gen := 0, cid := 5, qid := 0, descs := [] }

/-- A device with slice 1, bound to a Tenant (2), and the Operator (1) and the Custodian (4). -/
def hosted : State := { State.reset with
  slices := [(0, sliceZero), (1, sliceZero)], bindings := [⟨1, 0, 1⟩, ⟨2, 1, 0⟩, ⟨4, 0, 2⟩] }

/-- The same with a submission queue 6, a result queue 8 and an item queue 9 that is paired to the answer queue 7. -/
def queued : State := { hosted with host := { hosted.host with
  queues := [⟨1, 6, 0, 0, 2, 0, []⟩, ⟨1, 7, 3, 0, 0, 0, []⟩, ⟨1, 8, 4, 0, 0, 0, []⟩, ⟨1, 9, 2, 7, 0, 0, []⟩] } }

/-- The same with a loaded context 0. -/
def loaded (im : Image) : State := { queued with ctxs := [newContext 0 1 im] }

/-- An item of that context in service, due at tick 1,100. -/
def item : Item := { newItem 1 1 0 9 0 100 1100 false 0 false 0 [] ⟨5, 0, 0, [], []⟩ with stage := .inService, lockHeld := true }

/-- The same device with an item. -/
def withItem (i : Item) : State := { loaded image with items := [i] }

theorem witness_TicksCountAndFillBuckets : State.reset.time.refState ≠ 1 ∧ State.reset.mason.warm = [] ∧ 25000000 ≤ (atTick 25000000 State.reset).now ∧
    (∀ m ∈ (atTick 25000000 State.reset).time.marks, m.valid = true → m.tick + 25000000 ≤ 25000000) := by decide

/-- 2,500 ticks on either side of a whole 25,000,000 are valid, 2,501 are not; an edge missed is known at 2,501. -/
theorem witness_PpsEdgesSteerTime : State.reset.time.ppsSeen = false ∧
    { State.reset.time with ppsSeen := true }.ppsSeen = true ∧
    ((ppsError 25002500).natAbs ≤ 2500 ∧ (ppsError 24997500).natAbs ≤ 2500) ∧
    (2500 < (ppsError 25002501).natAbs ∧ 2500 < (ppsError 24997499).natAbs) ∧
    ((atTick 25002501 State.reset).now % 25000000 = 2501 ∧ State.reset.time.ppsLast + 5001 < (atTick 25002501 State.reset).now) ∧
    ((atTick 24999999 State.reset).now + 1) % 25000000 = 0 ∧ ((atTick 0 State.reset).now + 1) % 25000000 ≠ 0 := by decide

/-- A device in the thermal floor that has been cool since tick 0, and one whose bay 3 has tripped. -/
def floored : State := { atTick 25000000 State.reset with
  therm := { State.reset.therm with floor := true, floorCool := some 0 } }

def tripped : State := { atTick 25000000 State.reset with therm := { State.reset.therm with tripped := [(3, some 0)] } }

theorem witness_TemperatureMovesStepsAndTrips :
    (State.reset.bayLive 15 = true ∧ State.reset.stepOf 15 < stepFor 85 ∧ stepFor 84 ≤ State.reset.stepOf 15) ∧
    (floored.therm.floor = true ∧ floored.belowFloor = false ∧ floored.floorCools = true ∧ floored.therm.floorCool = some 0 ∧ 0 + 25000000 ≤ floored.now) ∧
    (tget 3 tripped.therm.tripped = some (some 0) ∧ (94 : Int) < 95 ∧ ((some 0).getD tripped.now) + 25000000 ≤ tripped.now) := by
  decide

/-- One command for each outcome of QUEUE_CREATE and QUEUE_DELETE. -/
theorem witness_QueueCommandsComplete :
    (hosted.paused = false ∧ queued.paused = false ∧ hosted.others = [] ∧ queued.others = []) ∧
    (∃ s1, Starts hosted (header 2) 0x0001 anyRole s1 ⟨2, 1, 0⟩) ∧
    (let busy := { queued with host := { queued.host with queues := [⟨1, 6, 0, 0, 4, 1, [3]⟩] } }
     let h := { header 2 with qid := 6, fence := true }
     ∃ s1 q, busy.acceptCmd h 0x0001 anyRole = (s1, some ⟨2, 1, 0⟩) ∧ s1.queueOf 1 h.qid = some q ∧ h.fence = true ∧
       q.outstanding.takeWhile (fun c => c != h.cid) ≠ []) ∧
    (∃ s1, Starts queued (header 2) 0x0002 anyRole s1 ⟨2, 1, 0⟩ ∧ s1.queueOf 1 4095 = none ∧ s1.queueOf 1 6 ≠ none ∧
      s1.objNum 0x4001 18 [] 0 0 ≤ s1.queuesUsed 1 ∧ (∃ q ∈ s1.host.queues, q.slice = 1 ∧ q.qid = 7 ∧ q.kind = 3)) ∧
    (∃ s1, Starts queued { header 1 with cid := 6 } 0x0002 anyRole s1 ⟨1, 0, 1⟩ ∧ s1.queueOf 0 1 = none) ∧
    (∃ s1, Starts queued (header 2) 0x0003 anyRole s1 ⟨2, 1, 0⟩ ∧ s1.queueOf 1 6 = some ⟨1, 6, 0, 0, 2, 0, []⟩ ∧
      s1.queueOf 1 7 = some ⟨1, 7, 3, 0, 0, 0, []⟩ ∧ (∃ r ∈ s1.host.queues, r.slice = 1 ∧ r.qid ≠ 0 ∧ r.pair = 7 ∧ r.kind = 2)) ∧
    (let im := { image with cls := 2, ops := [{ code := 0x16, nin := 1, nout := 0, params := [7], at_ := 0 }] }
     ∃ s1 c x, Starts (loaded im) (header 2) 0x0022 tenantRole s1 ⟨2, 1, 0⟩ ∧ s1.ownCtx 1 0 = some c ∧ c.image.cls = 2 ∧
      x ∈ c.image.resultOuts ∧ ∀ q ∈ s1.host.queues, q.slice = 1 → q.qid = x.2 → q.kind ≠ 4) :=
  ⟨⟨rfl, rfl, rfl, rfl⟩, ⟨_, rfl⟩, ⟨_, _, rfl, rfl, rfl, by decide⟩, ⟨_, rfl, rfl, by decide, by decide, by decide⟩,
    ⟨_, rfl, rfl⟩, ⟨_, rfl, rfl, rfl, by decide⟩,
    ⟨_, _, _, rfl, rfl, rfl, List.mem_singleton.mpr rfl, by decide⟩⟩

theorem witness_ResultsAcknowledgementsAndReplays :
    (let i := { item with verdict := some [] }
     (withItem i).itemOf 1 = some i ∧ (withItem i).offerWaits i = false ∧ (atTick 1100 (withItem i)).now ≤ i.deadline) ∧
    (let i := { item with answer := some ⟨0, 0, []⟩, cause := 5 }
     (withItem i).itemOf 1 = some i ∧ i.cause ≠ 0) ∧
    (let i := { item with putStage := 1 }
     let s := { withItem i with group := { State.reset.group with grouped := true } }
     s.itemOf 1 = some i ∧ s.replicated i = true) ∧
    (let i := { item with faulted := true }
     (withItem i).itemOf 1 = some i ∧ (withItem i).ctxOf 0 = some (newContext 0 1 image) ∧
      i.deadline < (atTick 1101 (withItem i)).now + image.bounds.service ∧
      (atTick 1100 (withItem i)).now + image.bounds.service ≤ i.deadline ∧ i.stage = .inService) :=
  ⟨⟨rfl, rfl, by decide⟩, ⟨rfl, by decide⟩, ⟨rfl, by decide⟩, ⟨rfl, rfl, by decide, by decide, rfl⟩⟩

theorem witness_ArbiterTickReleasesResultsThenFallbacks : (withItem item).power.frozen = false ∧
    (withItem item).group.minority = false ∧ (atTick 1100 (withItem item)).fallbackDue item = true := by decide

/-! ### Witnesses: the graph -/

/-- An image of one operator with bounds that hold what it charges. -/
def opImage (cls : Nat) (o : Operator) : Image := { image with
  cls := cls, ops := [o], bounds := ⟨1, 1, 1, 100000, 100, 100000, 100000, 100000, 1000, 0⟩ }

/-- An operator of a code. -/
def op (code nin nout : Nat) (ps : List Course) : Operator :=
  { code := code, nin := nin, nout := nout, params := ps, at_ := 0 }

/-- Work that holds one token on each input of operator 0. -/
def fed (ts : List Token) (ended : Bool) : Work := { workEmpty with
  toks := (List.range ts.length).map fun p => { op := 0, port := p, toks := (ts[p]?).toList, ended := ended } }

/-- A token of rows of one course. -/
def tok (n : Nat) : Token := tokenOf (.fields [tUint 1]) (List.replicate n (rowOf [[1]]))

/-- A device whose slice 1 has an HBM quota and Mortar entries. -/
def roomy (s : State) : State :=
  { s with objs := (⟨0x4001, 9, [], 0⟩, .num 1000000) :: (⟨0x4001, 14, [], 0⟩, .num 16) :: s.objs }

/-- An item, and a run, whose graph is one operator that finds its tokens. -/
def opItem (o : Operator) (ts : List Token) : State :=
  roomy { loaded (opImage 0 o) with items := [{ item with work := fed ts false }] }

def opRun (o : Operator) (ts : List Token) (ended : Bool) : State :=
  let s := loaded (opImage 2 o)
  roomy { s with runs := [{ s.newRun 1 (newContext 0 1 (opImage 2 o)) [[0]] with work := fed ts ended }] }

/-- An item that waits in its flow, of a slice with Mortar entries; a MAP whose firing is ready and a stone its slice leases. -/
def waiting : State :=
  let s := withItem { item with stage := .queued, lockHeld := false }
  { s with objs := [(⟨0x4001, 14, [], 0⟩, .num 16)] }

def ready : State :=
  let s := opItem (op 0x04 1 1 [0]) [tok 1]
  { s with
    ctxs := [newContext 0 1 { opImage 0 (op 0x04 1 1 [0]) with kernels := [⟨[0], 10, 100, 1, false, 0⟩] }]
    mason := { s.mason with leases := [((0, 0), (1, 0))], ready := [⟨.item 1, 0, 0⟩] } }

theorem witness_ItemsEnterServiceAndFire :
    (let h := { header 2 with qid := 9 }
     let p := [0, 1] ++ List.replicate 18 0
     queued.power.frozen = false ∧ queued.itemChecks h p = .ok (⟨2, 1, 0⟩, ⟨1, 9, 2, 7, 0, 0, []⟩) ∧
      (queued.sliceOf 1).state = 1 ∧ (itemRecords h p (List.replicate 30 0)).toOption.isSome = true ∧ queued.host.accepted = []) ∧
    (let i := { item with stage := .heldFlow, lockHeld := false }
     (withItem i).itemOf 1 = some i ∧ i.gen = (withItem i).genOf 1 ∧ (withItem i).flowFree 1 i.cls i.flowKey = true) ∧
    (waiting.bayRuns (waiting.bucketHome (flowBucket [])) = true ∧
      waiting.chooseLeave (waiting.bucketHome (flowBucket [])) = some { item with stage := .queued, lockHeld := false } ∧
      image.stateGet = none) ∧
    (ready.stoneFree 0 0 = true ∧ ready.bayRuns 0 = true ∧ ready.chooseReady 0 0 = some ⟨.item 1, 0, 0⟩ ∧
      ∃ e k, ready.opEnv (.item 1) 0 0x04 = some e ∧ e.feed false = .toks [tok 1] ∧ e.image.kernels[0]? = some k ∧
        (tok 1).layout.stateLines * 128 ≤ k.scratch * 128) ∧
    (let s := opItem (op 0x04 1 1 [0]) [tok 1]
     ∃ e, s.opEnv (.item 1) 0 0x04 = some e ∧ s.firingKnown (.item 1) 0 = false ∧ e.feed false = .toks [tok 1] ∧
      (tok 1).rows ≠ [] ∧ (tok 0).rows = []) := by
  refine ⟨⟨rfl, rfl, rfl, by decide, rfl⟩, by decide, by decide, ⟨by decide, by decide, by decide, _, _, rfl, rfl, rfl, by decide⟩,
    _, rfl, rfl, rfl, by decide, rfl⟩

/-- A table of one column, and a run that scans it. -/
def table : Table := { slice := 1, id := 1, cols := [tUint 1], factor := 1, columns := [[]], pin := 0, pinOrder := 0 }

def scanned (t : Table) : State :=
  let s := opRun (op 0x02 0 1 [0, 1]) [] false
  { s with tables := [t], runs := s.runs.map fun r => { r with scans := [t] } }

/-- The table with one ashlar; the run reads none of its columns. -/
def filledTable : Table := { table with columns := [[⟨[], 0, 0, 0⟩]] }

theorem witness_RowOperatorResults :
    (∃ e, (opItem (op 0x01 0 1 [0]) []).opEnv (.item 1) 0 0x01 = some e) ∧
    (∃ e r, (opRun (op 0x01 0 1 [0]) [] false).opEnv (.run 0) 0 0x01 = some e ∧
      (opRun (op 0x01 0 1 [0]) [] false).runOf 0 = some r ∧ r.batches[tgetD 0 0 r.scanAt]? = some [0] ∧
      (opRun (op 0x01 0 1 [0]) [] false).batchBay e.slice e.image.mEntries = some 0) ∧
    (∃ e, (scanned table).opEnv (.run 0) 0 0x02 = some e ∧ e.op.par2 0 = 1 ∧
      (nth table.columns (nth (e.op.pars 6 (e.op.par 4)) 0 0) []).length ≤ 0) ∧
    (∃ e rows lines s1 out, (scanned filledTable).opEnv (.run 0) 0 0x02 = some e ∧
      0 < (nth filledTable.columns (nth (e.op.pars 6 (e.op.par 4)) 0 0) []).length ∧
      (scanned filledTable).scanTier e.slice (e.op.par2 0) (e.op.pars 6 (e.op.par 4)) 0 < 2 ∧
      scanRange (scanned filledTable) filledTable (e.op.pars 6 (e.op.par 4)) 0 = .ok (rows, lines) ∧
      (scanned filledTable).chargeAll (.run 0) none [(2, 20 + (2 * e.op.par 4 + 6 * e.op.par 5) * ceilDiv rows.length 64),
        (4, lines)] = .ok s1 ∧
      filterRows e.image (e.out 0).types (termsOf (e.op.par 5) (e.op.params.drop (6 + evenUp (e.op.par 4)))) rows = .ok out) ∧
    (∃ e s1 rows, Claims.Fires (opItem (op 0x03 1 1 [0, 0]) [tok 1]) (.item 1) 0 0x03 false false e [tok 1]
        (termCost (e.op.par 0) 1) s1 ∧
      filterRows e.image (e.types 0) (termsOf (e.op.par 0) (e.op.params.drop 2)) (Claims.rowsIn [tok 1]) = .ok rows) ∧
    (∃ e s1 ps, Claims.Fires (opItem (op 0x13 1 1 [0, 0]) [tok 1]) (.item 1) 0 0x13 false false e [tok 1]
        (termCost (e.op.nout - 1) 1) s1 ∧
      exceptAll ((Claims.rowsIn [tok 1]).map (routeOf e.image (e.types 0) (termsOf (e.op.nout - 1) (e.op.params.drop 2)))) = .ok ps) ∧
    (∃ e s1, Claims.Fires (opItem (op 0x12 2 1 []) [tok 0, tok 1]) (.item 1) 0 0x12 false false e [tok 0, tok 1] [] s1) ∧
    (∃ e, (opRun (op 0x12 2 1 []) [tok 0, tok 1] false).opEnv (.run 0) 0 0x12 = some e ∧ (e.work.at_ 0 0).toks = [tok 0]) ∧
    (let tm : Template := { rowCourses := 0, maxRecord := 0, trail := true, fields := [] }
     let s := { opItem (op 0x05 1 2 [0, 0xFFF]) [tok 1] with
       ctxs := [newContext 0 1 { opImage 0 (op 0x05 1 2 [0, 0xFFF]) with templates := [tm] }] }
     ∃ e s1 ds, Claims.Fires ((s.noteDecode (.item 1) 0).noteQuarry (.item 1) 0) (.item 1) 0 0x05 false false e [tok 1] [] s1 ∧
      e.image.templates[e.op.par 0]? = some tm ∧
      exceptAll ((Claims.rowsIn [tok 1]).map (decodeRow e tm)) = .ok ds ∧ ∀ d ∈ ds, d.reject = none) ∧
    (let tm : Template := { rowCourses := 0, maxRecord := 0, trail := true, fields := [] }
     let s := { opItem (op 0x06 1 1 [0]) [tok 1] with
       ctxs := [newContext 0 1 { opImage 0 (op 0x06 1 1 [0]) with templates := [tm] }] }
     ∃ e s1 rows, Claims.Fires s (.item 1) 0 0x06 false false e [tok 1] [] s1 ∧ e.image.templates[e.op.par 0]? = some tm ∧
      exceptAll ((Claims.rowsIn [tok 1]).map fun r => (quarryEncode tm r).map fun bs =>
        { rowOf [bytesCourses 4095 bs] with ovf := r.ovf }) = .ok rows) := by
  refine ⟨⟨_, rfl⟩, ⟨_, _, rfl, rfl, rfl, by decide⟩, ⟨_, rfl, rfl, by decide⟩,
    ⟨_, _, _, _, _, rfl, by decide, by decide, rfl, rfl, rfl⟩,
    ⟨_, _, _, ⟨rfl, rfl, _, rfl, rfl⟩, rfl⟩, ⟨_, _, _, ⟨rfl, rfl, _, rfl, rfl⟩, rfl⟩, ⟨_, _, rfl, rfl, _, rfl, rfl⟩,
    ⟨_, rfl, rfl⟩, ⟨_, _, _, ⟨rfl, rfl, _, rfl, rfl⟩, rfl, rfl, fun d h => by cases List.mem_singleton.mp h; rfl⟩,
    ⟨_, _, _, ⟨rfl, rfl, _, rfl, rfl⟩, rfl, rfl⟩⟩

theorem witness_StreamOperatorResults :
    (let o := op 0x09 1 1 [0, 0, 0, 0, 4095]
     ∃ e s1, Claims.Fires (opItem o [tok 0]) (.item 1) 0 0x09 true true e [tok 0] [(2, 30), (4, 0)] s1 ∧
      chainOf [] 0 ≤ e.op.par 4 ∧ s1.buildFault ⟨1, 0, [], e.types 0, 0, 0, e.op.par 4⟩ = none ∧
      checkKeys (e.types 0) (keyFields (e.op.par 0) (e.op.par 1)) [] = .ok () ∧ s1.hbmFits e.slice (0 * 0) = true) ∧
    (let o := op 0x0A 1 1 [0, 0, 0, 1, 0, 0, 1]
     ∃ e s1 s2 outs, Claims.Fires (opItem o [tok 1]) (.item 1) 0 0x0A false false e [tok 1] [] s1 ∧
      s1.probe e none (Claims.rowsIn [tok 1]) (s1.buildRows e []) = .ok (s2, outs)) ∧
    (let o := op 0x0A 1 1 [0, 0, 0, 1, 0, 0, 1]
     ∃ e s1 outs, (opRun o [tok 1] false).opEnv (.run 0) 0 0x0A = some e ∧ e.op.par2 2 ≠ 0 ∧ (e.work.at_ 0 0).toks = [tok 1] ∧
      ((opRun o [tok 1] false).updWork (.run 0) fun k => k.updPort 0 0 fun x => { x with toks := [] }).probe e none (tok 1).rows
        ((opRun o [tok 1] false).buildRows e ((e.work.at_ 0 1).toks.flatMap (·.build))) = .ok (s1, outs)) ∧
    (let o := op 0x0B 2 1 [0, 0, 0, 0]
     ∃ e s1 s2 out, Claims.Fires (opItem o [tok 1, tok 1]) (.item 1) 0 0x0B true false e [tok 1, tok 1] [] s1 ∧
      mergeJoin (e.types 0) (e.types 1) (keyFields (e.op.par 0) (e.op.par 2)) (keyFields (e.op.par 1) (e.op.par 2))
        (e.op.par 3) (tok 1).rows (tok 1).rows = .ok out ∧
      s1.chargeAll (.item 1) none [(2, 30 + 12 * 2 + 8 * out.length)] = .ok s2) ∧
    (let o := op 0x0C 1 1 [0, 0]
     ∃ e s1 out, Claims.Fires (opItem o [tok 2]) (.item 1) 0 0x0C true false e [tok 2]
        [(2, 40 + 12 * 2 * log2Up 2), (4, 2 * ceilDiv (2 * e.width) 128)] s1 ∧ s1.hbmFits e.slice (2 * e.width) = true ∧
      sortRows (e.types 0) e.op.sortKeys (Claims.rowsIn [tok 2]) = .ok out) ∧
    (let o := op 0x0D 1 1 [0, 1]
     ∃ e s1 out, Claims.Fires (opItem o [tok 2]) (.item 1) 0 0x0D true false e [tok 2] [(2, 40 + 12 * 2)] s1 ∧
      sortRows (e.types 0) e.op.sortKeys (Claims.rowsIn [tok 2]) = .ok out) ∧
    (let o := op 0x0E 1 1 [0, 0]
     ∃ e s1 out, Claims.Fires (opItem o [tok 2]) (.item 1) 0 0x0E true (e.op.par 0 == 0) e [tok 2]
        [(2, 40 + 2 * (8 + 4 * e.op.par 1))] s1 ∧
      groupRows (e.types 0) (e.op.pars 2 (e.op.par 0)) e.op.aggs (Claims.rowsIn [tok 2]) = .ok out ∧ e.isRun = false) ∧
    (let o := op 0x0F 1 1 [0, 0, 100, 2, 0, 0, 0]
     ∃ e s1 i out slots sat, Claims.Fires (opItem o [tok 1]) (.item 1) 0 0x0F false false e [tok 1]
        [(2, 60 + e.op.par 3 + 8 * 1), (4, 2 * ceilDiv (5 + e.op.par 3 * slotSize (e.op.par 4)) 128)] s1 ∧
      s1.itemOf 1 = some i ∧ Claims.rowsIn [tok 1] ≠ [] ∧
      (let win := winOf 0 1 2 (s1.windowOf e.slice (e.op.par 6) i.flowKey)
       winRows 0 (tUint 8) (e.op.par 5) (100 / 50) 2 (winAdvance 50 2 (100 / 50) win) (Claims.rowsIn [tok 1]) []
        (winAdvance 50 2 (100 / 50) win) = .ok (out, slots, sat))) := by
  refine ⟨⟨_, _, ⟨rfl, rfl, _, rfl, rfl⟩, by decide, rfl, rfl, by decide⟩, ⟨_, _, _, _, ⟨rfl, rfl, _, rfl, rfl⟩, rfl⟩,
    ⟨_, _, _, rfl, by decide, rfl, rfl⟩, ⟨_, _, _, _, ⟨rfl, rfl, _, rfl, rfl⟩, rfl, rfl⟩,
    ⟨_, _, _, ⟨rfl, rfl, _, rfl, rfl⟩, by decide, rfl⟩, ⟨_, _, _, ⟨rfl, rfl, _, rfl, rfl⟩, rfl⟩,
    ⟨_, _, _, ⟨rfl, rfl, _, rfl, rfl⟩, rfl, rfl⟩, ⟨_, _, _, _, _, _, ⟨rfl, rfl, _, rfl, rfl⟩, rfl, by decide, rfl⟩⟩

theorem witness_StateAndSinkOperatorResults :
    (let o := op 0x10 0 1 [1, 1]
     (opItem o []).itemOf 1 = some { item with work := fed [] false } ∧
      (opItem o []).ctxOf 0 = some (newContext 0 1 (opImage 0 o)) ∧ (opImage 0 o).stateGet = some o ∧
      (opItem o []).itemLive { item with work := fed [] false } = true) ∧
    (let o := op 0x10 0 1 [1, 1]
     let s := { opItem o [] with items := [{ item with stateReadDone := true }] }
     ∃ e s1, Claims.Fires s (.item 1) 0 0x10 false true e [] [] s1) ∧
    (let o := op 0x11 1 0 [1, 1]
     ∃ e s1 i, Claims.Fires (opItem o [tok 1]) (.item 1) 0 0x11 false true e [tok 1] [(4, e.op.par 0)] s1 ∧
      s1.itemOf 1 = some i ∧ s1.hbmFits e.slice (2 * (e.op.par 0 * 128)) = true) ∧
    (let o := op 0x15 1 0 [1]
     ∃ e s1 a, Claims.Fires (opItem o [tok 1]) (.item 1) 0 0x15 false true e [tok 1] [(6, 128)] s1 ∧ verdictOf e (tok 1) = .ok a) ∧
    (let o := op 0x16 1 0 [8]
     ∃ e s1 r, Claims.Fires (opRun o [tok 1] false) (.run 0) 0 0x16 false false e [tok 1] [] s1 ∧ s1.runOf 0 = some r) ∧
    (let o := op 0x17 1 0 [2]
     ∃ e s1, Claims.Fires (opItem o [tok 1]) (.item 1) 0 0x17 false false e [tok 1] [(6, ceilDiv (3 * e.op.par 0) 2)] s1) ∧
    (let o := op 0x18 1 0 [0, 1]
     let s := { opItem o [tok 1] with tables := [{ table with cols := [] }] }
     ∃ e s1, Claims.Fires s (.item 1) 0 0x18 false false e [tok 1] [(4, 1 + ceilDiv (1 * e.width) 128)] s1 ∧
      (s1.tables.any fun x => x.slice == e.slice && x.id == e.op.par2 0 && x.cols == e.types 0) = true ∧
      rowsFault (e.types 0) (Claims.rowsIn [tok 1]) = none) := by
  refine ⟨⟨rfl, rfl, rfl, rfl⟩, ⟨_, _, rfl, rfl, _, rfl, rfl⟩, ⟨_, _, _, ⟨rfl, rfl, _, rfl, rfl⟩, rfl, by decide⟩,
    ⟨_, _, _, ⟨rfl, rfl, _, rfl, rfl⟩, rfl⟩, ⟨_, _, _, ⟨rfl, rfl, _, rfl, rfl⟩, rfl⟩, ⟨_, _, rfl, rfl, _, rfl, rfl⟩,
    ⟨_, _, ⟨rfl, rfl, _, rfl, rfl⟩, by decide, by decide⟩⟩

theorem witness_UnitOperatorsIssueTheirRequests :
    (let o := op 0x07 1 1 [0, 0]
     let s := { opItem o [tok 1] with ctxs := [newContext 0 1 { opImage 0 o with decls := image.decls }] }
     ∃ e d s1, s.opEnv (.item 1) 0 0x07 = some e ∧ e.work.heldRows 0 = none ∧ e.feed false = .toks [tok 1] ∧
      e.image.decls.find? (fun d => d.loc == e.op.par 0) = some d ∧ s.chargeAll (.item 1) none [(3, 1)] = .ok s1) ∧
    (∃ e, (opItem (op 0x14 1 1 [0]) [tok 0]).opEnv (.item 1) 0 0x14 = some e ∧ e.work.heldRows 0 = none ∧
      e.feed false = .toks [tok 0] ∧ Claims.rowsIn [tok 0] = []) ∧
    (let o := op 0x14 1 1 [0, 0xFFF, 32]
     ∃ e s1 key m, (opItem o [tok 2]).opEnv (.item 1) 0 0x14 = some e ∧ e.feed false = .toks [tok 2] ∧
      (opItem o [tok 2]).keyFor e.slice (e.op.par 1) (e.op.par 0 / 256) = some key ∧
      exceptAll ((Claims.rowsIn [tok 2]).map (rowMessage (e.types 0) e.op.digestFields)) = .ok [some m, some m] ∧
      tagFault e (Claims.rowsIn [tok 2]) = none ∧ (opItem o [tok 2]).chargeAll (.item 1) none [(2, 28), (5, sumNat ([m, m].map fun m =>
        if e.image.hasDgSub then digestCharge m.length
        else sumNat (e.op.digestFields.map fun k => fieldMax (nth (e.types 0) k tCode))))] = .ok s1) ∧
    (let f := { firing with predict := true }
     let s := atTick 12 (withCore (.stone 0 0) { stoneCore with firing := some f })
     (s.coreOf (.stone 0 0)).firing = some f ∧ f.predict = true ∧ f.cycleBound ≤ 80 * (s.now - f.start) + 80) := by
  refine ⟨⟨_, _, _, rfl, rfl, rfl, rfl, rfl⟩, ⟨_, rfl, rfl, rfl, rfl⟩, ⟨_, _, _, _, rfl, rfl, rfl, rfl, rfl, rfl⟩, rfl, rfl, by decide⟩

/-! ### Witnesses: engines and Mason -/

/-- Slice 1 with a Keystone quota, and with a table, an entry of which is an image of zeros. -/
def ksHost (ts : List KsTab) : State := { hosted with
  objs := [(⟨0x4001, 5, [], 0⟩, .num 100000), (⟨0x4001, 13, [], 0⟩, .num 4)], ks := { State.reset.ks with tables := ts } }

/-- The table with one copy on bank 2. -/
def heldTable : KsTab := { ksTable with held := [⟨2, [], 0⟩] }

theorem witness_KeystoneCommandsComplete : ((ksHost []).paused = false ∧ (ksHost [heldTable]).paused = false) ∧
    (∃ s1 held, Starts (ksHost []) (header 2) 0x0030 tenantRole s1 ⟨2, 1, 0⟩ ∧ s1.ksTab 1 (2 ^ 24 - 1) = none ∧
      s1.ksSliceUsed 1 + 32768 * 2 ≤ s1.objNum 0x4001 5 [] 0 0 ∧ s1.ksPlace 32768 2 = some held) ∧
    (∃ s1, Starts (ksHost [heldTable]) (header 2) 0x0031 tenantRole s1 ⟨2, 1, 0⟩ ∧ s1.ksTab 1 1 = some heldTable ∧
      s1.ksBound 1 1 = false ∧ s1.host.waiting = []) ∧
    (∃ s1, Starts (ksHost [heldTable]) (header 2) 0x0032 tenantRole s1 ⟨2, 1, 0⟩ ∧ s1.ksTab 1 1 = some heldTable ∧
      (List.replicate 6 (0 : Course)).length = ksImageLen 0 2 ∧ ksImageOk 0 2 (List.replicate 6 0) = true) ∧
    (∃ s1, Starts (ksHost [heldTable]) (header 2) 0x0033 tenantRole s1 ⟨2, 1, 0⟩ ∧ s1.ksTab 1 1 = some heldTable) ∧
    (∃ s1, Starts (ksHost [heldTable]) (header 2) 0x0034 tenantRole s1 ⟨2, 1, 0⟩ ∧ s1.ksTab 1 1 = some heldTable ∧
      (List.replicate 9 (0 : Byte)).length = ceilDiv (1 * ksImageLen 0 2) 2 * 3 ∧
      ([slice (unpackBytes (List.replicate 9 0)) 0 6].all (ksImageOk 0 2)) = true ∧
      (∀ c ∈ heldTable.held, s1.ksRoom c.bank 1 = true) ∧ s1.ksSliceUsed 1 + 1 * 1 ≤ s1.objNum 0x4001 5 [] 0 0) ∧
    (∃ s1, Starts (ksHost [heldTable]) (header 2) 0x0035 tenantRole s1 ⟨2, 1, 0⟩ ∧ s1.ksTab 1 1 = some heldTable ∧ 0 ≤ 0) :=
  ⟨⟨rfl, rfl⟩, ⟨_, _, rfl, rfl, by decide, rfl⟩, ⟨_, rfl, rfl, rfl, rfl⟩, ⟨_, rfl, rfl, by decide, by decide⟩, ⟨_, rfl, rfl⟩,
    ⟨_, rfl, rfl, by decide, by decide, by decide, by decide⟩, ⟨_, rfl, rfl, by decide⟩⟩

/-- Updates at the head of the table's queue. -/
def insertAt (p : Nat) : KsUpd := { kind := 0, pos := p, images := [List.replicate 6 0], id := 0, host := true, ctx := 0, core := none }

def queuedTable (started : Bool) (u : KsUpd) : KsTab := { heldTable with queue := [u], started := started }

/-- A search of the table. -/
def search : KsSearch := { id := 1, slice := 1, table := 1, key := [0, 0], bay := 2, core := none, w := none
                           since := 0, bank := some 2 }

theorem witness_KeystoneEventsMoveTables :
    (State.reset.bayLive 15 = true ∧ ((atTick 8 State.reset).ksBank 15).frameStart + 8 ≤ (atTick 8 State.reset).now) ∧
    (let s := { ksHost [heldTable] with ks := { State.reset.ks with tables := [heldTable], searches := [search] } }
     s.ks.searches.find? (fun x => x.id == 1) = some search ∧ s.ksTab 1 1 = some heldTable ∧
      s.ksCopyOf heldTable search = some ⟨2, [], 0⟩ ∧ heldTable.holds search = false ∧
      s.ksFree 2 (s.searchReq search) = true ∧ s.bayRuns 2 = true) ∧
    ((queuedTable false (insertAt 0)).headCheck (insertAt 0) = 0 ∧ (queuedTable false (insertAt 1)).headCheck (insertAt 1) ≠ 0 ∧
      (queuedTable false (insertAt 0)).held ≠ [] ∧ (queuedTable false (insertAt 0)).committedHead = false ∧
      (ksHost [queuedTable false (insertAt 0)]).ksBehind 1 1 (insertAt 0) = false ∧ (insertAt 0).kind ≠ 2 ∧ (insertAt 1).host = true) ∧
    (let k := { queuedTable true (insertAt 0) with committed := [List.replicate 6 0] }
     k.held.find? (fun c => c.bank == 2) = some ⟨2, [], 0⟩ ∧ 0 < k.movesDue (insertAt 0) ∧ (ksHost [k]).ksFree 2 (.shared 1) = true) ∧
    (let k := queuedTable true (insertAt 0)
     (ksHost [k]).ksTab 1 1 = some k ∧ k.committedHead = false ∧ k.held ≠ [] ∧
      ∀ c ∈ k.held, (ksHost [k]).ksFree c.bank ((ksHost [k]).updReq 1 (insertAt 0)) = true ∧ c.bad = [] ∧ k.movesDue (insertAt 0) ≤ c.moved) ∧
    (let k := queuedTable false { insertAt 0 with kind := 2, images := [] }
     (ksHost [k]).ksTab 1 1 = some k ∧ k.held ≠ [] ∧ ∀ c ∈ k.held, (ksHost [k]).ksFree c.bank (.shared 1) = true) ∧
    (let k := { heldTable with held := [⟨2, [7], 0⟩] }
     (ksHost [k]).ksTab 1 1 = some k ∧ k.held.find? (fun c => c.bank == 2) = some ⟨2, [7], 0⟩ ∧
      (ksHost [k]).ksFree 2 .rebuild = true ∧ ((ksHost [k]).ksBank 2).errors = []) ∧
    ((ksHost [ksTable]).ksTab 1 1 = some ksTable ∧ (ksHost [ksTable]).ksWanted ksTable 15 = true ∧
      (ksHost [ksTable]).ksRoom 15 ksTable.capacity = true) := by
  refine ⟨by decide, ⟨rfl, rfl, rfl, by decide, by decide, by decide⟩, by decide, ⟨rfl, by decide, by decide⟩,
    ⟨rfl, rfl, by decide, by decide⟩, ⟨rfl, by decide, by decide⟩, ⟨rfl, rfl, by decide, rfl⟩, ⟨rfl, by decide, by decide⟩⟩

/-- A message of two blocks. -/
def message : DgMsg := { id := 1, cls := 0, deadline := 0, requested := 0, slice := 1, ctx := 0, alg := 0, key := [], msg := [],
                         tagLen := 32, blocks := 2, done := 0, sinceStart := 0, hasRecord := false, core := none, w := none }

theorem witness_DigestKeysAndLanes :
    (let s := { ksHost [] with slices := [(0, sliceZero), (1, { sliceZero with kek := some [] })] }
     ∃ s1, Starts s (header 2) 0x0040 tenantRole s1 ⟨2, 1, 0⟩ ∧ 3 < s1.objNum 0x4001 13 [] 0 0 ∧
      s1.dg.slots.length < 4096 ∧ (s1.sliceOf 1).kek = some [] ∧ keyLenOk 9 16 = true ∧ keyLenOk 5 128 = true) ∧
    (∃ s1, Starts (ksHost []) (header 2) 0x0041 tenantRole s1 ⟨2, 1, 0⟩ ∧ 3 < s1.objNum 0x4001 13 [] 0 0) ∧
    (let s := { hosted with dg := { hosted.dg with waiting := [(15, message)] } }
     message.restores = true ∧ s.paused = false ∧ s.bayRuns 15 = true ∧ (15, 3) ∉ s.mason.fencedLanes ∧ tget (15, 3) s.dg.lanes = none ∧ s.nextMsg 15 = some message) ∧
    (let m := { message with done := 1 }
     m.blocks ≤ m.done + 1 ∧ m.w = none ∧ message.done + 1 < message.blocks ∧ message.cls = 0) := by
  refine ⟨⟨_, rfl, by decide, by decide, rfl, by decide⟩, ⟨_, rfl, by decide⟩, by decide, by decide⟩

/-- Pages of slice 1: a table at frames 0, 1 and 2, and a leaf for page 0 at frame 3. -/
def paged : State := { hosted with
  slices := [(0, sliceZero), (1, { sliceZero with levels := 3 })]
  mem := Memory.putCourses 8192 [0xC00, 0, 0, 3] (Memory.putCourses 4096 [0x800, 0, 0, 2] (Memory.putCourses 0 [0x800, 0, 0, 1] [])) }

/-- A cold ashlar that the free blocks hold may go to the store. -/
theorem goesToStore (cs : List Course) (len : cs.length ≤ 400) :
    (let a : Ashlar := ⟨cs, 0, 600, 1⟩
     let s := { hosted with tables := [{ table with columns := [[a]] }], st := { hosted.st with capacity := 4, free := 4 } }
     s.mayMoveTier { table with columns := [[a]] } a (s.scanWaits 1 1 0 0) 2 = true) := by
  have room : (⟨cs, 0, 600, 1⟩ : Ashlar).storeRoom ≤ cs.length + 9 := Ashlar.storeRoom_le ⟨cs, 0, 600, 1⟩ (by simp only; omega)
  simp only [State.mayMoveTier, State.storeTaken, Table.storeCourses, List.map_cons, List.map_nil, List.filter_cons,
    List.filter_nil, Bool.and_eq_true, decide_eq_true_eq, ceilDiv]
  refine ⟨⟨rfl, (by decide : hosted.objNum 0x3801 5 [] 0 600 ≤ 600)⟩, ?_⟩
  simp [sumNat]
  omega

theorem witness_MasonMovesLoadAndData :
    (let s := { hosted with mason := { hosted.mason with warm := [0, 1] } }
     s.bucketHome 4094 = 0 ∧ 0 ∈ s.mason.warm ∧ 1 ∈ s.mason.warm ∧ s.bayLive 1 = true ∧ s.objNum 0x3400 1 [] 0 80 < 81 ∧
      79 < s.objNum 0x3400 1 [] 0 80 ∧ s.mason.moves = [] ∧ s.bucketMovable 4094 = true) ∧
    (let s := { hosted with mason := { hosted.mason with moves := [(4095, 1, 0)] } }
     s.mason.moves.find? (fun m => m.1 == 4095) = some (4095, 1, 0) ∧ s.bucketItems 4095 = []) ∧
    ((atTick 25000000 hosted).mason.heatAt + hosted.objNum 0x3801 1 [] 0 25000000 ≤ (atTick 25000000 hosted).now) ∧
    (let a : Ashlar := ⟨ashlarPlain (tUint 1) [some [1]] false, 0, 600, 1⟩
     let s := { hosted with tables := [{ table with columns := [[a]] }], st := { hosted.st with capacity := 4, free := 4 } }
     s.tableOf 1 1 = some { table with columns := [[a]] } ∧ { table with columns := [[a]] }.ashlarAt 0 0 = some a ∧
      s.mayMoveTier { table with columns := [[a]] } a (s.scanWaits 1 1 0 0) 2 = true ∧
      (ashlarRead s.dicts a.courses).toOption.isSome = true) ∧
    (∃ e, (paged.sliceSpace 1).inRange 0 = true ∧ (paged.sliceOf 1).state ≠ 0 ∧
      paged.leafAt 0 6 (paged.sliceSpace 1).root (paged.sliceSpace 1).levels = some (8192, 1, e) ∧
      fieldOf (nth e 0 0).toNat 9 8 ≠ 2 ∧ pteFrame e = 3 ∧ paged.framesFree 3 1 = true ∧ paged.framesFree 4 1 = true ∧ 4 % 1 = 0 ∧
      3 + 1 ≤ 4) := by
  refine ⟨by decide, by decide, by decide, ⟨rfl, rfl, ?_, by decide +kernel⟩, [0xC00, 0, 0, 3], by decide, by decide,
    by decide, by decide, by decide, by decide, by decide⟩
  exact goesToStore _ (by decide +kernel)

/-! ### Witnesses: the ledger and the table store -/

theorem length_fitList {α : Type} (n : Nat) (d : α) (l : List α) : (fitList n d l).length = n := by
  simp [fitList]; omega

theorem length_natBytes (k n : Nat) : (natBytes k n).length = k := by
  induction k generalizing n with
  | zero => rfl
  | succ k ih => simp [natBytes, ih]

/-- An answered item, and a slice that may record 10,000 bytes a second. -/
def answered : Item := { item with answer := some ⟨0, 0, []⟩, hashReady := true }

def recording : State := { withItem answered with objs := [(⟨0x4001, 17, [], 0⟩, .num 10000)] }

theorem record_length : (ledgerRecord answered ⟨0, 0, []⟩).length = 128 := by
  simp [ledgerRecord, length_fitList, length_natBytes, answered, item, newItem, packBytes]

theorem witness_LedgerEventsRecordAndSeal :
    ((recording.unrecorded.find? fun x => recording.bucketAdmits x.1.slice (ledgerRecord x.1 x.2).length) =
        some (answered, ⟨0, 0, []⟩) ∧ answered.hashReady = true ∧
      recording.led.used + (ledgerRecord answered ⟨0, 0, []⟩).length ≤ bufferSize) ∧
    (let s := { hosted with led := { hosted.led with buffer := [[1, 2]], free := 2 } }
     s.led.buffer = [1, 2] :: [] ∧ [1, 2].length ≤ s.led.free ∧ s.power.save = none) ∧
    (let s := { atTick 25000001 hosted with power := { hosted.power with ready := true } }
     s.paused = false ∧ s.closuresIn 25000000 = true ∧ s.leads = true ∧ s.power.ready = true ∧ s.canSign = true ∧ s.now % 25000000 ≠ 0 ∧ 25000000 ≤ s.now ∧
      s.led.sealTick < s.now / 25000000 * 25000000) ∧
    (let x : Seal := ⟨0, 0, [], [], [], false⟩
     let s := { atTick 1 hosted with led := { hosted.led with seals := [x] } }
     s.led.seals.find? (fun x => !x.written) = some x ∧ s.paused = false ∧ x.tick < s.now ∧ s.power.save = none) ∧
    (let i := { answered with acked := true }
     let s := withItem i
     (sortBy (fun (x y : Item × Answer) => x.2.tick < y.2.tick || (x.2.tick == y.2.tick && x.1.seq < y.1.seq))
      (s.items.filterMap fun i =>
        if i.sent ∨ i.slice ≠ 1 ∨ s.aqOf i ≠ 7 then none else i.answer.map fun a => (i, a))).head? = some (i, ⟨0, 0, []⟩) ∧
      i.acked = true ∧ s.mirrorWaits i = false ∧ s.power.frozen = false) := by
  refine ⟨⟨?_, rfl, ?_⟩, by decide, by decide, ⟨rfl, by decide, by decide, by decide⟩, by decide⟩
  · have h : recording.unrecorded = [(answered, ⟨0, 0, []⟩)] := rfl
    have b : recording.bucketAdmits answered.slice 128 = true := by decide
    rw [← record_length] at b
    rw [h]
    exact List.find?_cons_of_pos b
  · rw [record_length]; decide

/-- Slice 1 with a quota of 4 blocks in the table store, which has 4 free. -/
def stored : State := { hosted with objs := [(⟨0x4001, 11, [], 0⟩, .num 4)], st := { hosted.st with free := 4, capacity := 4 } }

theorem witness_StorageCommandsComplete : (hosted.paused = false ∧ recording.paused = false ∧ stored.paused = false) ∧
    (∃ s1, Starts hosted (header 1) 0x0050 (if 2 = 2 then anyRole else tenantRole) s1 ⟨1, 0, 1⟩ ∧ s1.partitionBusy 0 = false) ∧
    (∃ s1, Starts hosted (header 2) 0x0051 tenantRole s1 ⟨2, 1, 0⟩ ∧ s1.partitionBusy 0 = false ∧ s1.proofOf 1 5 0 = none ∧
      s1.recordPending 1 5 0 = false) ∧
    (∃ s1, Starts recording (header 2) 0x0051 tenantRole s1 ⟨2, 1, 0⟩ ∧ s1.partitionBusy 0 = false ∧ s1.proofOf 1 5 0 = none ∧
      s1.recordPending 1 5 0 = true) ∧
    (let g : Segment := ⟨1, 0, 0, [], 0, 0, none⟩
     ∃ s1, Starts { hosted with led := { hosted.led with opened := [g] } } (header 2) 0x0052 tenantRole s1 ⟨2, 1, 0⟩ ∧
      s1.partitionBusy 0 = false ∧ ∃ g ∈ s1.led.opened, g.slice = 1) ∧
    (∃ s1, Starts stored (header 2) 0x0053 tenantRole s1 ⟨2, 1, 0⟩ ∧ s1.partitionBusy 1 = false ∧
      (List.replicate 6144 (0 : Byte)).length = 1 * 6144 ∧ 3 + 1 ≤ s1.tsQuota 1 ∧ s1.host.waiting = [] ∧ 1 ≤ s1.st.free) ∧
    (∃ s1, Starts stored (header 2) 0x0054 tenantRole s1 ⟨2, 1, 0⟩ ∧ s1.partitionBusy 1 = false ∧ s1.host.waiting = [] ∧ 0 + 4 ≤ s1.tsQuota 1) ∧
    (∃ s1, Starts stored (header 2) 0x0055 tenantRole s1 ⟨2, 1, 0⟩ ∧ s1.partitionBusy 1 = false ∧ s1.host.waiting = [] ∧ 0 + 4 ≤ s1.tsQuota 1) ∧
    (let x : TsWr := ⟨1, 0, 3, 0, 5, []⟩
     let s := { stored with st := { stored.st with writes := [x] } }
     s.led.paused = false ∧ s.partitionBusy 1 = false ∧ s.power.save = none ∧ s.st.writes.find? (fun x => x.slice == 1 && x.block == 3) = some x ∧
      (s.writerOf x).any s.tsHeld = false) := by
  refine ⟨⟨rfl, rfl, rfl⟩, ⟨_, rfl, rfl⟩, ⟨_, rfl, rfl, rfl, rfl⟩, ⟨_, rfl, rfl, rfl, by decide⟩, ⟨_, rfl, rfl, by decide⟩,
    ⟨_, rfl, rfl, List.length_replicate .., by decide, rfl, by decide⟩, ⟨_, rfl, rfl, rfl, by decide⟩, ⟨_, rfl, rfl, rfl, by decide⟩,
    rfl, rfl, rfl, rfl, rfl⟩

theorem witness_PartitionsAreErasedAndRefreshed : hosted.paused = false ∧
    (∃ s1, Starts hosted (header 2) 0x0056 anyRole s1 ⟨2, 1, 0⟩) ∧
    (∃ s1, Starts hosted (header 4) 0x0057 anyRole s1 ⟨4, 0, 2⟩ ∧ s1.st.erase = [] ∧ s1.deadlineCtx = false) ∧
    (let s := { hosted with led := { hosted.led with seals := [⟨9, 0, [], [], [], true⟩] } }
     ∃ s1, Starts s (header 4) 0x0057 anyRole s1 ⟨4, 0, 2⟩ ∧ ∃ x ∈ s1.led.sealed, x.seq = 9) ∧
    (∃ s1, Starts hosted (header 4) 0x0058 anyRole s1 ⟨4, 0, 2⟩ ∧ s1.led.allReleased = true) ∧
    (let e : Erase := ⟨1, true, 0, 0, 0, 999⟩
     { hosted with st := { hosted.st with erase := [e] } }.st.erase.find? (fun e => e.partition == 1) = some e ∧
      e.progress < 1000 ∧ 999 < 1000 ∧ 1000 ≤ 1000) := by
  refine ⟨rfl, ⟨_, rfl⟩, ⟨_, rfl, rfl, rfl⟩, ⟨_, rfl, by decide⟩, ⟨_, rfl, rfl⟩, by decide⟩

/-! ### Witnesses: caches, the medium and Hod -/

/-- A fill of bay 0 that waits for its last sector. -/
def fill (ks : List Nat) : Fill := { bay := 0, line := 0, sectors := ks, prefetch := true, slice := 1, data := [], covered := none
                                     gd := false }

/-- A device with something else in its memory system. -/
def withMem (f : MemSt → MemSt) : State := { State.reset with memx := f State.reset.memx }

theorem witness_CacheAndMediumEvents :
    (let s := withMem fun m => { m with fills := [fill [2, 3]] }
     s.memx.fills.find? (fun f => f.bay == 0 && f.line == 0) = some (fill [2, 3]) ∧ (0, 0) ∉ s.memx.victims ∧
      s.memUp 0 = true ∧ s.readable 0 = true) ∧
    (let s := withMem fun m => { m with fills := [fill [3]] }
     s.memx.fills.find? (fun f => f.bay == 0 && f.line == 0) = some (fill [3])) ∧
    (let l : Line := ⟨0, 0, [], true, 0⟩
     ((withCore (.stone 0 16) { stoneCore with evict := [l] }).coreOf (.stone 0 16)).evict = l :: []) ∧
    ((withCore (.stone 0 0) { stoneCore with storesOut := 1 }).coreOf (.stone 0 0)).storesOut ≠ 0 ∧
    (State.reset.readable (lineOf (hbmSize - 1)) = true ∧ State.reset.memUp (lineOf (hbmSize - 1)) = true) ∧
    (let s := withMem fun m => { m with bound := [(0, 1)], pch := [1] }
     s.memx.bound.find? (fun p => p.1 == 0 && (s.memx.pch.contains (pchOf p.1) || s.memx.pch.contains (pchOf p.2))) = some (0, 1) ∧
      pchOf 0 ∉ s.memx.pch ∧ pchOf 2 ∉ s.memx.pch ∧ 2 * 4096 < hbmSize ∧ pchOf 2 % 6 ≠ pchOf 0 % 6 ∧
      ∀ q ∈ s.memx.bound, q.1 ≠ 2 ∧ q.2 ≠ 2) ∧
    (let s := withMem fun m => { m with bound := [(0, 1)], pch := [0] }
     s.memx.bound.find? (fun p => p.1 == 0 && (s.memx.pch.contains (pchOf p.1) || s.memx.pch.contains (pchOf p.2))) = some (0, 1) ∧
      pchOf 0 ∈ s.memx.pch ∧ pchOf 1 ∉ s.memx.pch ∧ pchOf 2 ∉ s.memx.pch ∧
      ((s.partners 0).filter fun f => !(s.memx.pch.contains (pchOf f))).length < 2 ∧ pchOf 2 % 6 ≠ pchOf 1 % 6) := by
  refine ⟨by decide, rfl, rfl, by decide, by decide, by decide, by decide⟩

/-- A range operation of one line. -/
def rangeOp (op at_ : Nat) : RangeOp := { op := op, start := 0, count := 128, at_ := at_, id := 1 }

def ranging (o : RangeOp) : State := withMem fun m => { m with range := [(0, { queue := [o], error := false, lastOp := 0 })] }

theorem witness_RangeWalkAndInvalidateEvents :
    (((ranging (rangeOp 0x10 0)).rangeOf 0).queue = [rangeOp 0x10 0] ∧ (rangeOp 0x10 0).at_ < (rangeOp 0x10 0).visits) ∧
    (((ranging (rangeOp 0x13 1)).rangeOf 0).queue = [rangeOp 0x13 1] ∧ 1 ∉ (ranging (rangeOp 0x13 1)).memx.zeroDone ∧
      (ranging (rangeOp 0x13 1)).rangeVisited 1 = true) ∧
    ((rangeOp 0x10 1).visits ≤ (rangeOp 0x10 1).at_ ∧ (ranging (rangeOp 0x10 1)).memx.fills = [] ∧
      (ranging (rangeOp 0x10 1)).memx.victims = [] ∧ (rangeOp 0x10 1).op ≠ 0x13) ∧
    (let a : Access := ⟨false, false, false, 1, 1, false, 0, [], [], false, 0, 3, 0, false, 0⟩
     let e : TlbEntry := ⟨false, 1, 0, 1, 0, 3, 0, true, true, false, true, false, false⟩
     let s := withCore (.stone 0 0) { stoneCore with access := some a }
     let s' := withCore (.stone 0 0) { stoneCore with access := some a, tlb := [some e] }
     (s.coreOf (.stone 0 0)).access = some a ∧
      (s.coreOf (.stone 0 0)).tlbFind (s.spaceOf (s.coreOf (.stone 0 0)) false) 0 false = none ∧
      (s'.coreOf (.stone 0 0)).tlbFind (s'.spaceOf (s'.coreOf (.stone 0 0)) false) 0 false = some e) ∧
    (let i : Inval := ⟨0, 0, 0, [3]⟩
     let j : Inval := ⟨2, 0, 0, [4, 5]⟩
     (withMem fun m => { m with invals := [i, j] }).memx.invals = [i] ++ j :: [] ∧ (∀ x ∈ [i], 5 ∉ x.bays) ∧ j ∉ [i] ∧ 5 ∈ j.bays) := by
  decide

/-- A channel that copies 128 courses of memory, and one that runs. -/
def channel (op status : Nat) : HodCh := { hodReset with
  src := 0, dst := 4096, cnt := 128, mode := op * 2 ^ 21, status := status }

def hodding (h : HodCh) : State := { State.reset with hod := { State.reset.hod with ch := [((15, 31), h)] } }

theorem witness_HodChannelsRunAndStop :
    (∀ e ∈ [0, 1, 2, 3, 4], (channel e 0).op = e ∧ hodCheck { channel e 0 with en := true } = 0 ∧ (channel e 0).cnt ≠ 0) ∧
    ((hodding (channel 3 1)).hodOf 15 31).status = 1 ∧ (hodding (channel 3 1)).hodRunning 15 31 = true ∧
    ((hodding (channel 3 1)).hodOf 15 31).op = 3 ∧ State.reset.bayLive 0 = true ∧ 0 ∉ State.reset.hod.settFenced ∧
    (State.reset.isLocal (0x03C020000000 + 15 * 0x10000 + 31 * 0x40 + 0x18) = true ∧
      caLocal (0x03C020000000 + 15 * 0x10000 + 31 * 0x40 + 0x18) = 0x03C020000000 + 15 * 0x10000 + 31 * 0x40 + 0x18 ∧
      (List.replicate 8 (0 : Course)).length = 8) := by decide

/-! ### Witnesses: ports and the group -/

/-- A device with port 7 as given. -/
def ported (x : Port) : State := { State.reset with ports := [(7, x)] }

/-- A port that is up toward a host or a member. -/
def upPort : Port := { portReset with
  state := 4, role := 2, lanes := [0, 1, 2, 3], credits := [(4, 8)], goodInInterval := true, since := 0 }

/-- A flit of a type for the hub. -/
def flit (type : Nat) : FlitHdr := { type := type, vc := 0, seq := 0, ack := 0, cvc := 0, credits := 0, sop := false,
                                     eop := false, pairs := 0, hub := true, dest := 0, rsvd := 0 }

theorem witness_FlitsAreSentAndReceived :
    ((ported upPort).portOf 7).up = true ∧ (ported upPort).power.hubAsleep = false ∧ (ported upPort).power.frozen = false ∧
    ((ported upPort).portOf 7).lastTx + 25 ≤ (atTick 25 (ported upPort)).now ∧
    ((ported { upPort with retrySent := some 0 }).portOf 7).retrySent = some 0 ∧ (ported upPort).hears 7 = true ∧
    (∀ n ∈ [0, 1, 2, 3], readFlit (flitBytes (flit n) []) = some (flit n)) ∧
    ((ported { portReset with state := 1 }).portOf 7).retrain = none ∧
    ((ported { portReset with state := 1, trained := true, retrain := some 4 }).portOf 7).retrain = some 4 := by
  refine ⟨rfl, rfl, rfl, by decide, rfl, rfl, by decide +kernel, rfl, rfl⟩

/-- The HELLO of a member whose node identifier is not given. -/
def hello : List Byte := natBytes 2 1 ++ natBytes 1 0 ++ List.replicate 37 0 ++ [0xFF, 1] ++ List.replicate 54 0

theorem witness_PortsTrainAndFallBack :
    ((State.reset.portOf 7).state = 0 ∧ (State.reset.portOf 7).held = false ∧ State.reset.objNum 0x1117 5 [] 0 1 = 1 ∧
      (State.reset.portOf 7).since + 25000000 ≤ (atTick 25000000 State.reset).now) ∧
    (let x := { portReset with state := 1 }
     ((ported x).portOf 7).trained = false ∧ ((ported x).portOf 7).initSeen = false ∧
      ((ported x).portOf 7).since + 12500000 ≤ (atTick 12500000 (ported x)).now) ∧
    (let x := { portReset with state := 1, retrain := some 4 }
     ((ported x).portOf 7).retrain = some 4 ∧ ((ported x).portOf 7).since + 500 ≤ (atTick 500 (ported x)).now) ∧
    (3 ∈ ((ported upPort).portOf 7).lanes ∧ lanesFor (((ported upPort).portOf 7).faulty ++ [3]) ≠ [] ∧
      lanesFor ([0, 1, 2] ++ [3]) = []) ∧
    (((ported upPort).portOf 7).intervalStart + 25 ≤ (atTick 25 (ported upPort)).now ∧
      ((ported { upPort with goodInInterval := false, misses := 7 }).portOf 7).misses = 7) ∧
    (helloOk hello = true ∧ beNat (slice hello 2 1) = 0 ∧ helloOk [] = false ∧ ((ported { portReset with state := 2 }).portOf 7).state = 2) := by
  refine ⟨by decide, by decide, by decide, by decide, by decide, by decide⟩

/-- A request and a response of a time exchange. -/
def sync (type : Nat) : List Byte := natBytes 1 type ++ List.replicate 31 0

/-- A group of two members led by this one, whose port 7 faces the other. -/
def grouped : State := { ported upPort with
  group := { State.reset.group with
    grouped := true, formed := true, deputy := 1, members := [⟨0, [], 1, 128, true, []⟩, ⟨1, [1], 1, 128, true, []⟩], leaving := [0] }
  objs := [(⟨0x2002, 6, [], 0⟩, .bytes (List.replicate 16 1))] }

theorem witness_GroupsMeasureLinksAndFollowEvents :
    (((ported upPort).portOf 7).maySend 4 = true ∧ syncOk 1 (sync 1) = true ∧
      ((ported { upPort with syncAt := some 0 }).portOf 7).syncAt = some 0 ∧ 0 + 2500 ≤ (atTick 2500 (ported upPort)).now) ∧
    (((ported { upPort with syncT1 := some 0 }).portOf 7).syncT1 = some 0 ∧ syncOk 2 (sync 2) = true ∧
      beNat (slice (sync 2) 2 2) = ((ported upPort).portOf 7).syncSeq) ∧
    (((ported { upPort with state := 3, role := 1 }).portOf 7).state = 3 ∧ reportOk [] [] = false) ∧
    (grouped.group.grouped = true ∧ 1 ≠ grouped.group.node ∧ grouped.group.leader = grouped.group.node ∧
      grouped.group.memberAt 1 = some ⟨1, [1], 1, 128, true, []⟩) ∧
    (grouped.group.epoch < 1 ∧ ∀ m ∈ grouped.group.members, m.state = 1 → m.node ≠ grouped.group.node →
      ∃ e ∈ [(1, 7)], e.1 = m.node ∧ e.2 < 8 ∧ (grouped.portOf e.2).role = 2) ∧
    (List.replicate 16 1 ∈ [List.replicate 16 (1 : Byte)] ∧ grouped.group.minority = false ∧
      grouped.roomFor 2 (List.replicate 16 1) = true ∧ grouped.roomFor 2 (List.replicate 16 2) = true ∧ grouped.listsMember (List.replicate 16 1) = true ∧
      ({ grouped with objs := [(⟨0x2002, 6, [], 0⟩, .bytes (List.replicate 32 2))] } : State).listsMember (List.replicate 16 2) = true ∧
      (List.replicate 16 (1 : Byte) ≠ fitList 16 0 Config.serial ∨ List.replicate 16 (2 : Byte) ≠ fitList 16 0 Config.serial)) ∧
    (State.reset.entriesUsed = 0 ∧ State.reset.now ≤ 0 ∧ grouped.group.node ∈ grouped.group.leaving) := by
  refine ⟨by decide, by decide, ⟨by decide, rfl⟩, by decide, by decide, ⟨by decide, by decide, by decide, by decide, by decide, by decide, ?_⟩, by decide⟩
  by_cases h : List.replicate 16 (1 : Byte) = fitList 16 0 Config.serial
  · right; rw [← h]; decide
  · exact .inl h

/-! ### Witnesses: contexts, slices, trust and units that fail -/

/-- A B image whose one sink sends to the result queue 8. -/
def runImage : Image := { image with cls := 2, ops := [op 0x16 1 0 [8]] }

theorem witness_ContextAndTableCommandsComplete :
    (hosted.paused = false ∧ (loaded image).paused = false ∧ { hosted with tables := [table] }.paused = false) ∧
    (∃ s1, Starts hosted (header 2) 0x0020 tenantRole s1 ⟨2, 1, 0⟩) ∧
    (∃ s1, Starts (loaded image) (header 2) 0x0021 tenantRole s1 ⟨2, 1, 0⟩ ∧ s1.ownCtx 1 0 = some (newContext 0 1 image) ∧
      s1.ctxBusy 0 = false) ∧
    (∃ s1, Starts (loaded runImage) (header 2) 0x0022 tenantRole s1 ⟨2, 1, 0⟩ ∧ s1.ownCtx 1 0 = some (newContext 0 1 runImage) ∧
      (List.replicate 18 (0 : Byte)).length = 18 * 1 ∧
      ∀ x ∈ runImage.resultOuts, ∃ q ∈ s1.host.queues, q.slice = 1 ∧ q.qid = x.2 ∧ q.kind = 4) ∧
    (∃ s1 ts, Starts hosted (header 2) 0x0023 tenantRole s1 ⟨2, 1, 0⟩ ∧ s1.tableOf 1 1 = none ∧ columnTypes 1 [0x11, 0, 0] = some ts) ∧
    (∃ s1, Starts { hosted with tables := [table] } (header 2) 0x0024 tenantRole s1 ⟨2, 1, 0⟩ ∧ s1.tableOf 1 1 = some table ∧
      (s1.ctxs.any fun c => c.slice == 1 && c.image.names 1) = false) ∧
    (∃ s1, Starts hosted (header 1) 0x0002 anyRole s1 ⟨1, 0, 1⟩ ∧ s1.queueOf 0 4095 = none) ∧
    (∃ s1, Starts { hosted with host := { hosted.host with queues := [⟨0, 5, 1, 0, 0, 0, []⟩] } } (header 1) 0x0003 anyRole s1
        ⟨1, 0, 1⟩ ∧ s1.queueOf 0 5 = some ⟨0, 5, 1, 0, 0, 0, []⟩ ∧ s1.items = [] ∧ ∀ r ∈ s1.host.queues, r.pair ≠ 5) := by
  refine ⟨⟨rfl, rfl, rfl⟩, ⟨_, rfl⟩, ⟨_, rfl, rfl, rfl⟩, ⟨_, rfl, rfl, rfl, by decide⟩, ⟨_, [tUint 1], rfl, rfl, by decide⟩,
    ⟨_, rfl, rfl, rfl⟩, ⟨_, rfl, rfl⟩, ⟨_, rfl, rfl, rfl, by decide⟩⟩

/-- A device in which slice 1 has been reset or is being removed by the Operator. -/
def resetting (remove : Bool) : State := { State.reset with
  slices := [(0, sliceZero), (1, { sliceZero with state := if remove then 3 else 2, resetting := some ⟨header 1, 0, remove, true⟩ })] }

theorem witness_SliceCommandsComplete : (hosted.paused = false ∧ queued.paused = false) ∧
    (∃ s1, Starts hosted (header 1) 0x0060 operatorRole s1 ⟨1, 0, 1⟩ ∧ (s1.sliceOf 1023).state = 0) ∧
    (∃ s1, Starts hosted (header 1) 0x0061 operatorRole s1 ⟨1, 0, 1⟩ ∧ s1.oneByOne (header 1) 0x0061 ⟨1, 0, 1⟩ = false ∧
      (s1.sliceOf 1).state = 1 ∧
      (s1.updSlice 1 fun x => { x with state := 2, resetting := some ⟨header 1, 0, false, false⟩ }).untagged 1
        ((s1.genOf 1 + 1) % 4096) = true) ∧
    (∃ s1, Starts hosted (header 1) 0x0062 operatorRole s1 ⟨1, 0, 1⟩ ∧ s1.oneByOne (header 1) 0x0062 ⟨1, 0, 1⟩ = false ∧
      (s1.sliceOf 1).state = 1) ∧
    (∃ s1, Starts { hosted with group := grouped.group } (header 1) 0x0061 operatorRole s1 ⟨1, 0, 1⟩ ∧
      s1.oneByOne (header 1) 0x0061 ⟨1, 0, 1⟩ = true) ∧
    (∃ s1 q, Starts queued (header 2) 0x0004 anyRole s1 ⟨2, 1, 0⟩ ∧ s1.oneByOne (header 2) 0x0004 ⟨2, 1, 0⟩ = false ∧
      s1.queueOf 1 6 = some q) ∧
    (((resetting false).sliceOf 1).resetting = some ⟨header 1, 0, false, true⟩ ∧ (resetting false).drained 1 = true ∧
      (header 1).gen = (resetting false).genOf 0) ∧
    (((resetting true).sliceOf 1).resetting = some ⟨header 1, 0, true, true⟩ ∧ (resetting true).drained 1 = true ∧
      (resetting true).removable 1 = true) ∧
    (∃ s1, Starts hosted (header 4) 0x0063 custodianRole s1 ⟨4, 0, 2⟩ ∧ s1.bindingOf (2 ^ 20 - 1) = none ∧
      s1.bindings.length < 16384 ∧ (s1.sliceOf 1).state = 1 ∧ (s1.sliceOf 0).state = 1) ∧
    (∃ s1, Starts hosted (header 4) 0x0064 custodianRole s1 ⟨4, 0, 2⟩ ∧ s1.bindingOf 1 = some ⟨1, 0, 1⟩ ∧
      (s1.bindings.filter fun y => y.role == 2).length = 1) ∧
    (∃ s1, Starts hosted (header 2) 0x0065 tenantRole s1 ⟨2, 1, 0⟩ ∧
      (s1.ctxs.any fun c => c.slice == 1 && c.image.namesSpace 4095) = false) := by
  refine ⟨⟨rfl, rfl⟩, ⟨_, rfl, rfl⟩, ⟨_, rfl, rfl, rfl, by decide⟩, ⟨_, rfl, rfl, rfl⟩, ⟨_, rfl, by decide⟩, ⟨_, _, rfl, rfl, rfl⟩,
    by decide, by decide,
    ⟨_, rfl, by decide, by decide, rfl, rfl⟩, ⟨_, rfl, rfl, rfl⟩, ⟨_, rfl, rfl⟩⟩

/-- A device whose trust state is as given. -/
def trusting (f : TrustSt → TrustSt) : State := { hosted with trust := f hosted.trust }

theorem witness_TrustCommandsAndEvents : (∀ f, (trusting f).paused = false) ∧
    (let s := trusting fun t => { t with run := { fwNone with measurement := [1] } }
     s.trust.stageState ≠ 4 ∧ s.trust.run.measurement ≠ [] ∧ s.hasCert s.trust.run.measurement = false ∧ s.canSign = true) ∧
    (∃ s1, Starts hosted (header 2) 0x0070 anyRole s1 ⟨2, 1, 0⟩ ∧ (List.replicate 48 (0 : Byte)).length = 48 ∧
      s1.trust.debug ≠ 2 ∧ s1.trust.gated = false ∧ s1.hssLeft ≠ 0 ∧ s1.bindingOf 2 = some ⟨2, 1, 0⟩ ∧ s1.host.waiting = [] ∧
      16 < s1.trust.tokens ∧ s1.canSign = true) ∧
    (∃ s1, Starts (trusting fun t => { t with tokens := 16 }) (header 2) 0x0070 anyRole s1 ⟨2, 1, 0⟩ ∧ s1.trust.tokens ≤ 16) ∧
    (hosted.trust.lastToken + 50000000 ≤ (atTick 50000000 hosted).now) ∧
    (let s := trusting fun t => { t with hssPending := true }
     s.trust.hssPending = true ∧ (s.trust.hssTree + 1) * hssTreeSize < hssTotal) ∧
    (∃ s1, Starts hosted (header 4) 0x0071 custodianRole s1 ⟨4, 0, 2⟩ ∧ s1.trust.stageState ≠ 4 ∧ s1.trust.stageState ≠ 5 ∧
      0 + [(0 : Byte)].length ≤ bankSize) ∧
    (∃ s1, Starts (trusting fun t => { t with stageState := 1, stageOwner := 1, stageAt := 7 }) (header 4) 0x0071 custodianRole s1
      ⟨4, 0, 2⟩ ∧ s1.trust.stageState = 1 ∧ s1.trust.stageOwner = 1 ∧ s1.trust.stageAt = 7) ∧
    (∃ s1, Starts (trusting fun t => { t with stageState := 2 }) (header 4) 0x0072 custodianRole s1 ⟨4, 0, 2⟩ ∧
      s1.oneByOne (header 4) 0x0072 ⟨4, 0, 2⟩ = false ∧ s1.trust.stageState = 2) ∧
    (let s := { trusting fun t => { t with stageState := 4, gated := true } with quoin := ⟨0, true, [], none, []⟩ }
     s.trust.stageState = 4 ∧ s.quoin.standby = true ∧ s.canSign = false) ∧
    (let s := { trusting fun t => { t with stageState := 5 } with quoin := ⟨0, true, [], none, []⟩ }
     s.trust.stageState = 5 ∧ s.trust.switchAt + s.objNum 0x7010 3 [] 0 600 * 25000000 ≤ (atTick 15000000000 s).now ∧
      s.quoin.active ∉ s.quoin.fenced ∧ s.quoin.standby = true) ∧
    (trusting fun t => { t with debug := 1 }).trust.debug = 1 := by
  refine ⟨fun _ => rfl, by decide, ⟨_, rfl, rfl, by decide, rfl, by decide, rfl, rfl, by decide, by decide⟩, ⟨_, rfl, by decide⟩,
    by decide, by decide, ⟨_, rfl, by decide, by decide, by decide⟩, ⟨_, rfl, rfl, rfl, rfl⟩, ⟨_, rfl, rfl, rfl⟩, by decide, by decide,
    rfl⟩

theorem witness_FailedUnitsAreWithdrawn :
    (State.reset.bayLive 15 = true ∧ State.reset.stoneLive 15 16 = true) ∧
    (let s := withCore (.stone 0 0) stoneCore
     s.stoneLive 0 0 = true ∧ (s.coreOf (.stone 0 0)).firing.isSome = true ∧ s.awaitsDelivery (.stone 0 0) = false) ∧
    (191 ∉ State.reset.memx.pch ∧ 7 ∉ State.reset.st.lostChannels ∧ (15, 3) ∉ State.reset.mason.fencedLanes ∧
      1 ∉ State.reset.quoin.fenced ∧ (withMem fun m => { m with dramState := 1 }).memx.dramState = 1) ∧
    (State.reset.trust.stageState ≠ 4 ∧ State.reset.trust.stageState ≠ 5 ∧ 5 ≠ 4) ∧
    (let i := { item with answer := some ⟨0, 0, []⟩ }
     (withItem i).itemOf 1 = some i ∧ i.answer.isSome = true ∧ i.recorded = false) ∧
    (((withCore (.stone 0 0) stoneCore).coreOf (.stone 0 0)).firing.isSome = true ∧ coreBay (.quoin 0) = none ∧
      ((tgetD (.quoin 0) [] State.reset.err.transfers).filter fun a => decide (State.reset.now < a + 25000000)).length < 2) := by
  decide

/-! ### Witnesses: objects -/

/-- The device with firmware verified under vendor set 1. -/
def verified : State := trusting fun t => { t with run := { fwNone with keySet0 := 1, keySet := 1 } }

/-- The same with a Custodian's session on the field network. -/
def session : State := { verified with can := { verified.can with role := 2 } }

theorem witness_ObjectCommandsReadAndWrite :
    (∃ s1 r, Claims.Opens hosted (header 2) false ⟨0x1000, 1, []⟩ s1 ⟨2, 1, 0⟩ ∧
      s1.readObj false (Binding.view ⟨2, 1, 0⟩) ⟨0x1000, 1, []⟩ = .ok r) ∧
    (∃ s1 u, Claims.Opens hosted (header 1) true ⟨0x3801, 1, []⟩ s1 ⟨1, 0, 1⟩ ∧
      s1.writeObj false (Binding.view ⟨1, 0, 1⟩) 0 ⟨0x3801, 1, []⟩ (natBytes 4 25000000) = .ok u) ∧
    (∃ s1 u, Claims.Opens verified (header 4) true ⟨0x7000, 3, []⟩ s1 ⟨4, 0, 2⟩ ∧
      s1.writeObj false (Binding.view ⟨4, 0, 2⟩) 0 ⟨0x7000, 3, []⟩ (natBytes 1 0x5A) = .ok u) ∧
    (∃ u, session.canHears = true ∧ session.canWaits ⟨0x7000, 3, []⟩ true = false ∧ session.canHeld ⟨0x7000, 3, []⟩ true = false ∧
      session.displace.touched.canReach ⟨0x7000, 3, []⟩ true = 0 ∧
      session.displace.touched.awake.writeObj true none 0 ⟨0x7000, 3, []⟩ (natBytes 1 0x5A) = .ok u) ∧
    (let s : State := { hosted with quoin := { hosted.quoin with pausedUntil := some 800 } }
     s.paused = true ∧ isPublic ⟨0x3801, 1, []⟩ = false ∧ s.objRefused (header 1) 0x0011 ⟨0x3801, 1, []⟩ = none ∧
      s.objRefused (header 1) 0x0010 ⟨0x3801, 1, []⟩ = none ∧
      (s.acceptCmd (header 1) 0x0011 anyRole).2 = some ⟨1, 0, 1⟩ ∧ (s.acceptCmd (header 1) 0x0010 anyRole).2 = some ⟨1, 0, 1⟩) ∧
    (∃ x, { hosted with stored := { hosted.stored with snapshot := some ⟨[], [], []⟩ } }.stored.snapshot = some x) := by
  refine ⟨⟨_, _, ⟨rfl, rfl, _, rfl, rfl⟩, rfl⟩, ⟨_, _, ⟨rfl, rfl, _, rfl, rfl⟩, rfl⟩, ⟨_, _, ⟨rfl, rfl, _, rfl, rfl⟩, rfl⟩,
    ⟨_, rfl, rfl, rfl, rfl, rfl⟩, by decide, _, rfl⟩

theorem witness_ObjectWritesTakeEffect :
    (∃ x ∈ { hosted with tables := [{ table with id := 2 ^ 24 - 1 }] }.tables, x.slice = 1 ∧ x.id = 2 ^ 24 - 1) ∧
    (grouped.group.memberAt 1).isSome = true ∧ (0 = hosted.trust.run.svn ∧ hosted.trust.counter ≤ 0) ∧
    ((hosted.sliceOf 1).state ≠ 0 ∧ hosted.trust.gated = false) ∧ hosted.bindCheck (2 ^ 20 - 1) 0 2 = 0 ∧
    { hosted.time with ppsState := 1 }.ppsState ≠ 0 ∧ (∃ t, hosted.writeAllot 1 4 0 = .ok t) ∧
    (∃ x ∈ (loaded image).ctxs, x.num = 0 ∧ x.slice = 1) ∧ hosted.stored.status ≠ 1 ∧
    (hosted.trust.stage 2 0 false [0]).2 = 0 ∧ (∀ c ∈ (loaded runImage).ctxs, c.image.cls = 2) :=
  ⟨by decide, by decide, by decide, by decide, by decide, by decide, ⟨_, rfl⟩, by decide, by decide, by decide, by decide⟩

theorem witness_VendorKeyRevocationIsPermanent :
    (∃ s1, Claims.Opens verified (header 4) true ⟨0x7000, 3, []⟩ s1 ⟨4, 0, 2⟩ ∧ s1.group.grouped = false ∧
      s1.trust.run.keySet0 = 1 ∧ s1.trust.run.keySet = 1) ∧
    (∃ s1, Claims.Opens hosted (header 4) true ⟨0x7000, 3, []⟩ s1 ⟨4, 0, 2⟩ ∧ s1.trust.run.keySet0 ≠ 1) ∧
    (session.canHears = true ∧ session.paused = false ∧ session.power.frozen = false ∧ session.can.path = [] ∧ session.can.role = 2 ∧
      session.group.grouped = false) := by
  refine ⟨⟨_, ⟨rfl, rfl, _, rfl, rfl⟩, rfl, rfl, rfl⟩, ⟨_, ⟨rfl, rfl, _, rfl, rfl⟩, by decide⟩, by decide⟩

/-! ### Witnesses: the field network and power -/

/-- A device whose field network is as given. -/
def networked (f : CanSt → CanSt) : State := { State.reset with can := f State.reset.can }

/-- An open transfer of 4 bytes to DEVICE_NAME, and one of 4 bytes from it. -/
def transfer (writing : Bool) : Transfer where
  writing := writing
  addr := ⟨0x1001, 1, []⟩
  total := 4
  data := if writing then [] else [65, 66, 67, 68]
  nextSeq := if writing then 0 else 1
  acked := 0
  last := 0

theorem witness_FieldNetworkRequestsAreServed_objects :
    (∃ v u, Claims.Hears State.reset State.reset.displace.touched ∧ State.reset.canWaits (State.reset.frameAddr [1, 0x20, 0, 5]) false = false ∧
      State.reset.canHeld (State.reset.frameAddr [1, 0x20, 0, 5]) false = false ∧
      State.reset.displace.touched.canRead (State.reset.frameAddr [1, 0x20, 0, 5]) = .ok (v, u) ∧
      segmented (State.reset.frameAddr [1, 0x20, 0, 5]) = false) ∧
    (∃ v u, State.reset.displace.touched.canRead (State.reset.frameAddr [3, 0x10, 0, 1]) = .ok (v, u) ∧
      segmented (State.reset.frameAddr [3, 0x10, 0, 1]) = true) ∧
    (let f : List Byte := [2, 0x70, 0, 3, 0x5A]
     session.paused = false ∧ session.canHeld (session.frameAddr f) true = false ∧ session.displace.touched.canReach (session.frameAddr f) true = 0 ∧
      segmented (session.frameAddr f) = false ∧ fixedSize (session.frameAddr f) = some 1 ∧ f.length = canSize (4 + 1)) ∧
    (let s := networked fun c => { c with role := 1 }
     let f : List Byte := [4, 0x10, 1, 1, 0, 0, 0, 4]
     s.paused = false ∧ s.canHeld (s.frameAddr f) true = false ∧ s.displace.touched.segRefusal (s.frameAddr f) (beNat (slice f 4 4)) = 0 ∧
      0 < beNat (slice f 4 4)) ∧
    (let s : State := { State.reset with quoin := { State.reset.quoin with pausedUntil := some 800 } }
     s.canHears = true ∧ s.paused = true ∧ s.canWaits (s.frameAddr [1, 0x38, 1, 1]) false = true) := by
  refine ⟨⟨_, _, ⟨rfl, rfl⟩, rfl, rfl, rfl, rfl⟩, ⟨_, _, rfl, rfl⟩, by decide, by decide, by decide⟩

theorem witness_FieldNetworkRequestsAreServed_transfers :
    (let s := networked fun c => { c with transfer := some (transfer true) }
     let f : List Byte := [5, 0, 65, 66, 67, 68]
     s.canHears = true ∧ s.paused = false ∧ s.power.frozen = false ∧ s.can.transfer = some (transfer true) ∧ (transfer true).writing = true ∧
      beNat (slice f 1 1) = (transfer true).nextSeq % 256 ∧
      f.length = canSize (2 + segSize (transfer true).total (transfer true).nextSeq)) ∧
    (let s := networked fun c => { c with transfer := some (transfer false) }
     s.canHears = true ∧ s.can.transfer = some (transfer false) ∧ (transfer false).writing = false ∧
      (transfer false).ackedTo (beNat (slice [6, 0] 1 1)) = some 1) ∧
    (let s := atTick 25000000 (networked fun c => { c with transfer := some (transfer true) })
     s.can.transfer = some (transfer true) ∧ (transfer true).last + 25000000 ≤ s.now) := by decide

theorem witness_FieldNetworkRequestsAreServed_sessions :
    (let f : List Byte := [8, 1, 0x00, 0x3F, 0xFF, 0xFF, 0xFF, 0xFF, 0xFF, 0xFF, 0xFF, 0xFF, 0xFF, 0xFF]
     beNat (slice f 1 1) ≤ 8 ∧ (∀ c ∈ (unpackBytes (fitList 12 0 (slice f 2 12))).drop (beNat (slice f 1 1)), c = 0xFFF)) ∧
    (let s := networked fun c => { c with keyOperator := [1] }
     (∀ k, s.displace.touched.can.lockedUntil = some k → k ≤ s.now) ∧
      s.displace.touched.roleKey (beNat (slice [9, 1] 1 1)) ≠ []) ∧
    ((networked fun c => { c with challenge := some (1, 0, 0) }).displace.touched.can.challenge = some (1, 0, 0)) ∧
    (let s := atTick 25000001 (networked fun c => { c with challenge := some (1, 0, 0) })
     s.can.challenge = some (1, 0, 0) ∧ 0 + 25000000 < s.now) ∧
    (let s := atTick 1500000000 (networked fun c => { c with role := 2 })
     s.can.role ≠ 0 ∧ s.can.lastRequest + s.objNum 0x1101 1 [] 0 60 * 25000000 ≤ s.now) ∧
    (let s := atTick 5 (networked fun c => { c with lockedUntil := some 5 })
     s.can.lockedUntil = some 5 ∧ 5 ≤ s.now) ∧
    (let s := atTick 25000000 State.reset
     s.objNum 0x1100 3 [] 0 1000 ≠ 0 ∧ s.can.busState ≠ 2 ∧
      s.can.lastHeartbeat + s.objNum 0x1100 3 [] 0 1000 * 25000 ≤ s.now) ∧
    (networked fun c => { c with busState := 2 }).can.busState = 2 := by
  refine ⟨by decide, ⟨fun _ h => by simp [networked, State.displace, State.touched, State.reset] at h, by decide⟩, by decide, by decide,
    by decide, by decide, by decide, by decide⟩

/-- A device whose power state is as given. -/
def powered (f : PowerSt → PowerSt) : State := { State.reset with power := f State.reset.power }

/-- A save that began at tick 0. -/
def save (written : Bool) : Save where
  t0 := 0
  tf := 0
  cause := .input12V
  vhold := 12000
  written := written
  supply := false

theorem witness_SleepAndSaveStates_sleep :
    (let s := atTick 250 State.reset
     s.bayLive 3 = true ∧ (s.bayPower 3).wakeDue = none ∧ s.bayBusy 3 = false ∧ s.idleTime (s.bayPower 3).state ≠ 0 ∧
      (s.bayPower 3).idleSince + s.idleTime (s.bayPower 3).state ≤ s.now ∧ s.mayDescend 3 (s.bayPower 3).state = true) ∧
    (let s := atTick 225 (powered fun p => { p with bays := [(3, ⟨2, 0, none⟩), (4, ⟨2, 0, some 225⟩)] })
     s.bayLive 3 = true ∧ (s.bayPower 3).state ≠ 0 ∧ (s.bayPower 3).wakeDue = none ∧ (s.bayPower 4).wakeDue = some 225 ∧ 225 ≤ s.now) ∧
    (let s := atTick 250000 (powered fun p => { p with bays := (List.range 16).map fun b => (b, ⟨2, 0, none⟩) })
     s.power.hubAsleep = false ∧ s.hubBusy = false ∧ s.objNum 0x5801 5 [] 0 250000 ≠ 0 ∧
      s.power.hubIdle + s.objNum 0x5801 5 [] 0 250000 ≤ s.now ∧ s.power.frozen = false ∧
      s.baysAsleep = true ∧ s.memBusy = false ∧ s.gAdmitted = false ∧ s.objNum 0x5801 6 [] 0 2500 ≠ 0 ∧
      s.power.memIdle + s.objNum 0x5801 6 [] 0 2500 ≤ s.now) := by decide

theorem witness_SleepAndSaveStates_save :
    (powered fun p => { p with step := 3 }).power.step ≥ 3 ∧
    (let s := powered fun p => { p with ready := true, buttress := 1 }
     s.power.ready = true ∧ s.power.buttress = 1 ∧ s.power.save = none) ∧
    ((powered fun p => { p with save := some (save false) }).power.save = some (save false) ∧ (save false).written = false) ∧
    (let s := atTick 25000 (powered fun p => { p with save := some (save true) })
     s.power.save = some (save true) ∧ (save true).written = true ∧ s.time.heldTick + 25000 ≤ s.now) := by decide

theorem witness_RailsAndPowerUpSequence :
    (∀ v, State.reset.power.save = some v → v.written = true ∧ v.supply = true) ∧
    (let s := atTick 50000 (powered fun p => { p with railEn := 1 })
     0 < 4 ∧ s.power.railWait ≠ some 0 ∧ s.power.railEn.testBit 0 = true ∧ s.power.pgood = 2 ^ 0 - 1 ∧
      s.power.railAt + 50000 ≤ s.now) ∧
    (powered fun p => { p with railWait := some 2 }).power.railWait = some 2 ∧
    (let s := atTick 25000000 (powered fun p => { p with railRetry := some 0 })
     s.power.railRetry = some 0 ∧ 0 + 25000000 ≤ s.now) ∧
    (let s := powered fun p => { p with railEn := 15, pgood := 15, ready := true }
     s.power.save = none ∧ s.power.railEn.testBit 2 = true ∧ s.power.pgood.testBit 2 = true ∧ s.power.ready = true) ∧
    (let s := powered fun p => { p with railEn := 15, pgood := 15, step := 2 }
     s.power.ready = false ∧ s.power.save = none ∧ s.power.railEn ≠ 0 ∧
      (∃ u, s.powerStep ⟨some 0, 1, 0, 16, 1600, 0, 0, 12000, 2000, true⟩ = some u)) ∧
    (let s := powered fun p => { p with step := 3 }
     s.quoin.standby = false ∧ 3 ≤ s.power.step ∧ 1 - s.quoin.active ∉ s.quoin.fenced) := by
  refine ⟨fun _ h => (by cases h), by decide, by decide, by decide, by decide, ⟨rfl, rfl, by decide, _, rfl⟩, by decide⟩

/-! ### Witnesses: the whole device -/

theorem witness_StepRunsTheFrontCommand : State.reset.pending = [] := rfl

/-- A step that answers a next state, on a device that has advanced its counter and revoked the vendor sets 2 and 3. -/
theorem witness_NoStepTakesTrustBack :
    let s := trusting fun t => { t with otpSvn := 3, mramSvn := 4, revoked := 6 }
    step { s with pending := [.resetN] } = .next { s with pending := [] } := rfl

/-- The last course of a page. -/
theorem witness_MemoryStoresReadBack : Memory.wf State.reset.mem = true ∧ caLocal 4095 % 4096 + [0xABC].length ≤ 4096 := by
  decide

/-! ### Ill-formed commands -/

/-- R200, R213-R215: N, conditions, pairs and quads out of range. -/
theorem test_scalar_fields_out_of_range_are_ill_formed :
    (Instr.sext (.quoin 0) 0 5 1 2).wellFormed = false ∧ (Instr.zext (.quoin 0) 0 0 1 2).wellFormed = false ∧
    (Instr.cmp (.quoin 0) 0 6 1 2 3).wellFormed = false ∧ (Instr.cmpi (.quoin 0) 0 6 1 2 3).wellFormed = false ∧
    (Instr.br (.quoin 0) 0 6 false 1 2 3).wellFormed = false ∧ (Instr.dadd (.quoin 0) 0 3 2 4).wellFormed = false ∧
    (Instr.dsub (.quoin 0) 0 2 0 4).wellFormed = false ∧ (Instr.dmul (.quoin 0) 0 2 4 5).wellFormed = false ∧
    (Instr.daddC (.quoin 0) 0 1 2 4).wellFormed = false ∧ (Instr.dmulW (.quoin 0) 0 6 2 4).wellFormed = false ∧
    (Instr.dabs (.quoin 0) 0 1 2).wellFormed = false ∧ (Instr.dneg (.quoin 0) 0 2 1).wellFormed = false ∧
    (Instr.dcmpEq (.quoin 0) 0 1 3 2).wellFormed = false ∧ (Instr.dext (.quoin 0) 0 9 2 4).wellFormed = false ∧
    (Instr.dpack (.quoin 0) 0 0 2 4).wellFormed = false ∧ (Instr.dcvtD (.quoin 0) 0 3 4).wellFormed = false ∧
    (Instr.dcvtI (.quoin 0) 0 6 5 4).wellFormed = false ∧ (Instr.dcvtU (.quoin 0) 0 9 6 4).wellFormed = false ∧
    (Instr.dfit (.quoin 0) 0 10 6 true 4 2).wellFormed = false ∧ (Instr.dfit (.quoin 0) 0 10 8 false 30 2).wellFormed = false ∧
    (Instr.dsl (.quoin 0) 0 2 4 30).wellFormed = false := by decide

/-- R201-R204, R218-R221, R226, R230: elements, widths, memory sizes, control registers, and rows a stone has not. -/
theorem test_other_fields_out_of_range_are_ill_formed :
    (Instr.vhash (.quoin 0) 0 1 2 3).wellFormed = false ∧ (Instr.vcmp (.quoin 0) 0 10 0 1 2 3).wellFormed = false ∧
    (Instr.vunpk (.quoin 0) 0 false 13 false 0 1 2 3 false).wellFormed = false ∧
    (Instr.vpack (.quoin 0) 0 97 3 1 2 3).wellFormed = false ∧ (Instr.ls (.quoin 0) 0 6 false 1 2 0 false).wellFormed = false ∧
    (Instr.ss (.quoin 0) 0 0 1 2 0).wellFormed = false ∧ (Instr.ksFind (.stone 0 0) 0 31 1 0).wellFormed = false ∧
    (Instr.ret (.quoin 0) 0 30).wellFormed = false ∧ (Instr.rdctl (.stone 0 0) 0 1 0x20).wellFormed = false ∧
    (Instr.wrctl (.quoin 0) 0 1 0x23).wellFormed = false ∧ (Instr.sret (.stone 0 0) 0).wellFormed = false ∧
    (Instr.lease (.stone 0 0) 0 1 2 3).wellFormed = false ∧ (Instr.add (.quoin 2) 0 1 2 3).wellFormed = false ∧
    (Instr.add (.stone 16 0) 0 1 2 3).wellFormed = false ∧ (Instr.hodCopy 0 32).wellFormed = false ∧
    (Instr.stoneFault 0 17).wellFormed = false ∧ (Instr.pchFailed 192).wellFormed = false ∧
    (Instr.dramChannelLost 8).wellFormed = false ∧ (Instr.onfiChannelLost 8).wellFormed = false := by decide

/-! ### Values of the spec's own examples -/

/-- R74: the CRC-32C of the ASCII bytes "123456789". -/
theorem test_crc32c : crc32c [0x31, 0x32, 0x33, 0x34, 0x35, 0x36, 0x37, 0x38, 0x39] = 0xE3069283 := by decide +kernel

/-- R56: the courses 0x800, 0x006 pack to the bytes 0x80, 0x00, 0x06; R64: 1,234.50 and -12.25 as DEC(2, 2). -/
theorem test_courses_and_limbs : packBytes [0x800, 0x006] = [0x80, 0x00, 0x06] ∧ decCourses 2 123450 = [0x07B, 0x1C2] ∧
    decCourses 2 (-1225) = [0x801, 0x0E1] ∧ packBytes (decCourses 2 (-612)) = [0x80, 0x02, 0x64] := by decide

/-- The register values of the fee example (08): dext.2, dmul, dfit #4, #2, dpack.2, on a core that holds the loaded
courses 0x801, 0x0E1 in s5 and 50 in the pair s6. -/
theorem test_fee_example :
    let c0 := coreWith [0, 0, 0, 0, 0, 0x8010E1, 0, 50] []
    let c1 := (withCore (.quoin 0) c0)
    (match exec (.dext (.quoin 0) 0 2 4 4) c1 with
      | .next t => some ((t.coreOf (.quoin 0)).sr 4, (t.coreOf (.quoin 0)).sr 5)
      | _ => none) = some (0x800000000000000, 0x10E1) := by decide +kernel

theorem test_fee_example_product :
    let c := withCore (.quoin 0) (coreWith [0, 0, 0, 0, 0x800000000000000, 0x10E1, 0, 50] [])
    (match exec (.dmul (.quoin 0) 0 8 4 6) c with
      | .next t => some ((t.coreOf (.quoin 0)).sr 8, (t.coreOf (.quoin 0)).sr 9)
      | _ => none) = some (0x800000000000000, 0x03D0FA) := by decide +kernel

theorem test_fee_example_fit :
    let c := withCore (.quoin 0) (coreWith [0, 0, 0, 0, 0, 0, 0, 0, 0x800000000000000, 0x03D0FA] [])
    (match exec (.dfit (.quoin 0) 0 10 8 false 4 2) c with
      | .next t => some ((t.coreOf (.quoin 0)).sr 10, (t.coreOf (.quoin 0)).sr 11)
      | _ => none) = some (0x800000000000000, 6) := by decide +kernel

/-- With K = 2 the dropped 50 is exactly half and the even digit stays: -612. -/
theorem test_fee_example_half_even :
    let c := withCore (.quoin 0) (coreWith [0, 0, 0, 0, 0, 0, 0, 0, 0x800000000000000, 0x03D0FA] [])
    (match exec (.dfit (.quoin 0) 0 10 8 false 2 2) c with
      | .next t => (t.coreOf (.quoin 0)).pairDec 10
      | _ => none) = some (-612) := by decide +kernel

theorem test_fee_example_pack :
    let c := withCore (.quoin 0) (coreWith [0, 0, 0, 0, 0, 0, 0, 0, 0, 0, 0x800000000000000, 6] [])
    (match exec (.dpack (.quoin 0) 0 2 10 10) c with
      | .next t => some ((t.coreOf (.quoin 0)).sr 10, (t.coreOf (.quoin 0)).sr 11)
      | _ => none) = some (0, 0x800006) := by decide +kernel

/-- R279, R280: CA 0x000123456789 lies in frame 0x123456 on pseudo-channel 150, and its course pair is pair 964 of the
frame. -/
theorem test_address_example : 0x000123456789 / 4096 = 0x123456 ∧ pchOf 0x123456 = 150 ∧ 0x000123456789 % 4096 / 2 = 964 := by
  decide

/-- R313: the indices of VA 0x0000123456789AB. -/
theorem test_walk_example : vaIndex 0x0000123456789AB 4 = 0 ∧ vaIndex 0x0000123456789AB 3 = 291 ∧
    vaIndex 0x0000123456789AB 2 = 277 ∧ vaIndex 0x0000123456789AB 1 = 632 := by decide

/-- A field record of ASCII characters at a bitmap position. -/
def asciiField (kind plen bit maxLen conv scale : Nat) (t : TypeDesc) : TField where
  kind := kind
  charset := 1
  pform := 0
  plen := plen
  required := false
  bit := bit
  maxLen := maxLen
  conv := conv
  recScale := scale
  outType := t
  tag := []

/-- The template of the Quarry example (06). -/
def requestTemplate : Template where
  rowCourses := 24
  maxRecord := 1024
  trail := false
  fields := [asciiField 0 0 0 4 4 0 (tUint 2), { asciiField 2 0 0 0 6 0 ⟨0, 0, 0⟩ with charset := 0 },
    asciiField 1 2 2 19 0 0 (tBytes 19), asciiField 0 0 4 12 1 2 ⟨2, 4, 2⟩, asciiField 0 0 11 6 4 0 (tUint 2),
    asciiField 0 0 49 3 5 0 tCode]

/-- Its record: "0100", the bitmap, "16" and the card number, the amount, the trace number as given, and "978". -/
def requestRecord (trace : List Byte) : List Byte :=
  [0x30, 0x31, 0x30, 0x30] ++ [0x50, 0x20, 0, 0, 0, 0, 0x80, 0] ++ [0x31, 0x36] ++
    [0x36, 0x30, 0x31, 0x32, 0x33, 0x34, 0x35, 0x36, 0x37, 0x38, 0x39, 0x30, 0x31, 0x32, 0x33, 0x34] ++
    [0x30, 0x30, 0x30, 0x30, 0x30, 0x30, 0x30, 0x30, 0x38, 0x36, 0x34, 0x30] ++ trace ++ [0x39, 0x37, 0x38]

/-- The row of the example: 100, the card number, 86.40, 4,711 and 978, and no reject. -/
theorem test_request_decodes :
    let d := quarryDecode requestTemplate 160 (requestRecord [0x30, 0x30, 0x34, 0x37, 0x31, 0x31])
    d.reject.isNone = true ∧ d.row.valid = [true, true, true, true, true] ∧
    (d.row.get 0, d.row.get 2, d.row.get 3, d.row.get 4) =
      (some [0, 0x064], some [0, 0, 0x008, 0x280], some [0x001, 0x267], some [0x3D2]) ∧
    (d.row.get 1).map (fun cs => cs.take 3) = some [0x010, 0x363, 0x031] := by decide +kernel

/-- "I" in byte 46: CAUSE 0x002, FIELD 4, OFFSET 46; the message type, the card number and the amount count as decoded. -/
theorem test_request_rejects :
    let d := quarryDecode requestTemplate 160 (requestRecord [0x30, 0x30, 0x34, 0x37, 0x49, 0x31])
    d.reject = some ⟨0x002, 4, 46⟩ ∧ d.known = [(0, 2), (2, 15), (17, 4)] := by decide +kernel

/-- The fields of the currency example (03): 152, 14, 152 and 0 above the base 826. -/
theorem test_currency_fields :
    (List.range 4).map (fun r => streamBits [0x980, 0xE98, 0x000] (r * 8) 8) = [978 - 826, 840 - 826, 978 - 826, 826 - 826] := by decide

/-- The answers of the items after an arbiter tick. -/
def answersAfter (i : Item) (tick : Nat) : List (Option Answer) :=
  match exec (.arbiterTick []) (atTick tick (withItem i)) with
  | .next t => t.items.map (·.answer)
  | _ => []

/-- The tie (02): a result whose arbiter tick is the deadline leaves as RESULT at that tick. -/
theorem test_tie_releases_the_result :
    answersAfter { item with verdict := some [0x123], verdictTick := some 1100 } 1100 = [some ⟨1100, 0, [0x123]⟩] := by
  decide +kernel

/-- The late result (02): with none present at the deadline the fallback leaves with the flags course 0x900. -/
theorem test_late_result_leaves_the_fallback :
    (answersAfter item 1100).map (·.map fun a => (a.tick, a.flags)) = [some (1100, 0x900)] := by decide +kernel

/-- The tick before, nothing leaves. -/
theorem test_nothing_leaves_early : answersAfter item 1099 = [none] := by decide +kernel

/-- The routing table of the card range example (10), with an insert at position 1 of which `moved` moves are done. -/
def routes (moved : Nat) : KsTab :=
  let range := fun (lo hi r : Nat) => natCrs 3 lo ++ natCrs 3 hi ++ natCrs 4 r
  { ksTable with
    mode := 2, key := 3, started := true, held := [⟨2, [], moved⟩]
    committed := [range 6012300000 6012399999 17, range 6011000000 6011999999 12, range 6000000000 6099999999 10,
      range 4000000000 4999999999 4, range 0 9999999999 0]
    queue := [{ kind := 0, pos := 1, images := [range 6011550000 6011559999 21], id := 0, host := true, ctx := 0, core := none }] }

/-- The position and route a search is answered with. -/
def routeOf (moved key : Nat) : Option (Nat × Nat) :=
  match (routes moved).answerAt 2 (natCrs 3 key) with
  | some (.hit k im) => some (k, crsNat (ksResult im))
  | _ => none

/-- Before the commit: four moves are due, 6011551234 gets route 12, 6050000000 route 10 from position 2 and then 3, and
4500000000 route 4 from position 3 after two moves and 4 after three. -/
theorem test_card_range_moves : (routes 0).movesDue (insertAt 1) = 4 ∧
    (List.range 5).map (fun m => routeOf m 6011551234) = List.replicate 5 (some (1, 12)) ∧
    (List.range 5).map (fun m => routeOf m 6050000000) = [some (2, 10), some (2, 10), some (2, 10), some (2, 10), some (3, 10)] ∧
    routeOf 2 4500000000 = some (3, 4) ∧ routeOf 3 4500000000 = some (4, 4) := by decide +kernel

/-- The high bound of the new range is 0x16651203F. -/
theorem test_card_range_image : natCrs 3 6011559999 = [0x166, 0x512, 0x03F] ∧ natCrs 3 6011551234 = [0x166, 0x50F, 0xE02] := by
  decide +kernel

end Sys2Proof.Tests
end

section
/-! SUPPORT. What several of the statements need: answers of rows, tables by key, bits and bytes, frames that go out on the
field network, and recoveries of faults. -/

namespace Sys2Proof.Machine

/-- What a command answers holds of the state it answers. -/
theorem Answers.of_exec {c : Instr} {s t : State} {P : State → Prop} (h : exec c s = .next t) (p : P t) : Answers c s P :=
  ⟨t, h, p⟩

/-! ### Lists and tables -/

theorem find?_mapIf {α : Type} (p : α → Bool) (f : α → α) (h : ∀ x, p (f x) = p x) (l : List α) :
    (mapIf p f l).find? p = (l.find? p).map f := by
  induction l with
  | nil => rfl
  | cons x t ih =>
    cases hx : p x with
    | true => simp [mapIf, hx, h]
    | false => simpa [mapIf, hx] using ih

theorem tget_map_of_key {α β : Type} [DecidableEq α] (f : α × β → α × β) (hf : ∀ e, (f e).1 = e.1) (k : α) (l : List (α × β)) :
    tget k (l.map f) = (tget k l).map fun v => (f (k, v)).2 := by
  induction l with
  | nil => rfl
  | cons e t ih =>
    obtain ⟨a, v⟩ := e
    have key : f (a, v) = (a, (f (a, v)).2) := Prod.ext (hf _) rfl
    rw [List.map_cons, key]
    by_cases h : a = k
    · subst h; simp [tget]
    · simp [tget, h, ih]

theorem tget_filter_of_none {α β : Type} [DecidableEq α] {k : α} (p : α × β → Bool) {l : List (α × β)} (h : tget k l = none) :
    tget k (l.filter p) = none := by
  induction l with
  | nil => rfl
  | cons e t ih =>
    obtain ⟨a, v⟩ := e
    by_cases ha : a = k
    · simp [tget, ha] at h
    · rw [tget, if_neg ha] at h
      cases hp : p (a, v) with
      | true => simp [hp, tget, ha, ih h]
      | false => simpa [hp] using ih h

theorem tget_tdel_self {α β : Type} [DecidableEq α] (k : α) (l : List (α × β)) : tget k (tdel k l) = none := by
  induction l with
  | nil => rfl
  | cons e t ih =>
    obtain ⟨a, v⟩ := e
    by_cases ha : a = k
    · simpa [tdel, ha] using ih
    · simpa [tdel, ha, tget] using ih

/-! ### Bits and bytes -/

theorem natBytes_length (k n : Nat) : (natBytes k n).length = k := by
  induction k generalizing n with
  | zero => rfl
  | succ k ih => simp [natBytes, ih]

theorem testBit_withBit_self (n k : Nat) : (withBit n k).testBit k = true := by
  simp [withBit]

/-- The mask of one bit keeps that bit, or nothing when it is clear. -/
theorem and_two_pow_eq_cond (n k : Nat) : n &&& 2 ^ k = cond (n.testBit k) (2 ^ k) 0 := by
  refine Nat.eq_of_testBit_eq fun i => ?_
  rw [Nat.testBit_and, Nat.testBit_two_pow]
  by_cases h : k = i
  · subst h
    cases hk : n.testBit k with
    | false => rw [Bool.false_and, cond_false, Nat.zero_testBit]
    | true => rw [Bool.true_and, cond_true, Nat.testBit_two_pow]
  · rw [decide_eq_false h, Bool.and_false]
    cases n.testBit k with
    | false => rw [cond_false, Nat.zero_testBit]
    | true => rw [cond_true, Nat.testBit_two_pow, decide_eq_false h]

theorem testBit_withoutBits_two_pow (n k : Nat) : (withoutBits n (2 ^ k)).testBit k = false := by
  unfold withoutBits
  rw [and_two_pow_eq_cond]
  cases hk : n.testBit k with
  | false => rw [cond_false, Nat.sub_zero, hk]
  | true =>
    rw [cond_true]
    have split : n = 2 ^ k + (n - 2 ^ k) := (Nat.add_sub_cancel' (Nat.ge_two_pow_of_testBit hk)).symm
    have flipped := Nat.testBit_two_pow_add_eq (n - 2 ^ k) k
    rw [← split, hk] at flipped
    exact Bool.not_inj flipped.symm

/-! ### Frames of the field network (R482-R484) -/

/-- What a controller that is not bus off sends joins the frames that went out (R482). -/
theorem canSend_of_on {s : State} (h : s.can.busState ≠ 2) (function : Nat) (b : List Byte) :
    s.canSend function b = { s with can := { s.can with out := s.can.out ++ [canFrame function s.can.node b] } } := if_neg h

theorem canReply_frame (s : State) (cs : Nat) (a : ObjAddr) (b : List Byte) :
    s.canReply cs a b = { s with can := { s.can with out := (s.canReply cs a b).can.out } } := by
  unfold State.canReply State.canSend
  split <;> rfl

/-! ### Recoveries (R497) -/

/-- A recovery counts, records, and notes its tick, and changes nothing else (R497). -/
theorem recovery_frame (s : State) (row ring cls index code detail : Nat) (exposed : Bool) :
    let t := s.recovery row ring cls index code detail exposed
    t = { s with objs := t.objs, err := t.err, can := t.can } := by
  intro t
  unfold t State.recovery
  dsimp only
  split <;> rfl

theorem recovery_lastFault (s : State) (row ring cls index code detail : Nat) (exposed : Bool) :
    (s.recovery row ring cls index code detail exposed).err.lastFault = s.now := by
  unfold State.recovery
  dsimp only
  split <;> rfl

/-- A recovery adds its own exposure bit to those there are (R497). -/
theorem recovery_exposed (s : State) (row ring cls index code detail : Nat) :
    (s.recovery row ring cls index code detail true).err.exposed = withBit s.err.exposed row := by
  unfold State.recovery
  simp only [if_true]
  split <;> rfl

end Sys2Proof.Machine
end

section
/-! SUPPORT. What filling the G pools moves (R184, R294): the lines of the caches, the memory behind them, the leases of the
stones, and counters; the LEDGER_RATE of a slice is no counter and stays. -/

namespace Sys2Proof.Machine

/-- The LEDGER_RATE of a slice (R408). -/
def State.ledgerRate (s : State) (sl : Nat) : Nat := s.objNum (0x4000 + sl) 17 [] 0 0

/-- All that differs between the states is lines of caches, memory, leases and counters. -/
def State.PoolsMove (s t : State) : Prop :=
  t = { s with
    cores := t.cores, mem := t.mem, memx := { s.memx with l2 := t.memx.l2, victims := t.memx.victims }, objs := t.objs
    mason := { s.mason with leases := t.mason.leases } } ∧ t.ledgerRate = s.ledgerRate

theorem State.PoolsMove.refl (s : State) : s.PoolsMove s := ⟨rfl, rfl⟩

theorem State.PoolsMove.trans {s t u : State} (h : s.PoolsMove t) (k : t.PoolsMove u) : s.PoolsMove u := by
  obtain ⟨ht, hr⟩ := h
  obtain ⟨hu, kr⟩ := k
  refine ⟨?_, kr.trans hr⟩
  rw [hu, ht]

theorem foldl_poolsMove {β : Type} (f : State → β → State) (hf : ∀ (s : State) x, s.PoolsMove (f s x)) (l : List β) (s : State) :
    s.PoolsMove (l.foldl f s) :=
  List.foldlRecOn l f (.refl s) fun _ h x _ => h.trans (hf _ x)

theorem setCore_poolsMove (s : State) (u : CoreId) (c : Core) : s.PoolsMove (s.setCore u c) := ⟨rfl, rfl⟩

theorem updL2_poolsMove (s : State) (b la : Nat) (f : Line → Line) : s.PoolsMove (s.updL2 b la f) := ⟨rfl, rfl⟩

theorem l2Install_poolsMove (s : State) (b la : Nat) (data : List Course) (dirty : Bool) (owner : Nat) (mask : List Nat) :
    s.PoolsMove (s.l2Install b la data dirty owner mask) := by
  unfold State.l2Install
  dsimp only
  split
  · split <;> exact ⟨rfl, rfl⟩
  · exact ⟨rfl, rfl⟩

theorem l2WriteBack_poolsMove (s : State) (b sl : Nat) (l : Line) : s.PoolsMove (s.l2WriteBack b sl l) := by
  unfold State.l2WriteBack
  split
  · exact updL2_poolsMove ..
  · exact l2Install_poolsMove ..

theorem cleanL1_poolsMove (s : State) (u : CoreId) (b : Nat) (p : Line → Bool) : s.PoolsMove (s.cleanL1 u b p) :=
  (setCore_poolsMove ..).trans (foldl_poolsMove _ (fun _ _ => l2WriteBack_poolsMove ..) ..)

theorem scrubStone_poolsMove (s : State) (b slot : Nat) : s.PoolsMove (s.scrubStone b slot) :=
  (cleanL1_poolsMove s (.stone b slot) b _).trans ⟨rfl, rfl⟩

/-- All that differs between the states is counters. -/
def State.Counts (s t : State) : Prop := t = { s with objs := t.objs } ∧ t.ledgerRate = s.ledgerRate

theorem State.Counts.trans {s t u : State} (h : s.Counts t) (k : t.Counts u) : s.Counts u := by
  obtain ⟨ht, hr⟩ := h
  obtain ⟨hu, kr⟩ := k
  refine ⟨?_, kr.trans hr⟩
  rw [hu, ht]

theorem State.Counts.poolsMove {s t : State} (h : s.Counts t) : s.PoolsMove t := by
  obtain ⟨ht, hr⟩ := h
  refine ⟨?_, hr⟩
  rw [ht]

/-- A counter of another subindex than LEDGER_RATE's. -/
theorem bump_counts (s : State) (index sub : Nat) (path : List Nat) (slice : Nat) (h : sub ≠ 17) :
    s.Counts (s.bump index sub path slice) := by
  refine ⟨rfl, funext fun sl => ?_⟩
  have other : (⟨0x4000 + sl, 17, [], 0⟩ : ObjKey) ≠ ⟨index, sub, path, slice⟩ := by
    intro e
    exact h (ObjKey.mk.inj e).2.1.symm
  simp only [State.ledgerRate, State.objNum, State.bump, State.bumpBy_objs, tget_tset_ne other]

theorem leaseTo_poolsMove (s : State) (b slot sl : Nat) : s.PoolsMove (s.leaseTo b slot sl) := by
  have scrubbed : s.PoolsMove ((s.scrubStone b slot).bump 0x3400 8 [] 0) :=
    (scrubStone_poolsMove ..).trans (bump_counts _ _ _ _ _ (by decide)).poolsMove
  unfold State.leaseTo
  dsimp only
  split
  · split
    · exact ⟨rfl, rfl⟩
    · exact scrubbed.trans ⟨rfl, rfl⟩
  · exact scrubbed.trans ⟨rfl, rfl⟩

theorem fillPools_poolsMove (s : State) : s.PoolsMove s.fillPools :=
  foldl_poolsMove _ (fun _ _ => foldl_poolsMove _ (fun _ _ => foldl_poolsMove _ (fun _ _ => leaseTo_poolsMove ..) ..) ..) ..

theorem fillPools_of_no_warm {s : State} (h : s.mason.warm = []) : s.fillPools = s := by
  rw [State.fillPools, h, List.foldl_nil]

end Sys2Proof.Machine
end

section
/-! Device time (R24-R28, R554): what a tick counts and fills, the reference, and the marks. -/

namespace Sys2Proof.Machine

/-- A tick's counts of stalls and of answers that wait (R175, R373). -/
theorem countTick_counts (s : State) : s.Counts s.countTick := by
  have each : ∀ (l : List Nat) (t : State), s.Counts t → s.Counts (l.foldl (fun t n => t.bump 0x6350 6 [] n) t) :=
    fun l t h => List.foldlRecOn l _ h fun _ k n _ => k.trans (bump_counts _ _ _ _ n (by decide))
  have stalled : s.Counts (if s.mortarStalled then s.bump 0x3400 6 [] 0 else s) := by
    split
    · exact bump_counts _ _ _ _ _ (by decide)
    · exact ⟨rfl, rfl⟩
  unfold State.countTick
  dsimp only
  generalize (if s.mortarStalled then s.bump 0x3400 6 [] 0 else s) = t at stalled ⊢
  split
  · exact each _ _ stalled
  · exact (each _ _ stalled).trans (bump_counts _ _ _ _ _ (by decide))

theorem secondOver_frame (s : State) : s.secondOver = { s with
    led := { s.led with epoch := s.secondOver.led.epoch }, group := { s.group with outbox := s.secondOver.group.outbox } } := by
  unfold State.secondOver
  split
  · rfl
  · dsimp only; split <;> rfl

theorem secondOver_ledgerRate (s : State) : s.secondOver.ledgerRate = s.ledgerRate := by
  rw [secondOver_frame]; rfl

theorem countParity_frame (s : State) (n : Nat) : s.countParity n = { s with
    time := { s.time with refState := (s.countParity n).time.refState }, can := (s.countParity n).can
    err := (s.countParity n).err } := by
  unfold State.countParity
  repeat' split
  all_goals rfl

theorem countParity_ledgerRate (s : State) (n : Nat) : (s.countParity n).ledgerRate = s.ledgerRate := by
  rw [countParity_frame]; rfl

/-- The state of a tick before the pools fill: parity of the count, the second that is over, and counts. -/
def State.beforePools (s : State) (n : Nat) : State := (s.countParity n).secondOver.countTick

/-- The state of a tick before the count moves. -/
def State.beforeCount (s : State) (n : Nat) : State := (s.beforePools n).fillPools

theorem beforeCount_ledgerRate (s : State) (n : Nat) : (s.beforeCount n).ledgerRate = s.ledgerRate :=
  (fillPools_poolsMove _).2.trans <| (countTick_counts _).2.trans <| (secondOver_ledgerRate _).trans (countParity_ledgerRate s n)

/-- What a tick moves before the pools fill. -/
theorem beforePools_frame {s t : State} {n : Nat} (h : s.beforePools n = t) : t = { s with
    time := { s.time with refState := t.time.refState }, can := t.can, err := t.err, objs := t.objs
    led := { s.led with epoch := t.led.epoch }, group := { s.group with outbox := t.group.outbox } } := by
  have counts := (countTick_counts (s.countParity n).secondOver).1
  rw [← State.beforePools, h] at counts
  rw [counts, secondOver_frame, countParity_frame]

/-- What a tick moves before the count does. -/
theorem beforeCount_frame {s t : State} {n : Nat} (h : s.beforeCount n = t) : t = { s with
    time := { s.time with refState := t.time.refState }, can := t.can, err := t.err, objs := t.objs
    led := { s.led with epoch := t.led.epoch }, group := { s.group with outbox := t.group.outbox }
    cores := t.cores, mem := t.mem, memx := { s.memx with l2 := t.memx.l2, victims := t.memx.victims }
    mason := { s.mason with leases := t.mason.leases } } := by
  have pools := (fillPools_poolsMove (s.beforePools n)).1
  rw [← State.beforeCount, h] at pools
  rw [pools, beforePools_frame (s := s) rfl]

/-- With no warm bay no pool is filled. -/
theorem beforeCount_of_no_warm {s : State} (n : Nat) (h : s.mason.warm = []) : s.beforeCount n = s.beforePools n := by
  refine fillPools_of_no_warm ?_
  rw [beforePools_frame (s := s) rfl]
  exact h

/-- Without a parity error a tick leaves the reference and the error records. -/
theorem beforeCount_of_no_error (s : State) : (s.beforeCount 0).time.refState = s.time.refState ∧ (s.beforeCount 0).err = s.err := by
  have pools := (fillPools_poolsMove (s.beforePools 0)).1
  have counts := (countTick_counts (s.countParity 0).secondOver).1
  rw [State.beforeCount, pools, State.beforePools, counts, secondOver_frame]
  exact ⟨rfl, rfl⟩

/-- The count moves, and what is filled at a tick is filled (R24, R35, R408). -/
def State.countOn (s : State) : State := { s with
  time := ({ s.time with count := s.time.count + 1 } : TimeSt).ppsOut
  ctxs := s.ctxs.map Context.gain
  host := { s.host with bucket := s.host.bucket.map s.gainBucket }
  memx := { s.memx with lfsr := s.turnLfsrs }
  power := s.powerTick }

theorem tick_eq (s : State) (n : Nat) : s.tick n = (s.beforeCount n).countOn := by
  unfold State.tick State.beforeCount State.beforePools State.countOn
  rfl

theorem countOn_frame {s t : State} (h : s.countOn = t) : t = { s with
    time := { s.time with count := t.time.count, ppsOutSince := t.time.ppsOutSince }, ctxs := t.ctxs
    host := { s.host with bucket := t.host.bucket }, memx := { s.memx with lfsr := t.memx.lfsr }
    power := { s.power with
      bays := t.power.bays, hubIdle := t.power.hubIdle, memIdle := t.power.memIdle, peak := t.power.peak } } := by
  subst h
  rfl

theorem tick_count (s : State) (n : Nat) : (s.tick n).time.count = s.time.count + 1 := by
  have same : (s.beforeCount n).time.count = s.time.count := by rw [beforeCount_frame (s := s) rfl]
  exact congrArg (· + 1) same

theorem tick_ctxs (s : State) (n : Nat) : (s.tick n).ctxs = s.ctxs.map Context.gain := by
  have same : (s.beforeCount n).ctxs = s.ctxs := by rw [beforeCount_frame (s := s) rfl]
  exact congrArg (List.map Context.gain) same

theorem tick_bucket (s : State) (n : Nat) : (s.tick n).host.bucket =
    s.host.bucket.map fun e => (e.1, min (s.ledgerRate e.1 * second) (e.2 + s.ledgerRate e.1)) := by
  have same : (s.beforeCount n).host = s.host := by rw [beforeCount_frame (s := s) rfl]
  rw [← beforeCount_ledgerRate s n, ← same]
  rfl

theorem tick_of_no_error (s : State) : (s.tick 0).time.refState = s.time.refState ∧ (s.tick 0).err = s.err := by
  rw [tick_eq, countOn_frame (s := s.beforeCount 0) rfl]
  exact beforeCount_of_no_error s

/-- What a tick moves; the rest stays as it is. -/
theorem tick_frame {s t : State} {n : Nat} (h : s.tick n = t) :
    t = { s with time := { s.time with count := t.time.count, refState := t.time.refState, ppsOutSince := t.time.ppsOutSince }
                 ctxs := t.ctxs, objs := t.objs, host := { s.host with bucket := t.host.bucket }, can := t.can, err := t.err
                 led := { s.led with epoch := t.led.epoch }, group := { s.group with outbox := t.group.outbox }
                 cores := t.cores, mem := t.mem, memx := t.memx, mason := { s.mason with leases := t.mason.leases }
                 power := { s.power with
                   bays := t.power.bays, hubIdle := t.power.hubIdle, memIdle := t.power.memIdle, peak := t.power.peak } } := by
  rw [tick_eq] at h
  rw [countOn_frame h, beforeCount_frame (s := s) rfl]

theorem tick_of_no_warm {s t : State} {n : Nat} (h : s.tick n = t) (hw : s.mason.warm = []) :
    t.cores = s.cores ∧ t.mem = s.mem ∧ t.memx = { s.memx with lfsr := t.memx.lfsr } ∧ t.mason = s.mason := by
  rw [tick_eq, beforeCount_of_no_warm n hw] at h
  rw [countOn_frame h, beforePools_frame (s := s) rfl]
  exact ⟨rfl, rfl, rfl, rfl⟩

/-! ### The reference -/

theorem execRefclkLost_recovers {s : State} (h : s.time.refState ≠ 1) : exec .refclkLost s =
    .next (({ s with time := { s.time with refState := 1 } } : State).recovery 13 1 1 0 0x069C 0 true) := by
  show execRefclkLost s = _
  rw [execRefclkLost, if_neg h]

/-! ### The marks -/

/-- A mark is due once every valid one lies a second behind (R28). -/
theorem markDue_of_marks_behind {t : TimeSt} (hc : second ≤ t.count)
    (h : ∀ m ∈ t.marks, m.valid = true → m.tick + second ≤ t.count) : t.markDue = true := by
  have behind : ∀ k ∈ (t.marks.filter (·.valid)).map (·.tick), k + second ≤ t.count := by
    intro k hk
    obtain ⟨m, hm, rfl⟩ := List.mem_map.1 hk
    obtain ⟨mem, valid⟩ := List.mem_filter.1 hm
    exact h m mem valid
  have newest : t.newest + second ≤ t.count := by
    unfold TimeSt.newest
    refine List.foldlRecOn (motive := fun k : Tick => k + second ≤ t.count) _ max (by rwa [Nat.zero_add]) fun a ha k hk => ?_
    rcases Nat.le_total a k with le | le
    · rw [Nat.max_eq_right le]; exact behind k hk
    · rw [Nat.max_eq_left le]; exact ha
  exact decide_eq_true newest

/-- Settles O23: what a tick counts and fills, from the frame of its work before the count moves; the reference; the marks. -/
theorem ticksCountAndFillBuckets : Obligations.TicksCountAndFillBuckets := by
  unfold Obligations.TicksCountAndFillBuckets
  refine ⟨?_, ?_, ?_, ?_⟩
  · intro n s
    refine ⟨_, rfl, s.tick n, rfl, tick_count s n, tick_ctxs s n, tick_bucket s n, ?_, tick_frame rfl, tick_of_no_warm rfl⟩
    rintro rfl
    exact tick_of_no_error s
  · intro s h
    refine .of_exec (execRefclkLost_recovers h) ⟨?_, ?_, recovery_lastFault .., ?_⟩
    · rw [recovery_frame]
    · rw [recovery_exposed]; exact testBit_withBit_self ..
    · rw [recovery_frame]
  · intro s
    exact ⟨_, rfl, rfl, testBit_withoutBits_two_pow .., rfl⟩
  · intro s hc hm
    refine ⟨_, rfl, if_pos (markDue_of_marks_behind hc hm)⟩

end Sys2Proof.Machine
end

section
/-! Results, acknowledgements and replays (R20-R23, R36, R39, R43, R50, R370). -/

namespace Sys2Proof.Machine

/-! ### Items -/

/-- An item that is changed is found as it was changed. -/
theorem itemOf_updItem {s : State} {seq : Nat} {i : Item} (f : Item → Item) (hf : ∀ i, (f i).seq = i.seq)
    (h : s.itemOf seq = some i) : (s.updItem seq f).itemOf seq = some (f i) := by
  rw [State.itemOf, State.updItem_items, find?_mapIf _ _ (by simp [hf])]
  exact congrArg (Option.map f) h

theorem seq_of_itemOf {s : State} {seq : Nat} {i : Item} (h : s.itemOf seq = some i) : i.seq = seq :=
  eq_of_beq (List.find?_some (p := fun j : Item => j.seq == seq) h)

theorem endFirings_items (s : State) (w : WorkRef) : (s.endFirings w).items = s.items := by
  unfold State.endFirings
  exact List.foldlRecOn (motive := fun t : State => t.items = s.items) _ _ rfl fun _ h _ _ => h

theorem itemOf_endFirings (s : State) (w : WorkRef) (seq : Nat) : (s.endFirings w).itemOf seq = s.itemOf seq := by
  rw [State.itemOf, endFirings_items]
  rfl

/-- A charge changes nothing of an item but its work (R109). -/
theorem itemOf_charge {s : State} {seq : Nat} {i : Item} (batch : Option Nat) (kind n : Nat) (h : s.itemOf seq = some i) :
    ∃ k, ((s.charge (.item seq) batch kind n).getD s).itemOf seq = some { i with work := k } := by
  unfold State.charge
  split
  · split
    · exact ⟨_, itemOf_updItem (fun i => { i with work := _ }) (fun _ => rfl) h⟩
    · exact ⟨i.work, h⟩
  · exact ⟨i.work, h⟩

/-- A replayed item is as it stood when it left its queue, but for the work its state read charges (R43). -/
theorem itemOf_replay {s : State} {seq : Nat} {i : Item} (h : s.itemOf seq = some i) :
    ∃ k, (s.replay i).itemOf seq = some { i.again (s.bucketHome (flowBucket i.flowKey)) with work := k } := by
  obtain rfl := seq_of_itemOf h
  have again := itemOf_updItem (fun x => x.again (s.bucketHome (flowBucket i.flowKey))) (fun _ => rfl)
    ((itemOf_endFirings s (.item i.seq) i.seq).trans h)
  unfold State.replay
  dsimp only
  split
  · exact ⟨_, again⟩
  · exact itemOf_charge _ _ _ again

/-! ### Rows -/

theorem execArbiterResultArrival_offers {seq : Nat} {i : Item} {s : State} (hi : s.itemOf seq = some i)
    (hv : i.verdict.isSome = true) (ht : i.verdictTick = none) (ha : i.answer = none) (hw : s.offerWaits i = false)
    (hd : s.now ≤ i.deadline) :
    exec (.arbiterResultArrival seq) s = .next (s.updItem seq fun i => { i with verdictTick := some s.now }) := by
  have present : i.verdict.isNone = false := by simp [← Option.not_isSome, hv]
  show execArbiterResultArrival seq s = _
  simp [execArbiterResultArrival, hi, present, ht, ha, hw, Nat.not_lt.2 hd]

theorem execFiringEndConfirm_ends {seq : Nat} {i : Item} {a : Answer} {s : State} (hi : s.itemOf seq = some i)
    (ha : i.answer = some a) (hc : i.cause ≠ 0) : exec (.firingEndConfirm seq) s =
      .next (((s.endFirings (.item seq)).updItem seq fun i => { i with ended := true }).retire seq) := by
  show execFiringEndConfirm seq s = _
  simp [execFiringEndConfirm, hi, ha, hc]

theorem execStatePutAck_acknowledges {seq : Nat} {i : Item} {s : State} (hi : s.itemOf seq = some i) (hp : i.putStage = 1) :
    exec (.statePutAck seq) s = .next
      ((if i.answer.isSome ∧ i.cause = 0 then (s.updItem seq fun i => { i with putStage := 2 }).commitPut i
        else s.updItem seq fun i => { i with putStage := 2 }).retire seq) := by
  show execStatePutAck seq s = _
  simp [execStatePutAck, hi, hp]

theorem execReplicaStateAck_acknowledges {seq : Nat} {i : Item} {s : State} (hi : s.itemOf seq = some i)
    (hr : s.replicated i = true) (hp : i.putStage = 1 ∨ i.putStage = 2) :
    exec (.replicaStateAck seq) s = .next ((s.updItem seq fun i => { i with replicaAcked := true }).retire seq) := by
  show execReplicaStateAck seq s = _
  simp [execReplicaStateAck, State.replicaAck, hi, hr, hp]

theorem execAnswerMirrorAck_acknowledges {seq : Nat} {i : Item} {s : State} (hi : s.itemOf seq = some i)
    (hg : s.group.grouped = true) (ha : i.answer.isSome = true) :
    exec (.answerMirrorAck seq) s = .next (s.updItem seq fun i => { i with mirrored := true }) := by
  show execAnswerMirrorAck seq s = _
  simp [execAnswerMirrorAck, State.mirrorAck, hi, hg, ha]

/-- A faulted item without an answer or a cause replays when SERVICE still fits and it is in service (R43). -/
theorem execItemReplay_decides {seq : Nat} {i : Item} {c : Context} {s : State} (hi : s.itemOf seq = some i)
    (hc : s.ctxOf i.ctx = some c) (hf : i.faulted = true) (ha : i.answer = none) (hn : i.cause = 0) :
    exec (.itemReplay seq) s = .next
      (if i.deadline < s.now + c.image.bounds.service then s.updItem seq fun i => { i with faulted := false, cause := 4 }
       else if i.stage = .inService then s.replay i
       else s.updItem seq fun i => { i with faulted := false }) := by
  show execItemReplay seq s = _
  simp [execItemReplay, hi, hc, hf, ha, hn]

/-- Settles O27: each row under its conditions; a replayed item is found again as `Item.again` leaves it. -/
theorem resultsAcknowledgementsAndReplays : Obligations.ResultsAcknowledgementsAndReplays := by
  unfold Obligations.ResultsAcknowledgementsAndReplays
  refine ⟨⟨?_, ?_, ?_, ?_, ?_, ?_⟩, ?_⟩
  · intro seq i s hi hv ht ha hw hd
    exact .of_exec (execArbiterResultArrival_offers hi hv ht ha hw hd) rfl
  · intro seq i a s hi ha hc
    exact .of_exec (execFiringEndConfirm_ends hi ha hc) rfl
  · intro seq i s hi hp
    exact .of_exec (execStatePutAck_acknowledges hi hp) rfl
  · intro seq i s hi hr hp
    exact .of_exec (execReplicaStateAck_acknowledges hi hr hp) rfl
  · intro seq i s hi hg ha
    exact .of_exec (execAnswerMirrorAck_acknowledges hi hg ha) rfl
  · intro seq s
    exact ⟨_, rfl, rfl⟩
  · intro seq i c s hi hc hf ha hn
    refine .of_exec (execItemReplay_decides hi hc hf ha hn) ⟨fun late => if_pos late, fun fits here => ?_, fun fits away => ?_⟩
    · obtain ⟨k, hk⟩ := itemOf_replay hi
      rw [if_neg (Nat.not_lt.2 fits), if_pos here]
      exact ⟨_, hk, rfl, rfl, ha, rfl, rfl, rfl⟩
    · rw [if_neg (Nat.not_lt.2 fits), if_neg away]

end Sys2Proof.Machine
end

section
/-! Items on their way into the graph: two held items of one ingress number. ITEM_INGRESS_RELEASE gives them both the home
bay of the flow of the one found first (R180); O29 gives each the home bay of its own flow, since the item that its update
reads the flow key of is the one being changed. -/

namespace Sys2Proof.Machine

/-- An item of number 0 that waits for its flow, with a flow key of one byte. -/
def heldItem (key : Byte) : Item :=
  { newItem 0 0 0 0 0 0 100 false 0 false 0 [key] ⟨0, 0, 0, [], []⟩ with stage := .heldFlow }

/-- Two held items of one number, of flows with different homes. -/
def twoHeld : State := { State.reset with items := [heldItem 0, heldItem 1] }

/-- ITEM_INGRESS_RELEASE of number 0 lets the first of the two take its place. -/
theorem twoHeld_released : exec (.itemIngressRelease 0) twoHeld = .next (twoHeld.enterFlow 0) := rfl

/-- Both items then lie on the home bay of the first one's flow. -/
theorem twoHeld_released_bays : (twoHeld.enterFlow 0).items.map (·.bay) = [10, 10] := by decide

/-- Refutes O29, whose second clause puts each item of the number on the home bay of its own flow: of two held items of
number 0, of flows homed on bays 10 and 4, ITEM_INGRESS_RELEASE puts both on bay 10. -/
theorem not_itemsEnterServiceAndFire : ¬ Obligations.ItemsEnterServiceAndFire := by
  unfold Obligations.ItemsEnterServiceAndFire
  rintro ⟨-, release, -⟩
  obtain ⟨t, ht, claim⟩ := release 0 (heldItem 0) twoHeld rfl rfl rfl rfl (.inl rfl) rfl
  have is : twoHeld.enterFlow 0 = t := Host.Outcome.next.inj (twoHeld_released.symm.trans ht)
  have bays := twoHeld_released_bays
  rw [is, claim] at bays
  exact absurd bays (by decide)

end Sys2Proof.Machine
end

section
/-! SUPPORT. What the recovery of a fault leaves standing (R182, R189, R497): the firings, items, copies and pools that a lost
unit moves are none of it, nor is what a re-run of admission moves. -/

namespace Sys2Proof.Machine

/-- The time, the slices, the units withdrawn, the store and the ledger, and the exposures. -/
structure Standing where
  time : TimeSt
  slices : List (Nat × SliceSt)
  lostBays : List Nat
  fencedStones : List (Nat × Nat)
  stoneFaults : List (Nat × Tick)
  fencedLanes : List (Nat × Nat)
  pch : List Nat
  st : StoreSt
  led : LedSt
  exposed : Nat

def State.standing (s : State) : Standing :=
  ⟨s.time, s.slices, s.mason.lostBays, s.mason.fencedStones, s.mason.stoneFaults, s.mason.fencedLanes, s.memx.pch, s.st, s.led,
    s.err.exposed⟩

theorem foldl_standing {β : Type} (f : State → β → State) (hf : ∀ (s : State) x, (f s x).standing = s.standing) (l : List β)
    (s : State) : (l.foldl f s).standing = s.standing :=
  List.foldlRecOn (motive := fun t : State => t.standing = s.standing) l f rfl fun _ h x _ => (hf _ x).trans h

/-! ### Firings and items that a fault ends -/

theorem endFirings_standing (s : State) (w : WorkRef) : (s.endFirings w).standing = s.standing :=
  foldl_standing State.dropFiring (fun _ _ => rfl) ..

theorem faultItem_standing (s : State) (seq : Nat) : (s.faultItem seq).standing = s.standing := endFirings_standing ..

theorem updWork_standing (s : State) (w : WorkRef) (f : Work → Work) : (s.updWork w f).standing = s.standing := by
  cases w <;> rfl

theorem firingLost_standing (s : State) (u : CoreId) : (s.firingLost u).standing = s.standing := by
  unfold State.firingLost
  split
  · rfl
  · split
    · exact faultItem_standing ..
    · exact updWork_standing (s.dropFiring u) ..

theorem messageLost_standing (s : State) (bay : Nat) (m : DgMsg) : (s.messageLost bay m).standing = s.standing := by
  unfold State.messageLost
  split
  · exact firingLost_standing ..
  · exact faultItem_standing ..
  · rfl
  · rfl

/-! ### A bay that is lost -/

theorem clearBay_standing (s : State) (bay : Nat) : (s.clearBay bay).standing = s.standing := by
  unfold State.clearBay
  dsimp only
  rw [foldl_standing _ fun _ _ => messageLost_standing ..]
  exact foldl_standing _ (fun _ _ => firingLost_standing ..) ..

theorem faultBay_standing (s : State) (bay : Nat) : (s.faultBay bay).standing = s.standing :=
  foldl_standing _ (fun _ _ => faultItem_standing ..) ..

theorem rehomeAll_standing (s : State) (bay : Nat) : (s.rehomeAll bay).standing = s.standing := by
  unfold State.rehomeAll
  refine (foldl_standing _ ?_ _ _).trans rfl
  exact fun _ _ => rfl

/-! ### A re-run of admission after a fault -/

theorem State.PoolsMove.standing_eq {s t : State} (h : s.PoolsMove t) : t.standing = s.standing := by
  rw [h.1]; rfl

theorem wakeBay_standing (s : State) (b : Nat) : (s.wakeBay b).standing = s.standing := by
  unfold State.wakeBay
  dsimp only
  split <;> rfl

theorem bindCopies_standing (s : State) : s.bindCopies.standing = s.standing := by
  unfold State.bindCopies
  refine foldl_standing _ ?_ _ _
  exact fun _ _ => rfl

theorem applyTried_standing (s : State) (t : Tried) : (s.applyTried t).standing = s.standing := by
  have woken : ∀ (u : State) (b : Nat), (if 2 ≤ (u.bayPower b).state then u.wakeBay b else u).standing = u.standing := by
    intro u b
    split
    · exact wakeBay_standing ..
    · rfl
  unfold State.applyTried
  dsimp only
  rw [foldl_standing _ woken, bindCopies_standing, (fillPools_poolsMove _).standing_eq]
  rfl

theorem verdictSpent_standing (s : State) : s.verdictSpent.standing = s.standing := by
  unfold State.verdictSpent
  split <;> rfl

theorem rerun_fault_standing (s : State) : (s.rerun .fault).standing = s.standing := by
  unfold State.rerun
  dsimp only
  split
  · rfl
  · simp only [reduceIte, reduceCtorEq]
    split
    · exact verdictSpent_standing s
    · exact (applyTried_standing ..).trans (verdictSpent_standing s)

theorem recovery_standing (s : State) (row ring cls index code detail : Nat) :
    (s.recovery row ring cls index code detail true).standing = { s.standing with exposed := withBit s.err.exposed row } := by
  have exposed := recovery_exposed s row ring cls index code detail
  rw [recovery_frame] at exposed ⊢
  simp only [State.standing] at exposed ⊢
  rw [exposed]

/-- A live bay that is lost is withdrawn and exposed. -/
theorem loseBay_standing {s : State} {bay : Nat} (h : s.bayLive bay = true) : (s.loseBay bay).standing =
    { s.standing with lostBays := s.mason.lostBays ++ [bay], exposed := withBit s.err.exposed 8 } := by
  have gone : (((s.clearBay bay).faultBay bay).rehomeAll bay).standing = s.standing :=
    (rehomeAll_standing ..).trans ((faultBay_standing ..).trans (clearBay_standing ..))
  unfold State.loseBay
  dsimp only
  rw [if_neg (by simp [h]), rerun_fault_standing, recovery_standing]
  simp only [State.standing, Standing.mk.injEq] at gone ⊢
  simp [gone]

end Sys2Proof.Machine
end

section
/-! Units that fail (R16, R182, R302, R303, R494, R497, R500). -/

namespace Sys2Proof.Machine

/-! ### Bays and stones -/

/-- What the loss of a bay keeps, whether the bay was live or not. -/
theorem loseBay_keeps (s : State) (bay : Nat) : let t := s.loseBay bay
    t.time = s.time ∧ t.slices = s.slices ∧ t.mason.fencedStones = s.mason.fencedStones ∧
      t.mason.stoneFaults = s.mason.stoneFaults ∧ ∀ k, s.err.exposed.testBit k = true → t.err.exposed.testBit k = true := by
  intro t
  cases h : s.bayLive bay with
  | false =>
    have same : t = s := if_pos (by simp [h])
    rw [same]
    exact ⟨rfl, rfl, rfl, rfl, fun _ => id⟩
  | true =>
    have lost := loseBay_standing h
    exact ⟨congrArg Standing.time lost, congrArg Standing.slices lost, congrArg Standing.fencedStones lost,
      congrArg Standing.stoneFaults lost, fun k hk =>
        (congrArg (fun x => x.exposed.testBit k) lost).trans (withBit_testBit _ _ _ hk)⟩

theorem useSpare_standing (s : State) (bay l : Nat) (lease : Option (Nat × Tick)) :
    (s.useSpare bay l lease).standing = s.standing := by
  unfold State.useSpare
  dsimp only
  split <;> exact (scrubStone_poolsMove ..).standing_eq

/-- A stone is out of service: fenced, exposed, and its failure noted at a tick (R497). -/
def State.StoneOut (s : State) (bay slot : Nat) (at_ : Tick) : Prop :=
  (bay, slot) ∈ s.mason.fencedStones ∧ s.err.exposed.testBit 0 = true ∧ tget bay s.mason.stoneFaults = some at_

theorem State.StoneOut.of_standing {s t : State} {bay slot : Nat} {at_ : Tick} (h : s.StoneOut bay slot at_)
    (e : t.standing = s.standing) : t.StoneOut bay slot at_ := by
  simp only [State.standing, Standing.mk.injEq] at e
  simpa [State.StoneOut, e] using h

/-- The stone is fenced and its failure recorded, before its bay or its spare answers for it. -/
def State.stoneFenced (s : State) (bay slot : Nat) : State :=
  let s1 := s.firingLost (.stone bay slot)
  let s2 : State := { s1 with
    cores := tdel (.stone bay slot) s1.cores
    mason := { s1.mason with
      fencedStones := s1.mason.fencedStones ++ [(bay, slot)]
      leases := tdel (bay, slot) s1.mason.leases
      stoneFaults := tset bay s.now s1.mason.stoneFaults } }
  s2.recovery 0 (bayRing bay) 3 (bay * 32 + slot) 0x0690 slot true

theorem stoneFenced_standing (s : State) (bay slot : Nat) : (s.stoneFenced bay slot).standing = { s.standing with
    fencedStones := s.mason.fencedStones ++ [(bay, slot)], stoneFaults := tset bay s.now s.mason.stoneFaults
    exposed := withBit s.err.exposed 0 } := by
  have lost := firingLost_standing s (.stone bay slot)
  unfold State.stoneFenced
  rw [recovery_standing]
  simp only [State.standing, Standing.mk.injEq] at lost ⊢
  simp [lost]

theorem stoneFenced_out (s : State) (bay slot : Nat) : (s.stoneFenced bay slot).StoneOut bay slot s.now := by
  have fenced := stoneFenced_standing s bay slot
  have stones : (s.stoneFenced bay slot).mason.fencedStones = _ := congrArg Standing.fencedStones fenced
  have faults : (s.stoneFenced bay slot).mason.stoneFaults = _ := congrArg Standing.stoneFaults fenced
  have exposed : (s.stoneFenced bay slot).err.exposed = _ := congrArg Standing.exposed fenced
  refine ⟨?_, ?_, ?_⟩
  · rw [stones]; exact List.mem_append_right _ (List.mem_singleton_self _)
  · rw [exposed]; exact testBit_withBit_self ..
  · rw [faults]; exact tget_tset_self ..

/-- A fenced stone takes its bay with it, hands its position to the spare, or leaves admission to run again (R9, R497). -/
theorem fenceStone_cases (s : State) (bay slot : Nat) :
    s.fenceStone bay slot = (s.stoneFenced bay slot).loseBay bay ∨
      (∃ l lease, s.fenceStone bay slot = (s.stoneFenced bay slot).useSpare bay l lease) ∨
      s.fenceStone bay slot = (s.stoneFenced bay slot).rerun .fault ∨ s.fenceStone bay slot = s.stoneFenced bay slot := by
  unfold State.fenceStone
  dsimp only
  split
  · exact .inl rfl
  · split
    · exact .inr (.inl ⟨_, _, rfl⟩)
    · exact .inr (.inr (.inl rfl))
    · exact .inr (.inr (.inr rfl))

/-- A stone that is fenced is out of service, whatever becomes of its bay. -/
theorem fenceStone_out (s : State) (bay slot : Nat) : let t := s.fenceStone bay slot
    t.StoneOut bay slot s.now ∧ t.time = s.time ∧ t.slices = s.slices := by
  intro t
  have fenced := stoneFenced_standing s bay slot
  have out := stoneFenced_out s bay slot
  have of_same : t.standing = (s.stoneFenced bay slot).standing →
      t.StoneOut bay slot s.now ∧ t.time = s.time ∧ t.slices = s.slices := fun same =>
    ⟨out.of_standing same, congrArg Standing.time (same.trans fenced), congrArg Standing.slices (same.trans fenced)⟩
  rcases fenceStone_cases s bay slot with bayToo | ⟨l, lease, spare⟩ | rerun | alone
  · obtain ⟨time, slices, stones, faults, exposed⟩ := loseBay_keeps (s.stoneFenced bay slot) bay
    rw [← bayToo] at time slices stones faults exposed
    obtain ⟨mem, bit, at_⟩ := out
    exact ⟨⟨stones ▸ mem, exposed 0 bit, faults ▸ at_⟩, time.trans (congrArg Standing.time fenced),
      slices.trans (congrArg Standing.slices fenced)⟩
  · exact of_same ((congrArg _ spare).trans (useSpare_standing ..))
  · exact of_same ((congrArg _ rerun).trans (rerun_fault_standing _))
  · exact of_same (congrArg _ alone)

theorem execStoneFault_fences {bay slot : Nat} {s : State} (h : s.stoneLive bay slot = true) :
    exec (.stoneFault bay slot) s = .next (s.fenceStone bay slot) := by
  show execStoneFault bay slot s = _
  rw [execStoneFault, if_pos h]

theorem execStoneHangTimeout_fences {bay slot : Nat} {s : State} (h : s.stoneLive bay slot = true)
    (hf : (s.coreOf (.stone bay slot)).firing.isSome = true) (ha : s.awaitsDelivery (.stone bay slot) = false) :
    exec (.stoneHangTimeout bay slot) s = .next (s.fenceStone bay slot) := by
  show execStoneHangTimeout bay slot s = _
  simp [execStoneHangTimeout, h, hf, ha]

/-! ### Quoin pairs -/

/-- The pair is fenced, an activation or a trial that needs it ends, and the failure is recorded; the pair that takes over
has not paused the management plane yet (R16, R497, R545). -/
def State.pairFenced (s : State) (p : Nat) : State :=
  let take := decide (p = s.quoin.active) && s.quoin.standby
  let s1 : State := { s with quoin :=
    { s.quoin with
      active := if take then 1 - p else s.quoin.active, standby := false, fenced := s.quoin.fenced ++ [p] } }
  let s2 := if s.trust.stageState = 5 ∧ p = s.quoin.active then s1.endTrial
    else if s.trust.stageState = 4 then { s1 with trust := { s1.trust with stageState := 2 } } else s1
  s2.recovery 11 0 8 p 0x069A 0 true

theorem fencePair_eq {s : State} {p : Nat} (h : p ∉ s.quoin.fenced) : s.fencePair p =
    if (decide (p = s.quoin.active) && s.quoin.standby) = true then ((s.pairFenced p).stick 0 8).startPause else s.pairFenced p := by
  unfold State.fencePair
  rw [if_neg (by simpa using h)]
  rfl

theorem pairFenced_frame {s t : State} {p : Nat} (h : s.pairFenced p = t) : t = { s with
    quoin := { s.quoin with
      active := if (decide (p = s.quoin.active) && s.quoin.standby) = true then 1 - p else s.quoin.active
      standby := false, fenced := s.quoin.fenced ++ [p] }
    trust := { s.trust with
      run := t.trust.run, stageState := t.trust.stageState, plinthPending := t.trust.plinthPending }
    objs := t.objs, err := t.err, can := t.can } := by
  subst h
  unfold State.pairFenced
  dsimp only
  rw [recovery_frame]
  repeat' split
  all_goals rfl

theorem pairFenced_exposed (s : State) (p : Nat) : (s.pairFenced p).err.exposed.testBit 11 = true := by
  unfold State.pairFenced
  rw [recovery_exposed]
  exact testBit_withBit_self ..

/-- Outside an activation and a trial the failure of a pair leaves the trust state (R545). -/
theorem pairFenced_trust {s : State} (p : Nat) (h4 : s.trust.stageState ≠ 4) (h5 : s.trust.stageState ≠ 5) :
    (s.pairFenced p).trust = s.trust := by
  unfold State.pairFenced
  dsimp only
  rw [if_neg fun h => h5 h.1, if_neg h4, recovery_frame]

theorem startPause_pauses (s : State) : Claims.Pauses s s.startPause s.quoin :=
  ⟨_, rfl, Nat.le_add_right .., Nat.add_le_add_left (Nat.le_of_lt_succ (Nat.mod_lt _ (by decide))) _⟩

/-- A pair that fails is fenced and exposed; when it is the active one and a standby is ready, the standby takes over behind
a pause (R15, R16). -/
theorem fencePair_withdraws {s : State} {p : Nat} (h : p ∉ s.quoin.fenced) : let t := s.fencePair p
    (p = s.quoin.active ∧ s.quoin.standby = true →
      Claims.Pauses s t { s.quoin with active := 1 - p, standby := false, fenced := s.quoin.fenced ++ [p] }) ∧
    (p ≠ s.quoin.active ∨ s.quoin.standby = false →
      t.quoin = { s.quoin with standby := false, fenced := s.quoin.fenced ++ [p] }) ∧
    t.err.exposed.testBit 11 = true ∧ t.trust.bootBank = s.trust.bootBank ∧
    (s.trust.stageState ≠ 4 → s.trust.stageState ≠ 5 → t.trust = s.trust) := by
  intro t
  have frame := pairFenced_frame (s := s) (p := p) rfl
  have now : (s.pairFenced p).now = s.now := by rw [frame]; rfl
  have bank : (s.pairFenced p).trust.bootBank = s.trust.bootBank := by rw [frame]
  have quoin := congrArg State.quoin frame
  have exposed := pairFenced_exposed s p
  have ht : t = _ := fencePair_eq h
  cases take : (decide (p = s.quoin.active) && s.quoin.standby) with
  | true =>
    have both : p = s.quoin.active ∧ s.quoin.standby = true := by simpa using take
    have paused := startPause_pauses ((s.pairFenced p).stick 0 8)
    rw [if_pos take] at ht quoin
    rw [State.stick_quoin, quoin] at paused
    rw [ht]
    refine ⟨fun _ => ?_, fun other => ?_, exposed, bank, pairFenced_trust p⟩
    · obtain ⟨until_, held, least, most⟩ := paused
      exact ⟨until_, held, now ▸ least, now ▸ most⟩
    · simp [both] at other
  | false =>
    have single : ¬ (p = s.quoin.active ∧ s.quoin.standby = true) := by simpa using take
    have idle : ¬ (decide (p = s.quoin.active) && s.quoin.standby) = true := by simp [take]
    rw [if_neg idle] at ht quoin
    rw [ht]
    exact ⟨fun both => absurd both single, fun _ => quoin, exposed, bank, pairFenced_trust p⟩

theorem execQuoinMismatch_fences {pair : Nat} {s : State} (h : pair < 2) :
    exec (.quoinMismatch pair) s = .next (s.fencePair pair) := by
  show execQuoinMismatch pair s = _
  rw [execQuoinMismatch, if_pos h]

/-! ### Memory and flash channels -/

/-- A pseudo-channel that fails is withdrawn and exposed; the second failure runs admission again (R302). -/
theorem execPchFailed_withdraws {pch : Nat} {s : State} (hp : pch < 192) (hn : pch ∉ s.memx.pch) :
    ∃ t, exec (.pchFailed pch) s = .next t ∧
      t.standing = { s.standing with pch := s.memx.pch ++ [pch], exposed := withBit s.err.exposed 4 } := by
  refine ⟨_, rfl, ?_⟩
  rw [if_neg (by simp [hn, hp])]
  dsimp only
  split
  · rw [rerun_fault_standing, recovery_standing]; rfl
  · rw [recovery_standing]; rfl

/-- An ashlar that is withdrawn does not lie in the warm tier (R303). -/
theorem withdrawn_tier (a : Ashlar) (replica : Bool) : (a.withdrawn replica).tier ≠ 1 := by
  unfold Ashlar.withdrawn
  split
  · cases replica <;> simp
  · assumption

/-- The tables after the loss of the warm tier (R303). -/
def State.tablesWithdrawn (s : State) : List Table := s.tables.map fun t =>
  { t with columns := t.columns.map fun c => c.mapIdx fun i a => a.withdrawn (s.ashlarReplicated t i) }

theorem tablesWithdrawn_tier (s : State) : ∀ x ∈ s.tablesWithdrawn, ∀ c ∈ x.columns, ∀ a ∈ c, a.tier ≠ 1 := by
  intro x hx c hc a ha
  obtain ⟨t, -, rfl⟩ := List.mem_map.1 hx
  obtain ⟨as, -, rfl⟩ := List.mem_map.1 hc
  obtain ⟨i, hi, rfl⟩ := List.mem_mapIdx.1 ha
  exact withdrawn_tier _ _

theorem execDramChannelLost_withdraws {ch : Nat} {s : State} (hc : ch < 8) (hd : s.memx.dramState = 1) :
    exec (.dramChannelLost ch) s = .next (({ s with
      memx := { s.memx with dramState := 3 }, tables := s.tablesWithdrawn } : State).recovery 5 0 6 ch 0x0695 0 true) := by
  show execDramChannelLost ch s = _
  rw [execDramChannelLost, if_neg (by simp [hc, hd])]
  rfl

/-- A flash channel that is lost is withdrawn and exposed; the first one takes a seventh of the capacities (R500). -/
theorem execOnfiChannelLost_withdraws {ch : Nat} {s : State} (hc : ch < 8) (hn : ch ∉ s.st.lostChannels) :
    let fall := fun (n : Nat) => if s.st.lostChannels.isEmpty then n * 6 / 7 else n
    ∃ t, exec (.onfiChannelLost ch) s = .next t ∧ t.standing = { s.standing with
      st := { s.st with lostChannels := s.st.lostChannels ++ [ch], capacity := fall s.st.capacity, free := fall s.st.free }
      led := { s.led with capacity := fall s.led.capacity, free := fall s.led.free }, exposed := withBit s.err.exposed 6 } := by
  intro fall
  refine ⟨_, rfl, ?_⟩
  rw [if_neg (by simp [hn, hc]), rerun_fault_standing, recovery_standing]
  rfl

/-! ### Digest lanes -/

/-- A lane that holds no message is idle through the end of firings: they only take messages away. -/
theorem endFirings_lane {s : State} {l : Nat × Nat} (w : WorkRef) (h : tget l s.dg.lanes = none) :
    tget l (s.endFirings w).dg.lanes = none := by
  unfold State.endFirings
  refine tget_filter_of_none _ ?_
  exact List.foldlRecOn (motive := fun t : State => tget l t.dg.lanes = none) _ State.dropFiring h
    fun _ k _ _ => tget_filter_of_none _ k

theorem updWork_dg (s : State) (w : WorkRef) (f : Work → Work) : (s.updWork w f).dg = s.dg := by
  cases w <;> rfl

theorem firingLost_lane {s : State} {l : Nat × Nat} (u : CoreId) (h : tget l s.dg.lanes = none) :
    tget l (s.firingLost u).dg.lanes = none := by
  unfold State.firingLost
  split
  · exact h
  · split
    · exact endFirings_lane _ h
    · dsimp only
      rw [updWork_dg]
      exact tget_filter_of_none _ h

theorem messageLost_lane {s : State} {l : Nat × Nat} (bay : Nat) (m : DgMsg) (h : tget l s.dg.lanes = none) :
    tget l (s.messageLost bay m).dg.lanes = none := by
  unfold State.messageLost
  split
  · exact firingLost_lane _ h
  · exact endFirings_lane _ h
  · exact h
  · exact h

/-- A digest lane that fails is fenced, idle and exposed (R497). -/
theorem execDigestLaneFault_withdraws {bay lane : Nat} {s : State} (hb : s.bayLive bay = true) (hl : lane < 4)
    (hn : (bay, lane) ∉ s.mason.fencedLanes) : ∃ t, exec (.digestLaneFault bay lane) s = .next t ∧
      t.mason.fencedLanes = s.mason.fencedLanes ++ [(bay, lane)] ∧ t.err.exposed.testBit 9 = true ∧
      tget (bay, lane) t.dg.lanes = none := by
  refine ⟨_, rfl, ?_⟩
  rw [if_neg (by simp [hb, hl, hn])]
  have idle := tget_tdel_self (bay, lane) s.dg.lanes
  refine ⟨?_, ?_, ?_⟩
  · rw [recovery_frame]
    dsimp only
    split
    · exact congrArg Standing.fencedLanes (messageLost_standing ..)
    · rfl
  · rw [recovery_exposed]; exact testBit_withBit_self ..
  · rw [recovery_frame]
    dsimp only
    split
    · exact messageLost_lane _ _ idle
    · exact idle

/-! ### Transfers -/

theorem execTransferReplay_replays {n : Nat} (x : Transfer494) (s : State) (h : n ≠ 4) : exec (.transferReplay x n) s = .next s := by
  show Host.Outcome.next (if n ≠ 4 then s else _) = _
  rw [if_pos h]

/-- The fourth failed receipt of a ledger record is recorded, and its sender holds the record (R494, R373). -/
theorem execTransferReplay_ledger {seq : Nat} {i : Item} {s : State} (hi : s.itemOf seq = some i) (ha : i.answer.isSome = true)
    (hr : i.recorded = false) : exec (.transferReplay (.ledgerRecord seq) 4) s = .next (s.record 0 0 0 0x0686 0) := by
  show execTransferReplay (.ledgerRecord seq) 4 s = _
  simp [execTransferReplay, State.ledgerTransferFailed, hi, ha, hr]

/-- The ticks within a second of the present one at which transfers of a core failed (R494). -/
def State.recentFails (s : State) (u : CoreId) : List Tick :=
  (tgetD u [] s.err.transfers).filter fun t => decide (s.now < t + 25000000)

/-- Fewer than two failed transfers within a second: this one is a fault of the core and no failure of its unit (R494). -/
theorem execTransferReplay_core {u : CoreId} {s : State} (hf : (s.coreOf u).firing.isSome = true ∨ coreBay u = none)
    (hn : (s.recentFails u).length < 2) : exec (.transferReplay (.core u) 4) s = .next
      (({ s with err := { s.err with transfers := tset u (s.recentFails u ++ [s.now]) s.err.transfers } } : State).coreFault
        u 0x0686 0 none) := by
  have few : ¬ 2 ≤ (s.recentFails u).length := Nat.not_le.2 hn
  show Host.Outcome.next (if (s.coreOf u).firing.isSome ∨ coreBay u = none then s.transferFailed u else s) = _
  rw [if_pos hf]
  exact congrArg Host.Outcome.next (if_neg few)

/-- Settles O50: what each failed unit leaves standing, from `State.standing`; the pairs and the transfers by their own lemmas. -/
theorem failedUnitsAreWithdrawn : Obligations.FailedUnitsAreWithdrawn := by
  unfold Obligations.FailedUnitsAreWithdrawn
  refine ⟨?_, ?_, ?_, ?_, ?_, ?_, ?_, ?_, ?_, ?_, ?_⟩
  · intro bay s h
    have lost := loseBay_standing h
    have bays : (s.loseBay bay).mason.lostBays = _ := congrArg Standing.lostBays lost
    have exposed : (s.loseBay bay).err.exposed = _ := congrArg Standing.exposed lost
    refine ⟨_, rfl, ?_, ?_, congrArg Standing.time lost, congrArg Standing.slices lost⟩
    · rw [bays]; exact List.mem_append_right _ (List.mem_singleton_self _)
    · rw [exposed]; exact testBit_withBit_self ..
  · simp only [List.forall_mem_cons]
    refine ⟨fun bay slot s live _ => ?_, fun bay slot s live busy => ?_, nofun⟩
    all_goals obtain ⟨⟨fenced, exposed, at_⟩, time, slices⟩ := fenceStone_out s bay slot
    · exact .of_exec (execStoneFault_fences live) ⟨fenced, exposed, at_, time, slices⟩
    · obtain ⟨firing, awaits⟩ := busy trivial
      exact .of_exec (execStoneHangTimeout_fences live firing awaits) ⟨fenced, exposed, at_, time, slices⟩
  · intro pch s hp hn
    obtain ⟨t, ht, standing⟩ := execPchFailed_withdraws hp hn
    have exposed : t.err.exposed = _ := congrArg Standing.exposed standing
    refine .of_exec ht ⟨congrArg Standing.pch standing, ?_, congrArg Standing.time standing, congrArg Standing.slices standing⟩
    rw [exposed]; exact testBit_withBit_self ..
  · intro ch s hc hd
    refine .of_exec (execDramChannelLost_withdraws hc hd) ⟨?_, ?_, ?_, ?_⟩
    · rw [recovery_frame]
    · rw [recovery_exposed]; exact testBit_withBit_self ..
    · rw [recovery_frame]; exact tablesWithdrawn_tier s
    · rw [recovery_frame]
  · intro ch s hc hn
    obtain ⟨t, ht, standing⟩ := execOnfiChannelLost_withdraws hc hn
    have st : t.st = _ := congrArg Standing.st standing
    have led : t.led = _ := congrArg Standing.led standing
    have exposed : t.err.exposed = _ := congrArg Standing.exposed standing
    refine .of_exec ht ?_
    simp only [← List.isEmpty_iff]
    rw [st, led, exposed]
    exact ⟨rfl, rfl, rfl, rfl, rfl, rfl, rfl, testBit_withBit_self ..⟩
  · intro bay lane s hb hl hn
    exact execDigestLaneFault_withdraws hb hl hn
  · intro pair s hp hn
    refine .of_exec (execQuoinMismatch_fences hp) ?_
    exact fencePair_withdraws hn
  · intro x n s h
    exact .of_exec (execTransferReplay_replays x s h) rfl
  · intro seq i s hi ha hr
    exact .of_exec (execTransferReplay_ledger hi ha hr) rfl
  · intro s
    exact ⟨_, rfl, rfl⟩
  · intro u s hf hn
    exact .of_exec (execTransferReplay_core hf hn) rfl

end Sys2Proof.Machine
end

section
/-! Objects (R477, R479, R484, R505): reads and writes from capsules and from the field network, the end of a store, and the
coalescing of records. -/

namespace Sys2Proof.Machine

/-! ### Capsules -/

/-- A command that starts runs its body. -/
theorem command_of_starts {s s1 : State} {i : Instr} {h : CmdHdr} {op : Nat} {roles : List Nat} {b : Binding}
    (body : State → Binding → State) (hs : Starts s h op roles s1 b) : s.command i h op roles body = body s1 b := by
  unfold Starts at hs
  rw [State.command, hs]

/-- A command that the management plane serves, of an operation that goes to every member at once, runs its body and is
sent to the other members (R15, R471). -/
theorem managed_of_starts {s s1 : State} {i : Instr} {h : CmdHdr} {op : Nat} {roles : List Nat} {b : Binding}
    (body : State → Binding → State) (hp : s.paused = false) (hs : Starts s h op roles s1 b)
    (ho : [0x0004, 0x0061, 0x0062, 0x0072].contains op = false) :
    s.managed i h op roles body = State.fanOut s1 i h op b (body s1 b) := by
  have together : s1.oneByOne h op b = false := by simp only [State.oneByOne, ho, Bool.false_and]
  rw [State.managed, if_neg (by simp [hp]), command_of_starts _ hs, together]
  rfl

/-- A command accepted in a pause is held (R15). -/
theorem holdCommand_of_accepted {s s1 : State} {i : Instr} {h : CmdHdr} {op : Nat} {roles : List Nat} {b : Binding}
    (ha : s.acceptCmd h op roles = (s1, some b)) : s.holdCommand i h op roles = (s1.keepRow i h op).hold i := by
  rw [State.holdCommand, ha]

/-- Waking the hub is not seen by what the other members are sent. -/
theorem fanOut_awake (s : State) (i : Instr) (h : CmdHdr) (op : Nat) (b : Binding) (after : State) :
    State.fanOut s.awake i h op b after = State.fanOut s i h op b after := rfl

/-- A read that passes its checks answers the value with its flags (R477). -/
theorem bandRead_answers {h : CmdHdr} {a : ObjAddr} {v : List Byte} {flags : Nat} {s s1 u : State} {b : Binding}
    (ho : Claims.Opens s h false a s1 b) (hr : s1.readObj false b.view a = .ok (v, flags, u)) :
    s.bandRead h a = u.finish b.slice h 0 (objDetail 0 flags v) v := by
  obtain ⟨reached, waits, s0, starts, rfl⟩ : s.objRefused h 0x0010 a = none ∧ s.canWaits a false = false ∧
    ∃ s0, Starts s h 0x0010 anyRole s0 b ∧ s1 = s0.awake := ho
  have served : ¬ (s.paused ∧ (!isPublic a) = true) := by simpa [State.canWaits] using waits
  rw [State.bandRead, reached]
  dsimp only
  rw [if_neg served, command_of_starts _ starts, hr]

/-- A write that passes its checks is applied, and answered; the answer to STORE waits for the store's end (R477, R479). -/
theorem bandWrite_answers {i : Instr} {h : CmdHdr} {a : ObjAddr} {v : List Byte} {s s1 u : State} {b : Binding}
    (ho : Claims.Opens s h true a s1 b) (hw : s1.writeObj false b.view b.slice a v = .ok u) :
    s.bandWrite i h a v = State.fanOut s1 i h 0x0011 b
      (if a.index = 0x1010 then u.wait (.store h) else u.postAs b.slice h h.gen 0 0 []) := by
  obtain ⟨reached, waits, s0, starts, rfl⟩ : s.objRefused h 0x0011 a = none ∧ s.canWaits a true = false ∧
    ∃ s0, Starts s h 0x0011 anyRole s0 b ∧ s1 = s0.awake := ho
  have served : s.paused = false := by simpa [State.canWaits] using waits
  rw [State.bandWrite, reached, fanOut_awake]
  dsimp only
  rw [managed_of_starts _ served starts rfl, hw]

/-- A write that comes in a pause is held (R15). -/
theorem bandWrite_of_paused {i : Instr} {h : CmdHdr} {a : ObjAddr} {v : List Byte} {s s1 : State} {b : Binding}
    (hp : s.paused = true) (hr : s.objRefused h 0x0011 a = none) (ha : s.acceptCmd h 0x0011 anyRole = (s1, some b)) :
    s.bandWrite i h a v = (s1.keepRow i h 0x0011).hold i := by
  rw [State.bandWrite, hr]
  dsimp only
  rw [State.managed, if_pos hp, holdCommand_of_accepted ha]

/-- A read of an object that is not public is held when it comes in a pause (R15, R476). -/
theorem bandRead_of_paused {h : CmdHdr} {a : ObjAddr} {s s1 : State} {b : Binding} (hp : s.paused = true)
    (hn : isPublic a = false) (hr : s.objRefused h 0x0010 a = none) (ha : s.acceptCmd h 0x0010 anyRole = (s1, some b)) :
    s.bandRead h a = (s1.keepRow (.objRead h a) h 0x0010).hold (.objRead h a) := by
  rw [State.bandRead, hr]
  dsimp only
  rw [if_pos (by simp [hp, hn]), holdCommand_of_accepted ha]

/-! ### The field network -/

/-- A write over CAN FD that passes its checks is applied, and answered; the answer to STORE waits (R479, R484). -/
theorem writeFrom_canfd_answers {i : Instr} {a : ObjAddr} {v : List Byte} {s u : State} (hears : s.canHears = true)
    (hw : s.canWaits (s.canAddr a) true = false) (hh : s.canHeld (s.canAddr a) true = false)
    (hr : s.displace.touched.canReach (s.canAddr a) true = 0)
    (ho : s.displace.touched.awake.writeObj true none 0 (s.canAddr a) v = .ok u) : s.writeFrom i .canfd a v =
      if a.index = 0x1010 then { u with can := { u.can with storeWait := true } } else u.canReply 0x82 (s.canAddr a) [] := by
  simp only [State.writeFrom, State.canWrite, hears, hw, hh, hr, ho]
  rfl

/-! ### The rows that write an object -/

/-- The rows that write an object, each with the address and the bytes it writes. -/
def objectRows (n m : Nat) (p : List Nat) (v : List Byte) : List ((ObjSrc → Instr) × ObjAddr × List Byte) := [
      (fun src => Instr.pinRequest src n m, ⟨0x3800, 3, []⟩, natBytes 3 n ++ natBytes 1 (min 255 m)),
      (fun src => Instr.memberLeave src n, ⟨0x2002, 7, []⟩, natBytes 1 (min 255 n)),
      (fun src => Instr.fwStageData src v, ⟨0x7010, 2, []⟩, v),
      (fun src => Instr.svnCommit src n, ⟨0x7000, 5, []⟩, natBytes 1 (min 255 n)),
      (fun src => Instr.vendorKeyRevoke src n, ⟨0x7000, 3, []⟩, natBytes 1 (min 255 n)),
      (fun src => Instr.sliceKek src (n % 1024) v, ⟨0x4000 + n % 1024, 22, []⟩, v),
      (fun src => Instr.canfdKeyOperator src v, ⟨0x1103, 1, []⟩, v),
      (fun src => Instr.canfdKeyCustodian src v, ⟨0x1103, 2, []⟩, v),
      (fun src => Instr.custodianBind src n, ⟨0x1104, 1, []⟩, natBytes 4 (min u32Max n)),
      (fun src => Instr.debugUnlock src v, ⟨0x7020, 3, []⟩, v),
      (fun src => Instr.epochSecond src n, ⟨0x3000, 4, []⟩, natBytes 8 (min u64Max n)),
      (fun src => Instr.allotmentWrite src (n % 1024) 4 m, ⟨0x4000 + n % 1024, 4, []⟩, natBytes 2 (min 65535 m)),
      (fun src => Instr.allotmentWrite src (n % 1024) 5 m, ⟨0x4000 + n % 1024, 5, []⟩, natBytes 4 (min (256 ^ 4 - 1) m)),
      (fun src => Instr.overflowClear src (n % 1024) m, ⟨0x4000 + n % 1024, 25, []⟩, natBytes 2 (min 65535 m)),
      (fun src => Instr.store src n, ⟨0x1010, 1, []⟩, natBytes 2 (min 65535 n)),
      (fun src => Instr.restore src n, ⟨0x1011, 1, []⟩, natBytes 2 (min 65535 n)),
      (fun src => Instr.ringAck src ⟨0x5100, 3, p⟩ n, ⟨0x5100, 3, p⟩, natBytes 1 (min 255 n)),
      (fun src => Instr.ringOverflowClear src ⟨0x5100, 4, p⟩ n, ⟨0x5100, 4, p⟩, natBytes 1 (min 255 n)),
      (fun src => Instr.firstClear src ⟨0x5100, 7, p⟩ n, ⟨0x5100, 7, p⟩, natBytes 1 (min 255 n))]

/-- Each of them writes its bytes at its address. -/
theorem exec_objectRow {n m : Nat} {p : List Nat} {v : List Byte} {e : (ObjSrc → Instr) × ObjAddr × List Byte}
    (he : e ∈ objectRows n m p v) (src : ObjSrc) (s : State) :
    exec (e.1 src) s = .next (s.writeFrom (e.1 src) src e.2.1 e.2.2) := by
  revert e
  have slice_lt : n % 1024 < 1024 := Nat.mod_lt _ (by decide)
  simp only [objectRows, List.forall_mem_cons]
  refine ⟨rfl, rfl, rfl, rfl, rfl, ?_, rfl, rfl, rfl, rfl, rfl, ?_, ?_, ?_, rfl, rfl, rfl, rfl, rfl, nofun⟩
  · exact congrArg Host.Outcome.next (if_pos slice_lt)
  · exact congrArg Host.Outcome.next (if_pos ⟨slice_lt, by decide, by decide⟩)
  · exact congrArg Host.Outcome.next (if_pos ⟨slice_lt, by decide, by decide⟩)
  · exact congrArg Host.Outcome.next (if_pos slice_lt)

/-! ### The end of a store -/

/-- A store of `x` has ended, and is counted when it was written (R479, R480). -/
def State.storeCounted (s : State) (x : StoredSet) (ok : Bool) : State :=
  let cfg := if ok then { s.stored.commit x with status := 2 } else { s.stored with status := 3 }
  let s1 : State := { s with stored := { cfg with snapshot := none } }
  if ok then s1.bumpBy 0x1010 3 [] 0 u32Max 1 else s1

/-- The field network has its answer too, where it waits for one; the capsules that wait are still to be answered. -/
def State.storeEnded (s : State) (x : StoredSet) (ok : Bool) : State :=
  let t := s.storeCounted x ok
  if t.can.storeWait then ({ t with can := { t.can with storeWait := false } } : State).canReply 0x82 ⟨0x1010, 1, []⟩ []
  else t

theorem storeCounted_eq (s : State) (x : StoredSet) (ok : Bool) : s.storeCounted x ok = { s with
    stored := { (if ok then s.stored.commit x else s.stored) with status := if ok then 2 else 3, snapshot := none }
    objs := (s.storeCounted x ok).objs } := by
  cases ok <;> rfl

theorem execStoreMramDone_ends {x : StoredSet} {s : State} (ok : Bool) (hx : s.stored.snapshot = some x) :
    exec (.storeMramDone ok) s =
      .next ((s.storeEnded x ok).host.waiting.foldl State.storeAnswered (s.storeEnded x ok)) := by
  show execStoreMramDone ok s = _
  rw [execStoreMramDone, hx]
  rfl

/-- What the end of a store leaves. -/
theorem storeEnded_spec (s : State) (x : StoredSet) (ok : Bool) : let t := s.storeEnded x ok
    t.stored = { (if ok then s.stored.commit x else s.stored) with status := if ok then 2 else 3, snapshot := none } ∧
      t.can.storeWait = false ∧ (s.can.storeWait = false → t.can = s.can) ∧
      t = { s with stored := t.stored, can := t.can, objs := t.objs } := by
  intro t
  have counted := storeCounted_eq s x ok
  have can : (s.storeCounted x ok).can = s.can := by rw [counted]
  unfold t State.storeEnded
  dsimp only
  generalize s.storeCounted x ok = c at counted can ⊢
  split
  next waits =>
    rw [canReply_frame, counted]
    exact ⟨rfl, rfl, fun free => absurd (can ▸ waits) (by simp [free]), rfl⟩
  next free =>
    rw [can, Bool.not_eq_true] at free
    rw [counted]
    exact ⟨rfl, free, fun _ => rfl, rfl⟩

/-! ### Coalescing -/

/-- The ring whose entries have been closed. -/
def State.coalClosed (s : State) (ring : Nat) : State := { s with err := { s.err with
  rings := s.err.rings.map fun e =>
    if e.1 = ring then (e.1, { e.2 with coal := e.2.coal.filter fun c => decide (s.now < c.time + 25) }) else e } }

theorem execCoalesceEntryClose_closes (ring : Nat) (s : State) : exec (.coalesceEntryClose ring) s = .next (s.coalClosed ring) := rfl

/-- No entry of the ring stays open 25 ticks after its TIME (R505). -/
theorem coalClosed_coal {s : State} {ring : Nat} : ∀ e ∈ (s.coalClosed ring).err.rings, e.1 = ring → ∀ c ∈ e.2.coal, s.now < c.time + 25 := by
  intro e he hr c hc
  obtain ⟨e0, -, rfl⟩ := List.mem_map.1 he
  dsimp only at hr hc
  split at hc
  next => exact of_decide_eq_true (List.mem_filter.1 hc).2
  next other => rw [if_neg other] at hr; exact absurd hr other

/-- Closing entries leaves what a ring holds. -/
theorem coalClosed_ringOf (s : State) (ring r : Nat) :
    ((s.coalClosed ring).ringOf r).recs = (s.ringOf r).recs ∧ ((s.coalClosed ring).ringOf r).first = (s.ringOf r).first := by
  unfold State.ringOf State.coalClosed tgetD
  dsimp only
  rw [tget_map_of_key _ (fun e => by split <;> rfl)]
  cases tget r s.err.rings with
  | none => exact ⟨rfl, rfl⟩
  | some x => dsimp only [Option.map_some, Option.getD_some]; split <;> exact ⟨rfl, rfl⟩

/-- Settles O51: reads and writes from capsules and over CAN FD by the lemma of their path, every row that writes an object
by `exec_objectRow`, and the end of a store and of coalescing. -/
theorem objectCommandsReadAndWrite : Obligations.ObjectCommandsReadAndWrite := by
  unfold Obligations.ObjectCommandsReadAndWrite
  refine ⟨?_, ?_, ?_, ?_, ?_, ?_⟩
  · intro h a v flags s s1 u b ho hr
    exact ⟨_, rfl, bandRead_answers ho hr⟩
  · intro h a v s s1 u b ho hi hw
    exact ⟨_, rfl, by rw [bandWrite_answers ho hw, if_neg hi]⟩
  · intro h a v s s1 b hp
    exact ⟨fun hr ha => congrArg Host.Outcome.next (bandWrite_of_paused hp hr ha),
      fun hn hr ha => congrArg Host.Outcome.next (bandRead_of_paused hp hn hr ha)⟩
  · intro n m p v e he
    refine ⟨fun h s s1 u b ho hw => ?_, fun s u hears hw hh hr ho => ?_⟩
    · exact .of_exec (exec_objectRow he (.capsule h) s) (bandWrite_answers ho hw)
    · exact .of_exec (exec_objectRow he .canfd s) (writeFrom_canfd_answers hears hw hh hr ho)
  · intro x ok s hx
    obtain ⟨stored, waits, can, frame⟩ := storeEnded_spec s x ok
    exact .of_exec (execStoreMramDone_ends ok hx) ⟨_, rfl, stored, waits, can, frame⟩
  · intro ring s
    exact .of_exec (execCoalesceEntryClose_closes ring s) ⟨coalClosed_coal, coalClosed_ringOf s ring, rfl⟩

end Sys2Proof.Machine
end

section
/-! SUPPORT and the field network (R482-R488): what each row about a request, a transfer, a session and the bus does under its
conditions, one lemma for each row. -/

namespace Sys2Proof.Machine

/-- A request that the node hears is served on the state in which it has been counted (R486, R488). -/
theorem serve_of_hears {s s1 : State} (f : State → State) (h : Claims.Hears s s1) : s.serve f = .next (f s1) := by
  obtain ⟨hears, rfl⟩ := h
  simp [State.serve, hears]

/-- A request about an object that neither a pause nor a save holds is served at once. -/
theorem serveObj_of_hears {s s1 : State} {i : Instr} {f : List Byte} {write : Bool} {go : ObjAddr → State → State}
    (h : Claims.Hears s s1) (hw : s.canWaits (s.frameAddr f) write = false) (hh : s.canHeld (s.frameAddr f) write = false) :
    s.serveObj i f write go = .next (go (s.frameAddr f) s1) := by
  simp [State.serveObj, hw, hh, serve_of_hears _ h]

/-- A pause holds a request that it does not serve (R15). -/
theorem serveObj_of_waits {s : State} {i : Instr} {f : List Byte} {write : Bool} {go : ObjAddr → State → State}
    (hears : s.canHears = true) (hw : s.canWaits (s.frameAddr f) write = true) :
    s.serveObj i f write go = .next (s.hold i) := by
  simp [State.serveObj, hw, hears]

theorem canWaits_write_of_paused {s : State} (a : ObjAddr) : s.canWaits a true = s.paused := by simp [State.canWaits]

/-- READ of an object that is not octets answers its value (R485). -/
theorem execRead_answers {f v : List Byte} {s s1 u : State} (h : Claims.Hears s s1)
    (hw : s.canWaits (s.frameAddr f) false = false) (hh : s.canHeld (s.frameAddr f) false = false)
    (hr : s1.canRead (s.frameAddr f) = .ok (v, u)) (hs : segmented (s.frameAddr f) = false) :
    exec (.read f) s = .next (u.canReply 0x81 (s.frameAddr f) v) := by
  show execRead f s = _
  rw [execRead, serveObj_of_hears h hw hh]
  simp [hr, hs]

/-- SEG_READ of octets answers their length and sends the first segments (R486). -/
theorem execSegRead_answers {f v : List Byte} {s s1 u : State} (h : Claims.Hears s s1)
    (hw : s.canWaits (s.frameAddr f) false = false) (hh : s.canHeld (s.frameAddr f) false = false)
    (hr : s1.canRead (s.frameAddr f) = .ok (v, u)) (hs : segmented (s.frameAddr f) = true) :
    exec (.segRead f) s = .next ((u.canReply 0x83 (s.frameAddr f) (natBytes 4 v.length)).sendSegments
      ⟨false, s.frameAddr f, v.length, v, 0, 0, s.now⟩) := by
  show execSegRead f s = _
  rw [execSegRead, serveObj_of_hears h hw hh]
  simp [hr, hs]

/-- WRITE of an object the session reaches, in a frame of the right length, applies its value (R485). -/
theorem execWrite_applies {f : List Byte} {n : Nat} {s s1 : State} (h : Claims.Hears s s1) (hp : s.paused = false)
    (hh : s.canHeld (s.frameAddr f) true = false) (hc : s1.canReach (s.frameAddr f) true = 0)
    (hs : segmented (s.frameAddr f) = false) (hn : fixedSize (s.frameAddr f) = some n) (hl : f.length = canSize (4 + n)) :
    exec (.write f) s = .next (s1.canWrite (s.frameAddr f) (slice f 4 n)) := by
  show execWrite f s = _
  rw [execWrite, serveObj_of_hears h ((canWaits_write_of_paused _).trans hp) hh]
  simp [hc, hs, hn, hl]

/-- A transfer whose bytes have not all come is not applied. -/
theorem segApply_of_short {x : Transfer} (s : State) (h : x.data.length < x.total) : s.segApply x = s := if_pos h

/-- A transfer whose bytes have all come ends, and its value is applied. -/
theorem segApply_of_full {x : Transfer} (s : State) (h : ¬ x.data.length < x.total) :
    s.segApply x = (s.setTransfer none).canWrite x.addr x.data := if_neg h

/-- SEG_WRITE that nothing refuses opens a transfer (R486). -/
theorem execSegWrite_opens {f : List Byte} {s s1 : State} (h : Claims.Hears s s1) (hp : s.paused = false)
    (hh : s.canHeld (s.frameAddr f) true = false) (hr : s1.segRefusal (s.frameAddr f) (beNat (slice f 4 4)) = 0)
    (ht : 0 < beNat (slice f 4 4)) :
    exec (.segWrite f) s = .next ((s1.canReply 0x84 (s.frameAddr f) []).setTransfer
      (some ⟨true, s.frameAddr f, beNat (slice f 4 4), [], 0, 0, s.now⟩)) := by
  show execSegWrite f s = _
  rw [execSegWrite, serveObj_of_hears h ((canWaits_write_of_paused _).trans hp) hh]
  simp [hr, segApply_of_short, ht]

/-- The segment in sequence of a transfer to the device is taken (R486). -/
theorem execSegData_takes {f : List Byte} {x : Transfer} {s : State} (hears : s.canHears = true) (hp : s.paused = false)
    (hf : s.power.frozen = false) (hx : s.can.transfer = some x) (hw : x.writing = true)
    (hs : beNat (slice f 1 1) = x.nextSeq % 256) (hl : f.length = canSize (2 + segSize x.total x.nextSeq)) :
    let y := { x with
      data := x.data ++ slice f 2 (segSize x.total x.nextSeq), nextSeq := x.nextSeq + 1, last := s.now }
    let ack : Bool := y.nextSeq % 16 = 0 ∨ y.total ≤ y.data.length
    let u := if ack then s.touched.canSend 6 (natBytes 1 0x86 ++ natBytes 1 (x.nextSeq % 256)) else s.touched
    exec (.segData f) s =
      .next ((u.setTransfer (some { y with acked := if ack then y.nextSeq else y.acked })).segApply y) := by
  intro y ack u
  show execSegData f s = _
  simp [execSegData, hx, hw, hears, hp, hf, hs, hl, y, ack, u]

/-- An acknowledgement among those the client may send lets the device send on (R486). -/
theorem execSegAck_goes_on {f : List Byte} {x : Transfer} {k : Nat} {s : State} (hears : s.canHears = true)
    (hx : s.can.transfer = some x) (hw : x.writing = false) (hk : x.ackedTo (beNat (slice f 1 1)) = some k) :
    exec (.segAck f) s = .next (s.touched.sendSegments { x with acked := k }) := by
  show execSegAck f s = _
  simp [execSegAck, hx, hw, hears, hk]

/-- PATH of at most eight names with the rest blank is taken (R487). -/
theorem execPath_takes {f : List Byte} {s s1 : State} (h : Claims.Hears s s1) (hn : beNat (slice f 1 1) ≤ 8)
    (hb : ∀ c ∈ (unpackBytes (fitList 12 0 (slice f 2 12))).drop (beNat (slice f 1 1)), c = 0xFFF) :
    exec (.path f) s = .next (({ s1 with can := { s1.can with
      path := ((unpackBytes (fitList 12 0 (slice f 2 12))).take (beNat (slice f 1 1))).map fun c => c.toNat } } : State).canSend 6
        (natBytes 1 0x88)) := by
  show execPath f s = _
  rw [execPath, serve_of_hears _ h]
  exact congrArg _ (if_neg (by simpa [hn] using hb))

/-- Displacing a transfer changes the field network alone, and neither its keys nor its bus. -/
theorem displace_frame (s : State) :
    s.displace = { s with can := { s.can with transfer := none, out := s.displace.can.out } } := by
  unfold State.displace State.canAbort State.canReply State.canSend
  split
  · rename_i hx
    rw [← hx]
  · dsimp only; split <;> rfl

/-- A request that is heard changes the field network alone: it ends the open transfer, sends, and counts for the session. -/
theorem hears_frame {s s1 : State} (h : Claims.Hears s s1) :
    s1 = { s with can := { s.can with transfer := none, out := s1.can.out, lastRequest := s.now } } := by
  obtain ⟨-, rfl⟩ := h
  rw [State.touched, displace_frame]
  rfl

theorem hears_now {s s1 : State} (h : Claims.Hears s s1) : s1.now = s.now := by rw [hears_frame h]; rfl

theorem hears_busState_ne {s s1 : State} (h : Claims.Hears s s1) : s1.can.busState ≠ 2 := by
  rw [hears_frame h]
  exact of_decide_eq_true h.1

/-- SESSION_OPEN for a role with a key, with no lock in force, answers a challenge and ends the session before it (R488). -/
theorem execSessionOpen_challenges {f : List Byte} {s s1 : State} (h : Claims.Hears s s1)
    (hl : ∀ k, s1.can.lockedUntil = some k → k ≤ s.now) (hk : s1.roleKey (beNat (slice f 1 1)) ≠ []) :
    exec (.sessionOpen f) s = .next { s1 with
      free := s1.free + 1
      can := { s1.can with
        role := 0, path := [], challenge := some (beNat (slice f 1 1), beNat (s1.randomBytes 32), s.now)
        out := s1.can.out ++ [canFrame 6 s1.can.node
          (natBytes 1 0x89 ++ natBytes 1 (beNat (slice f 1 1)) ++ s1.randomBytes 32)] } } := by
  have unlocked : ¬ (s1.endSession.can.lockedUntil.any fun k => decide (s1.endSession.now < k)) = true := by
    rw [Option.any_eq_true]
    rintro ⟨k, hk, lt⟩
    have le : k ≤ s1.endSession.now := Nat.le_trans (hl k hk) (Nat.le_of_eq (hears_now h).symm)
    exact absurd le (Nat.not_le.2 (of_decide_eq_true lt))
  have on := hears_busState_ne h
  have keyed : ¬ (s1.endSession.roleKey (beNat (slice f 1 1))).isEmpty = true := by
    rw [List.isEmpty_iff]; exact hk
  show execSessionOpen f s = _
  rw [execSessionOpen, serve_of_hears _ h]
  dsimp only
  rw [if_neg unlocked, if_neg keyed, canSend_of_on (by exact on), ← hears_now h]
  rfl

/-- SESSION_PROVE answers a challenge: a proof in time that is right opens the session, and any other fails (R488). -/
theorem execSessionProve_answers {f : List Byte} {role nonce : Nat} {since : Tick} {s s1 : State} (h : Claims.Hears s s1)
    (hc : s1.can.challenge = some (role, nonce, since)) :
    exec (.sessionProve f) s = .next
      (if s.now ≤ since + 25000000 ∧ fitList 16 0 (slice f 1 16) =
          fitList 16 0 (Config.sessionProof (s1.roleKey role) (s1.proofMessage role nonce)) then
        ({ s1 with can := { s1.can with challenge := none, role := role, fails := 0 } } : State).canSend 6
          (natBytes 1 0x8A ++ natBytes 1 0)
      else ({ s1 with can := { s1.can with challenge := none } } : State).proofFails) := by
  show execSessionProve f s = _
  rw [execSessionProve, serve_of_hears _ h, ← hears_now h]
  simp only [hc, second]
  rfl

/-- The heartbeat goes out when its period has passed (R483). -/
theorem execHeartbeat_sends {s : State} (hp : s.objNum 0x1100 3 [] 0 1000 ≠ 0) (hb : s.can.busState ≠ 2)
    (ht : s.can.lastHeartbeat + s.objNum 0x1100 3 [] 0 1000 * 25000 ≤ s.now) :
    exec .heartbeat s = .next { s with can := { s.can with
      lastHeartbeat := s.now
      out := s.can.out ++ [canFrame 0xE s.can.node
        (natBytes 1 s.heartbeatBits ++ natBytes 1 s.can.node ++ natBytes 6 (s.now % 2 ^ 48))] } } := by
  refine congrArg _ ((if_neg ?_).trans (canSend_of_on (by exact hb) ..))
  rintro (none | off | early)
  · exact hp none
  · exact hb off
  · exact absurd ht (Nat.not_le.2 early)

/-- A bus error adds its weight to the counter of its side, which gives the state; bus off ends an open transfer (R482). -/
theorem execCanfdBusError_counts {transmit : Bool} {w : Nat} {s : State} (hb : s.can.busState ≠ 2) :
    let tec := if transmit then s.can.tec + w else s.can.tec
    let rec_ := if transmit then s.can.rec_ else s.can.rec_ + w
    exec (.canfdBusError transmit w) s = .next { s with can := { s.can with
      tec := tec, rec_ := rec_, recovery := 0
      transfer := if 256 ≤ tec then none else s.can.transfer
      busState := busStateOf tec rec_ } } := by
  intro tec rec_
  have ends : (if busStateOf tec rec_ = 2 then s.setTransfer none else s) =
      { s with can := { s.can with transfer := if 256 ≤ tec then none else s.can.transfer } } := by
    have off : busStateOf tec rec_ = 2 ↔ 256 ≤ tec := by unfold busStateOf; repeat' split <;> simp_all
    simp only [off]
    split <;> rfl
  show execCanfdBusError transmit w s = _
  unfold execCanfdBusError
  rw [if_neg hb]
  simp only [ends, tec, rec_]

theorem execRead_waits {f : List Byte} {s : State} (hears : s.canHears = true) (hw : s.canWaits (s.frameAddr f) false = true) :
    exec (.read f) s = .next (s.hold (.read f)) := by
  show execRead f s = _
  exact serveObj_of_waits hears hw

theorem execSegRead_waits {f : List Byte} {s : State} (hears : s.canHears = true)
    (hw : s.canWaits (s.frameAddr f) false = true) : exec (.segRead f) s = .next (s.hold (.segRead f)) := by
  show execSegRead f s = _
  exact serveObj_of_waits hears hw

theorem execWrite_waits {f : List Byte} {s : State} (hears : s.canHears = true) (hp : s.paused = true) :
    exec (.write f) s = .next (s.hold (.write f)) := by
  show execWrite f s = _
  exact serveObj_of_waits hears ((canWaits_write_of_paused _).trans hp)

theorem execSegWrite_waits {f : List Byte} {s : State} (hears : s.canHears = true) (hp : s.paused = true) :
    exec (.segWrite f) s = .next (s.hold (.segWrite f)) := by
  show execSegWrite f s = _
  exact serveObj_of_waits hears ((canWaits_write_of_paused _).trans hp)

/-- ABORT ends the open transfer and answers CLIENT_ABORT (R484). -/
theorem execAbort_ends {f : List Byte} {s : State} (hears : s.canHears = true) :
    exec (.abort f) s = .next ((s.touched.setTransfer none).canAbort (s.frameAddr f) 0x16) := by
  show execAbort f s = _
  simp [execAbort, hears]

/-- A transfer without a frame for a second ends (R486). -/
theorem execSegmentTimeout_ends {x : Transfer} {s : State} (hx : s.can.transfer = some x) (ht : x.last + 25000000 ≤ s.now) :
    exec .segmentTimeout s = .next (s.endTransfer x 0x15) := by
  show execSegmentTimeout s = _
  simp [execSegmentTimeout, second, hx, ht]

theorem execSessionClose_ends {f : List Byte} {s s1 : State} (h : Claims.Hears s s1) :
    exec (.sessionClose f) s = .next (s1.endSession.canSend 6 (natBytes 1 0x8B)) := by
  show execSessionClose f s = _
  exact serve_of_hears _ h

theorem execSessionProofTimeout_drops {role nonce : Nat} {since : Tick} {s : State}
    (hc : s.can.challenge = some (role, nonce, since)) (ht : since + 25000000 < s.now) :
    exec .sessionProofTimeout s = .next { s with can := { s.can with challenge := none } } := by
  show execSessionProofTimeout s = _
  have late : (s.can.challenge.any fun c => decide (c.2.2 + second < s.now)) = true := by
    rw [hc, Option.any_some, decide_eq_true_iff]
    exact ht
  rw [execSessionProofTimeout, if_pos late]

theorem execSessionIdleTimeout_ends {s : State} (hr : s.can.role ≠ 0)
    (ht : s.can.lastRequest + s.objNum 0x1101 1 [] 0 60 * 25000000 ≤ s.now) :
    exec .sessionIdleTimeout s = .next s.endSession := by
  show execSessionIdleTimeout s = _
  simp [execSessionIdleTimeout, second, hr, ht]

theorem execSessionLockoutEnd_unlocks {k : Tick} {s : State} (hl : s.can.lockedUntil = some k) (hk : k ≤ s.now) :
    exec .sessionLockoutEnd s = .next { s with can := { s.can with lockedUntil := none, fails := 0 } } := by
  show execSessionLockoutEnd s = _
  simp [execSessionLockoutEnd, hl, hk]

/-- A recessive sequence counts towards the 128 that end bus off (R482). -/
theorem execCanfdBusOffRecovery_counts {s : State} (hb : s.can.busState = 2) :
    exec .canfdBusOffRecovery s = .next { s with can :=
      if s.can.recovery + 1 < 128 then { s.can with recovery := s.can.recovery + 1 }
      else { s.can with tec := 0, rec_ := 0, busState := 0, recovery := 0 } } := by
  show execCanfdBusOffRecovery s = _
  unfold execCanfdBusOffRecovery
  rw [if_neg (Decidable.not_not.2 hb)]
  split <;> rfl

/-- Settles O54: each row's effect under its conditions, from the lemma of its row. -/
theorem fieldNetworkRequestsAreServed : Obligations.FieldNetworkRequestsAreServed := by
  unfold Obligations.FieldNetworkRequestsAreServed
  refine ⟨?_, ?_, ?_, ?_, ?_, ?_, ?_, ?_, ?_, ?_, ?_, ?_, ?_, ?_, ?_, ?_, ?_, ?_⟩
  · intro f v s s1 u h hw hh hr
    exact ⟨fun hs => .of_exec (execRead_answers h hw hh hr hs) rfl, fun hs => .of_exec (execSegRead_answers h hw hh hr hs) rfl⟩
  · intro f s hears
    exact ⟨fun hw => ⟨execRead_waits hears hw, execSegRead_waits hears hw⟩,
      fun hp => ⟨execWrite_waits hears hp, execSegWrite_waits hears hp⟩⟩
  · intro f n s s1 h hp hh hc hs hn hl
    exact .of_exec (execWrite_applies h hp hh hc hs hn hl) rfl
  · intro f s s1 h hp hh hr ht
    exact .of_exec (execSegWrite_opens h hp hh hr ht) rfl
  · intro f x s hears hp hf hx hw hs hl
    refine .of_exec (execSegData_takes hears hp hf hx hw hs hl) ?_
    intro y ack u
    split
    · exact segApply_of_short _ ‹_›
    · exact segApply_of_full _ ‹_›
  · intro f x k s hears hx hw hk
    exact .of_exec (execSegAck_goes_on hears hx hw hk) rfl
  · intro f s hears
    exact .of_exec (execAbort_ends hears) rfl
  · intro x s hx ht
    exact .of_exec (execSegmentTimeout_ends hx ht) rfl
  · intro f s s1 h hn hb
    exact .of_exec (execPath_takes h hn hb) rfl
  · intro f s s1 h hl hk
    refine .of_exec (execSessionOpen_challenges h hl hk) ⟨s1.randomBytes 32, natBytes_length .., rfl, rfl, rfl, rfl, ?_⟩
    rw [hears_frame h]
  · intro f role nonce since s s1 h hc
    refine .of_exec (execSessionProve_answers h hc) ⟨fun good => if_pos good, fun bad => if_neg bad⟩
  · intro f s s1 h
    exact .of_exec (execSessionClose_ends h) rfl
  · intro role nonce since s hc ht
    exact .of_exec (execSessionProofTimeout_drops hc ht) rfl
  · intro s hr ht
    exact .of_exec (execSessionIdleTimeout_ends hr ht) rfl
  · intro k s hl hk
    exact .of_exec (execSessionLockoutEnd_unlocks hl hk) rfl
  · intro s hp hb ht
    exact .of_exec (execHeartbeat_sends hp hb ht) rfl
  · intro transmit w s hb
    exact .of_exec (execCanfdBusError_counts hb) ⟨rfl, fun lt => if_neg (Nat.not_le.2 lt), fun le => if_pos le⟩
  · intro s hb
    exact .of_exec (execCanfdBusOffRecovery_counts hb) rfl

end Sys2Proof.Machine
end

section
/-! The two phases of an arbiter tick (R37): what the release of one fallback leaves of the items, and that after the last one
no item is due. -/

namespace Sys2Proof.Machine

/-! ### What retiring an item leaves -/

/-- The count and the slices are the same, and every item of `t` is one of `s`. -/
def State.OnlyDrops (s t : State) : Prop := t.time = s.time ∧ t.slices = s.slices ∧ ∀ j ∈ t.items, j ∈ s.items

theorem State.OnlyDrops.refl (s : State) : s.OnlyDrops s := ⟨rfl, rfl, fun _ h => h⟩

theorem State.OnlyDrops.trans {s t u : State} (h : s.OnlyDrops t) (k : t.OnlyDrops u) : s.OnlyDrops u :=
  ⟨k.1.trans h.1, k.2.1.trans h.2.1, fun j hj => h.2.2 j (k.2.2 j hj)⟩

theorem endFirings_onlyDrops (s : State) (w : WorkRef) : s.OnlyDrops (s.endFirings w) :=
  ⟨congrArg Standing.time (endFirings_standing s w), congrArg Standing.slices (endFirings_standing s w),
    fun _ h => endFirings_items s w ▸ h⟩

theorem settleTurns_onlyDrops (n : Nat) (s : State) : s.OnlyDrops (State.settleTurns n s) := by
  induction n generalizing s with
  | zero => exact .refl s
  | succ n ih =>
    unfold State.settleTurns
    dsimp only
    split
    · exact .refl s
    · exact .trans ⟨rfl, rfl, fun _ h => h⟩ (ih _)

theorem settleAppends_onlyDrops (s : State) : s.OnlyDrops s.settleAppends := settleTurns_onlyDrops ..

theorem filterItems_onlyDrops (s : State) (p : Item → Bool) : s.OnlyDrops { s with items := s.items.filter p } :=
  ⟨rfl, rfl, fun _ h => (List.mem_filter.1 h).1⟩

theorem finishUnload_onlyDrops (s : State) (w : Waiting) : s.OnlyDrops (s.finishUnload w) := by
  unfold State.finishUnload
  split
  · split
    · exact .refl s
    · dsimp only
      unfold State.done State.finish
      split <;> exact ⟨rfl, rfl, fun _ h => h⟩
  · exact .refl s

theorem settleUnloads_onlyDrops (s : State) : s.OnlyDrops s.settleUnloads := by
  have unloads : s.OnlyDrops (s.host.waiting.foldl State.finishUnload s) :=
    List.foldlRecOn (motive := s.OnlyDrops) _ _ (.refl s) fun t h w _ => h.trans (finishUnload_onlyDrops t w)
  exact unloads.trans ⟨rfl, rfl, fun _ h => h⟩

theorem mem_updItem {s : State} {seq : Nat} {f : Item → Item} {j : Item} (h : j ∈ (s.updItem seq f).items) :
    j ∈ s.items ∧ j.seq ≠ seq ∨ ∃ i ∈ s.items, i.seq = seq ∧ j = f i := by
  obtain ⟨i, hi, rfl⟩ := List.mem_map.1 h
  by_cases hs : i.seq = seq
  · exact .inr ⟨i, hi, hs, by simp [hs]⟩
  · exact .inl (by simpa [hs] using hi)

/-- Retiring an item changes no other item, and no answer. -/
theorem retire_leaves (s : State) (seq : Nat) : (s.retire seq).time = s.time ∧ (s.retire seq).slices = s.slices ∧
    ∀ j ∈ (s.retire seq).items, j ∈ s.items ∨ ∃ i ∈ s.items, i.seq = seq ∧ j.seq = seq ∧ j.answer = i.answer := by
  unfold State.retire
  split
  · exact ⟨rfl, rfl, fun _ h => .inl h⟩
  · split
    · exact ⟨rfl, rfl, fun _ h => .inl h⟩
    · dsimp only
      generalize hd : s.updItem seq _ = d
      obtain ⟨time, slices, items⟩ := (endFirings_onlyDrops d (.item seq)).trans <|
        (filterItems_onlyDrops _ fun i => !(i.seq == seq && i.recorded && i.sent)).trans <|
          (settleAppends_onlyDrops _).trans (settleUnloads_onlyDrops _)
      subst hd
      refine ⟨time, slices, fun j hj => ?_⟩
      obtain ⟨mem, -⟩ | ⟨i, hi, hs, rfl⟩ := mem_updItem (items j hj)
      · exact .inl mem
      · exact .inr ⟨i, hi, hs, hs, rfl⟩

/-! ### Phase 2 -/

theorem mirrorAnswer_frame (s : State) (i : Item) (cause : Nat) (a : Answer) :
    s.mirrorAnswer i cause a = { s with group := (s.mirrorAnswer i cause a).group } := by
  unfold State.mirrorAnswer State.tellReplica
  split <;> rfl

/-- Between `s` and `t` the items numbered in `qs` have been answered or dropped, and no other item without an answer is new. -/
def State.Answered (qs : List Nat) (s t : State) : Prop :=
  t.time = s.time ∧ t.slices = s.slices ∧ ∀ j ∈ t.items, j.answer.isSome = true ∨ j ∈ s.items ∧ j.seq ∉ qs

theorem updItem_answered (s : State) (seq : Nat) {f : Item → Item} (hf : ∀ i, (f i).answer.isSome = true) :
    s.Answered [seq] (s.updItem seq f) := by
  refine ⟨rfl, rfl, fun j hj => ?_⟩
  obtain ⟨mem, ne⟩ | ⟨i, -, -, rfl⟩ := mem_updItem hj
  · exact .inr ⟨mem, by simpa using ne⟩
  · exact .inl (hf i)

/-- Retiring one of the items leaves them answered. -/
theorem State.Answered.retire {qs : List Nat} {s t : State} {seq : Nat} (h : s.Answered qs t) (hq : seq ∈ qs) :
    s.Answered qs (t.retire seq) := by
  obtain ⟨time, slices, items⟩ := retire_leaves t seq
  refine ⟨time.trans h.1, slices.trans h.2.1, fun j hj => ?_⟩
  obtain mem | ⟨i, hi, hs, -, same⟩ := items j hj
  · exact h.2.2 j mem
  · obtain answered | ⟨-, other⟩ := h.2.2 i hi
    · exact .inl (same ▸ answered)
    · exact absurd (hs ▸ hq) other

theorem releaseFallback_answered (s : State) (seq : Nat) : s.Answered [seq] (s.releaseFallback seq) := by
  unfold State.releaseFallback
  split
  · rename_i none
    exact ⟨rfl, rfl, fun j hj => .inr ⟨hj, by simpa using List.find?_eq_none.1 none j hj⟩⟩
  · dsimp only
    refine State.Answered.retire ?_ (List.mem_singleton_self seq)
    rw [mirrorAnswer_frame]
    split <;> exact updItem_answered s seq fun _ => rfl

/-- Shedding an item that is held changes no other item. -/
theorem State.Answered.of_shedHeld {s t : State} {seq : Nat} (h : (s.shedHeld seq).Answered [seq] t) : s.Answered [seq] t := by
  refine ⟨h.1, h.2.1, fun j hj => (h.2.2 j hj).imp_right fun ⟨mem, other⟩ => ⟨?_, other⟩⟩
  obtain ⟨mem, -⟩ | ⟨i, -, hs, rfl⟩ := mem_updItem mem
  · exact mem
  · refine absurd ?_ other
    simp only [Item.decide]
    split
    · split <;> simpa using hs
    · simpa using hs

theorem State.Answered.trans {ps qs : List Nat} {s t u : State} (h : s.Answered ps t) (k : t.Answered qs u) :
    s.Answered (ps ++ qs) u := by
  refine ⟨k.1.trans h.1, k.2.1.trans h.2.1, fun j hj => ?_⟩
  obtain answered | ⟨mem, other⟩ := k.2.2 j hj
  · exact .inl answered
  · exact (h.2.2 j mem).imp_right fun ⟨mem, before⟩ => ⟨mem, by simp [before, other]⟩

/-- Phase 2 answers or drops every item it goes through. -/
theorem phase2_answered (qs : List Nat) (s : State) :
    s.Answered qs (qs.foldl (fun u q => (u.shedHeld q).releaseFallback q) s) := by
  induction qs generalizing s with
  | nil => exact ⟨rfl, rfl, fun _ h => .inr ⟨h, List.not_mem_nil⟩⟩
  | cons q qs ih => exact (releaseFallback_answered _ q).of_shedHeld.trans (ih _)

/-- When every item that was due has been answered or dropped, none is due. -/
theorem State.Answered.none_due {s t : State} (h : s.Answered (s.seqsOf s.fallbackDue) t) {i : Item} (hi : i ∈ t.items)
    (hu : t.unanswered i = true) : i.cause = 0 ∧ t.now < i.deadline := by
  obtain ⟨time, slices, items⟩ := h
  have now : t.now = s.now := congrArg TimeSt.count time
  have gen : t.genOf i.slice = s.genOf i.slice := by simp only [State.genOf, State.sliceOf, slices]
  have unanswered : s.unanswered i = true := by rwa [State.unanswered, ← gen]
  obtain answered | ⟨mem, other⟩ := items i hi
  · simp [State.unanswered, ← Option.not_isSome, answered] at unanswered
  · have due : ¬ s.fallbackDue i = true := fun due =>
      other (List.mem_map_of_mem (List.mem_filter.2 ⟨mem, due⟩))
    simpa [State.fallbackDue, unanswered, now] using due

/-- Settles O28: the two phases are those of the model, and the second answers every item that is due when it begins. -/
theorem arbiterTickReleasesResultsThenFallbacks : Obligations.ArbiterTickReleasesResultsThenFallbacks := by
  unfold Obligations.ArbiterTickReleasesResultsThenFallbacks
  intro parity s hf hm
  have runs : ¬ (s.power.frozen = true ∨ s.group.minority = true) := by simp [hf, hm]
  exact .of_exec (congrArg Host.Outcome.next (if_neg runs)) ⟨rfl, fun i hi hu => (phase2_answered _ _).none_due hi hu⟩

end Sys2Proof.Machine
end

section
/-! The device before its first power-up. -/

namespace Sys2Proof.Machine

/-- A slice that the table does not list was never created (R398). -/
theorem sliceOf_reset_of_ne {n : Nat} (h : n ≠ 0) : State.reset.sliceOf n = sliceAbsent := by
  have other : tget n State.reset.slices = none := if_neg h.symm
  rw [State.sliceOf, tgetD, other, Option.getD_none]

/-- Settles O59: the fields of the reset value, its one slice, and its empty memory. -/
theorem resetIsTheDeviceBeforePower : Obligations.ResetIsTheDeviceBeforePower := by
  unfold Obligations.ResetIsTheDeviceBeforePower
  refine ⟨rfl, rfl, rfl, rfl, rfl, rfl, rfl, rfl, rfl, rfl, rfl, rfl, rfl, ?_, rfl, rfl, rfl, rfl, ?_⟩
  · intro n h
    rw [sliceOf_reset_of_ne h]
    rfl
  · intro a
    rfl

end Sys2Proof.Machine
end

section
/-! PPS (R26, R27): valid edges, bad ones, and the rise of PPS_OUT. -/

namespace Sys2Proof.Machine

theorem objNum_bumpBy_self (s : State) (index sub : Nat) (path : List Nat) (slice lim n d : Nat) :
    (s.bumpBy index sub path slice lim n).objNum index sub path slice d = min lim (s.objNum index sub path slice 0 + n) := by
  simp only [State.objNum, State.bumpBy_objs, tget_tset_self]
  rfl

theorem ceilDiv_mul_bounds (a : Nat) {b : Nat} (h : 0 < b) : a ≤ ceilDiv a b * b ∧ ceilDiv a b * b < a + b := by
  rw [ceilDiv, if_neg (Nat.ne_of_gt h)]
  have rem := Nat.mod_lt (a + b - 1) h
  have div := Nat.div_add_mod' (a + b - 1) b
  omega

/-- The count at a valid edge: stepped to the next whole second by the first one before READY, else as it was. -/
theorem ppsValid_count (s : State) :
    (s.time.aligned = true ∨ s.power.ready = true → s.ppsValid.time.count = s.time.count) ∧
    (s.time.aligned = false → s.power.ready = false → s.ppsValid.time.aligned = true ∧
      s.ppsValid.time.count % second = 0 ∧ s.time.count ≤ s.ppsValid.time.count ∧
      s.ppsValid.time.count < s.time.count + second) := by
  constructor
  · intro h
    have stays : (!s.time.aligned && !s.power.ready) = false := by rcases h with h | h <;> simp [h]
    simp [State.ppsValid, stays, State.now]
  · intro ha hr
    have bounds := ceilDiv_mul_bounds s.time.count (b := second) (by decide)
    simp [State.ppsValid, ha, hr, State.now, bounds]

theorem execPpsInEdge_valid {s : State} (h : s.time.ppsSeen = false ∨ (ppsError s.now).natAbs ≤ 2500) :
    exec .ppsInEdge s = .next s.ppsValid :=
  congrArg Host.Outcome.next (if_pos (by simpa using h))

theorem execPpsInEdge_bad {s : State} (h : s.time.ppsSeen = true) (far : 2500 < (ppsError s.now).natAbs) :
    exec .ppsInEdge s = .next s.ppsBad :=
  congrArg Host.Outcome.next (if_neg (by simp [h, far]))

theorem execPpsEdgeMissed_bad {s : State} (h : s.time.ppsSeen = true) (hw : s.now % second = 2501)
    (hl : s.time.ppsLast + 5001 < s.now) : exec .ppsEdgeMissed s = .next s.ppsBad :=
  congrArg Host.Outcome.next (if_pos ⟨h, hw, hl⟩)

/-- PPS_OUT after a tick: it rises at a whole second, and at no other tick (R27). -/
theorem tick_ppsOutSince (s : State) (n : Nat) : (s.tick n).time.ppsOutSince =
    if (s.now + 1) % second = 0 then some (s.now + 1)
    else s.time.ppsOutSince.filter fun a => s.now + 1 < a + 2500000 := by
  have count : (s.beforeCount n).time.count = s.now := by rw [beforeCount_frame (s := s) rfl]; rfl
  have out : (s.beforeCount n).time.ppsOutSince = s.time.ppsOutSince := by rw [beforeCount_frame (s := s) rfl]
  rw [← count, ← out]
  rfl

theorem filter_eq_none_or_self {α : Type} (p : α → Bool) (o : Option α) : o.filter p = none ∨ o.filter p = o := by
  cases o with
  | none => exact .inl rfl
  | some a => cases hp : p a <;> simp [hp]

/-- Settles O24: the valid edge, the two kinds of bad one, and PPS_OUT at a tick. -/
theorem ppsEdgesSteerTime : Obligations.PpsEdgesSteerTime := by
  unfold Obligations.PpsEdgesSteerTime
  refine ⟨?_, ?_, ?_⟩
  · intro s h
    obtain ⟨stays, steps⟩ := ppsValid_count s
    exact .of_exec (execPpsInEdge_valid h) ⟨rfl, rfl, rfl, rfl, stays, steps, rfl, fun leads => if_pos leads,
      fun follows => if_neg (by simp [follows]), rfl, rfl⟩
  · intro e he s seen cond
    have bad : exec e.1 s = .next s.ppsBad := by
      simp only [List.mem_cons, List.not_mem_nil, or_false] at he
      obtain rfl | rfl := he
      · exact execPpsInEdge_bad seen cond
      · exact execPpsEdgeMissed_bad seen cond.1 cond.2
    exact .of_exec bad ⟨objNum_bumpBy_self .., rfl, rfl⟩
  · intro n s
    refine ⟨_, rfl, s.tick n, rfl, ?_⟩
    rw [tick_ppsOutSince, second]
    exact ⟨fun whole => if_pos whole, fun part => by
      rw [if_neg part]
      exact filter_eq_none_or_self ..⟩

end Sys2Proof.Machine
end

section
/-! SUPPORT. What the loss of a bay and the floor check leave of the thermal state and of trust. -/

namespace Sys2Proof.Machine

/-! ### The loss of a bay moves neither the thermal state nor trust (R182, R189, R497) -/

/-- The thermal state and the trust state. -/
def State.thermAndTrust (s : State) : ThermSt × TrustSt := (s.therm, s.trust)

theorem foldl_thermAndTrust {β : Type} (f : State → β → State) (hf : ∀ (s : State) x, (f s x).thermAndTrust = s.thermAndTrust)
    (l : List β) (s : State) :
    (l.foldl f s).thermAndTrust = s.thermAndTrust :=
  List.foldlRecOn (motive := fun t : State => t.thermAndTrust = s.thermAndTrust) l f rfl fun _ h x _ => (hf _ x).trans h

theorem faultItem_thermAndTrust (s : State) (seq : Nat) : (s.faultItem seq).thermAndTrust = s.thermAndTrust :=
  foldl_thermAndTrust State.dropFiring (fun _ _ => rfl) ..

theorem firingLost_thermAndTrust (s : State) (u : CoreId) : (s.firingLost u).thermAndTrust = s.thermAndTrust := by
  unfold State.firingLost
  split
  · rfl
  · split
    · exact faultItem_thermAndTrust ..
    · rename_i f _ n h
      rw [h]
      rfl

theorem messageLost_thermAndTrust (s : State) (bay : Nat) (m : DgMsg) :
    (s.messageLost bay m).thermAndTrust = s.thermAndTrust := by
  unfold State.messageLost
  split
  · exact firingLost_thermAndTrust ..
  · exact faultItem_thermAndTrust ..
  · rfl
  · rfl

theorem clearBay_thermAndTrust (s : State) (bay : Nat) : (s.clearBay bay).thermAndTrust = s.thermAndTrust := by
  unfold State.clearBay
  dsimp only
  rw [foldl_thermAndTrust _ fun _ _ => messageLost_thermAndTrust ..]
  exact foldl_thermAndTrust _ firingLost_thermAndTrust ..

theorem faultBay_thermAndTrust (s : State) (bay : Nat) : (s.faultBay bay).thermAndTrust = s.thermAndTrust :=
  foldl_thermAndTrust _ faultItem_thermAndTrust ..

theorem rehomeAll_thermAndTrust (s : State) (bay : Nat) : (s.rehomeAll bay).thermAndTrust = s.thermAndTrust := by
  unfold State.rehomeAll
  refine (foldl_thermAndTrust _ ?_ _ _).trans rfl
  exact fun _ _ => rfl

theorem applyTried_thermAndTrust (s : State) (t : Tried) : (s.applyTried t).thermAndTrust = s.thermAndTrust := by
  have woken : ∀ (u : State) (b : Nat),
      (if 2 ≤ (u.bayPower b).state then u.wakeBay b else u).thermAndTrust = u.thermAndTrust := by
    intro u b
    unfold State.wakeBay
    dsimp only
    repeat' split
    all_goals rfl
  have bound : ∀ u : State, u.bindCopies.thermAndTrust = u.thermAndTrust := fun u => by
    refine foldl_thermAndTrust _ ?_ u.ks.tables u
    exact fun _ _ => rfl
  unfold State.applyTried
  dsimp only
  rw [foldl_thermAndTrust _ woken, bound, State.thermAndTrust, (fillPools_poolsMove _).1]
  rfl

theorem rerun_fault_thermAndTrust (s : State) : (s.rerun .fault).thermAndTrust = s.thermAndTrust := by
  have spent : s.verdictSpent.thermAndTrust = s.thermAndTrust := by
    unfold State.verdictSpent
    split <;> rfl
  unfold State.rerun
  dsimp only
  split
  · rfl
  · simp only [reduceIte, reduceCtorEq]
    split
    · exact spent
    · exact (applyTried_thermAndTrust ..).trans spent

theorem recovery_thermAndTrust (s : State) (row ring cls index code detail : Nat) (exposed : Bool) :
    (s.recovery row ring cls index code detail exposed).thermAndTrust = s.thermAndTrust := by
  rw [State.thermAndTrust, recovery_frame]
  rfl

theorem loseBay_thermAndTrust (s : State) (bay : Nat) : (s.loseBay bay).thermAndTrust = s.thermAndTrust := by
  have gone : (((s.clearBay bay).faultBay bay).rehomeAll bay).thermAndTrust = s.thermAndTrust :=
    (rehomeAll_thermAndTrust ..).trans ((faultBay_thermAndTrust ..).trans (clearBay_thermAndTrust ..))
  unfold State.loseBay
  dsimp only
  split
  · rfl
  · rw [rerun_fault_thermAndTrust, recovery_thermAndTrust]
    generalize ((s.clearBay bay).faultBay bay).rehomeAll bay = u at gone ⊢
    exact gone

/-! ### The thermal floor (R46-R49) -/

theorem floorWatch_frame (s : State) :
    s.floorWatch = { s with therm := { s.therm with floorCool := s.floorWatch.therm.floorCool } } := by
  unfold State.floorWatch
  split <;> rfl

theorem atRiskNow_frame (s : State) : s.atRiskNow = { s with
    therm := { s.therm with atRisk := s.atRiskNow.therm.atRisk, shedding := s.atRiskNow.therm.shedding }
    free := s.atRiskNow.free } := by
  unfold State.atRiskNow
  dsimp only
  split <;> rfl

/-- A floor check moves no temperature and no step (R46-R49). -/
theorem floorCheck_frame (s : State) (bay : Nat) : let t := s.floorCheck bay
    t = { s with therm := t.therm, objs := t.objs, err := t.err, free := t.free } ∧
      t.therm.temps = s.therm.temps ∧ t.therm.steps = s.therm.steps := by
  unfold State.floorCheck
  rw [floorWatch_frame]
  dsimp only
  split
  · rw [atRiskNow_frame]
    split <;> exact ⟨rfl, rfl, rfl⟩
  · split
    · rw [atRiskNow_frame]
      exact ⟨rfl, rfl, rfl⟩
    · exact ⟨rfl, rfl, rfl⟩

end Sys2Proof.Machine
end

section
/-! Temperature reports, the end of the thermal floor, the trip and the return of a bay (R46, R49, R273, R498, R499). -/

namespace Sys2Proof.Machine

/-! ### Reports -/

/-- Slower at once, faster by at most one step (R273). -/
theorem nextStep_moves (s : State) (bay : Nat) (temp : Int) :
    (s.stepOf bay < stepFor temp → s.nextStep bay temp = stepFor temp) ∧
    (stepFor temp ≤ s.stepOf bay → s.nextStep bay temp = s.stepOf bay ∨ s.nextStep bay temp + 1 = s.stepOf bay) := by
  unfold State.nextStep
  dsimp only
  refine ⟨fun slower => if_pos slower, fun faster => ?_⟩
  rw [if_neg (Nat.not_lt.2 faster)]
  split
  · rename_i cool
    exact .inr (Nat.sub_add_cancel (Nat.pos_of_ne_zero cool.1))
  · exact .inl rfl

/-- The state of a report before the floor check: the temperature and the step are noted. -/
def State.reported (s : State) (bay : Nat) (temp : Int) : State :=
  let s1 : State := { s with therm := { s.therm with
    temps := tset bay temp s.therm.temps, coolSince := coolMarks bay temp s.now s.therm.coolSince } }
  { s1 with therm := { s1.therm with steps := tset bay (s1.nextStep bay temp) s1.therm.steps } }

theorem execThrottleStepChange_checks {bay : Nat} (temp : Int) {s : State} (h : s.bayLive bay = true) :
    exec (.throttleStepChange bay temp) s = .next ((s.reported bay temp).floorCheck bay) :=
  congrArg Host.Outcome.next (if_neg (by simp [h]))

/-- A report moves the temperature and the step of its own bay alone. -/
theorem reported_bays (s : State) (bay : Nat) (temp : Int) : let t := s.reported bay temp
    tget bay t.therm.temps = some temp ∧ (s.stepOf bay < stepFor temp → t.stepOf bay = stepFor temp) ∧
    (stepFor temp ≤ s.stepOf bay → t.stepOf bay = s.stepOf bay ∨ t.stepOf bay + 1 = s.stepOf bay) ∧
    ∀ b, b ≠ bay → tget b t.therm.temps = tget b s.therm.temps ∧ t.stepOf b = s.stepOf b := by
  intro t
  let s1 : State := { s with therm := { s.therm with
    temps := tset bay temp s.therm.temps, coolSince := coolMarks bay temp s.now s.therm.coolSince } }
  have step : t.stepOf bay = s1.nextStep bay temp := tgetD_tset_self ..
  obtain ⟨slower, faster⟩ := nextStep_moves s1 bay temp
  rw [step]
  exact ⟨tget_tset_self .., slower, faster, fun b hb => ⟨tget_tset_ne hb .., tgetD_tset_ne hb ..⟩⟩

/-! ### The floor ends -/

theorem execThermalFloorExit_ends {since : Tick} {s : State} (hf : s.therm.floor = true) (hb : s.belowFloor = false)
    (hc : s.floorCools = true) (hs : s.therm.floorCool = some since) (ht : since + 25000000 ≤ s.now) :
    exec .thermalFloorExit s = .next { s with therm := { s.therm with
      floor := false, bSuspended := false, shedding := false, atRisk := [], floorCool := none } } :=
  congrArg Host.Outcome.next (if_pos ⟨hf, by simp [hb], hc, by simp [hs, ht]⟩)

/-! ### The trip -/

/-- The state of a trip before the floor is watched: the bay is lost, off and tripped (R499). -/
def State.trippedOff (s : State) (bay : Nat) (temp : Int) : State :=
  let s2 := ((s.record 0 2 bay 0x0698 0).loseBay bay).setBayPower bay ⟨3, s.now, none⟩
  { s2 with therm := { s2.therm with temps := tset bay temp s2.therm.temps, tripped := tset bay none s2.therm.tripped } }

theorem execThermalTrip_trips {bay : Nat} {temp : Int} {s : State} (h : s.bayLive bay = true) (ht : 110 ≤ temp) :
    exec (.thermalTrip bay temp) s = .next (s.trippedOff bay temp).floorWatch :=
  congrArg Host.Outcome.next (if_neg (by simp [h, ht]))

theorem trippedOff_spec {bay : Nat} {temp : Int} {s : State} (h : s.bayLive bay = true) : let t := s.trippedOff bay temp
    t.bayPower bay = ⟨3, s.now, none⟩ ∧ bay ∈ t.mason.lostBays ∧ t.therm.tripped = tset bay none s.therm.tripped ∧
      t.therm.temps = tset bay temp s.therm.temps ∧ t.time = s.time ∧ t.trust = s.trust ∧ t.slices = s.slices := by
  have live : (s.record 0 2 bay 0x0698 0).bayLive bay = true := h
  have standing := loseBay_standing live
  have thermTrust := loseBay_thermAndTrust (s.record 0 2 bay 0x0698 0) bay
  unfold State.trippedOff
  generalize (s.record 0 2 bay 0x0698 0).loseBay bay = u at standing thermTrust
  have lost : u.mason.lostBays = s.mason.lostBays ++ [bay] := congrArg Standing.lostBays standing
  have therm : u.therm = s.therm := congrArg Prod.fst thermTrust
  refine ⟨tgetD_tset_self .., ?_, ?_, ?_, congrArg Standing.time standing, congrArg Prod.snd thermTrust,
    congrArg Standing.slices standing⟩
  · show bay ∈ u.mason.lostBays
    simp [lost]
  · rw [← therm]; rfl
  · rw [← therm]; rfl

/-! ### The return of a bay -/

/-- A tripped bay is back in service before the floor is watched (R499). -/
def State.reoffered (s : State) (bay : Nat) (temp : Int) : State := { s with
  mason := { s.mason with lostBays := s.mason.lostBays.filter fun b => b != bay }
  therm := { s.therm with
    tripped := tdel bay s.therm.tripped, temps := tset bay temp s.therm.temps, steps := tdel bay s.therm.steps } }

theorem execBayReoffer_reoffers {bay : Nat} {temp : Int} {since : Option Tick} {s : State}
    (h : tget bay s.therm.tripped = some since) (hc : temp < 95) (ht : since.getD s.now + 25000000 ≤ s.now) :
    exec (.bayReoffer bay temp true) s = .next ((s.reoffered bay temp).floorWatch.unfenceBay bay) := by
  show execBayReoffer bay temp true s = _
  simp only [execBayReoffer, h, Int.not_le.2 hc, ht, if_false, if_true, and_self]
  rfl

/-- Settles O25: each row under its conditions; the watch of the floor moves nothing but the time it has been cool. -/
theorem temperatureMovesStepsAndTrips : Obligations.TemperatureMovesStepsAndTrips := by
  unfold Obligations.TemperatureMovesStepsAndTrips
  refine ⟨?_, ?_, ?_, ?_⟩
  · intro bay temp s h
    obtain ⟨frame, temps, steps⟩ := floorCheck_frame (s.reported bay temp) bay
    obtain ⟨temp_eq, slower, faster, others⟩ := reported_bays s bay temp
    refine .of_exec (execThrottleStepChange_checks temp h) ?_
    simp only [State.stepOf, temps, steps]
    exact ⟨temp_eq, slower, faster, others, frame⟩
  · intro since s hf hb hc hs ht
    exact .of_exec (execThermalFloorExit_ends hf hb hc hs ht) rfl
  · intro bay temp s h ht
    refine .of_exec (execThermalTrip_trips h ht) ?_
    rw [floorWatch_frame]
    exact trippedOff_spec h
  · intro bay temp since s h hc ht
    refine .of_exec (execBayReoffer_reoffers h hc ht) ?_
    rw [floorWatch_frame]
    exact ⟨by simp [State.unfenceBay, State.settleExposed, State.reoffered], by simp [State.unfenceBay, State.settleExposed],
      by simp [State.unfenceBay, State.settleExposed], rfl, rfl⟩

end Sys2Proof.Machine
end

section
/-! SUPPORT. What a raise of every generation leaves of the thermal state and of trust (R402, R546). -/

namespace Sys2Proof.Machine

theorem endFirings_thermAndTrust (s : State) (w : WorkRef) : (s.endFirings w).thermAndTrust = s.thermAndTrust :=
  foldl_thermAndTrust State.dropFiring (fun _ _ => rfl) ..

theorem settleTurns_thermAndTrust (n : Nat) (s : State) : (State.settleTurns n s).thermAndTrust = s.thermAndTrust := by
  induction n generalizing s with
  | zero => rfl
  | succ n ih =>
    unfold State.settleTurns
    dsimp only
    split
    · rfl
    · exact (ih _).trans rfl

theorem finishUnload_thermAndTrust (s : State) (w : Waiting) : (s.finishUnload w).thermAndTrust = s.thermAndTrust := by
  unfold State.finishUnload
  split
  · dsimp only
    unfold State.done State.finish
    repeat' split
    all_goals rfl
  · rfl

theorem settleUnloads_thermAndTrust (s : State) : s.settleUnloads.thermAndTrust = s.thermAndTrust :=
  foldl_thermAndTrust State.finishUnload finishUnload_thermAndTrust s.host.waiting s

theorem retire_thermAndTrust (s : State) (seq : Nat) : (s.retire seq).thermAndTrust = s.thermAndTrust := by
  unfold State.retire
  split
  · rfl
  · split
    · rfl
    · dsimp only
      rw [settleUnloads_thermAndTrust]
      exact (settleTurns_thermAndTrust ..).trans (endFirings_thermAndTrust (s.updItem seq _) _)

theorem discardItem_thermAndTrust (s : State) (seq : Nat) : (s.discardItem seq).thermAndTrust = s.thermAndTrust := by
  unfold State.discardItem
  split
  · rfl
  · exact endFirings_thermAndTrust ..

theorem endAnswered_thermAndTrust (s : State) (seq : Nat) : (s.endAnswered seq).thermAndTrust = s.thermAndTrust :=
  (retire_thermAndTrust ..).trans (endFirings_thermAndTrust ..)

theorem discardRun_thermAndTrust (s : State) (num : Nat) : (s.discardRun num).thermAndTrust = s.thermAndTrust := by
  unfold State.discardRun
  split
  · rfl
  · exact endFirings_thermAndTrust ..

theorem hodRetire_thermAndTrust (s : State) (sl : Nat) : (s.hodRetire sl).thermAndTrust = s.thermAndTrust := by
  refine foldl_thermAndTrust _ (fun t e => ?_) _ s
  unfold State.hodRecord
  dsimp only
  split <;> rfl

theorem retireSlice_thermAndTrust (s : State) (sl : Nat) : (s.retireSlice sl).thermAndTrust = s.thermAndTrust := by
  unfold State.retireSlice
  dsimp only
  generalize hu : State.hodRetire _ sl = u
  have kept : u.thermAndTrust = s.thermAndTrust := by
    rw [← hu, hodRetire_thermAndTrust, foldl_thermAndTrust _ discardRun_thermAndTrust,
      foldl_thermAndTrust _ endAnswered_thermAndTrust, foldl_thermAndTrust _ discardItem_thermAndTrust]
  exact kept

theorem raiseAll_thermAndTrust (s : State) : s.raiseAll.thermAndTrust = s.thermAndTrust := by
  refine foldl_thermAndTrust _ (fun t n => ?_) _ s
  split
  · rfl
  · rw [State.thermAndTrust, State.updSlice_therm, State.updSlice_trust]
    exact retireSlice_thermAndTrust ..

theorem raiseAll_trust (s : State) : s.raiseAll.trust = s.trust := congrArg Prod.snd (raiseAll_thermAndTrust s)

theorem flushLedger_debug (s : State) : s.flushLedger.trust.debug = s.trust.debug := by
  unfold State.flushLedger
  dsimp only
  split
  · rfl
  · unfold State.useLeaf
    dsimp only
    split <;> rfl

end Sys2Proof.Machine
end

section
/-! Writes of objects that have passed the checks of R466 and R467 (R29, R195, R411, R481, R489, R510, R534, R546). -/

namespace Sys2Proof.Machine

/-! ### Numbers in octets -/

theorem beNat_append_singleton (l : List Byte) (b : Byte) : beNat (l ++ [b]) = beNat l * 256 + b.toNat := by
  simp [beNat]

/-- The octets of a number that fits them give it back. -/
theorem beNat_natBytes {k n : Nat} (h : n < 256 ^ k) : beNat (natBytes k n) = n := by
  induction k generalizing n with
  | zero => exact (Nat.lt_one_iff.1 h).symm
  | succ k ih =>
    have low : (BitVec.ofNat 8 n).toNat = n % 256 := BitVec.toNat_ofNat ..
    rw [natBytes, beNat_append_singleton, ih (Nat.div_lt_of_lt_mul (by rwa [Nat.pow_succ'] at h)), low]
    exact Nat.div_add_mod' n 256

/-! ### The rows of `State.applyWrite` -/

section
variable (canfd : Bool) (view : Option Nat) (sl : Nat) (d : ObjDef) (p : List Nat) (s : State)

/-- A write to the index of a slice (R411). -/
theorem applyWrite_slice {n : Nat} (h : n < 1024) (sub : Nat) (v : List Byte) :
    s.applyWrite canfd .device view sl d ⟨0x4000 + n, sub, p⟩ v = s.writeSlice n sub v := by
  unfold State.applyWrite
  dsimp only
  split
  case h_15 => rw [if_pos (by omega), Nat.add_sub_cancel_left]
  all_goals omega

theorem applyWrite_pin {id : Nat} (hid : id < 2 ^ 24) (h : ∃ x ∈ s.tables, x.slice = sl ∧ x.id = id) :
    s.applyWrite canfd .device view sl d ⟨0x3800, 3, p⟩ (natBytes 3 id ++ natBytes 1 1) = .ok (s.pinTable sl id true) := by
  have named : beNat ((natBytes 3 id ++ natBytes 1 1).take 3) = id := by
    rw [List.take_left' (natBytes_length ..), beNat_natBytes hid]
  have on : beNat (slice (natBytes 3 id ++ natBytes 1 1) 3 1) = 1 := by
    rw [slice, List.drop_left' (natBytes_length ..)]
    rfl
  have held : (s.tables.any fun t => t.slice == sl && t.id == id) = true := by simpa using h
  have four : (natBytes 3 id ++ natBytes 1 1).length = 4 := by rw [List.length_append, natBytes_length, natBytes_length]
  simp only [State.applyWrite, State.writePin, named, on, held, four]
  rfl

theorem applyWrite_leave {node : Nat} (hn : node < 64) (h : (s.group.memberAt node).isSome = true) :
    s.applyWrite canfd .device view sl d ⟨0x2002, 7, p⟩ (natBytes 1 node) = .ok (s.memberLeave node) := by
  simp only [State.applyWrite, beNat_natBytes (show node < 256 ^ 1 by omega), h, if_true]

theorem applyWrite_svn {v : Nat} (hv : v < 256) (hr : v = s.trust.run.svn) (hc : s.trust.counter ≤ v) :
    s.applyWrite canfd .device view sl d ⟨0x7000, 5, p⟩ (natBytes 1 v) =
      .ok { s with trust := { s.trust with mramSvn := v, otpSvn := v } } := by
  simp only [State.applyWrite, State.commitSvn, beNat_natBytes (show v < 256 ^ 1 from hv)]
  rw [if_neg (Nat.not_lt.2 hc), if_neg (Decidable.not_not.2 hr)]

theorem applyWrite_bind {pid : Nat} (hp : pid < 2 ^ 32) (h : s.bindCheck pid 0 2 = 0) (hc : canfd = true) :
    s.applyWrite canfd .device view sl d ⟨0x1104, 1, p⟩ (natBytes 4 pid) =
      .ok { s with bindings := s.bindings ++ [⟨pid, 0, 2⟩] } := by
  simp [State.applyWrite, State.writeBind, State.bindPid, beNat_natBytes (show pid < 256 ^ 4 from hp), h, hc]

theorem applyWrite_epoch {v : Nat} (hv : v < 2 ^ 64) (h : s.time.ppsState ≠ 0) :
    s.applyWrite canfd .device view sl d ⟨0x3000, 4, p⟩ (natBytes 8 v) =
      .ok { s.setObj 0x3000 4 [] 0 (.num v) with time := { s.time with epochArmed := true } } := by
  simp [State.applyWrite, State.writeEpoch, beNat_natBytes (show v < 256 ^ 8 from hv), h]

theorem applyWrite_store (h : s.stored.status ≠ 1) :
    s.applyWrite canfd .device view sl d ⟨0x1010, 1, p⟩ (natBytes 2 0x7365) = .ok s.startStore := by
  simp [State.applyWrite, State.writeStore, beNat_natBytes, h]

theorem applyWrite_restore (h : s.stored.status ≠ 1) :
    s.applyWrite canfd .device view sl d ⟨0x1011, 1, p⟩ (natBytes 2 0x6C64) =
      .ok { s with stored := { s.stored.commit s.stored.defaults with restoreStatus := 2 } } := by
  simp [State.applyWrite, State.writeStore, beNat_natBytes, h]

theorem applyWrite_stage {v : List Byte} (hl : 5 ≤ v.length) (hb : beNat (slice v 4 1) ≤ 1)
    (h : (s.trust.stage 2 (beNat (v.take 4)) (beNat (slice v 4 1) == 1) (v.drop 5)).2 = 0) :
    s.applyWrite canfd .device view sl d ⟨0x7010, 2, p⟩ v =
      .ok { s with trust := (s.trust.stage 2 (beNat (v.take 4)) (beNat (slice v 4 1) == 1) (v.drop 5)).1 } := by
  simp only [State.applyWrite, State.stageData]
  rw [if_neg (by omega), if_pos h]

/-! ### Keys (R489, R542) -/

/-- While the key store is not gated off, a delivery is opened or its code is the answer. -/
theorem writeKey_of_not_gated (hg : s.trust.gated = false) (kind target len : Nat) (v : List Byte) :
    s.writeKey kind target len v = (s.openDelivery kind target len v).mapError fun c => (c, 0x05) := by
  rw [State.writeKey, if_neg (by simp [hg])]
  cases s.openDelivery kind target len v <;> rfl

/-! ### Allotments and contexts of a slice (R411) -/

theorem writeSlice_allot {n sub : Nat} {v : List Byte} {t : State} (lo : 4 ≤ sub) (hi : sub ≤ 18)
    (h : s.writeAllot n sub (beNat v) = .ok t) : s.writeSlice n sub v = .ok t := by
  rw [State.writeSlice, if_neg (by omega), if_neg (by omega), if_neg (by omega), if_neg (by omega), h]

theorem writeSlice_overflow {n c : Nat} (hc : c < 65536) (h : ∃ x ∈ s.ctxs, x.num = c ∧ x.slice = n) :
    s.writeSlice n 25 (natBytes 2 c) = .ok (s.updCtx c fun x => { x with overflow := false }) := by
  have held : (s.ctxs.any fun x => x.num == c && x.slice == n) = true := by simpa using h
  simp only [State.writeSlice, State.clearOverflow, beNat_natBytes (show c < 256 ^ 2 from hc), held, if_true]
  rfl

/-! ### The debug token (R546) -/

/-- A token that opens debug starts the scrub when no G or D context is loaded. -/
theorem tryUnlock_opens {v : List Byte} (hc : ∀ c ∈ s.ctxs, c.image.cls = 2) (h : s.tokenOk v = true) :
    (s.tryUnlock v).2 = 0 ∧ (s.tryUnlock v).1.trust.debug = 1 := by
  have runOnly : ¬ (s.ctxs.any fun c => c.image.cls != 2) = true := by simpa using hc
  rw [State.tryUnlock, if_neg (by simp [h]), if_neg runOnly]
  refine ⟨rfl, ?_⟩
  rw [raiseAll_trust, flushLedger_debug]

theorem applyWrite_unlock (v : List Byte) : s.applyWrite canfd .device view sl d ⟨0x7020, 3, p⟩ v =
    if (s.tryUnlock v).2 = 0 then .ok (s.tryUnlock v).1 else .error ((s.tryUnlock v).2, 0x05) := by
  simp only [State.applyWrite]

/-! ### Rings (R510) -/

theorem applyWrite_ring {n : Nat} (hn : n < 256) (sub : Nat) :
    s.applyWrite canfd .device none sl d ⟨0x5100, sub, p⟩ (natBytes 1 n) = .ok (s.writeRing 0 sub n) := by
  simp only [State.applyWrite, beNat_natBytes (show n < 256 ^ 1 from hn)]
  rfl

theorem writeRing_ringOf_self (n sub v : Nat) : (s.writeRing n sub v).ringOf n = (s.ringOf n).write sub v := tgetD_tset_self ..

theorem writeRing_ringOf_ne {n r : Nat} (h : r ≠ n) (sub v : Nat) : (s.writeRing n sub v).ringOf r = s.ringOf r :=
  tgetD_tset_ne h ..

end

/-- Settles O52: each object's row of `State.applyWrite` under its conditions. -/
theorem objectWritesTakeEffect : Obligations.ObjectWritesTakeEffect := by
  unfold Obligations.ObjectWritesTakeEffect
  intro canfd view sl d p s
  refine ⟨?_, ?_, ?_, ?_, ?_, ?_, ?_, ?_, ?_, ?_, ?_, ?_, ?_, ?_, ?_⟩
  · exact fun id hid h => applyWrite_pin canfd view sl d p s hid h
  · exact fun node hn h => applyWrite_leave canfd view sl d p s hn h
  · exact fun v hv hr hc => applyWrite_svn canfd view sl d p s hv hr hc
  · intro n v hn pos present hg
    rw [applyWrite_slice canfd view sl d p s hn, State.writeSlice, if_pos rfl, if_neg (by simp [Nat.ne_of_gt pos, present]),
      writeKey_of_not_gated s hg]
    cases s.openDelivery 1 n 32 v <;> rfl
  · intro v hg
    simp only [State.applyWrite, writeKey_of_not_gated s hg]
    cases s.openDelivery 2 0 48 v <;> rfl
  · intro v hg
    simp only [State.applyWrite, writeKey_of_not_gated s hg]
    cases s.openDelivery 3 0 48 v <;> rfl
  · exact fun pid hp h hc => applyWrite_bind canfd view sl d p s hp h hc
  · intro v hv h
    refine ⟨_, applyWrite_epoch canfd view sl d p s hv h, ?_, rfl, rfl⟩
    simp only [State.objNum, State.setObj_objs, tget_tset_self]
    rfl
  · intro n sub v hn lo hi t h
    rw [applyWrite_slice canfd view sl d p s hn]
    exact writeSlice_allot s lo hi h
  · intro n c hn hc h
    rw [applyWrite_slice canfd view sl d p s hn]
    exact writeSlice_overflow s hc h
  · exact fun h => applyWrite_store canfd view sl d p s h
  · exact fun h => applyWrite_restore canfd view sl d p s h
  · exact fun v hl hb h => applyWrite_stage canfd view sl d p s hl hb h
  · intro v hc
    rw [applyWrite_unlock]
    refine ⟨fun good => ?_, fun bad => ?_⟩
    · obtain ⟨zero, debug⟩ := tryUnlock_opens s hc good
      exact ⟨_, if_pos zero, debug⟩
    · have refused : (s.tryUnlock v).2 = 0x0A0C := by simp [State.tryUnlock, bad]
      exact ⟨_, if_neg (by simp [refused])⟩
  · intro sub n hn _
    refine ⟨_, applyWrite_ring canfd sl d p s hn sub, ?_, ?_, ?_, fun r hr => writeRing_ringOf_ne s hr .., rfl⟩
    · rintro rfl
      rw [writeRing_ringOf_self]
      rfl
    · rintro rfl rfl
      rw [writeRing_ringOf_self]
      exact ⟨rfl, rfl⟩
    · rintro rfl rfl
      rw [writeRing_ringOf_self]
      rfl

end Sys2Proof.Machine
end

section
/-! Rails, RESET_N and the steps of power-up (R28, R524-R527, R544, R552-R557). -/

namespace Sys2Proof.Machine

/-! ### VAUX -/

/-- What a loss of power leaves of the marks: they stand, or one that is due was written, whole or cut off (R28). -/
theorem cut_cases (t : TimeSt) (free : Nat) :
    t.cut free = t ∨ t.markDue = true ∧ (t.cut free = t.mark true ∨ t.cut free = t.mark false) := by
  unfold TimeSt.cut
  split
  · exact .inl rfl
  · rename_i begun
    have due : t.markDue = true := by simpa using (not_or.1 begun).1
    cases free % 3 == 1
    · exact .inr ⟨due, .inr rfl⟩
    · exact .inr ⟨due, .inl rfl⟩

theorem powerLost_count (s : State) : s.powerLost.time.count =
    if s.power.saveSet.isSome then s.time.heldTick + 1 else (s.time.cut (Config.freeValue s.free)).resume := by
  unfold State.powerLost
  dsimp only
  split <;> split <;> rfl

theorem execVauxValid_starts {s : State} (h : ∀ v, s.power.save = some v → v.written = true ∧ v.supply = true)
    (node medium : Nat) (testEn : Bool) : exec (.vauxValid node medium testEn) s = .next { s.powerLost with
      power := { s.powerLost.power with
        railEn := 1, canStrap := node % 128, mediumStrap := medium % 256, testEn := testEn } } := by
  have ended : ¬ (s.power.save.any fun v => !v.written || !v.supply) = true := by
    rw [Option.any_eq_true]
    rintro ⟨v, hv, running⟩
    obtain ⟨written, supply⟩ := h v hv
    simp [written, supply] at running
  exact congrArg Host.Outcome.next (if_neg ended)

/-! ### Rails -/

theorem execPgoodRise_enables {k : Nat} {s : State} (hk : k < 4) (hw : s.power.railWait ≠ some k)
    (he : s.power.railEn.testBit k = true) (hp : s.power.pgood = 2 ^ k - 1) :
    exec (.pgoodRise k) s = .next { s with power := { s.power with
      pgood := 2 ^ (k + 1) - 1, railAt := s.now, railEn := if k < 3 then 2 ^ (k + 2) - 1 else s.power.railEn } } := by
  show execPgoodRise k s = _
  simp only [execPgoodRise]
  rw [if_neg hw, if_neg (by simp [he, hp, Nat.not_le.2 hk])]

theorem execPgoodRise_restarts {k : Nat} {s : State} (h : s.power.railWait = some k) :
    exec (.pgoodRise k) s = .next s.fromT0 :=
  congrArg Host.Outcome.next (if_pos h)

theorem execPgoodTimeout_releases {k : Nat} {s : State} (hk : k < 4) (he : s.power.railEn.testBit k = true)
    (hp : s.power.pgood = 2 ^ k - 1) (ht : s.power.railAt + 50000 ≤ s.now) :
    exec (.pgoodTimeout k) s = .next { (s.record 1 1 0 (0x100 + Config.freeValue s.free % 0xB00) 0).advanceFree with
      power := { s.power with railEn := 0, pgood := 0, railRetry := some s.now } } := by
  show execPgoodTimeout k s = _
  simp only [execPgoodTimeout]
  rw [if_neg (by simp [he, hp, Nat.not_le.2 hk, Nat.not_lt.2 ht])]
  rfl

theorem execRailSequenceRetry_restarts {a : Tick} {s : State} (h : s.power.railRetry = some a) (ht : a + 25000000 ≤ s.now) :
    exec .railSequenceRetry s = .next { s with power := { s.power with
      railRetry := none, railEn := 1, pgood := 0, railAt := s.now } } := by
  show execRailSequenceRetry s = _
  simp only [execRailSequenceRetry, h]
  rw [if_neg (show ¬ s.now < a + second from Nat.not_lt.2 ht)]

theorem execPgoodFall_falls {k : Nat} {s : State} (hs : s.power.save = none) (he : s.power.railEn.testBit k = true)
    (hp : s.power.pgood.testBit k = true) : exec (.pgoodFall k) s = .next (if s.power.ready then s.sag .coreRail else
      { s with power := { s.power with step := 0, railEn := 0, pgood := 0, railWait := some k } }) :=
  congrArg Host.Outcome.next (if_neg (by simp [hs, he, hp]))

theorem execResetN_of_ready {s : State} (h : s.power.ready = true) : exec .resetN s = .next s :=
  congrArg Host.Outcome.next (if_pos (.inl h))

theorem execResetN_restarts {s : State} (hr : s.power.ready = false) (hs : s.power.save = none)
    (h : s.power.railEn ≠ 0 ∨ s.power.railRetry ≠ none ∨ s.power.railWait ≠ none) :
    exec .resetN s = .next s.fromT0 := by
  refine congrArg Host.Outcome.next (if_neg ?_)
  rintro (ready | save | ⟨en, retry, wait⟩)
  · rw [hr] at ready
    cases ready
  · rw [hs] at save
    cases save
  · obtain h | h | h := h
    · exact h en
    · exact h (Option.isNone_iff_eq_none.1 retry)
    · exact h (Option.isNone_iff_eq_none.1 wait)

/-! ### The steps of power-up -/

theorem plinthUp_ready (s : State) (obs : StepObs) : (s.plinthUp obs).power.ready = s.power.ready := by
  unfold State.plinthUp
  dsimp only
  split
  · split <;> rfl
  · rfl

theorem romBoot_ready {s u : State} (h : s.romBoot = some u) : u.power.ready = s.power.ready := by
  unfold State.romBoot at h
  dsimp only at h
  split at h
  · cases h
  · obtain ⟨r, -, rfl⟩ := Option.map_eq_some_iff.1 h
    rfl

theorem dramUp_ready (s : State) (obs : StepObs) : (s.dramUp obs).power.ready = s.power.ready := by
  unfold State.dramUp
  split <;> rfl

theorem nandUp_ready (s : State) (obs : StepObs) : (s.nandUp obs).power.ready = s.power.ready := by
  unfold State.nandUp
  dsimp only
  repeat' split
  all_goals rfl

/-- READY comes at the last step, and no other step touches it (R527). -/
theorem powerStep_ready {s u : State} {obs : StepObs} (h : s.powerStep obs = some u) :
    u.power.ready = if s.power.step = 8 then true else s.power.ready := by
  unfold State.powerStep at h
  split at h
  case h_10 => cases h
  all_goals rename_i step; rw [step]
  case h_1 => cases h; exact plinthUp_ready ..
  case h_2 => exact romBoot_ready h
  case h_3 =>
    split at h
    · cases h; rfl
    · cases h
  case h_4 => cases h; rfl
  case h_5 => cases h; exact dramUp_ready ..
  case h_6 => cases h; exact nandUp_ready ..
  case h_7 => cases h; rfl
  case h_8 => cases h; rfl
  case h_9 => cases h; rfl

theorem execPowerUpStepDone_steps {obs : StepObs} {s u : State} (hr : s.power.ready = false) (hs : s.power.save = none)
    (he : s.power.railEn ≠ 0) (hu : s.powerStep obs = some u) :
    exec (.powerUpStepDone obs) s = .next { u with power := { u.power with step := s.power.step + 1 } } := by
  show execPowerUpStepDone obs s = _
  rw [execPowerUpStepDone, if_neg (by simp [hr, hs, he]), hu]

theorem execStandbyPairReady_stands {s : State} (hq : s.quoin.standby = false) (hs : 3 ≤ s.power.step)
    (hf : 1 - s.quoin.active ∉ s.quoin.fenced) : exec .standbyPairReady s = .next { s with
      quoin := { s.quoin with standby := true }
      err := { s.err with exposed := withoutBits s.err.exposed (2 ^ 11) } } :=
  congrArg Host.Outcome.next (if_neg (by simp [hq, hf, Nat.not_lt.2 hs]))

/-- Settles O56: each row under its conditions; the loss of power finds the marks as `TimeSt.cut` leaves them. -/
theorem railsAndPowerUpSequence : Obligations.RailsAndPowerUpSequence := by
  unfold Obligations.RailsAndPowerUpSequence
  refine ⟨?_, ?_, ?_, ?_, ?_, ?_, ?_, ?_, ?_⟩
  · intro node medium testEn s h
    have count := powerLost_count s
    refine .of_exec (execVauxValid_starts h node medium testEn) ⟨rfl, rfl, rfl, rfl, rfl, rfl, rfl, rfl, rfl,
      fun saved => count.trans (if_pos saved), fun unsaved => ⟨_, count.trans (if_neg (by simp [unsaved])), cut_cases ..⟩,
      rfl, rfl, rfl, rfl⟩
  · intro k s hk hw he hp
    exact ⟨.of_exec (execPgoodRise_enables hk hw he hp) rfl, fun ht =>
      .of_exec (execPgoodTimeout_releases hk he hp ht) ⟨rfl, rfl⟩⟩
  · exact fun k s h => .of_exec (execPgoodRise_restarts h) rfl
  · exact fun a s h ht => .of_exec (execRailSequenceRetry_restarts h ht) rfl
  · intro k s hs he hp
    refine .of_exec (execPgoodFall_falls hs he hp) ⟨fun down => if_neg (by simp [down]), fun up => if_pos up⟩
  · exact fun s h => .of_exec (execResetN_of_ready h) rfl
  · exact fun s hr hs h => .of_exec (execResetN_restarts hr hs h) rfl
  · intro obs s u hr hs he hu
    refine .of_exec (execPowerUpStepDone_steps hr hs he hu) ⟨rfl, ?_⟩
    show u.power.ready = true ↔ _
    rw [powerStep_ready hu, hr]
    simp
  · intro s hq hs hf
    exact .of_exec (execStandbyPairReady_stands hq hs hf) ⟨rfl, testBit_withoutBits_two_pow .., rfl⟩

end Sys2Proof.Machine
end

section
/-! Stores to the memory (R58, R280, R302): bytes, pairs and courses read back, what a store leaves of the other courses, and
the copies in both frames of a bound pair. -/

namespace Sys2Proof.Machine

/-! ### Bytes and pairs (R56, R58) -/

/-- Bytes written read back. -/
theorem Memory.get_putBytes (a : Nat) {bs : List Byte} {i : Nat} (hi : i < bs.length) {m : Memory} (h : Memory.wf m = true) :
    Memory.get (a + i) (Memory.putBytes a bs m) = bs[i] := by
  induction bs generalizing a i m with
  | nil => cases hi
  | cons b t ih =>
    rw [Memory.putBytes]
    cases i with
    | zero => exact (Memory.get_putBytes_of_out (by omega) _).trans (Memory.get_put_self a b h)
    | succ i =>
      rw [show a + (i + 1) = a + 1 + i by omega]
      exact ih (a + 1) (Nat.lt_of_succ_lt_succ hi) (Memory.put_wf a b h)

/-- A course is read from the three bytes of its pair alone. -/
theorem Memory.course_congr {m m' : Memory} {x : Nat}
    (h : ∀ c, x / 2 * 3 ≤ c → c < x / 2 * 3 + 3 → Memory.get c m = Memory.get c m') : Memory.course m x = Memory.course m' x := by
  simp only [Memory.course, h (x / 2 * 3) (by omega) (by omega), h (x / 2 * 3 + 1) (by omega) (by omega),
    h (x / 2 * 3 + 2) (by omega) (by omega)]

/-- The courses of a pair from its three bytes (R56). -/
theorem pairBytes_courses (c0 c1 : Course) : ∃ b0 b1 b2, pairBytes c0 c1 = [b0, b1, b2] ∧
    BitVec.ofNat 12 (b0.toNat * 16 + b1.toNat / 16) = c0 ∧ BitVec.ofNat 12 (b1.toNat % 16 * 256 + b2.toNat) = c1 := by
  refine ⟨_, _, _, rfl, BitVec.eq_of_toNat_eq ?_, BitVec.eq_of_toNat_eq ?_⟩ <;> simp only [BitVec.toNat_ofNat] <;> omega

/-- A pair written reads back: its even course first, then its odd one. -/
theorem Memory.course_putPair {ca x : Nat} (hx : x / 2 = ca / 2) (c0 c1 : Course) {m : Memory} (h : Memory.wf m = true) :
    Memory.course (Memory.putPair ca c0 c1 m) x = if x % 2 = 0 then c0 else c1 := by
  obtain ⟨b0, b1, b2, bytes, even, odd⟩ := pairBytes_courses c0 c1
  have byte : ∀ i (hi : i < 3), Memory.get (ca / 2 * 3 + i) (Memory.putPair ca c0 c1 m) = [b0, b1, b2][i] := by
    rw [Memory.putPair, bytes]
    exact fun _ hi => Memory.get_putBytes _ hi h
  have byte0 : Memory.get (ca / 2 * 3) (Memory.putPair ca c0 c1 m) = b0 := byte 0 (by decide)
  rw [Memory.course, hx, byte0, byte 1 (by decide), byte 2 (by decide)]
  exact congr (congrArg (ite _) even) odd

/-- Writing a pair leaves the courses of every other pair alone. -/
theorem Memory.course_putPair_of_ne {ca x : Nat} (hx : x / 2 ≠ ca / 2) (c0 c1 : Course) (m : Memory) :
    Memory.course (Memory.putPair ca c0 c1 m) x = Memory.course m x :=
  Memory.course_congr fun _ _ _ => Memory.get_putBytes_of_out (by rw [pairBytes_length]; omega) m

/-! ### Courses (R58, R280) -/

/-- A course written reads back, and every other course, the other one of its pair too, reads as before. -/
theorem Memory.course_putCourse (ca x : Nat) (c : Course) {m : Memory} (h : Memory.wf m = true) :
    Memory.course (Memory.putCourse ca c m) x = if x = ca then c else Memory.course m x := by
  unfold Memory.putCourse
  by_cases hp : x / 2 = ca / 2
  · split
    · rw [Memory.course_putPair hp _ _ h]
      split
      · rw [if_pos (by omega)]
      · rw [if_neg (by omega), show x = ca + 1 by omega]
    · rw [Memory.course_putPair (by omega) _ _ h]
      split
      · rw [if_neg (by omega), show x = ca - 1 by omega]
      · rw [if_pos (by omega)]
  · rw [if_neg fun e => hp (congrArg (· / 2) e)]
    split
    · exact Memory.course_putPair_of_ne hp ..
    · exact Memory.course_putPair_of_ne (by omega) ..

/-- Writing courses leaves every course before and after them alone. -/
theorem Memory.course_putCourses_of_out {ca x : Nat} {cs : List Course} (hx : x < ca ∨ ca + cs.length ≤ x) {m : Memory}
    (h : Memory.wf m = true) : Memory.course (Memory.putCourses ca cs m) x = Memory.course m x := by
  induction cs generalizing ca m with
  | nil => rfl
  | cons c t ih =>
    rw [List.length_cons] at hx
    rw [Memory.putCourses, ih (by omega) (Memory.putCourse_wf ca c h), Memory.course_putCourse ca x c h, if_neg (by omega)]

/-- Each of the courses written reads back. -/
theorem Memory.course_putCourses (ca : Nat) {cs : List Course} {i : Nat} (hi : i < cs.length) {m : Memory}
    (h : Memory.wf m = true) : Memory.course (Memory.putCourses ca cs m) (ca + i) = cs[i] := by
  induction cs generalizing ca i m with
  | nil => cases hi
  | cons c t ih =>
    have hw := Memory.putCourse_wf ca c h
    rw [Memory.putCourses]
    cases i with
    | zero =>
      rw [Memory.course_putCourses_of_out (by omega) hw, Memory.course_putCourse _ _ _ h]
      exact if_pos rfl
    | succ i =>
      rw [show ca + (i + 1) = ca + 1 + i by omega]
      exact ih (ca + 1) (Nat.lt_of_succ_lt_succ hi) hw

theorem Memory.courses_putCourses (ca : Nat) (cs : List Course) {m : Memory} (h : Memory.wf m = true) :
    Memory.courses (Memory.putCourses ca cs m) ca cs.length = cs :=
  List.ext_getElem (by simp [Memory.courses]) fun i _ hi => by
    simpa [Memory.courses] using Memory.course_putCourses ca hi h

/-- Courses written beside a sequence of courses leave it alone. -/
theorem Memory.courses_putCourses_of_apart {ca a n : Nat} {cs : List Course} (ha : a + n ≤ ca ∨ ca + cs.length ≤ a) {m : Memory}
    (h : Memory.wf m = true) : Memory.courses (Memory.putCourses ca cs m) a n = Memory.courses m a n :=
  List.map_congr_left fun i hi => by
    have := List.mem_range.1 hi
    exact Memory.course_putCourses_of_out (by omega) h

/-! ### Copies (R302) -/

/-- The same courses written at each address of a list. -/
def Memory.putCopies (cs : List Course) (as : List Nat) (m : Memory) : Memory :=
  as.foldl (fun m a => Memory.putCourses a cs m) m

theorem Memory.putCopies_cons (cs : List Course) (a : Nat) (as : List Nat) (m : Memory) :
    Memory.putCopies cs (a :: as) m = Memory.putCopies cs as (Memory.putCourses a cs m) := rfl

theorem Memory.get_putCopies_of_out {cs : List Course} {as : List Nat} {c : Nat}
    (h : ∀ a ∈ as, c < a / 2 * 3 ∨ (a + cs.length + 1) / 2 * 3 ≤ c) (m : Memory) :
    Memory.get c (Memory.putCopies cs as m) = Memory.get c m := by
  induction as generalizing m with
  | nil => rfl
  | cons a t ih =>
    obtain ⟨ha, ht⟩ := List.forall_mem_cons.1 h
    rw [Memory.putCopies_cons, ih ht, Memory.get_putCourses_of_out ha]

/-- An address that holds the courses, or is to hold them, holds them in the end: every other copy is apart from it. -/
theorem Memory.courses_putCopies {cs : List Course} {as : List Nat} {a : Nat}
    (apart : ∀ b ∈ as, b = a ∨ a + cs.length ≤ b ∨ b + cs.length ≤ a) {m : Memory} (h : Memory.wf m = true)
    (ha : a ∈ as ∨ Memory.courses m a cs.length = cs) :
    Memory.courses (Memory.putCopies cs as m) a cs.length = cs := by
  induction as generalizing m with
  | nil => exact ha.resolve_left List.not_mem_nil
  | cons b t ih =>
    obtain ⟨hb, ht⟩ := List.forall_mem_cons.1 apart
    refine ih ht (Memory.putCourses_wf b cs h) ?_
    by_cases e : b = a
    · exact .inr (e ▸ Memory.courses_putCourses b cs h)
    · rw [Memory.courses_putCourses_of_apart (hb.resolve_left e) h]
      exact ha.imp_left fun ha => (List.mem_cons.1 ha).resolve_left (Ne.symm e)

/-- The addresses a store writes: its own, and those in the frames bound to its frame (R302). -/
def State.copiesOf (s : State) (la : Nat) : List Nat := la :: (s.partners (la / 4096)).map fun f => f * 4096 + la % 4096

theorem State.memStore_mem (s : State) (ca : Nat) (cs : List Course) :
    (s.memStore ca cs).mem = Memory.putCopies cs (s.copiesOf (caLocal ca)) s.mem := by
  rw [State.copiesOf, Memory.putCopies_cons, Memory.putCopies, List.foldl_map]
  rfl

/-- Every copy lies at the same place of its frame. -/
theorem State.mem_copiesOf {s : State} {la a : Nat} (h : a ∈ s.copiesOf la) : ∃ f, a = f * 4096 + la % 4096 := by
  rcases List.mem_cons.1 h with rfl | h
  · exact ⟨a / 4096, by omega⟩
  · obtain ⟨f, -, rfl⟩ := List.mem_map.1 h
    exact ⟨f, rfl⟩

/-- Two copies that stay within their frames are at one address or apart. -/
theorem State.copiesOf_apart {s : State} {la n a b : Nat} (hn : la % 4096 + n ≤ 4096) (ha : a ∈ s.copiesOf la)
    (hb : b ∈ s.copiesOf la) : b = a ∨ a + n ≤ b ∨ b + n ≤ a := by
  obtain ⟨f, rfl⟩ := State.mem_copiesOf ha
  obtain ⟨g, rfl⟩ := State.mem_copiesOf hb
  omega

/-- Settles O60: a store writes the courses at its address and at its copies, which lie in frames of their own. -/
theorem memoryStoresReadBack : Obligations.MemoryStoresReadBack := by
  unfold Obligations.MemoryStoresReadBack
  intro ca cs s h hn
  refine ⟨State.memStore_wf ca cs h, fun a ha => ?_, fun c hc => ?_, rfl⟩
  · rw [State.memStore_mem]
    exact Memory.courses_putCopies (fun b hb => State.copiesOf_apart hn ha hb) h (.inl ha)
  · rw [State.memStore_mem]
    exact Memory.get_putCopies_of_out hc _

end Sys2Proof.Machine
end

section
/-! Contexts, tables and runs (R83, R106, R116, R462): a load that is refused under a retired generation. Its completion is
discarded (R402), so that nothing tells the group of the refusal (R84), and the load goes on to the other members; O47 gives
every refused load that starts the state that its completion alone leaves. -/

namespace Sys2Proof.Machine

/-- A command of a retired generation completes with nothing (R402, R450). -/
theorem finish_of_retired {s : State} {sl : Nat} {h : CmdHdr} (hg : h.gen ≠ s.genOf sl) (status detail : Nat)
    (result : List Byte) : s.finish sl h status detail result = s := if_neg hg

/-- A command of this device's host that leaves no completion goes on to the other members, and waits for them (R84). -/
theorem fanOut_fans_of_silent {s t : State} {i : Instr} {h : CmdHdr} {op : Nat} {b : Binding}
    (others : s.others.isEmpty = false) (ho : groupOp i op = true) (own : tgetD (b.slice, h.qid, h.cid) 0 s.host.cmdPort < 64)
    (silent : t.host.completions = s.host.completions) : (State.fanOut s i h op b t).group.fans =
      t.group.fans ++ [⟨b.slice, h.qid, h.cid, s.others, none, false⟩] := by
  have none_failed : (t.host.completions.drop s.host.completions.length).any (fun c =>
      c.slice == b.slice && c.qid == h.qid && c.cid == h.cid && c.status != 0) = false := by
    rw [silent, List.drop_length, List.any_nil]
  unfold State.fanOut
  dsimp only
  rw [none_failed, if_neg (by simp [others, ho, own])]
  rfl

/-- The header of a load from generation 0 of the slice that the process 2 is bound to. -/
def retiredLoad : CmdHdr := { fence := false, pid := 2, gen := 0, cid := 5, qid := 0, descs := [] }

/-- A device in a group with member 1, whose slice 1 is at generation 1. -/
def loadStarted : State := { State.reset with
  slices := [(1, { sliceZero with gen := 1 })]
  group := { State.reset.group with grouped := true, members := [⟨1, [], 1, 128, true, []⟩] } }

/-- The same device with the load accepted. -/
def loadAccepted : State := { loadStarted with host := { loadStarted.host with accepted := [⟨2, 0, 1, 0, 5, 0x0020, 0, none⟩] } }

/-- An accepted command is not checked again, its generation neither (R448). -/
theorem loadAccepted_starts : Starts loadAccepted retiredLoad 0x0020 tenantRole loadStarted ⟨2, 1, 0⟩ := rfl

/-- The image with no course fails the first check of R106. -/
theorem loadStarted_loadImage_nil : loadStarted.loadImage 1 [] = .error (0x0301, 0) := rfl

/-- The load is refused with no completion, and is sent on as one that has not failed. -/
theorem loadAccepted_answers : exec (.pipelineLoad retiredLoad []) loadAccepted = .next
    (State.fanOut loadStarted (.pipelineLoad retiredLoad []) retiredLoad 0x0020 ⟨2, 1, 0⟩ loadStarted.verdictSpent) := by
  show execPipelineLoad retiredLoad [] loadAccepted = _
  rw [execPipelineLoad, managed_of_starts _ rfl loadAccepted_starts rfl]
  dsimp only
  rw [loadStarted_loadImage_nil]
  dsimp only
  rw [finish_of_retired (by decide)]

/-- Refutes O47, whose first clause gives a refused load the state that its completion leaves: a load of the retired
generation 0, accepted before, is refused with no completion, and it goes on to member 1. -/
theorem not_contextAndTableCommandsComplete : ¬ Obligations.ContextAndTableCommandsComplete := by
  unfold Obligations.ContextAndTableCommandsComplete
  rintro ⟨load, -⟩
  obtain ⟨t, ht, -, refused⟩ := load retiredLoad [] loadAccepted loadStarted ⟨2, 1, 0⟩ rfl loadAccepted_starts
  have alone : t = loadStarted.verdictSpent :=
    (refused 0x0301 0 (by decide) loadStarted_loadImage_nil).trans (finish_of_retired (by decide) ..)
  have sent := Host.Outcome.next.inj (loadAccepted_answers.symm.trans ht)
  have waits := fanOut_fans_of_silent (s := loadStarted) (t := loadStarted.verdictSpent) (i := .pipelineLoad retiredLoad [])
    (h := retiredLoad) (op := 0x0020) (b := ⟨2, 1, 0⟩) rfl rfl (by decide) rfl
  rw [sent, alone] at waits
  exact absurd waits (by simp)

end Sys2Proof.Machine
end

section
/-! How an operator fires: what it finds, what it is charged, what it sends (R115, R121, R149). -/

namespace Sys2Proof.Machine

theorem isRun_of_opEnv_item {s : State} {q op code : Nat} {e : OpEnv} (h : s.opEnv (.item q) op code = some e) :
    e.isRun = false := by
  simp only [State.opEnv, Option.bind_eq_bind, Option.bind_eq_some_iff, Option.ite_none_right_eq_some, Option.pure_def] at h
  obtain ⟨i, -, -, c, -, o, -, -, he⟩ := h
  cases he
  rfl

theorem isRun_of_opEnv_run {s : State} {n op code : Nat} {e : OpEnv} (h : s.opEnv (.run n) op code = some e) :
    e.isRun = true := by
  simp only [State.opEnv, Option.bind_eq_bind, Option.bind_eq_some_iff, Option.ite_none_right_eq_some, Option.pure_def] at h
  obtain ⟨r, -, -, c, -, o, -, -, he⟩ := h
  cases he
  rfl

/-- A firing whose charges are taken sends what its work comes to. -/
theorem fire_sends {s s1 s2 : State} {w : WorkRef} {op code : Nat} {stream always : Bool} {e : OpEnv} {ts : List Token}
    {outs : List (Nat × Token)} {cost : OpEnv → List Token → List (Nat × Nat)} {body : State → OpEnv → List Token → Fired}
    (h : Claims.Fires s w op code stream always e ts (cost e ts) s1) (work : body s1 e ts = .ok (s2, outs)) :
    s.fire w op code stream always cost body = Claims.sends s2 e ts stream outs := by
  obtain ⟨env, feed, s0, charged, rfl⟩ := h
  simp only [State.fire, env, feed]
  rw [charged]
  dsimp only
  rw [work]
  rfl

@[simp] theorem liftCode_ok {α : Type} (a : α) : liftCode (.ok a) = .ok a := rfl

theorem not_isEmpty_of_rowsIn {ts : List Token} (h : Claims.rowsIn ts ≠ []) : ¬ (tok0 ts).rows.isEmpty = true := by
  rwa [List.isEmpty_iff]

end Sys2Proof.Machine
end

section
/-! The operators that work row by row (R122-R128). -/

namespace Sys2Proof.Machine

section
variable {s s1 : State} {w : WorkRef} {op n q : Nat} {e : OpEnv} {ts : List Token}

/-! ### ITEM_IN (R122) -/

theorem execItemIn_item {i : Item} (env : s.opEnv (.item q) op 0x01 = some e) (item : s.itemOf q = some i) :
    exec (.itemIn (.item q) op) s = .next (s.emit e [(0, tokenOf (e.out 0)
      [{ itemRow i.itemId i.arrival i.deadline i.record.length with record := i.record }])] true) := by
  show execItemIn _ op s = _
  simp only [execItemIn, env, item]

theorem execItemIn_batch {bay : Nat} {r : Run} {d : List Byte} (env : s.opEnv (.run n) op 0x01 = some e)
    (run : s.runOf n = some r) (batch : r.batches[tgetD op 0 r.scanAt]? = some d)
    (granted : s.batchBay e.slice e.image.mEntries = some bay) :
    exec (.itemIn (.run n) op) s = .next (
      let k := tgetD op 0 r.scanAt
      (s.updRun n fun r => { r with
        scanAt := tset op (k + 1) r.scanAt
        granted := if r.granted.any fun x => x.1 == k then r.granted else r.granted ++ [(k, bay)] }).emit e
      [(0, { tokenOf (e.out 0) [if e.op.par 0 / 1024 = 1 then batchRow k d
        else { itemRow k r.start 0 d.length with record := d }] with batch := some k })] false) := by
  show execItemIn _ op s = _
  simp only [execItemIn, env, run, batch, granted]

/-! ### SCAN (R125) -/

section
variable {r : Run} {tb : Table} (env : s.opEnv (.run n) op 0x02 = some e) (run : s.runOf n = some r)
  (scanned : (r.scans.find? fun t => t.id == e.op.par2 0) = some tb)
  (same : (s.tables.any fun t => t.slice == e.slice && t.id == e.op.par2 0 && t.cols == tb.cols) = true)
include env run scanned same

theorem execScan_ends
    (behind : (nth tb.columns (nth (e.op.pars 6 (e.op.par 4)) 0 0) []).length ≤ tgetD op 0 r.scanAt) :
    exec (.scan (.run n) op) s = .next (s.emit e [] true) := by
  show execScan _ op s = _
  simp [execScan, env, run, scanned, same, behind]

theorem execScan_reads {k lines : Nat} {rows out : List Row} (place : k = tgetD op 0 r.scanAt)
    (inside : k < (nth tb.columns (nth (e.op.pars 6 (e.op.par 4)) 0 0) []).length)
    (near : s.scanTier e.slice (e.op.par2 0) (e.op.pars 6 (e.op.par 4)) k < 2)
    (read : scanRange s tb (e.op.pars 6 (e.op.par 4)) k = .ok (rows, lines))
    (charged : s.chargeAll (.run n) none [(2, 20 + (2 * e.op.par 4 + 6 * e.op.par 5) * ceilDiv rows.length 64), (4, lines)] =
      .ok s1)
    (kept : filterRows e.image (e.out 0).types (termsOf (e.op.par 5) (e.op.params.drop (6 + evenUp (e.op.par 4)))) rows =
      .ok out) :
    exec (.scan (.run n) op) s = .next (((s1.heatUp e.slice (e.op.par2 0) (e.op.pars 6 (e.op.par 4)) k).updRun n fun r =>
      { r with scanAt := tset op (k + 1) r.scanAt }).emit e [(0, tokenOf (e.out 0) out)] false) := by
  show execScan _ op s = _
  subst place
  have notInStore := Nat.ne_of_lt near
  have notLost := Nat.ne_of_lt (Nat.lt_succ_of_lt near)
  simp [execScan, env, run, scanned, same, Nat.not_le.2 inside, notInStore, notLost, read, charged, kept]

end

/-! ### FILTER, ROUTE and UNION (R126-R128) -/

theorem execFilter_sends {rows : List Row}
    (fires : Claims.Fires s w op 0x03 false false e ts (termCost (e.op.par 0) (rows0 ts)) s1)
    (kept : filterRows e.image (e.types 0) (termsOf (e.op.par 0) (e.op.params.drop 2)) (Claims.rowsIn ts) = .ok rows) :
    exec (.filter w op) s = .next (Claims.sends s1 e ts false [(0, (tok0 ts).with_ rows)]) := by
  refine congrArg Host.Outcome.next (fire_sends fires ?_)
  rw [Claims.rowsIn] at kept
  simp only [kept, liftCode_ok]
  rfl

theorem execRoute_sends {ps : List Nat}
    (fires : Claims.Fires s w op 0x13 false false e ts (termCost (e.op.nout - 1) (rows0 ts)) s1)
    (ports : exceptAll ((Claims.rowsIn ts).map
      (routeOf e.image (e.types 0) (termsOf (e.op.nout - 1) (e.op.params.drop 2)))) = .ok ps) :
    exec (.route w op) s = .next (Claims.sends s1 e ts false ((List.range e.op.nout).map fun p =>
      (p, (tok0 ts).with_ ((((Claims.rowsIn ts).zip ps).filter fun x => x.2 == p).map (·.1))))) := by
  refine congrArg Host.Outcome.next (fire_sends fires ?_)
  rw [Claims.rowsIn] at ports
  simp only [ports, liftCode_ok]
  rfl

theorem execUnion_item (fires : Claims.Fires s (.item q) op 0x12 false false e ts [] s1) :
    exec (.union (.item q) op) s = .next (Claims.sends s1 e ts false
      [(0, ((ts.find? fun x => !x.rows.isEmpty).getD (tok0 ts)).with_ (ts.flatMap (·.rows)))]) := by
  show execUnion _ op s = _
  simp only [execUnion, fires.1, isRun_of_opEnv_item fires.1, Bool.not_false, ↓reduceIte]
  exact congrArg Host.Outcome.next (fire_sends fires rfl)

/-- In a run the first port that is not done gives its next token. -/
theorem execUnion_run {p : Nat} {tk : Token} {rest : List Token} (env : s.opEnv (.run n) op 0x12 = some e) (hp : p < e.op.nin)
    (waits : (e.work.at_ op p).toks = tk :: rest)
    (done : ∀ p' < p, (e.work.at_ op p').ended = true ∧ (e.work.at_ op p').toks = []) :
    exec (.union (.run n) op) s = .next
      ((s.updWork (.run n) fun k => k.updPort op p fun x => { x with toks := rest }).emit e [(0, tk)] false) := by
  have first : ((List.range e.op.nin).find? fun p => !((e.work.at_ op p).ended && (e.work.at_ op p).toks.isEmpty)) = some p := by
    rw [List.find?_range_eq_some]
    refine ⟨by simp [waits], List.mem_range.2 hp, fun p' hp' => ?_⟩
    simp [done p' hp']
  show execUnion _ op s = _
  simp only [execUnion, env, isRun_of_opEnv_run env, Bool.not_true, Bool.false_eq_true, ↓reduceIte, first, waits]

/-! ### DECODE and ENCODE (R123, R124) -/

theorem execDecode_sends {tm : Template} {ds : List Decoded}
    (fires : Claims.Fires ((s.noteDecode w op).noteQuarry w op) w op 0x05 false false e ts [] s1)
    (template : e.image.templates[e.op.par 0]? = some tm)
    (decoded : exceptAll ((Claims.rowsIn ts).map (decodeRow e tm)) = .ok ds)
    (goesOn : e.isRun = true ∨ ∀ d ∈ ds, d.reject = none) :
    exec (.decode w op) s = .next (
      let rows := (ds.filter fun d => d.reject.isNone).map (·.row)
      Claims.sends (s1.overflow e.ctx (rows.any (·.ovf))) e ts false [(0, tokenOf (e.out 0) rows),
        (1, tokenOf (e.out 1) ((ds.filterMap (·.reject)).map fun j =>
          rowOf [natCrs 1 j.cause, natCrs 1 j.field, natCrs 2 j.offset]))]) := by
  refine congrArg Host.Outcome.next (fire_sends fires ?_)
  rw [Claims.rowsIn] at decoded
  simp only [template, decoded]
  split
  · next rejected item =>
    obtain run | none := goesOn
    · cases item.symm.trans run
    · rw [List.filterMap_eq_nil_iff.2 none] at rejected
      cases rejected
  · rfl

/-- ENCODE's row for a record. -/
theorem encode_bind_eq_map (tm : Template) (r : Row) : (do
      let bs ← quarryEncode tm r
      return { rowOf [bytesCourses 4095 bs] with ovf := r.ovf } : Except Nat Row) =
    (quarryEncode tm r).map fun bs => { rowOf [bytesCourses 4095 bs] with ovf := r.ovf } := by
  cases quarryEncode tm r <;> rfl

theorem execEncode_sends {tm : Template} {rows : List Row} (fires : Claims.Fires s w op 0x06 false false e ts [] s1)
    (template : e.image.templates[e.op.par 0]? = some tm)
    (encoded : exceptAll ((Claims.rowsIn ts).map fun r => (quarryEncode tm r).map fun bs =>
      { rowOf [bytesCourses 4095 bs] with ovf := r.ovf }) = .ok rows) :
    exec (.encode w op) s = .next (Claims.sends s1 e ts false (e.outRows rows)) := by
  refine congrArg Host.Outcome.next (fire_sends fires ?_)
  rw [Claims.rowsIn] at encoded
  simp only [template, encode_bind_eq_map, encoded]
  rfl

end

/-- Settles O30: each operator sends the rows that its own function makes of its input's. -/
theorem rowOperatorResults : Obligations.RowOperatorResults := by
  unfold Obligations.RowOperatorResults
  refine ⟨?_, ?_, ?_, ?_, ?_, ?_, ?_, ?_, ?_, ?_⟩
  · intro q op e i s env item
    exact .of_exec (execItemIn_item env item) rfl
  · rintro n op _ bay e r d s env run rfl batch granted
    exact .of_exec (execItemIn_batch env run batch granted) rfl
  · intro n op e r tb s env run scanned same behind
    exact .of_exec (execScan_ends env run scanned same behind) rfl
  · intro n op k e r tb rows out lines s s1 env run scanned same place inside near read charged kept
    exact .of_exec (execScan_reads env run scanned same place inside near read charged kept) rfl
  · intro w op e ts rows s s1 fires kept
    exact .of_exec (execFilter_sends fires kept) rfl
  · intro w op e ts ps s s1 fires ports
    exact .of_exec (execRoute_sends fires ports) rfl
  · intro q op e ts s s1 fires
    exact .of_exec (execUnion_item fires) rfl
  · intro n op p e tk rest s env hp waits done
    exact .of_exec (execUnion_run env hp waits done) rfl
  · intro w op e ts tm ds s s1 fires template decoded goesOn
    exact .of_exec (execDecode_sends fires template decoded goesOn) rfl
  · intro w op e ts tm rows s s1 fires template encoded
    exact .of_exec (execEncode_sends fires template encoded) rfl

end Sys2Proof.Machine
end

section
/-! The operators that take a whole stream, join or aggregate (R132-R140). -/

namespace Sys2Proof.Machine

section
variable {s s1 s2 : State} {w : WorkRef} {op n q : Nat} {e : OpEnv} {ts : List Token} {outs : List (Nat × Token)}
  {out : List Row}

/-! ### Joins (R132-R135) -/

/-- The table a HASH_BUILD makes of the rows whose key fields are all present (R132). -/
def buildOf (e : OpEnv) (ts : List Token) : HashTab where
  slice := e.slice
  id := e.op.par2 2
  rows := (Claims.rowsIn ts).filter fun r => !((r.getAll (keyFields (e.op.par 0) (e.op.par 1))).contains none)
  layout := e.types 0
  keyField := e.op.par 0
  keyCount := e.op.par 1
  chain := e.op.par 4

/-- What a run keeps of a table it builds under an identifier: it is published when the run ends (R132). -/
def State.keepBuild (s : State) (w : WorkRef) (tab : HashTab) : State :=
  match w with
  | .run n => if tab.id = 0 then s else s.updRun n fun r => { r with publishes := r.publishes ++ [tab] }
  | .item _ => s

theorem execHashBuild_sends
    (fires : Claims.Fires s w op 0x09 true true e ts [(2, 30 + 12 * rows0 ts), (4, rows0 ts * e.op.par 4)] s1)
    (keys : checkKeys (e.types 0) (keyFields (e.op.par 0) (e.op.par 1)) (buildOf e ts).rows = .ok ())
    (fits : s1.hbmFits e.slice ((buildOf e ts).courses * (if s1.hashBound (buildOf e ts) then 2 else 1)) = true)
    (chain : chainOf ((buildOf e ts).rows.map (keyHash (e.types 0) (keyFields (e.op.par 0) (e.op.par 1))))
      (imageSize (e.types 0)) ≤ e.op.par 4)
    (agrees : s1.buildFault (buildOf e ts) = none) :
    exec (.hashBuild w op) s = .next (Claims.sends (s1.keepBuild w (buildOf e ts)) e ts true
      [(0, { tokenOf (e.out 0) [rowOf [natCrs 5 (buildOf e ts).rows.length]] with build := (buildOf e ts).rows })]) := by
  refine congrArg Host.Outcome.next (fire_sends fires ?_)
  have room : ¬ (!s1.hbmFits e.slice ((buildOf e ts).courses * (if s1.hashBound (buildOf e ts) then 2 else 1))) = true := by
    rw [fits]; decide
  simp only [buildOf, Claims.rowsIn] at keys chain agrees
  simp only [keys, Nat.not_lt.2 chain, agrees, liftCode_ok, bind, Except.bind]
  exact (if_neg room).trans rfl

theorem execHashProbe_item (fires : Claims.Fires s (.item q) op 0x0A false false e ts [] s1)
    (probed : s1.probe e none (Claims.rowsIn ts) (s1.buildRows e []) = .ok (s2, outs)) :
    exec (.hashProbe (.item q) op) s = .next (Claims.sends s2 e ts false outs) := by
  show execHashProbe _ op s = _
  simp only [execHashProbe, fires.1, isRun_of_opEnv_item fires.1, Bool.not_false, ↓reduceIte]
  exact congrArg Host.Outcome.next (fire_sends fires probed)

theorem execHashProbe_run {tk : Token} {rest : List Token} (env : s.opEnv (.run n) op 0x0A = some e)
    (ready : e.op.par2 2 ≠ 0 ∨ (e.work.at_ op 1).ended = true) (waits : (e.work.at_ op 0).toks = tk :: rest)
    (probed : (s.updWork (.run n) fun k => k.updPort op 0 fun x => { x with toks := rest }).probe e tk.batch tk.rows
      (s.buildRows e ((e.work.at_ op 1).toks.flatMap (·.build))) = .ok (s1, outs)) :
    exec (.hashProbe (.run n) op) s =
      .next (s1.emit e (outs.map fun o => (o.1, { o.2 with batch := tk.batch })) false) := by
  show execHashProbe _ op s = _
  simp only [execHashProbe, env, isRun_of_opEnv_run env, Bool.not_true, Bool.false_eq_true, ↓reduceIte, ready, decide_true,
    waits, probed]

theorem execMergeJoin_sends {ls rs : List Row} (fires : Claims.Fires s w op 0x0B true false e ts [] s1)
    (left : (nth ts 0 (tokenOf (.fields []) [])).rows = ls) (right : (nth ts 1 (tokenOf (.fields []) [])).rows = rs)
    (joined : mergeJoin (e.types 0) (e.types 1) (keyFields (e.op.par 0) (e.op.par 2))
      (keyFields (e.op.par 1) (e.op.par 2)) (e.op.par 3) ls rs = .ok out)
    (charged : s1.chargeAll w none [(2, 30 + 12 * (ls.length + rs.length) + 8 * out.length)] = .ok s2) :
    exec (.mergeJoin w op) s = .next (Claims.sends s2 e ts true (e.outRows out)) := by
  refine congrArg Host.Outcome.next (fire_sends fires ?_)
  subst left right
  simp only [joined, liftCode_ok, bind, Except.bind, charged]
  rfl

/-! ### Orders and aggregates (R136, R138, R140) -/

theorem execSort_sends (fires : Claims.Fires s w op 0x0C true false e ts
      [(2, 40 + 12 * rows0 ts * log2Up (rows0 ts)), (4, 2 * ceilDiv (rows0 ts * e.width) 128)] s1)
    (fits : s1.hbmFits e.slice (rows0 ts * e.width) = true)
    (sorted : sortRows (e.types 0) e.op.sortKeys (Claims.rowsIn ts) = .ok out) :
    exec (.sort w op) s = .next (Claims.sends s1 e ts true (e.outRows out)) := by
  refine congrArg Host.Outcome.next (fire_sends fires ?_)
  rw [Claims.rowsIn] at sorted
  simp only [fits, sorted]
  rfl

theorem execTopK_sends (fires : Claims.Fires s w op 0x0D true false e ts [(2, 40 + 12 * rows0 ts)] s1)
    (sorted : sortRows (e.types 0) e.op.sortKeys (Claims.rowsIn ts) = .ok out) :
    exec (.topK w op) s = .next (Claims.sends s1 e ts true [(0, (tok0 ts).with_ (out.take (e.op.par 1)))]) := by
  refine congrArg Host.Outcome.next (fire_sends fires ?_)
  rw [Claims.rowsIn] at sorted
  simp only [sorted, liftCode_ok]
  rfl

theorem execGroupAgg_sends
    (fires : Claims.Fires s w op 0x0E true (e.op.par 0 == 0) e ts [(2, 40 + rows0 ts * (8 + 4 * e.op.par 1))] s1)
    (grouped : groupRows (e.types 0) (e.op.pars 2 (e.op.par 0)) e.op.aggs (Claims.rowsIn ts) = .ok out)
    (fits : e.isRun = true → s1.hbmFits e.slice (out.length * (e.out 0).imageSize) = true) :
    exec (.groupAgg w op) s = .next (Claims.sends (s1.overflow e.ctx (out.any (·.ovf))) e ts true (e.outRows out)) := by
  show execGroupAgg w op s = _
  simp only [execGroupAgg, fires.1]
  refine congrArg Host.Outcome.next (fire_sends fires ?_)
  rw [Claims.rowsIn] at grouped
  have held : ¬ (e.isRun = true ∧ (!s1.hbmFits e.slice (out.length * (e.out 0).imageSize)) = true) :=
    fun ⟨run, full⟩ => by simp [fits run] at full
  simp only [grouped, liftCode_ok, bind, Except.bind, held]
  rfl

/-- The type of the values a WINDOW_AGG aggregates: a count has none of its own (R140). -/
def OpEnv.aggType (e : OpEnv) : TypeDesc := if e.op.par 4 = 0 then tUint 8 else nth (e.types 0) (e.op.par 5) tCode

def OpEnv.aggKind (e : OpEnv) : Nat := if e.op.par 4 = 0 then 1 else e.aggType.kind

/-- The window of an item's flow as committed. -/
def State.windowFor (s : State) (e : OpEnv) (i : Item) : Win :=
  winOf (e.op.par 4) e.aggKind (e.op.par 3) (s.windowOf e.slice (e.op.par 6) i.flowKey)

/-- The tick an item counts at: its arrival, or the window's last tick where that is later. -/
def State.windowTick (s : State) (e : OpEnv) (i : Item) : Nat := max i.arrival ((s.windowFor e i).last.getD 0)

/-- The bucket of that tick. -/
def State.windowBucket (s : State) (e : OpEnv) (i : Item) : Nat :=
  s.windowTick e i / (crsNat (e.op.params.take 3) / e.op.par 3)

/-- The slots of the window advanced to that bucket. -/
def State.windowStart (s : State) (e : OpEnv) (i : Item) : List Int :=
  winAdvance (crsNat (e.op.params.take 3) / e.op.par 3) (e.op.par 3) (s.windowBucket e i) (s.windowFor e i)

/-- The update commits at once when the item's answer has left, and else waits with the item (R140). -/
def State.putWindow (s : State) (q : Nat) (i : Item) (put : Nat × List Course) : State :=
  if i.answer.isSome then s.commitWindows { i with windowPuts := [put] }
  else s.updItem q fun i => { i with windowPuts := i.windowPuts ++ [put] }

theorem execWindowAgg_sends {i : Item} {slots : List Int} {sat : Bool}
    (fires : Claims.Fires s (.item q) op 0x0F false false e ts [(2, 60 + e.op.par 3 + 8 * rows0 ts),
      (4, 2 * ceilDiv (5 + e.op.par 3 * slotSize (e.op.par 4)) 128)] s1)
    (item : s1.itemOf q = some i) (present : Claims.rowsIn ts ≠ [])
    (counted : winRows (e.op.par 4) e.aggType (e.op.par 5) (s1.windowBucket e i) (e.op.par 3) (s1.windowStart e i)
      (Claims.rowsIn ts) [] (s1.windowStart e i) = .ok (out, slots, sat)) :
    exec (.windowAgg (.item q) op) s = .next (Claims.sends
      ((s1.putWindow q i (e.op.par 6, winCourses (e.op.par 4) e.aggKind (s1.windowTick e i) slots)).overflow e.ctx sat)
      e ts false [(0, tokenOf (e.out 0) out)]) := by
  refine congrArg Host.Outcome.next (fire_sends fires ?_)
  dsimp only
  rw [item]
  refine (if_neg (not_isEmpty_of_rowsIn present)).trans ?_
  exact congrArg (fun x => liftCode x >>= _) counted

end

/-- Settles O31: each operator sends what its own function makes of its inputs, with what it publishes or keeps. -/
theorem streamOperatorResults : Obligations.StreamOperatorResults := by
  unfold Obligations.StreamOperatorResults
  refine ⟨?_, ?_, ?_, ?_, ?_, ?_, ?_, ?_⟩
  · intro w op e ts s s1 fires ks rows tab keys fits chain agrees
    refine .of_exec (execHashBuild_sends fires keys fits chain agrees) ?_
    cases w <;> rfl
  · intro q op e ts outs s s1 s2 fires probed
    exact .of_exec (execHashProbe_item fires probed) rfl
  · intro n op e tk rest outs s s1 env ready waits probed
    exact .of_exec (execHashProbe_run env ready waits probed) rfl
  · intro w op e ts out s s1 s2 fires ls rs joined charged
    exact .of_exec (execMergeJoin_sends fires rfl rfl joined charged) rfl
  · intro w op e ts out s s1 fires fits sorted
    exact .of_exec (execSort_sends fires fits sorted) rfl
  · intro w op e ts out s s1 fires sorted
    exact .of_exec (execTopK_sends fires sorted) rfl
  · intro w op e ts out s s1 fires grouped fits
    exact .of_exec (execGroupAgg_sends fires grouped fits) rfl
  · intro q op e ts i out slots sat s s1 fires item present nb fn ty kind win width tick counted
    exact .of_exec (execWindowAgg_sends fires item present counted) rfl

end Sys2Proof.Machine
end

section
/-! A flow's state (R141, R142) and the sinks (R145-R148). -/

namespace Sys2Proof.Machine

section
variable {s s1 : State} {w : WorkRef} {op n q : Nat} {e : OpEnv} {ts : List Token} {i : Item}

/-! ### A flow's state (R141, R142) -/

theorem execStateGetReadDone_keeps {seq : Nat} {c : Context} {o : Operator} (item : s.itemOf seq = some i)
    (ctx : s.ctxOf i.ctx = some c) (get : c.image.stateGet = some o) (live : s.itemLive i = true)
    (unread : i.stateReadDone = false) :
    exec (.stateGetReadDone seq) s = .next (
      let f := s.flowState.find? fun f => f.slice == i.slice && f.space == o.par 1 && f.key == i.flowKey
      s.updItem seq fun i => { i with
        stateReadDone := true, stateNew := f.isNone, stateRead := fitList (o.par 0 * 128) 0 ((f.map (·.area)).getD []) }) := by
  show execStateGetReadDone seq s = _
  simp [execStateGetReadDone, item, ctx, get, live, unread]

theorem execStateGet_sends (item : s.itemOf q = some i) (read : i.stateReadDone = true)
    (fires : Claims.Fires s (.item q) op 0x10 false true e ts [] s1) :
    exec (.stateGet (.item q) op) s = .next (Claims.sends s1 e ts false
      [(0, { tokenOf (e.out 0) [rowOf [natCrs 1 (if i.stateNew then 1 else 0), natCrs 2 0]] with area := i.stateRead })]) := by
  show execStateGet (.item q) op s = _
  simp only [execStateGet, item, read, Bool.not_true, Bool.false_eq_true, ↓reduceIte]
  exact congrArg Host.Outcome.next (fire_sends fires rfl)

/-- The item with the area it is about to write (R142). -/
def Item.putting (i : Item) (space : Nat) (area : List Course) : Item :=
  { i with putStage := 1, putArea := area, putSpace := space }

/-- The item keeps the area it writes through, and in a group its replica is told of it (R142, R50). -/
def State.putState (s : State) (q : Nat) (i : Item) (space : Nat) (area : List Course) : State :=
  let u := s.updItem q fun i => i.putting space area
  if u.replicated i then u.tellReplica i.flowKey (.put q space area) else u

/-- A flow with a state has its area already. -/
theorem newArea_of_state {space : Nat} {area : List Course}
    (has : ∃ f ∈ s.flowState, f.slice = i.slice ∧ f.space = space ∧ f.key = i.flowKey) :
    s.newArea (i.putting space area) = 0 := by
  obtain ⟨f, hf, hs, hp, hk⟩ := has
  refine if_neg fun new => ?_
  simp only [Bool.not_eq_true', List.any_eq_false] at new
  exact new.2 f hf (by simp [Item.putting, hs, hp, hk])

theorem newArea_le (space : Nat) (area : List Course) : s.newArea (i.putting space area) ≤ area.length := by
  unfold State.newArea
  split
  · exact Nat.le_refl _
  · exact Nat.zero_le _

theorem hbmFits_of_le {sl m n : Nat} (h : m ≤ n) (fits : s.hbmFits sl n = true) : s.hbmFits sl m = true := by
  simp only [State.hbmFits, decide_eq_true_eq] at fits ⊢
  omega

/-- A STATE_PUT goes on when the flow has a state or the slice's quota takes a new area twice (R142, R302). -/
theorem newArea_fits {space sl : Nat} {area : List Course}
    (room : (∃ f ∈ s.flowState, f.slice = i.slice ∧ f.space = space ∧ f.key = i.flowKey) ∨
      s.hbmFits sl (2 * area.length) = true) :
    ¬ (s.newArea (i.putting space area) ≠ 0 ∧ (!s.hbmFits sl (2 * s.newArea (i.putting space area))) = true) := by
  rintro ⟨new, full⟩
  obtain has | fits := room
  · exact new (newArea_of_state has)
  · rw [hbmFits_of_le (Nat.mul_le_mul_left 2 (newArea_le space area)) fits] at full
    cases full

theorem execStatePut_keeps
    (fires : Claims.Fires s (.item q) op 0x11 false true e ts (if rows0 ts = 0 then [] else [(4, e.op.par 0)]) s1)
    (item : s1.itemOf q = some i) (present : rows0 ts ≠ 0)
    (room : (∃ f ∈ s1.flowState, f.slice = i.slice ∧ f.space = e.op.par 1 ∧ f.key = i.flowKey) ∨
      s1.hbmFits e.slice (2 * (e.op.par 0 * 128)) = true) :
    exec (.statePut (.item q) op) s = .next ((Claims.sends
      (s1.putState q i (e.op.par 1) (fitList (e.op.par 0 * 128) 0 (tok0 ts).area)) e ts false []).retire q) := by
  have fits := newArea_fits (s := s1) (i := i) (space := e.op.par 1) (sl := e.slice)
    (area := List.replicate (e.op.par 0 * 128) 0) (by rwa [List.length_replicate])
  have put := itemOf_updItem (fun i => i.putting (e.op.par 1) (fitList (e.op.par 0 * 128) 0 (tok0 ts).area)) (fun _ => rfl) item
  refine congrArg (fun t : State => Host.Outcome.next (t.retire q)) (fire_sends fires ?_)
  simp only [item, Option.map_some, Option.getD_some]
  refine (if_neg present).trans ((if_neg fits).trans ?_)
  simp only [Item.putting] at put
  simp only [put]
  rfl

/-! ### The answer and the results (R145, R146) -/

theorem execVerdictOut_keeps {a : List Course} (fires : Claims.Fires s (.item q) op 0x15 false true e ts [(6, 128)] s1)
    (answer : verdictOf e (tok0 ts) = .ok a) :
    exec (.verdictOut (.item q) op) s =
      .next (Claims.sends (s1.updItem q fun i => { i with verdict := some a }) e ts false []) := by
  refine congrArg Host.Outcome.next (fire_sends fires ?_)
  simp only [answer]
  rfl

/-- The capsule of a token of rows (R146). -/
def resultOf (e : OpEnv) (n : Nat) (r : Run) (tok : Token) : ResultOut :=
  { last := false, rq := e.op.par 0, slice := e.slice, ctx := e.ctx, gen := r.gen, run := n, seq := r.outSeq
    rows := tok.rows.map fun x => tok.layout.image x, rowCourses := tok.layout.imageSize
    status := 0, total := 0, tx := false }

/-- The capsule is queued and counted in its run (R146, R459). -/
def State.queueResult (s : State) (e : OpEnv) (n : Nat) (r : Run) (tok : Token) : State :=
  let u := s.updRun n fun r => { r with outSeq := r.outSeq + 1, outRows := r.outRows + tok.rows.length }
  { u with host := { u.host with results := u.host.results ++ [resultOf e n r tok] } }

theorem execResultOut_queues {r : Run} (fires : Claims.Fires s (.run n) op 0x16 false false e ts [] s1)
    (run : s1.runOf n = some r) (present : Claims.rowsIn ts ≠ []) :
    exec (.resultOut (.run n) op) s = .next (Claims.sends (s1.queueResult e n r (tok0 ts)) e ts false []) := by
  refine congrArg Host.Outcome.next (fire_sends fires ?_)
  dsimp only
  rw [run]
  exact (if_neg (not_isEmpty_of_rowsIn present)).trans rfl

/-! ### The ledger's extension (R147) -/

/-- The courses of a row's fields, a null field as zeros. -/
def rowCourses (tok : Token) (r : Row) : List Course :=
  (List.range r.fields.length).flatMap fun k => (r.get k).getD (List.replicate (nth tok.layout.types k tCode).size 0)

theorem execLedgerAppend_keeps {r : Row}
    (fires : Claims.Fires s (.item q) op 0x17 false false e ts [(6, ceilDiv (3 * e.op.par 0) 2)] s1)
    (one : Claims.rowsIn ts = [r]) :
    exec (.ledgerAppend (.item q) op) s = .next ((Claims.sends (s1.updItem q fun i => if i.answer.isSome then i else
      { i with extension := fitList (e.op.par 0) 0 (rowCourses (tok0 ts) r) }) e ts false []).retire q) := by
  refine congrArg (fun t : State => Host.Outcome.next (t.retire q)) (fire_sends fires ?_)
  rw [Claims.rowsIn] at one
  simp only [one]
  rfl

/-! ### Rows for a table (R148) -/

section
variable (fires : Claims.Fires s w op 0x18 false false e ts [(4, 1 + ceilDiv (rows0 ts * e.width) 128)] s1)
  (present : Claims.rowsIn ts ≠ [])
  (table : (s1.tables.any fun x => x.slice == e.slice && x.id == e.op.par2 0 && x.cols == e.types 0) = true)
  (sound : rowsFault (e.types 0) (Claims.rowsIn ts) = none)
include fires present table sound

theorem execTableAppend_run (run : w = .run n) :
    exec (.tableAppend w op) s = .next (Claims.sends (s1.updRun n fun r => { r with
      appends := r.appends ++ [(e.op.par2 0, Claims.rowsIn ts)] }) e ts false []) := by
  subst run
  refine congrArg Host.Outcome.next (fire_sends fires ?_)
  rw [Claims.rowsIn] at sound
  refine (if_neg (not_isEmpty_of_rowsIn present)).trans ?_
  simp only [table, sound]
  rfl

theorem execTableAppend_unanswered (ref : w = .item q) (item : s1.itemOf q = some i) (unanswered : i.answer = none) :
    exec (.tableAppend w op) s = .next ((Claims.sends (s1.updItem q fun i => { i with
      appends := i.appends ++ [(e.op.par2 0, Claims.rowsIn ts)] }) e ts false []).settleAppends.retire q) := by
  subst ref
  refine congrArg (fun t : State => Host.Outcome.next (t.settleAppends.retire q)) (fire_sends fires ?_)
  rw [Claims.rowsIn] at sound
  refine (if_neg (not_isEmpty_of_rowsIn present)).trans ?_
  simp only [table, sound, item, Option.map_some, unanswered]
  rfl

theorem execTableAppend_answered (ref : w = .item q) (item : s1.itemOf q = some i) (answered : i.answer.isSome = true) :
    exec (.tableAppend w op) s = .next ((Claims.sends (s1.joinTurn q (e.op.par2 0) (Claims.rowsIn ts)) e ts false
      []).settleAppends.retire q) := by
  subst ref
  refine congrArg (fun t : State => Host.Outcome.next (t.settleAppends.retire q)) (fire_sends fires ?_)
  rw [Claims.rowsIn] at sound
  refine (if_neg (not_isEmpty_of_rowsIn present)).trans ?_
  simp only [table, sound, item, Option.map_some, answered]
  rfl

end

end

/-- Settles O32: the read is kept and sent, the new area kept and told, each sink keeps or queues what its token holds
(a run's capsules are counted by SEQ, assumption 45: DEDUCED). -/
theorem stateAndSinkOperatorResults : Obligations.StateAndSinkOperatorResults := by
  unfold Obligations.StateAndSinkOperatorResults
  refine ⟨?_, ?_, ?_, ?_, ?_, ?_, ?_⟩
  · intro seq i c o s item ctx get live unread
    exact execStateGetReadDone_keeps item ctx get live unread
  · intro q op e ts i s s1 item read fires
    exact execStateGet_sends item read fires
  · intro q op e ts i s s1 fires item present room
    exact execStatePut_keeps fires item present room
  · intro q op e ts a s s1 fires answer
    exact execVerdictOut_keeps fires answer
  · intro n op e ts r s s1 fires run present
    exact execResultOut_queues fires run present
  · intro q op e ts r s s1 fires one
    exact execLedgerAppend_keeps fires one
  · intro w op e ts s s1 fires present table sound
    refine ⟨fun n run => ?_, fun q i ref item unanswered => ?_, fun q i ref item answered => ?_⟩
    · exact execTableAppend_run fires present table sound run
    · exact execTableAppend_unanswered fires present table sound ref item unanswered
    · exact execTableAppend_answered fires present table sound ref item answered

end Sys2Proof.Machine
end

section
/-! The operators that ask an engine (R130, R131, R144), and the cut-off of a firing (R208). -/

namespace Sys2Proof.Machine

section
variable {s s1 : State} {w : WorkRef} {op : Nat} {e : OpEnv} {ts : List Token}

/-! ### Keystone operators (R130, R131) -/

/-- The key of a row whose key fields are all present (R130). -/
def keyOf (e : OpEnv) (d : KsDecl) (r : Row) : Option (List Course) :=
  let vs := r.getAll (keyRun (e.types 0) 9 (e.op.par 1) d.key)
  if vs.contains none then none else some (vs.flatMap fun v => v.getD [])

/-- One search for each key, of the table a declaration names, from a bay (R130, R262). -/
def State.issueKeys (s : State) (w : WorkRef) (op slice bay : Nat) (d : KsDecl) (keys : List (Option (List Course))) : State :=
  (List.range keys.length).foldl (fun (u : State) i => match nth keys i none with
    | some key => u.ksIssue
        { id := 0, slice := slice, table := d.table, key := key, bay := bay, core := none, w := some (w, op, i)
          since := 0, bank := none }
    | none => u) s

/-- The state asked from, with the rows held for their answers. -/
def State.holdRows (s : State) (w : WorkRef) (op : Nat) (rows : List Row) : State :=
  (s.askFrom w).1.updWork w fun k => { k with held := tset op rows k.held }

theorem keyStart_issues {code : Nat} {d : KsDecl} (env : s.opEnv w op code = some e) (fresh : e.work.heldRows op = none)
    (feed : e.feed false = .toks ts) (decl : e.image.decls.find? (fun d => d.loc == e.op.par 0) = some d)
    (charged : s.chargeAll w (tok0 ts).batch [(3, (((Claims.rowsIn ts).map (keyOf e d)).filterMap id).length)] = .ok s1) :
    s.keyStart w op code = ((s1.holdRows w op ((Claims.rowsIn ts).map fun _ => keyResultRow false 0 [])).issueKeys w op
      e.slice (s1.askFrom w).2 d ((Claims.rowsIn ts).map (keyOf e d))).keyFinish w op code := by
  unfold keyOf Claims.rowsIn at charged
  simp only [State.keyStart, env, fresh, feed, decl, charged]
  rfl

/-! ### DIGEST (R144) -/

theorem execDigest_of_no_rows (env : s.opEnv w op 0x14 = some e) (item : e.isRun = false) (fresh : e.work.heldRows op = none)
    (feed : e.feed false = .toks ts) (empty : Claims.rowsIn ts = []) :
    exec (.digest w op) s = .next ((s.updWork w fun k => k.take op).emit e [(0, tokenOf (e.out 0) [])] true) := by
  show execDigest w op s = _
  rw [Claims.rowsIn] at empty
  simp only [execDigest, env, fresh, feed, empty, item]
  rfl

/-- The bytes a DIGEST is charged for its messages (R185, R228). -/
def digestBytes (e : OpEnv) (ms : List (Option (List Byte))) : Nat :=
  sumNat ((ms.filterMap id).map fun m => if e.image.hasDgSub then digestCharge m.length
    else sumNat (e.op.digestFields.map fun k => fieldMax (nth (e.types 0) k tCode)))

/-- The row that holds a message's tag until its lane has ended (R362). -/
def tagRow (e : OpEnv) (key : List Byte) (m : Option (List Byte)) : Row :=
  match m with
  | some x => rowOf [bytesCourses 64 (tagOf (e.op.par 0 / 256) key x (e.op.par 2))]
  | none => { fields := [[]], valid := [false], ovf := false }

/-- The bytes each message field of a row has given. -/
def messageFrags (e : OpEnv) (rows : List Row) (i : Nat) : List Nat :=
  e.op.digestFields.map fun k => ((((rows[i]?).bind fun r => r.get k).bind
    fun cs => (fieldBytes (nth (e.types 0) k tCode) cs).toOption).getD []).length

/-- One message for each row whose message fields are present; `u` is the state asked from, `v` the one with the rows held. -/
def queueMessages (u v : State) (bay : Nat) (w : WorkRef) (op : Nat) (e : OpEnv) (key : List Byte) (rows : List Row)
    (ms : List (Option (List Byte))) : State :=
  (List.range ms.length).foldl (fun (t : State) i => match nth ms i none with
    | some m => t.dgQueue bay
        { id := 0, cls := (u.workClass w).1, deadline := (u.workClass w).2, requested := t.now
          slice := e.slice, ctx := e.ctx, alg := e.op.par 0 / 256, key := key, msg := m, tagLen := e.op.par 2
          blocks := digestBlocks (e.op.par 0 / 256) m.length, done := 0, sinceStart := 0, hasRecord := false, core := none
          w := some (w, op, i), keySlot := v.deviceSlot e.slice (e.op.par 1) (e.op.par 0 / 256), desc := v.freeBits 24
          frags := messageFrags e rows i }
    | none => t) v.advanceFree

theorem execDigest_queues {key : List Byte} {ms : List (Option (List Byte))} (env : s.opEnv w op 0x14 = some e)
    (fresh : e.work.heldRows op = none) (feed : e.feed false = .toks ts) (fires : Claims.rowsIn ts ≠ [] ∨ e.isRun = true)
    (slot : s.keyFor e.slice (e.op.par 1) (e.op.par 0 / 256) = some key)
    (messages : exceptAll ((Claims.rowsIn ts).map (rowMessage (e.types 0) e.op.digestFields)) = .ok ms)
    (sound : tagFault e (Claims.rowsIn ts) = none)
    (charged : s.chargeAll w (tok0 ts).batch [(2, 20 + 4 * (Claims.rowsIn ts).length), (5, digestBytes e ms)] = .ok s1) :
    exec (.digest w op) s = .next ((queueMessages (s1.askFrom w).1 (s1.holdRows w op (ms.map (tagRow e key)))
      (s1.askFrom w).2 w op e key (Claims.rowsIn ts) ms).digestFinish w op) := by
  have goesOn : ¬ ((tok0 ts).rows.isEmpty && !e.isRun) = true := fun passes => by
    obtain ⟨noRows, item⟩ := Bool.and_eq_true_iff.1 passes
    obtain present | run := fires
    · exact not_isEmpty_of_rowsIn present noRows
    · simp [run] at item
  unfold digestBytes at charged
  simp only [Claims.rowsIn] at messages sound charged
  show execDigest w op s = _
  simp only [execDigest, env, fresh, feed, goesOn, slot, messages, sound, charged]
  rfl

end

/-! ### The cycle bound (R208) -/

/-- The cycle count of a core's firing when it is held to its bound (R208, R248; assumption 25: DESIGN CHOICE). -/
def State.boundCount (s : State) (u : CoreId) (f : Firing) : Nat :=
  if f.predict then f.elapsed s.now + 80 else (s.coreOf u).sched.next

theorem execCycleBoundCutoff_cuts {u : CoreId} {f : Firing} {s : State} (runs : (s.coreOf u).firing = some f)
    (reached : f.cycleBound ≤ s.boundCount u f) :
    exec (.cycleBoundCutoff u) s = .next (s.coreFault u 0x0381 f.boundDetail none) := by
  show execCycleBoundCutoff u s = _
  rw [State.boundCount] at reached
  simp only [execCycleBoundCutoff, runs, reached, ↓reduceIte]

/-- Settles O33: the engines are asked once for each row that can be, and a firing at its bound is cut off; with
PREDICT 1 its cycles are told by ticks (assumption 25: DESIGN CHOICE). -/
theorem unitOperatorsIssueTheirRequests : Obligations.UnitOperatorsIssueTheirRequests := by
  unfold Obligations.UnitOperatorsIssueTheirRequests
  refine ⟨?_, ?_, ?_, ?_⟩
  · intro e' he' w op e ts d s s1 env fresh feed decl keys charged
    have started : exec (e'.1 w op) s = .next (s.keyStart w op e'.2) := by
      simp only [List.mem_cons, List.not_mem_nil, or_false] at he'
      obtain rfl | rfl := he' <;> rfl
    exact started.trans (congrArg Host.Outcome.next (keyStart_issues env fresh feed decl charged))
  · intro w op e ts s env item fresh feed empty
    exact execDigest_of_no_rows env item fresh feed empty
  · intro w op e ts key ms s s1 env fresh feed fires slot messages sound charged
    exact execDigest_queues env fresh feed fires slot messages sound charged
  · intro u f s runs reached
    exact execCycleBoundCutoff_cuts runs reached

end Sys2Proof.Machine
end

section
/-! SUPPORT. What the scrub and the lease of a stone leave of the other cores (R183, R294): a line written back moves lines of
L2 and memory, and no core. -/

namespace Sys2Proof.Machine

theorem tget_tdel_ne {α β : Type} [DecidableEq α] {k j : α} (h : j ≠ k) (l : List (α × β)) : tget j (tdel k l) = tget j l := by
  induction l with
  | nil => rfl
  | cons e t ih =>
    obtain ⟨a, v⟩ := e
    by_cases ha : a = k
    · subst ha; simpa [tdel, tget, Ne.symm h] using ih
    · have kept : tdel k ((a, v) :: t) = (a, v) :: tdel k t := List.filter_cons_of_pos (by simpa using ha)
      rw [kept, tget, tget, ih]

theorem OnlyCore.mason {s t : State} {u : CoreId} (h : OnlyCore s t u) : t.mason = s.mason := by
  rw [h.1]

theorem Retires.onlyCore {s t : State} {u : CoreId} {d : Core} (h : Retires s t u d) : OnlyCore s t u := by
  obtain ⟨-, -, -, -, -, -, only⟩ := h
  exact only

/-- Whatever retires goes on at the next index (R230, R232). -/
theorem retireCore_pc (s : State) (u : CoreId) (g : Fin 8) (i : Info) (k : Nat) (paired : Bool) (hold gap : Nat)
    (target : Option Nat) (annulNext keepBorrow : Bool) :
    ((s.retireCore u g i k paired hold gap target annulNext keepBorrow).coreOf u).pc = (s.coreOf u).nextIndex :=
  (congrArg Core.pc (State.coreOf_setCore_self ..)).trans rfl

/-- An instruction completes by changing what lies beside the cores, or other cores, and by writing registers of its own. -/
theorem issue_changes_and_sets {s s1 x : State} {u : CoreId} {g : Fin 8} {i : Info} {an : Bool} {body : State → Core → Nat → Res}
    {d : Core} (h : Issues s u g i s1) (ht : i.transfer = false) (hb : ∀ k, body s1 (s1.coreOf u) k = .done (x.setCore u d))
    (hd : d.pc = (x.coreOf u).pc ∧ d.slot = (x.coreOf u).slot ∧ d.budget = (x.coreOf u).budget) :
    ∃ t, s.issue u g i an false body = .next t ∧ Retires x t u d := by
  obtain ⟨t, answered, retires⟩ := issue_done (an := an) h ht hb
  rw [State.coreOf_setCore_self] at retires
  exact ⟨t, answered, retires.of_setCore hd⟩

theorem l2Install_cores (s : State) (b la : Nat) (data : List Course) (dirty : Bool) (owner : Nat) (mask : List Nat) :
    (s.l2Install b la data dirty owner mask).cores = s.cores := by
  unfold State.l2Install
  dsimp only
  split
  · split <;> rfl
  · rfl

theorem l2WriteBack_cores (s : State) (b sl : Nat) (l : Line) : (s.l2WriteBack b sl l).cores = s.cores := by
  unfold State.l2WriteBack
  split
  · rfl
  · exact l2Install_cores ..

theorem coreOf_cleanL1_ne {u v : CoreId} (h : v ≠ u) (s : State) (b : Nat) (p : Line → Bool) :
    (s.cleanL1 u b p).coreOf v = s.coreOf v := by
  unfold State.cleanL1
  refine List.foldlRecOn (motive := fun t : State => t.coreOf v = s.coreOf v) _ _ (State.coreOf_setCore_ne h ..) fun t ih _ _ => ?_
  rw [State.coreOf, l2WriteBack_cores]
  exact ih

/-- A scrubbed stone is as it was before anything ran on it (R183). -/
theorem coreOf_scrubStone_self (s : State) (b slot : Nat) :
    (s.scrubStone b slot).coreOf (.stone b slot) = coreReset (.stone b slot) := by
  simp [State.scrubStone, State.coreOf, tgetD, tget_tdel_self]

theorem coreOf_scrubStone_ne {v : CoreId} {b slot : Nat} (h : v ≠ .stone b slot) (s : State) :
    (s.scrubStone b slot).coreOf v = s.coreOf v := by
  rw [← coreOf_cleanL1_ne h s b fun _ => true]
  simp only [State.scrubStone, State.coreOf, tgetD, tget_tdel_ne h]

theorem coreOf_leaseTo_ne {v : CoreId} {b slot : Nat} (h : v ≠ .stone b slot) (s : State) (sl : Nat) :
    (s.leaseTo b slot sl).coreOf v = s.coreOf v := by
  unfold State.leaseTo
  dsimp only
  split
  · split
    · rfl
    · exact coreOf_scrubStone_ne h s
  · exact coreOf_scrubStone_ne h s

theorem leaseOf_leaseTo (s : State) (b slot sl : Nat) : (s.leaseTo b slot sl).leaseOf b slot = some (sl, s.now) :=
  tget_tset_self ..

end Sys2Proof.Machine
end

section
/-! lease, scrub, borrow and sret on a Quoin core (R183, R233, R234, R236). -/

namespace Sys2Proof.Machine

section
variable {p : Nat} {g : Fin 8} {s s1 : State} {b slot sl : Nat} {rd ra rb : Fin 32}

/-! ### lease (R183, R233) -/

section
variable (issues : Issues s (.quoin p) g (infoS 1 (rS [ra, rb]) (rS [rd]) true) s1)
  (unit : s1.unitSlot ((s1.coreOf (.quoin p)).sr ra.val).toNat = (b, slot))
  (slice : fieldOf ((s1.coreOf (.quoin p)).sr rb.val).toNat 21 12 = sl)
include issues unit slice

theorem lease_refuses (held : s1.leaseFree b slot sl = false) : Answers (.lease (.quoin p) g rd ra rb) s fun t =>
    Retires s1 t (.quoin p) ((s1.coreOf (.quoin p)).setS rd.val 1) := by
  show ∃ t, execLease (.quoin p) g rd ra rb s = .next t ∧ _
  unfold execLease
  refine issue_sets issues rfl (fun _ => ?_) ⟨rfl, rfl, rfl⟩
  simp only [unit, slice, held, Bool.not_false, ↓reduceIte]

theorem lease_waits (free : s1.leaseFree b slot sl = true) (busy : s1.stoneBusy b slot = true) :
    Answers (.lease (.quoin p) g rd ra rb) s fun t => t = s1 := by
  refine .of_exec (t := s1) ?_ rfl
  show execLease (.quoin p) g rd ra rb s = _
  unfold execLease
  refine issue_leave issues fun _ => ?_
  simp only [unit, slice, free, busy, Bool.not_true, Bool.false_eq_true, ↓reduceIte]

theorem lease_leases (free : s1.leaseFree b slot sl = true) (idle : s1.stoneBusy b slot = false) :
    Answers (.lease (.quoin p) g rd ra rb) s fun t =>
      Retires (s1.leaseTo b slot sl) t (.quoin p) ((s1.coreOf (.quoin p)).setS rd.val 0) ∧
        t.leaseOf b slot = some (sl, s1.now) := by
  have quoin : (s1.leaseTo b slot sl).coreOf (.quoin p) = s1.coreOf (.quoin p) := coreOf_leaseTo_ne CoreId.noConfusion s1 sl
  have leases : ∃ t, execLease (.quoin p) g rd ra rb s = .next t ∧
      Retires (s1.leaseTo b slot sl) t (.quoin p) ((s1.coreOf (.quoin p)).setS rd.val 0) := by
    unfold execLease
    refine issue_changes_and_sets issues rfl (fun _ => ?_) (by rw [quoin]; exact ⟨rfl, rfl, rfl⟩)
    simp only [unit, slice, free, idle, Bool.not_true, Bool.false_eq_true, ↓reduceIte]
  obtain ⟨t, answered, retires⟩ := leases
  refine ⟨t, answered, retires, ?_⟩
  rw [State.leaseOf, retires.onlyCore.mason]
  exact leaseOf_leaseTo ..

end

/-! ### scrub (R183, R233) -/

section
variable (issues : Issues s (.quoin p) g (infoS 1 (rS [ra]) [] true) s1)
  (unit : s1.unitSlot ((s1.coreOf (.quoin p)).sr ra.val).toNat = (b, slot))
include issues unit

theorem scrub_scrubs (idle : s1.stoneBusy b slot = false) : Answers (.scrub (.quoin p) g ra) s fun t =>
    Retires (s1.scrubStone b slot) t (.quoin p) ((s1.scrubStone b slot).coreOf (.quoin p)) ∧
      t.coreOf (.stone b slot) = coreReset (.stone b slot) := by
  have scrubs : ∃ t, execScrub (.quoin p) g ra s = .next t ∧
      Retires (s1.scrubStone b slot) t (.quoin p) ((s1.scrubStone b slot).coreOf (.quoin p)) := by
    unfold execScrub
    refine issue_done issues rfl fun _ => ?_
    simp only [unit, idle, Bool.false_eq_true, ↓reduceIte]
  obtain ⟨t, answered, retires⟩ := scrubs
  obtain ⟨-, others⟩ := retires.onlyCore
  exact ⟨t, answered, retires, (others _ CoreId.noConfusion).trans (coreOf_scrubStone_self ..)⟩

theorem scrub_waits (busy : s1.stoneBusy b slot = true) : Answers (.scrub (.quoin p) g ra) s fun t => t = s1 := by
  refine .of_exec (t := s1) ?_ rfl
  show execScrub (.quoin p) g ra s = _
  unfold execScrub
  refine issue_leave issues fun _ => ?_
  simp only [unit, busy, ↓reduceIte]

end

/-! ### borrow and sret (R234, R236, R237) -/

section
variable (issues : Issues s (.quoin p) g (infoS 1 [] [] true) s1)
include issues

theorem borrow_arms : Answers (.borrow (.quoin p) g) s fun t =>
    (t.coreOf (.quoin p)).borrow = true ∧ (t.coreOf (.quoin p)).regs = (s1.coreOf (.quoin p)).regs ∧
      (t.coreOf (.quoin p)).pc = (s1.coreOf (.quoin p)).nextIndex ∧ OnlyCore s1 t (.quoin p) := by
  show ∃ t, execBorrow (.quoin p) g s = .next t ∧ _
  unfold execBorrow
  obtain ⟨k, paired, -, retired⟩ := issue_eq (an := false) (kb := true)
    (body := fun t c _ => .done (t.setCore (.quoin p) { c with borrow := true })) issues
  refine ⟨_, retired, ?_, ?_, ?_, (OnlyCore.setCore ..).trans (OnlyCore.setCore ..)⟩
  · simp [State.retireCore]
  · simp [State.retireCore, Core.regs, infoS]
  · exact (retireCore_pc ..).trans ((congrArg Core.nextIndex (State.coreOf_setCore_self ..)).trans rfl)

theorem sret_resumes : Answers (.sret (.quoin p) g) s fun t =>
    (t.coreOf (.quoin p)).pc = (s1.coreOf (.quoin p)).epc.toNat ∧
      (t.coreOf (.quoin p)).mode = (s1.coreOf (.quoin p)).mode &&& 0xDFF ∧ (t.coreOf (.quoin p)).slot = none ∧
      (t.coreOf (.quoin p)).s = (s1.coreOf (.quoin p)).s ∧ (t.coreOf (.quoin p)).p = (s1.coreOf (.quoin p)).p ∧
      (t.coreOf (.quoin p)).v = (s1.coreOf (.quoin p)).v ∧ OnlyCore s1 t (.quoin p) := by
  show ∃ t, execSret (.quoin p) g s = .next t ∧ _
  unfold execSret
  refine ⟨_, issue_leave issues fun _ => rfl, ?_⟩
  rw [State.coreOf_setCore_self]
  exact ⟨rfl, rfl, rfl, rfl, rfl, rfl, OnlyCore.setCore ..⟩

end
end

/-- Settles O19: a Quoin core is no stone, so neither a lease nor a scrub moves it; lease and scrub wait for a firing to leave
the stone (assumption 28: DEDUCED). -/
theorem supervisorUnits : Obligations.SupervisorUnits := by
  unfold Obligations.SupervisorUnits
  intro p g s s1 u
  refine ⟨fun rd ra rb issues => ⟨?_, ?_, ?_⟩, fun ra issues => ⟨?_, ?_⟩, fun issues => ⟨borrow_arms issues, sret_resumes issues⟩⟩
  · exact lease_refuses issues rfl rfl
  · exact lease_leases issues rfl rfl
  · exact lease_waits issues rfl rfl
  · exact scrub_scrubs issues rfl
  · exact scrub_waits issues rfl

end Sys2Proof.Machine
end

section
/-! Bucket moves, heat periods, tiers and page migration (R180, R181, R193, R195, R197). -/

namespace Sys2Proof.Machine

/-! ### Bucket moves (R180, R181) -/

theorem execBucketLoadMove_starts {bucket dst srcLoad dstLoad : Nat} {s : State} (listed : bucket < 4096)
    (elsewhere : s.bucketHome bucket ≠ dst) (srcWarm : s.bucketHome bucket ∈ s.mason.warm) (dstWarm : dst ∈ s.mason.warm)
    (live : s.bayLive dst = true) (loaded : s.objNum 0x3400 1 [] 0 80 < srcLoad) (light : dstLoad < s.objNum 0x3400 1 [] 0 80)
    (apart : ∀ m ∈ s.mason.moves, ∀ b ∈ [m.2.1, s.bucketHome m.1], b ≠ s.bucketHome bucket ∧ b ≠ dst)
    (movable : s.bucketMovable bucket = true) : exec (.bucketLoadMove bucket dst srcLoad dstLoad) s =
      .next { s with mason := { s.mason with moves := s.mason.moves ++ [(bucket, dst, s.now)] } } := by
  have idle (b : Nat) (hb : b = s.bucketHome bucket ∨ b = dst) :
      (s.mason.moves.any fun m => m.2.1 == b || s.bucketHome m.1 == b) = false := by
    refine List.any_eq_false.2 fun m hm => ?_
    obtain ⟨dstSrc, dstDst⟩ := apart m hm m.2.1 (by simp)
    obtain ⟨srcSrc, srcDst⟩ := apart m hm (s.bucketHome m.1) (by simp)
    obtain rfl | rfl := hb <;> simp [dstSrc, dstDst, srcSrc, srcDst]
  show execBucketLoadMove bucket dst srcLoad dstLoad s = _
  simp only [execBucketLoadMove, idle _ (.inl rfl), idle _ (.inr rfl)]
  rw [if_neg]
  simp [listed, elsewhere, srcWarm, dstWarm, live, loaded, light, movable]

theorem execBucketMoveHandover_rehomes {bucket : Nat} {m : Nat × Nat × Tick} {s : State}
    (moves : s.mason.moves.find? (fun m => m.1 == bucket) = some m) (idle : ∀ i ∈ s.bucketItems bucket, i.stage ≠ .inService) :
    exec (.bucketMoveHandover bucket) s = .next (s.rehome bucket m.2.1) := by
  have noneServed : ((s.bucketItems bucket).any fun i => i.stage == .inService) = false :=
    List.any_eq_false.2 fun i hi => by simpa using idle i hi
  show execBucketMoveHandover bucket s = _
  simp only [execBucketMoveHandover, moves, noneServed, Bool.false_eq_true, ↓reduceIte]

theorem bucketHome_rehome_self (s : State) (bucket dst : Nat) : (s.rehome bucket dst).bucketHome bucket = dst := by
  simp [State.bucketHome, State.rehome, tget_tset_self]

theorem bucketHome_rehome_ne {bucket k : Nat} (h : k ≠ bucket) (s : State) (dst : Nat) :
    (s.rehome bucket dst).bucketHome k = s.bucketHome k := by
  simp only [State.bucketHome, State.rehome, State.bump_mason, tget_tset_ne h]
  rfl

theorem moves_rehome (s : State) (bucket dst : Nat) : ∀ x ∈ (s.rehome bucket dst).mason.moves, x.1 ≠ bucket := by
  simp [State.rehome]

/-! ### Heat and tiers (R193, R195) -/

theorem execHeatPeriodHalving_cools {s : State} (due : s.mason.heatAt + s.objNum 0x3801 1 [] 0 25000000 ≤ s.now) :
    exec .heatPeriodHalving s =
      .next (({ s with mason := { s.mason with heatAt := s.now } } : State).mapAshlars Ashlar.cool) := by
  show execHeatPeriodHalving s = _
  rw [execHeatPeriodHalving, if_neg (Nat.not_lt.2 due)]

/-- The tables with an ashlar in another tier, and whether HBM is being emptied after that (R193). -/
def State.movedTier (s : State) (slice table col idx tier : Nat) (a : Ashlar) : State :=
  let moved : State := { s with tables := mapIf (fun y => y.slice == slice && y.id == table) (fun y => y.setTier col idx tier) s.tables }
  { moved with mason := { s.mason with
      demoting := if a.tier = 0 then decide (moved.hbmLow < moved.hbmInUse) else s.mason.demoting } }

theorem execAshlarTierMove_moves {slice table col idx tier : Nat} {x : Table} {a : Ashlar} {s : State}
    (found : s.tableOf slice table = some x) (at_ : x.ashlarAt col idx = some a)
    (may : s.mayMoveTier x a (s.scanWaits slice table col idx) tier = true) (sound : ∃ r, ashlarRead s.dicts a.courses = .ok r) :
    exec (.ashlarTierMove slice table col idx tier) s = .next (s.movedTier slice table col idx tier a) := by
  obtain ⟨r, read⟩ := sound
  show execAshlarTierMove slice table col idx tier s = _
  simp only [execAshlarTierMove, found, at_, may, read, Bool.not_true, Bool.false_eq_true, or_self, ↓reduceIte]
  rfl

/-! ### Migration (R197) -/

/-- The state after the page of a slice that the entry `e` at `at_` maps has moved to the frames from `dst` on (R197). -/
def State.movePage (s : State) (slice va dst at_ level : Nat) (e : List Course) : State :=
  let n := 2 ^ (10 * (level - 1))
  let s1 := (s.cleanRange (pteFrame e * 4096) (n * 4096)).invalidateRange (dst * 4096) (n * 4096)
  let s2 := ((s1.moveFrames (pteFrame e) dst n).memStore at_ ([nth e 0 0] ++ natCrs 3 dst)).forgetVa slice va
  let s3 := s2.invalidateRange (pteFrame e * 4096) (n * 4096)
  { s3 with memx := { s3.memx with ftype := tset dst (fieldOf (nth e 0 0).toNat 9 8) (tdel (pteFrame e) s3.memx.ftype) } }

theorem execMigration_moves {slice va dst at_ level : Nat} {e : List Course} {s : State}
    (inside : (s.sliceSpace slice).inRange va = true) (created : (s.sliceOf slice).state ≠ 0)
    (leaf : s.leafAt va 6 (s.sliceSpace slice).root (s.sliceSpace slice).levels = some (at_, level, e))
    (unbound : fieldOf (nth e 0 0).toNat 9 8 ≠ 2) (oldFree : s.framesFree (pteFrame e) (2 ^ (10 * (level - 1))) = true)
    (newFree : s.framesFree dst (2 ^ (10 * (level - 1))) = true) (aligned : dst % 2 ^ (10 * (level - 1)) = 0)
    (apart : pteFrame e + 2 ^ (10 * (level - 1)) ≤ dst ∨ dst + 2 ^ (10 * (level - 1)) ≤ pteFrame e) :
    exec (.migration slice va dst) s = .next (s.movePage slice va dst at_ level e) := by
  have apart' : ¬(dst < pteFrame e + 2 ^ (10 * (level - 1)) ∧ pteFrame e < dst + 2 ^ (10 * (level - 1))) := by omega
  show execMigration slice va dst s = _
  simp only [execMigration, inside, created, leaf, unbound, oldFree, newFree, aligned, apart', ne_eq, not_true_eq_false,
    not_false_eq_true, and_self, Bool.not_true, Bool.false_eq_true, or_self, ↓reduceIte]
  rfl

/-- Settles O37: each row under its conditions, from the lemma of its row; a handover is `State.rehome`. -/
theorem masonMovesLoadAndData : Obligations.MasonMovesLoadAndData := by
  unfold Obligations.MasonMovesLoadAndData
  refine ⟨?_, ?_, ?_, ?_, ?_⟩
  · intro bucket dst srcLoad dstLoad s listed elsewhere srcWarm dstWarm live loaded light apart movable
    exact .of_exec (execBucketLoadMove_starts listed elsewhere srcWarm dstWarm live loaded light apart movable) rfl
  · intro bucket m s moves idle
    exact .of_exec (execBucketMoveHandover_rehomes moves idle)
      ⟨bucketHome_rehome_self .., moves_rehome s bucket m.2.1, fun k other => bucketHome_rehome_ne other .., rfl⟩
  · intro s due
    exact .of_exec (execHeatPeriodHalving_cools due) rfl
  · intro slice table col idx tier x a s found at_ may sound
    exact .of_exec (execAshlarTierMove_moves found at_ may sound) ⟨rfl, rfl⟩
  · intro slice va dst at_ level e s inside created leaf n unbound oldFree newFree aligned apart
    refine .of_exec (execMigration_moves inside created leaf unbound oldFree newFree aligned apart) ?_
    rw [State.movePage]

end Sys2Proof.Machine
end

section
/-! SUPPORT. What writing registers leaves of the flow of a core: the index, the delay slot and the budget, which only retiring
moves on (R208, R232). -/

namespace Sys2Proof.Machine

/-- The index, the delay slot and the budget of a core are as they were. -/
def Core.SameFlow (c d : Core) : Prop := d.pc = c.pc ∧ d.slot = c.slot ∧ d.budget = c.budget

theorem Core.SameFlow.refl (c : Core) : c.SameFlow c := ⟨rfl, rfl, rfl⟩

theorem Core.SameFlow.trans {c d e : Core} (h : c.SameFlow d) (k : d.SameFlow e) : c.SameFlow e := by
  obtain ⟨pc, slot, budget⟩ := h
  obtain ⟨pc', slot', budget'⟩ := k
  exact ⟨pc'.trans pc, slot'.trans slot, budget'.trans budget⟩

theorem Core.sameFlow_setS (c : Core) (i : Nat) (v : Scalar) : c.SameFlow (c.setS i v) := ⟨rfl, rfl, rfl⟩

theorem Core.sameFlow_setP (c : Core) (i : Nat) (v : Pred) : c.SameFlow (c.setP i v) := ⟨rfl, rfl, rfl⟩

theorem Core.sameFlow_setV (c : Core) (i : Nat) (x : Vec) : c.SameFlow (c.setV i x) := ⟨rfl, rfl, rfl⟩

theorem Core.sameFlow_withOvf {c d : Core} (h : c.SameFlow d) (ovf : Course) : c.SameFlow { d with ovf := ovf } := h

theorem Core.sameFlow_withDcarry {c d : Core} (h : c.SameFlow d) (dcarry : Course) : c.SameFlow { d with dcarry := dcarry } := h

theorem Core.sameFlow_ite {c a b : Core} {p : Prop} [Decidable p] (h : c.SameFlow a) (k : c.SameFlow b) :
    c.SameFlow (if p then a else b) := by
  split
  · exact h
  · exact k

theorem Core.sameFlow_foldl {α : Type} {f : Core → α → Core} (h : ∀ (c : Core) a, c.SameFlow (f c a)) (l : List α)
    (c : Core) : c.SameFlow (l.foldl f c) :=
  List.foldlRecOn (motive := c.SameFlow) l f (.refl c) fun d ih a _ => ih.trans (h d a)

theorem Core.sameFlow_setGroup (c : Core) (i k : Nat) (cs : List Course) : c.SameFlow (c.setGroup i k cs) :=
  Core.sameFlow_foldl (fun c _ => c.sameFlow_setS ..) _ c

theorem Core.sameFlow_workWrite (c : Core) (a : Nat) (ws : List (Option Course)) : c.SameFlow (c.workWrite a ws) := by
  unfold workWrite
  split <;> exact .refl c

theorem Core.sameFlow_ctlWrite (c : Core) (num : Nat) (x : Scalar) : c.SameFlow (c.ctlWrite num x) := by
  unfold ctlWrite
  split <;> exact .refl c

end Sys2Proof.Machine
end

section
/-! Scalar instructions (R213, R214): the values of the model are those of the manual. -/

namespace Sys2Proof.Machine

section
variable {u : CoreId} {g : Fin 8} {c : Instr} {s s1 : State} {rd ra rb : Fin 32} {pd pa pb : Fin 8} {charge : Nat}

/-! ### Shapes -/

theorem alu_retires {f : Scalar → Scalar → Scalar} {v : Scalar}
    (issues : Issues s u g (infoS charge (rS [ra, rb]) (rS [rd]) true) s1)
    (value : f ((s1.coreOf u).sr ra.val) ((s1.coreOf u).sr rb.val) = v) :
    ∃ t, s.alu u g charge rd ra rb f = .next t ∧ Retires s1 t u ((s1.coreOf u).setS rd.val v) :=
  pureOp_retires issues rfl (by rw [value]) (Core.sameFlow_setS ..)

theorem alu1_retires {f : Scalar → Scalar} {v : Scalar} (issues : Issues s u g (infoS charge (rS [ra]) (rS [rd]) true) s1)
    (value : f ((s1.coreOf u).sr ra.val) = v) :
    ∃ t, s.alu1 u g charge true rd ra f = .next t ∧ Retires s1 t u ((s1.coreOf u).setS rd.val v) :=
  pureOp_retires issues rfl (by rw [value]) (Core.sameFlow_setS ..)

theorem predOp_retires {f : Pred → Pred → Pred} (issues : Issues s u g (infoS 1 (rP [pa, pb]) (rP [pd]) true) s1) :
    ∃ t, s.predOp u g pd pa pb f = .next t ∧
      Retires s1 t u ((s1.coreOf u).setP pd.val (f ((s1.coreOf u).pr pa.val) ((s1.coreOf u).pr pb.val))) :=
  pureOp_retires issues rfl rfl (Core.sameFlow_setP ..)

theorem predGet_retires {f : Pred → Scalar} {v : Scalar} (issues : Issues s u g (infoS 2 (rP [pa]) (rS [rd]) true) s1)
    (value : f ((s1.coreOf u).pr pa.val) = v) :
    ∃ t, s.predGet u g rd pa f = .next t ∧ Retires s1 t u ((s1.coreOf u).setS rd.val v) :=
  pureOp_retires issues rfl (by rw [value]) (Core.sameFlow_setS ..)

end

/-- A choice by two conditions that say the same. -/
theorem ite_eq_of_iff {α : Type} {p q : Prop} [Decidable p] [Decidable q] {a b : α} (h : p ↔ q) :
    (if p then a else b) = if q then a else b :=
  ite_congr (propext h) (fun _ => rfl) fun _ => rfl

/-! ### Values of three registers (R213) -/

theorem sub_eq_ofInt (a b : Scalar) : a - b = BitVec.ofInt 60 (a.toInt - b.toInt) :=
  BitVec.eq_of_toInt_eq (by rw [BitVec.toInt_sub, BitVec.toInt_ofInt])

theorem mulHigh_ofNat (n : Nat) : mulHigh (n : Int) = BitVec.ofNat 60 (n / 2 ^ 60) := by
  rw [mulHigh, ← Int.natCast_ediv, BitVec.ofInt_natCast]

theorem mulHigh_eq (x : Int) : mulHigh x = BitVec.ofInt 60 (x / 2 ^ 60) := rfl

theorem shiftLeft_eq_ofNat (a : Scalar) (k : Nat) : a <<< k = BitVec.ofNat 60 (a.toNat * 2 ^ k) :=
  BitVec.eq_of_toNat_eq (by rw [BitVec.toNat_shiftLeft, BitVec.toNat_ofNat, Nat.shiftLeft_eq])

theorem ushiftRight_eq_ofNat (a : Scalar) (k : Nat) : a >>> k = BitVec.ofNat 60 (a.toNat / 2 ^ k) := by
  rw [← Nat.shiftRight_eq_div_pow, ← BitVec.toNat_ushiftRight, BitVec.ofNat_toNat, BitVec.setWidth_eq]

theorem sshiftRight_eq_ofInt (a : Scalar) (k : Nat) : a.sshiftRight k = BitVec.ofInt 60 (a.toInt / 2 ^ k) := by
  rw [BitVec.sshiftRight, Int.shiftRight_eq_div_pow]
  rfl

/-! ### Saturating sums (R213, R217) -/

/-- A value saturated to a signed range, and whether it left the range. -/
theorem satInt_eq (w : Nat) (v : Int) :
    satInt w v = (max (-((2 ^ (w - 1) : Nat) : Int)) (min (((2 ^ (w - 1) : Nat) : Int) - 1) v),
      decide (max (-((2 ^ (w - 1) : Nat) : Int)) (min (((2 ^ (w - 1) : Nat) : Int) - 1) v) ≠ v)) := by
  have positive : (0 : Int) < ((2 ^ (w - 1) : Nat) : Int) := Int.natCast_pos.2 (Nat.two_pow_pos _)
  unfold satInt
  generalize ((2 ^ (w - 1) : Nat) : Int) = n at positive ⊢
  dsimp only
  split
  · rw [Int.min_eq_left (by omega), Int.max_eq_right (by omega), decide_eq_true (by omega)]
  · split
    · rw [Int.min_eq_right (by omega), Int.max_eq_left (by omega), decide_eq_true (by omega)]
    · rw [Int.min_eq_right (by omega), Int.max_eq_right (by omega), decide_eq_false (by omega)]

/-- A result that was clamped sets ROW and CTX of ctl.ovf (R217). -/
theorem Core.saturated_decide_ne (c : Core) (r v : Int) :
    c.saturated (decide (r ≠ v)) = { c with ovf := if r = v then c.ovf else c.ovf ||| 0x003 } := by
  unfold Core.saturated
  by_cases h : r = v
  · rw [decide_eq_false (not_not_intro h), if_pos h]; rfl
  · rw [decide_eq_true h, if_neg h]; rfl

theorem aluSat_retires {u : CoreId} {g : Fin 8} {s s1 : State} {rd ra rb : Fin 32} {f : Int → Int → Int}
    (issues : Issues s u g (infoS 1 (rS [ra, rb]) (rS [rd] ++ [rOvf]) true) s1) :
    ∃ t, s.aluSat u g rd ra rb f = .next t ∧
      let c := s1.coreOf u
      let exact := f (c.sr ra.val).toInt (c.sr rb.val).toInt
      let r := max (-(2 ^ 59)) (min (2 ^ 59 - 1) exact)
      Retires s1 t u { c.setS rd.val (BitVec.ofInt 60 r) with ovf := if r = exact then c.ovf else c.ovf ||| 0x003 } := by
  refine pureOp_retires issues rfl ?_ (Core.sameFlow_withOvf (Core.sameFlow_setS ..) _)
  simp only [satScalar, satInt_eq]
  exact Core.saturated_decide_ne ..

/-! ### Values of one register (R213) -/

theorem popCount_toNat (a : Scalar) : popCount 60 a.toNat = ((List.range 60).filter fun k => a.getLsbD k).length := rfl

theorem find?_range'_getD (p : Nat → Bool) (k n : Nat) :
    ((List.range' k n).find? p).getD (k + n) = k + ((List.range' k n).takeWhile fun i => !(p i)).length := by
  induction n generalizing k with
  | zero => rfl
  | succ n ih =>
    rw [List.range'_succ, List.find?_cons, List.takeWhile_cons]
    cases p k with
    | true => rfl
    | false => simpa [Nat.add_assoc, Nat.add_comm, Nat.add_left_comm] using ih (k + 1)

/-- The first number below `n` that satisfies `p` is how many there are before it. -/
theorem find?_range_getD (p : Nat → Bool) (n : Nat) :
    ((List.range n).find? p).getD n = ((List.range n).takeWhile fun k => !(p k)).length := by
  simpa [List.range_eq_range'] using find?_range'_getD p 0 n

theorem leadingZeros_eq (a : Scalar) :
    leadingZeros a = ((List.range 60).takeWhile fun k => !(a.getLsbD (59 - k))).length := by
  rw [← find?_range_getD (fun k => a.getLsbD (59 - k)) 60, leadingZeros]
  cases (List.range 60).find? fun k => a.getLsbD (59 - k) <;> rfl

theorem firstBit_eq (p : Pred) : firstBit p = ((List.range 64).takeWhile fun k => !(p.getLsbD k)).length :=
  find?_range_getD p.getLsbD 64

theorem signedOf_toNat {w k : Nat} (a : BitVec w) (positive : 0 < k) : signedOf k a.toNat = (a.setWidth k).toInt := by
  have half : 2 ^ k = 2 * 2 ^ (k - 1) := by rw [← Nat.pow_succ', Nat.succ_eq_add_one, Nat.sub_add_cancel positive]
  rw [signedOf, BitVec.toInt_eq_toNat_cond, BitVec.toNat_setWidth]
  refine ite_eq_of_iff ?_
  omega

theorem sextN_eq {n : Nat} (positive : 0 < n) (a : Scalar) : sextN n a = (a.setWidth (12 * n)).signExtend 60 := by
  rw [sextN, signedOf_toNat a (by omega), BitVec.signExtend]

theorem zextN_eq (n : Nat) (a : Scalar) : zextN n a = (a.setWidth (12 * n)).setWidth 60 :=
  BitVec.eq_of_toNat_eq (by simp [zextN, scalarOf])

/-! ### Immediates (R214) -/

theorem add_signExtend (a : Scalar) (imm : BitVec 17) : a + imm.signExtend 60 = BitVec.ofInt 60 (a.toInt + imm.toInt) := by
  rw [BitVec.ofInt_add, BitVec.ofInt_toInt, BitVec.signExtend]

/-- lih: the old value moved up by 20 bits, and the immediate below it. -/
theorem shiftLeft_add_setWidth (a : Scalar) (imm : BitVec 20) :
    (a <<< 20) + imm.setWidth 60 = BitVec.ofNat 60 (a.toNat * 2 ^ 20 + imm.toNat) :=
  BitVec.eq_of_toNat_eq (by simp [Nat.shiftLeft_eq])

/-! ### Conditions (R214) -/

theorem ccHolds_iff {cc : Nat} (a b : Scalar) (defined : cc ≤ 5) : ccHolds cc a b = true ↔ Claims.conditionOf cc a b := by
  match cc, defined with
  | 0, _ => exact beq_iff_eq
  | 1, _ => exact bne_iff_ne
  | 2, _ => exact BitVec.slt_iff_toInt_lt
  | 3, _ =>
    show (!a.slt b) = true ↔ b.toInt ≤ a.toInt
    rw [Bool.not_eq_true', ← Bool.not_eq_true, BitVec.slt_iff_toInt_lt, Int.not_lt]
  | 4, _ => exact BitVec.ult_iff_toNat_lt
  | 5, _ =>
    show (!a.ult b) = true ↔ b.toNat ≤ a.toNat
    rw [Bool.not_eq_true', ← Bool.not_eq_true, BitVec.ult_iff_toNat_lt, Nat.not_lt]

theorem isMask_maskOf {b : Bool} {p : Prop} (h : b = true ↔ p) : Claims.IsMask (maskOf b) p := by
  unfold Claims.IsMask maskOf
  cases b <;> simp_all

/-- Settles O1: each row is `State.alu` with an operation whose value is the one of R213. -/
theorem scalarThreeRegisterResults : Obligations.ScalarThreeRegisterResults := by
  unfold Obligations.ScalarThreeRegisterResults
  simp only [List.forall_mem_cons]
  refine ⟨?_, ?_, ?_, ?_, ?_, ?_, ?_, ?_, ?_, ?_, ?_, ?_, ?_, ?_, ?_, ?_, List.forall_mem_nil _⟩
  all_goals intro u g rd ra rb s s1 issues
  · show ∃ t, execAdd u g rd ra rb s = .next t ∧ _
    exact alu_retires issues (BitVec.add_def ..)
  · show ∃ t, execSub u g rd ra rb s = .next t ∧ _
    exact alu_retires issues (sub_eq_ofInt ..)
  · show ∃ t, execMul u g rd ra rb s = .next t ∧ _
    exact alu_retires issues (BitVec.eq_of_toNat_eq (BitVec.toNat_mul ..))
  · show ∃ t, execMulh u g rd ra rb s = .next t ∧ _
    exact alu_retires issues (mulHigh_eq ..)
  · show ∃ t, execMulhu u g rd ra rb s = .next t ∧ _
    exact alu_retires issues (mulHigh_ofNat ..)
  · show ∃ t, execAnd u g rd ra rb s = .next t ∧ _
    exact alu_retires issues rfl
  · show ∃ t, execOr u g rd ra rb s = .next t ∧ _
    exact alu_retires issues rfl
  · show ∃ t, execXor u g rd ra rb s = .next t ∧ _
    exact alu_retires issues rfl
  · show ∃ t, execAndn u g rd ra rb s = .next t ∧ _
    exact alu_retires issues rfl
  · show ∃ t, execShl u g rd ra rb s = .next t ∧ _
    exact alu_retires issues (shiftLeft_eq_ofNat ..)
  · show ∃ t, execShr u g rd ra rb s = .next t ∧ _
    exact alu_retires issues (ushiftRight_eq_ofNat ..)
  · show ∃ t, execSar u g rd ra rb s = .next t ∧ _
    exact alu_retires issues (sshiftRight_eq_ofInt ..)
  · show ∃ t, execMin u g rd ra rb s = .next t ∧ _
    exact alu_retires issues (ite_eq_of_iff BitVec.slt_iff_toInt_lt)
  · show ∃ t, execMax u g rd ra rb s = .next t ∧ _
    exact alu_retires issues (ite_eq_of_iff BitVec.slt_iff_toInt_lt)
  · show ∃ t, execMinu u g rd ra rb s = .next t ∧ _
    exact alu_retires issues (ite_eq_of_iff BitVec.ult_iff_toNat_lt)
  · show ∃ t, execMaxu u g rd ra rb s = .next t ∧ _
    exact alu_retires issues (ite_eq_of_iff BitVec.ult_iff_toNat_lt)


/-- Settles O2, from `satInt_eq`: a saturated sum is the clamped one. -/
theorem saturatingSumsSetOverflow : Obligations.SaturatingSumsSetOverflow := by
  unfold Obligations.SaturatingSumsSetOverflow
  simp only [List.forall_mem_cons]
  refine ⟨?_, ?_, List.forall_mem_nil _⟩
  all_goals intro u g rd ra rb s s1 issues
  · show ∃ t, execAdds u g rd ra rb s = .next t ∧ _
    exact aluSat_retires issues
  · show ∃ t, execSubs u g rd ra rb s = .next t ∧ _
    exact aluSat_retires issues

/-- Settles O3: each row is `State.alu1` with an operation whose value is the one of R213. -/
theorem scalarOneRegisterResults : Obligations.ScalarOneRegisterResults := by
  unfold Obligations.ScalarOneRegisterResults
  simp only [List.flatMap_cons, List.flatMap_nil, List.cons_append, List.nil_append, List.forall_mem_cons]
  refine ⟨?_, ?_, ?_, ?_, ?_, ?_, ?_, ?_, ?_, ?_, List.forall_mem_nil _⟩
  all_goals intro u g rd ra s s1 issues
  · show ∃ t, execPopc u g rd ra s = .next t ∧ _
    exact alu1_retires issues (congrArg scalarOf (popCount_toNat _))
  · show ∃ t, execClz u g rd ra s = .next t ∧ _
    exact alu1_retires issues (congrArg scalarOf (leadingZeros_eq _))
  · show ∃ t, execSext u g 1 rd ra s = .next t ∧ _
    exact alu1_retires issues (sextN_eq (by decide) _)
  · show ∃ t, execZext u g 1 rd ra s = .next t ∧ _
    exact alu1_retires issues (zextN_eq ..)
  · show ∃ t, execSext u g 2 rd ra s = .next t ∧ _
    exact alu1_retires issues (sextN_eq (by decide) _)
  · show ∃ t, execZext u g 2 rd ra s = .next t ∧ _
    exact alu1_retires issues (zextN_eq ..)
  · show ∃ t, execSext u g 3 rd ra s = .next t ∧ _
    exact alu1_retires issues (sextN_eq (by decide) _)
  · show ∃ t, execZext u g 3 rd ra s = .next t ∧ _
    exact alu1_retires issues (zextN_eq ..)
  · show ∃ t, execSext u g 4 rd ra s = .next t ∧ _
    exact alu1_retires issues (sextN_eq (by decide) _)
  · show ∃ t, execZext u g 4 rd ra s = .next t ∧ _
    exact alu1_retires issues (zextN_eq ..)

/-- Settles O4: sign extension is the word of the signed immediate. -/
theorem immediateResults : Obligations.ImmediateResults := by
  unfold Obligations.ImmediateResults
  simp only [List.forall_mem_cons]
  refine ⟨⟨?_, ?_, ?_, ?_, List.forall_mem_nil _⟩, ⟨?_, ?_, ?_, List.forall_mem_nil _⟩, ?_, ?_⟩
  · intro u g rd ra imm s s1 issues
    show ∃ t, execAddi u g rd ra imm s = .next t ∧ _
    exact alu1_retires issues (add_signExtend ..)
  · intro u g rd ra imm s s1 issues
    show ∃ t, execAndi u g rd ra imm s = .next t ∧ _
    exact alu1_retires issues rfl
  · intro u g rd ra imm s s1 issues
    show ∃ t, execOri u g rd ra imm s = .next t ∧ _
    exact alu1_retires issues rfl
  · intro u g rd ra imm s s1 issues
    show ∃ t, execXori u g rd ra imm s = .next t ∧ _
    exact alu1_retires issues rfl
  · intro u g rd ra amount s s1 issues
    show ∃ t, execShli u g rd ra amount s = .next t ∧ _
    exact alu1_retires issues (shiftLeft_eq_ofNat ..)
  · intro u g rd ra amount s s1 issues
    show ∃ t, execShri u g rd ra amount s = .next t ∧ _
    exact alu1_retires issues (ushiftRight_eq_ofNat ..)
  · intro u g rd ra amount s s1 issues
    show ∃ t, execSari u g rd ra amount s = .next t ∧ _
    exact alu1_retires issues (sshiftRight_eq_ofInt ..)
  · intro u g rd imm s s1 issues
    show ∃ t, execLi u g rd imm s = .next t ∧ _
    exact pureOp_retires issues rfl rfl (Core.sameFlow_setS ..)
  · intro u g rd imm s s1 issues
    show ∃ t, execLih u g rd imm s = .next t ∧ _
    refine pureOp_retires issues rfl ?_ (Core.sameFlow_setS ..)
    rw [shiftLeft_add_setWidth]

/-- A compare of any two sources writes a mask of its condition (R214). -/
theorem compare_retires {u : CoreId} {g pd : Fin 8} {s s1 : State} {cc : Nat} {reads : List RegName} {a b : Core → Scalar}
    (defined : cc ≤ 5) (issues : Issues s u g (infoS 1 reads (rP [pd]) true) s1) :
    ∃ m, Claims.IsMask m (Claims.conditionOf cc (a (s1.coreOf u)) (b (s1.coreOf u))) ∧
      ∃ t, s.pureOp u g (infoS 1 reads (rP [pd]) (decide (cc ≤ 5)))
          (fun c => c.setP pd.val (maskOf (ccHolds cc (a c) (b c)))) = .next t ∧
        Retires s1 t u ((s1.coreOf u).setP pd.val m) := by
  rw [decide_eq_true defined]
  exact ⟨_, isMask_maskOf (ccHolds_iff _ _ defined), pureOp_retires issues rfl rfl (Core.sameFlow_setP ..)⟩

/-- Settles O5, the compares from `ccHolds_iff`. -/
theorem predicateResults : Obligations.PredicateResults := by
  unfold Obligations.PredicateResults
  simp only [List.forall_mem_cons]
  refine ⟨?_, ?_, ⟨?_, ?_, ?_, ?_, List.forall_mem_nil _⟩, ?_, ?_, ?_, ?_, ?_, List.forall_mem_nil _⟩
  · intro u g pd cc ra rb s s1 defined issues
    exact compare_retires (a := fun c => c.sr ra.val) (b := fun c => c.sr rb.val) defined issues
  · intro u g pd cc ra imm s s1 defined issues
    exact compare_retires (a := fun c => c.sr ra.val) (b := fun _ => imm.signExtend 60) defined issues
  · intro u g pd pa pb s s1 issues
    show ∃ t, execPand u g pd pa pb s = .next t ∧ _
    exact predOp_retires issues
  · intro u g pd pa pb s s1 issues
    show ∃ t, execPor u g pd pa pb s = .next t ∧ _
    exact predOp_retires issues
  · intro u g pd pa pb s s1 issues
    show ∃ t, execPxor u g pd pa pb s = .next t ∧ _
    exact predOp_retires issues
  · intro u g pd pa pb s s1 issues
    show ∃ t, execPandn u g pd pa pb s = .next t ∧ _
    exact predOp_retires issues
  · intro u g pd pa s s1 issues
    show ∃ t, execPnot u g pd pa s = .next t ∧ _
    exact pureOp_retires issues rfl rfl (Core.sameFlow_setP ..)
  · intro u g pd ra s s1 issues
    show ∃ t, execPmov u g pd ra s = .next t ∧ _
    refine pureOp_retires issues rfl ?_ (Core.sameFlow_setP ..)
    rw [BitVec.ofNat_toNat]
  · intro u g pa rd s s1 issues
    show ∃ t, execPget u g rd pa s = .next t ∧ _
    exact predGet_retires issues (BitVec.ofNat_toNat ..).symm
  · intro u g pa rd s s1 issues
    show ∃ t, execPpop u g rd pa s = .next t ∧ _
    exact predGet_retires issues rfl
  · intro u g pa rd s s1 issues
    show ∃ t, execPfirst u g rd pa s = .next t ∧ _
    exact predGet_retires issues (congrArg scalarOf (firstBit_eq _))

end Sys2Proof.Machine
end

section
/-! Decimal instructions (R215-R217): pairs, quads, their saturation and their faults. -/

namespace Sys2Proof.Machine

/-! ### Pairs and quads (R200, R215) -/

theorem Core.needPair_ok {c : Core} {i : Nat} {v : Int} (h : c.pairDec i = some v) : c.needPair i = .ok v := by
  rw [needPair, h]

theorem Core.needPair_error {c : Core} {i : Nat} (h : c.pairDec i = none) : c.needPair i = .error badLimb := by
  rw [needPair, h]

theorem Core.needQuad_ok {c : Core} {i : Nat} {v : Int} (h : c.quadDec i = some v) : c.needQuad i = .ok v := by
  rw [needQuad, h]

/-- Writing a pair or a quad changes scalar registers only. -/
theorem Core.setGroup_frame (c : Core) (i k : Nat) (cs : List Course) :
    c.setGroup i k cs = { c with s := (c.setGroup i k cs).s } :=
  List.foldlRecOn (motive := fun d : Core => d = { c with s := d.s }) _ _ rfl fun d ih _ _ => by rw [ih]; rfl

theorem Core.setGroup_ovf (c : Core) (i k : Nat) (cs : List Course) : (c.setGroup i k cs).ovf = c.ovf := by
  rw [setGroup_frame]

theorem Core.sameFlow_setPairDec (c : Core) (i : Nat) (v : Int) : c.SameFlow (c.setPairDec i v) := c.sameFlow_setGroup ..

/-! ### Saturation (R67, R217) -/

theorem satMag_eq (lim : Nat) (v : Int) : satMag lim v = (Claims.clamp lim v, decide (Claims.clamp lim v ≠ v)) := by
  unfold satMag Claims.clamp
  split
  · rw [Int.min_eq_right (by omega), Int.max_eq_right (by omega), decide_eq_false (by omega)]
  · split
    · rw [Int.min_eq_right (by omega), Int.max_eq_left (by omega), decide_eq_true (by omega)]
    · rw [Int.min_eq_left (by omega), Int.max_eq_right (by omega), decide_eq_true (by omega)]

theorem satUint_eq (w : Nat) (v : Int) :
    satUint w v = (max 0 (min (((2 ^ w : Nat) : Int) - 1) v), decide (max 0 (min (((2 ^ w : Nat) : Int) - 1) v) ≠ v)) := by
  have positive : (0 : Int) < ((2 ^ w : Nat) : Int) := Int.natCast_pos.2 (Nat.two_pow_pos _)
  unfold satUint
  generalize ((2 ^ w : Nat) : Int) = n at positive ⊢
  dsimp only
  split
  · rw [Int.min_eq_left (by omega), Int.max_eq_right (by omega), decide_eq_true (by omega)]
  · split
    · rw [Int.min_eq_right (by omega), Int.max_eq_left (by omega), decide_eq_true (by omega)]
    · rw [Int.min_eq_right (by omega), Int.max_eq_right (by omega), decide_eq_false (by omega)]

/-- A core written with a clamped result, and the overflow of the core before. -/
theorem Core.saturated_decide_ne_of_ovf {c d : Core} (h : d.ovf = c.ovf) (r v : Int) :
    d.saturated (decide (r ≠ v)) = { d with ovf := if r = v then c.ovf else c.ovf ||| 0x003 } := by
  rw [Core.saturated_decide_ne, h]

theorem Core.setPairDec_saturated (c : Core) (rd lim : Nat) (v : Int) :
    (c.setPairDec rd (satMag lim v).1).saturated (satMag lim v).2 = Claims.withPair c rd lim v := by
  rw [satMag_eq]
  exact saturated_decide_ne_of_ovf (setGroup_ovf ..) ..

theorem Core.sameFlow_withPair (c : Core) (rd lim : Nat) (v : Int) : c.SameFlow (Claims.withPair c rd lim v) :=
  c.sameFlow_setPairDec rd (Claims.clamp lim v)

/-! ### Shapes -/

section
variable {u : CoreId} {g pd : Fin 8} {s s1 : State} {rd ra rb : Fin 32} {a b : Int} {d : Core} {occ charge : Nat}
  {reads sets writes : List RegName} {legal : Bool}

theorem decOp_retires {f : Core → Int → Int → Core}
    (okD : pairOk rd = true) (okA : pairOk ra = true) (okB : pairOk rb = true)
    (issues : Issues s u g { infoS charge (rPair [ra, rb] ++ reads) (rPair [rd] ++ sets) true with occ := occ } s1)
    (first : (s1.coreOf u).pairDec ra.val = some a) (other : (s1.coreOf u).pairDec rb.val = some b)
    (value : f (s1.coreOf u) a b = d) (flow : (s1.coreOf u).SameFlow d) :
    ∃ t, s.decOp u g occ charge reads sets rd ra rb f = .next t ∧ Retires s1 t u d := by
  unfold State.decOp
  rw [okD, okA, okB]
  refine tryOp_retires issues rfl ?_ flow
  rw [Core.needPair_ok first, Core.needPair_ok other, ← value]
  rfl

theorem decOp_faults {f : Core → Int → Int → Core}
    (okD : pairOk rd = true) (okA : pairOk ra = true) (okB : pairOk rb = true)
    (issues : Issues s u g { infoS charge (rPair [ra, rb] ++ reads) (rPair [rd] ++ sets) true with occ := occ } s1)
    (bad : (s1.coreOf u).pairDec ra.val = none ∨ (s1.coreOf u).pairDec rb.val = none) :
    ∃ t, s.decOp u g occ charge reads sets rd ra rb f = .next t ∧ ∃ k, t = s1.faultAt u k badLimb 0 none := by
  unfold State.decOp
  rw [okD, okA, okB]
  refine tryOp_faults issues ?_
  cases first : (s1.coreOf u).pairDec ra.val with
  | none => rw [Core.needPair_error first]; rfl
  | some a =>
    have other := bad.resolve_left (by rw [first]; exact Option.some_ne_none a)
    rw [Core.needPair_ok first, Core.needPair_error other]
    rfl

theorem decOp1_retires {f : Core → Int → Core} (ok : legal = true) (okA : pairOk ra = true)
    (issues : Issues s u g (infoS charge (rPair [ra]) writes true) s1)
    (source : (s1.coreOf u).pairDec ra.val = some a) (value : f (s1.coreOf u) a = d) (flow : (s1.coreOf u).SameFlow d) :
    ∃ t, s.decOp1 u g charge legal writes ra f = .next t ∧ Retires s1 t u d := by
  unfold State.decOp1
  rw [ok, okA]
  refine tryOp_retires issues rfl ?_ flow
  rw [Core.needPair_ok source, ← value]
  rfl

theorem decCmp_retires {f : Int → Int → Bool} {p : Prop} (okA : pairOk ra = true) (okB : pairOk rb = true)
    (issues : Issues s u g (infoS 3 (rPair [ra, rb]) (rP [pd]) true) s1)
    (first : (s1.coreOf u).pairDec ra.val = some a) (other : (s1.coreOf u).pairDec rb.val = some b) (holds : f a b = true ↔ p) :
    ∃ m, Claims.IsMask m p ∧ ∃ t, s.decCmp u g pd ra rb f = .next t ∧ Retires s1 t u ((s1.coreOf u).setP pd.val m) := by
  refine ⟨_, isMask_maskOf holds, ?_⟩
  unfold State.decCmp
  rw [okA, okB]
  refine tryOp_retires issues rfl ?_ (Core.sameFlow_setP ..)
  rw [Core.needPair_ok first, Core.needPair_ok other]
  rfl

end

/-! ### Two pairs (R215) -/

theorem Core.putPair_eq (c : Core) (rd : Fin 32) (v : Int) : c.putPair rd v = Claims.withPair c rd.val (10 ^ 30 - 1) v :=
  c.setPairDec_saturated ..

theorem Core.carryIn_eq (c : Core) : c.carryIn = c.dcarry.toNat % 2 := by
  unfold carryIn BitVec.getLsbD
  rw [Nat.testBit_zero]
  rcases Nat.mod_two_eq_zero_or_one c.dcarry.toNat with h | h
  · rw [h]; rfl
  · rw [h]; rfl

theorem Core.carryOut_eq (c : Core) (m n : Nat) : c.carryOut (decide (n ≤ m)) =
    { c with dcarry := if m < n then 0 else 1 } := by
  unfold carryOut
  by_cases h : m < n
  · rw [decide_eq_false (by omega), if_pos h]; rfl
  · rw [decide_eq_true (by omega), if_neg h]; rfl

/-- Settles O6, from the shape of a decimal instruction on two pairs of valid limbs. -/
theorem decimalTwoPairResults : Obligations.DecimalTwoPairResults := by
  unfold Obligations.DecimalTwoPairResults
  simp only [List.forall_mem_cons]
  refine ⟨⟨?_, ?_, ?_, List.forall_mem_nil _⟩, ?_, ?_⟩
  all_goals intro u g rd ra rb s s1 a b okD okA okB issues first other
  · show ∃ t, execDadd u g rd ra rb s = .next t ∧ _
    exact decOp_retires okD okA okB issues first other (Core.putPair_eq ..) (Core.sameFlow_withPair ..)
  · show ∃ t, execDsub u g rd ra rb s = .next t ∧ _
    exact decOp_retires okD okA okB issues first other (Core.putPair_eq ..) (Core.sameFlow_withPair ..)
  · show ∃ t, execDmul u g rd ra rb s = .next t ∧ _
    exact decOp_retires okD okA okB issues first other (Core.putPair_eq ..) (Core.sameFlow_withPair ..)
  · show ∃ t, execDmulW u g rd ra rb s = .next t ∧ _
    unfold execDmulW
    rw [okD, okA, okB]
    refine tryOp_retires issues rfl ?_ (Core.sameFlow_setGroup ..)
    rw [Core.needPair_ok first, Core.needPair_ok other]
    rfl
  · show ∃ t, execDaddC u g rd ra rb s = .next t ∧ _
    refine decOp_retires okD okA okB issues first other ?_ (Core.sameFlow_withDcarry (Core.sameFlow_setPairDec ..) _)
    rw [Core.carryOut_eq, Core.carryIn_eq]

/-! ### One pair (R215, R216) -/

theorem natAbs_eq_ite (a : Int) : (a.natAbs : Int) = if a < 0 then -a else a := by
  split <;> omega

theorem roundDec_eq (k : Nat) (v : Int) : roundDec k v = Claims.roundHalfEven k v := rfl

theorem Core.putInt_eq (c : Core) (n : Nat) (rd : Fin 32) (v : Int) : c.putInt n rd v =
    if n ≤ 5 then c.setS rd.val (BitVec.ofInt 60 v) else c.setGroup rd.val 2 (natCrs 10 (v % 2 ^ 120).toNat) := by
  rw [putInt, wrapTo, Int.natCast_pow]
  rfl

theorem Core.putInt_ovf (c : Core) (n : Nat) (rd : Fin 32) (v : Int) : (c.putInt n rd v).ovf = c.ovf := by
  unfold putInt
  split
  · rfl
  · exact setGroup_ovf ..

theorem Core.sameFlow_putInt (c : Core) (n : Nat) (rd : Fin 32) (v : Int) : c.SameFlow (c.putInt n rd v) := by
  unfold putInt
  split
  · exact sameFlow_setS ..
  · exact sameFlow_setGroup ..

/-- dcvt.i.N and dcvt.u.N, for the saturation of either (R215, R217). -/
theorem dcvt_retires {u : CoreId} {g : Fin 8} {s s1 : State} {n : Nat} {rd ra : Fin 32} {a r : Int} {sat : Int → Int × Bool}
    (ok : dcvtOk n rd ra = true)
    (issues : Issues s u g (infoS 6 (rPair [ra]) ((if n ≤ 5 then rS [rd] else rPair [rd]) ++ [rOvf]) true) s1)
    (source : (s1.coreOf u).pairDec ra.val = some a) (clamped : sat a = (r, decide (r ≠ a))) :
    ∃ t, s.decOp1 u g 6 (dcvtOk n rd ra) (cvtWrites n rd) ra
        (fun c a => (c.putInt n rd (sat a).1).saturated (sat a).2) = .next t ∧
      Retires s1 t u { (if n ≤ 5 then (s1.coreOf u).setS rd.val (BitVec.ofInt 60 r)
          else (s1.coreOf u).setGroup rd.val 2 (natCrs 10 (r % 2 ^ 120).toNat)) with
        ovf := if r = a then (s1.coreOf u).ovf else (s1.coreOf u).ovf ||| 0x003 } := by
  obtain ⟨⟨-, okA⟩, -⟩ : (_ ∧ pairOk ra = true) ∧ _ := by simpa only [dcvtOk, Bool.and_eq_true] using ok
  refine decOp1_retires ok okA issues source ?_ (Core.sameFlow_withOvf ?_ _)
  · rw [clamped, ← Core.putInt_eq]
    exact Core.saturated_decide_ne_of_ovf (Core.putInt_ovf ..) ..
  · rw [← Core.putInt_eq]
    exact Core.sameFlow_putInt ..

/-- Settles O7, the saturations from `satMag_eq`, `satInt_eq` and `satUint_eq`. -/
theorem decimalOnePairResults : Obligations.DecimalOnePairResults := by
  unfold Obligations.DecimalOnePairResults
  simp only [List.forall_mem_cons]
  refine ⟨⟨?_, ?_, List.forall_mem_nil _⟩, ?_, ?_, ?_, ?_, ⟨?_, ?_, List.forall_mem_nil _⟩, ?_⟩
  · intro u g rd ra s s1 a okD okA issues source
    show ∃ t, execDabs u g rd ra s = .next t ∧ _
    refine decOp1_retires okD okA issues source ?_ (Core.sameFlow_setPairDec ..)
    rw [natAbs_eq_ite]
  · intro u g rd ra s s1 a okD okA issues source
    show ∃ t, execDneg u g rd ra s = .next t ∧ _
    exact decOp1_retires okD okA issues source rfl (Core.sameFlow_setPairDec ..)
  · intro u g rd ra k s s1 a okD okA bound issues source
    show ∃ t, execDsl u g rd ra k s = .next t ∧ _
    refine decOp1_retires ?_ okA issues source ?_ (Core.sameFlow_withPair ..)
    · rw [okD, decide_eq_true bound]; rfl
    · rw [Core.putPair_eq, Int.natCast_pow]; rfl
  · intro u g n rd ra s s1 a low high okD okA issues source
    show ∃ t, execDpack u g n rd ra s = .next t ∧ _
    refine decOp1_retires ?_ okA issues source ?_ (Core.sameFlow_withOvf (Core.sameFlow_setGroup ..) _)
    · rw [okD, inRange, decide_eq_true ⟨low, high⟩]; rfl
    · rw [satMag_eq]; exact Core.saturated_decide_ne_of_ovf (Core.setGroup_ovf ..) ..
  · intro u g n rd ra s s1 a low high okD okA issues source
    show ∃ t, execDext u g n rd ra s = .next t ∧ _
    unfold execDext
    rw [okD, okA, inRange, decide_eq_true ⟨low, high⟩]
    refine tryOp_retires issues rfl ?_ (Core.sameFlow_setPairDec ..)
    rw [source]
  · intro u g rd ra s s1 okD issues
    show ∃ t, execDcvtD u g rd ra s = .next t ∧ _
    unfold execDcvtD
    rw [okD]
    exact pureOp_retires issues rfl rfl (Core.sameFlow_setPairDec ..)
  · intro u g n rd ra s s1 a ok issues source
    show ∃ t, execDcvtI u g n rd ra s = .next t ∧ _
    exact dcvt_retires ok issues source (satInt_eq ..)
  · intro u g n rd ra s s1 a ok issues source
    show ∃ t, execDcvtU u g n rd ra s = .next t ∧ _
    exact dcvt_retires ok issues source (satUint_eq ..)
  · intro u g rd ra wide k n s s1 a ok issues source
    show ∃ t, execDfit u g rd ra wide k n s = .next t ∧ _
    unfold execDfit
    rw [ok]
    refine tryOp_retires issues rfl ?_ (Core.sameFlow_withPair ..)
    rw [← roundDec_eq, ← Core.setPairDec_saturated]
    cases wide with
    | true => simp only [↓reduceIte, Core.needQuad_ok source]; rfl
    | false => simp only [Bool.false_eq_true, ↓reduceIte, Core.needPair_ok source]; rfl

/-! ### Compares and faults (R214, R215) -/

/-- Settles O8: a source that is no limb faults before the operation. -/
theorem decimalComparesAndInvalidLimbs : Obligations.DecimalComparesAndInvalidLimbs := by
  unfold Obligations.DecimalComparesAndInvalidLimbs
  simp only [List.forall_mem_cons]
  refine ⟨⟨?_, ?_, ?_, ?_, List.forall_mem_nil _⟩, ?_, ?_, ?_, ?_, List.forall_mem_nil _⟩
  · intro u g pd ra rb s s1 a b okA okB issues first other
    exact decCmp_retires okA okB issues first other beq_iff_eq
  · intro u g pd ra rb s s1 a b okA okB issues first other
    exact decCmp_retires okA okB issues first other bne_iff_ne
  · intro u g pd ra rb s s1 a b okA okB issues first other
    exact decCmp_retires okA okB issues first other decide_eq_true_iff
  · intro u g pd ra rb s s1 a b okA okB issues first other
    exact decCmp_retires okA okB issues first other decide_eq_true_iff
  · intro u g rd ra rb s s1 okD okA okB issues bad
    show ∃ t, execDadd u g rd ra rb s = .next t ∧ _
    exact decOp_faults okD okA okB issues bad
  · intro u g rd ra rb s s1 okD okA okB issues bad
    show ∃ t, execDsub u g rd ra rb s = .next t ∧ _
    exact decOp_faults okD okA okB issues bad
  · intro u g rd ra rb s s1 okD okA okB issues bad
    show ∃ t, execDaddC u g rd ra rb s = .next t ∧ _
    exact decOp_faults okD okA okB issues bad
  · intro u g rd ra rb s s1 okD okA okB issues bad
    show ∃ t, execDmul u g rd ra rb s = .next t ∧ _
    exact decOp_faults okD okA okB issues bad

end Sys2Proof.Machine
end

section
/-! Vector instructions (R205, R218-R220): elements under a guard, reductions, gathers and bit streams. -/

namespace Sys2Proof.Machine

/-! ### Elements (R205, R218) -/

theorem nth_map_range {α : Type} {n k : Nat} (f : Nat → α) (d : α) (h : k < n) : nth ((List.range n).map f) k d = f k := by
  simp [nth, h]

theorem Core.sameFlow_setElems (c : Core) (g : Fin 8) (e : Fin 4) (vd : Nat) (f : Nat → Nat) :
    c.SameFlow (c.setElems g e vd f) :=
  ⟨rfl, rfl, rfl⟩

theorem min_eq_ite_lt (a b : Nat) : min a b = if a < b then a else b := by split <;> omega

theorem max_eq_ite_lt (a b : Nat) : max a b = if a < b then b else a := by split <;> omega

/-- Values under a guard, where the enabled elements have one: what computes a value can be left out (R205). -/
theorem map_range_guarded {α β : Type} (mk : α → β) {n : Nat} {on : Nat → Bool} {f : Nat → β} {v old : Nat → α}
    (value : ∀ i < n, on i = true → f i = mk (v i)) :
    ((List.range n).map fun i => if on i = true then f i else mk (old i)) =
      (List.range n).map fun i => mk (if on i = true then v i else old i) := by
  refine List.map_congr_left fun i mem => ?_
  rw [apply_ite mk]
  exact ite_congr rfl (value i (List.mem_range.1 mem)) fun _ => rfl

/-- Only the values of the enabled elements matter (R205). -/
theorem Core.setElems_congr {c : Core} {g : Fin 8} {e : Fin 4} {vd : Nat} {f h : Nat → Nat}
    (same : ∀ i < elemCount e, c.elemOn g i = true → f i = h i) : c.setElems g e vd f = c.setElems g e vd h := by
  unfold setElems
  refine congrArg (fun l => c.setV vd (ofElems e l)) (List.map_congr_left fun i mem => ?_)
  exact ite_congr rfl (same i (List.mem_range.1 mem)) fun _ => rfl

section
variable {u : CoreId} {g : Fin 8} {s s1 : State} {e : Fin 4} {vd va vb : Fin 16} {rb : Fin 32} {reads : List RegName}

theorem vecOp_retires {f : Core → Nat → Nat → Nat → Nat} {h : Nat → Nat}
    (issues : Issues s u g (infoV 1 1 (rV [va, vb] ++ reads) (rV [vd]) true) s1)
    (value : ∀ i, f (s1.coreOf u) i (nth (elems e ((s1.coreOf u).vr va.val)) i 0)
      (nth (elems e ((s1.coreOf u).vr vb.val)) i 0) = h i) :
    ∃ t, s.vecOp u g e vd va vb reads f = .next t ∧ Retires s1 t u ((s1.coreOf u).setElems g e vd.val h) :=
  pureOp_retires issues rfl (Core.setElems_congr fun i _ _ => value i) (Core.sameFlow_setElems ..)

theorem vecShift_retires {f : Nat → Nat → Nat} {h : Nat → Nat}
    (issues : Issues s u g (infoV 1 2 (rV [va] ++ rS [rb]) (rV [vd]) true) s1)
    (value : ∀ i, f (((s1.coreOf u).sr rb.val).toNat % 128) (nth (elems e ((s1.coreOf u).vr va.val)) i 0) = h i) :
    ∃ t, s.vecShift u g e vd va rb f = .next t ∧ Retires s1 t u ((s1.coreOf u).setElems g e vd.val h) :=
  pureOp_retires issues rfl (Core.setElems_congr fun i _ _ => value i) (Core.sameFlow_setElems ..)

end

/-- Settles O9: each row gives the enabled elements the value of R218. -/
theorem vectorElementResults : Obligations.VectorElementResults := by
  unfold Obligations.VectorElementResults
  simp only [List.forall_mem_cons]
  refine ⟨⟨?_, ?_, ?_, ?_, ?_, ?_, ?_, ?_, ?_, List.forall_mem_nil _⟩, ?_, ⟨?_, ?_, ?_, List.forall_mem_nil _⟩, ?_⟩
  · intro u g e vd va vb s s1 issues
    show ∃ t, execVadd u g e vd va vb s = .next t ∧ _
    exact vecOp_retires issues fun _ => rfl
  · intro u g e vd va vb s s1 issues
    show ∃ t, execVsub u g e vd va vb s = .next t ∧ _
    exact vecOp_retires issues fun _ => rfl
  · intro u g e vd va vb s s1 issues
    show ∃ t, execVmin u g e vd va vb s = .next t ∧ _
    exact vecOp_retires issues fun _ => rfl
  · intro u g e vd va vb s s1 issues
    show ∃ t, execVmax u g e vd va vb s = .next t ∧ _
    exact vecOp_retires issues fun _ => rfl
  · intro u g e vd va vb s s1 issues
    show ∃ t, execVminu u g e vd va vb s = .next t ∧ _
    exact vecOp_retires issues fun _ => min_eq_ite_lt ..
  · intro u g e vd va vb s s1 issues
    show ∃ t, execVmaxu u g e vd va vb s = .next t ∧ _
    exact vecOp_retires issues fun _ => max_eq_ite_lt ..
  · intro u g e vd va vb s s1 issues
    show ∃ t, execVand u g e vd va vb s = .next t ∧ _
    exact vecOp_retires issues fun _ => rfl
  · intro u g e vd va vb s s1 issues
    show ∃ t, execVor u g e vd va vb s = .next t ∧ _
    exact vecOp_retires issues fun _ => rfl
  · intro u g e vd va vb s s1 issues
    show ∃ t, execVxor u g e vd va vb s = .next t ∧ _
    exact vecOp_retires issues fun _ => rfl
  · intro u g pm e vd va vb s s1 issues
    show ∃ t, execVsel u g pm e vd va vb s = .next t ∧ _
    exact vecOp_retires issues fun _ => rfl
  · intro u g e vd va rb s s1 issues
    show ∃ t, execVshl u g e vd va rb s = .next t ∧ _
    exact vecShift_retires issues fun _ => rfl
  · intro u g e vd va rb s s1 issues
    show ∃ t, execVshr u g e vd va rb s = .next t ∧ _
    exact vecShift_retires issues fun _ => rfl
  · intro u g e vd va rb s s1 issues
    show ∃ t, execVsar u g e vd va rb s = .next t ∧ _
    exact vecShift_retires issues fun _ => by rw [Int.natCast_pow]; rfl
  · intro u g e vd ra s s1 issues
    show ∃ t, execVbc u g e vd ra s = .next t ∧ _
    exact pureOp_retires issues rfl rfl (Core.sameFlow_setElems ..)

/-! ### Reductions and compares (R218, R219) -/

theorem foldl_ite_eq_sum_filter (p : Nat → Bool) (f : Nat → Int) (l : List Nat) (a : Int) :
    l.foldl (fun a i => if p i then a + f i else a) a = a + ((l.filter p).map f).sum := by
  induction l generalizing a with
  | nil => simp
  | cons x l ih =>
    rw [List.foldl_cons, ih]
    cases hx : p x with
    | true => simp [hx, Int.add_assoc]
    | false => simp [hx]

theorem Core.noElem_iff (c : Core) (g : Fin 8) (e : Fin 4) :
    c.noElem g e = true ↔ ((List.range (elemCount e)).filter fun i => c.elemOn g i) = [] := by
  simp [noElem, List.filter_eq_nil_iff]

/-- Two folds whose steps agree on the members of the list. -/
theorem foldl_congr_of_mem {α β : Type} {f h : β → α → β} {l : List α} (same : ∀ b, ∀ x ∈ l, f b x = h b x) (b : β) :
    l.foldl f b = l.foldl h b := by
  induction l generalizing b with
  | nil => rfl
  | cons x l ih =>
    rw [List.foldl_cons, List.foldl_cons, same b x List.mem_cons_self]
    exact ih (fun b y mem => same b y (List.mem_cons_of_mem x mem)) _

theorem predOf_congr {n : Nat} {f h : Nat → Bool} (same : ∀ i < n, f i = h i) : predOf n f = predOf n h := by
  unfold predOf
  exact congrArg _ (foldl_congr_of_mem (fun a i mem => by rw [same i (List.mem_range.1 mem)]) 0)

theorem any_isNone_map_some {α : Type} (f : Nat → α) (l : List Nat) :
    (l.map fun i => some (f i)).any Option.isNone = false := by
  simp

/-- Settles O10: vredadd with no enabled element writes nothing (assumption 29: DEDUCED). -/
theorem vectorReductionResults : Obligations.VectorReductionResults := by
  unfold Obligations.VectorReductionResults
  refine ⟨?_, ?_, ?_, ?_⟩
  · intro u g e rd va rb s s1 issues
    show ∃ t, execVext u g e rd va rb s = .next t ∧ _
    exact pureOp_retires issues rfl rfl (Core.sameFlow_setS ..)
  · intro u g e rd va s s1 issues
    show ∃ t, execVredadd u g e rd va s = .next t ∧ _
    refine pureOp_retires issues rfl ?_ (Core.sameFlow_ite (.refl _) (Core.sameFlow_setS ..))
    dsimp only
    rw [foldl_ite_eq_sum_filter, Int.zero_add]
    exact ite_eq_of_iff (Core.noElem_iff ..)
  · intro u g e vd va s s1 wide issues
    show ∃ t, execVhash u g e vd va s = .next t ∧ _
    unfold execVhash
    rw [decide_eq_true wide]
    exact pureOp_retires issues rfl rfl (Core.sameFlow_ite (.refl _) (Core.sameFlow_setV ..))
  · intro u g pd cc e va vb s s1 r defined issues enabled value
    show ∃ t, execVcmp u g cc e pd va vb s = .next t ∧ _
    unfold execVcmp
    rw [decide_eq_true defined]
    refine tryOp_retires issues rfl ?_ (Core.sameFlow_setP ..)
    simp only [enabled, map_range_guarded some value, any_isNone_map_some, Bool.false_eq_true, ↓reduceIte]
    refine congrArg (fun m => Except.ok ((s1.coreOf u).setP pd.val m)) (predOf_congr fun i bound => ?_)
    rw [nth_map_range _ _ bound, Option.getD_some]

/-! ### Gathers (R220) -/

/-- A gather whose enabled elements all have a value writes them. -/
theorem gather_retires {u : CoreId} {g : Fin 8} {s s1 : State} {i : Info} {e : Fin 4} {vd : Fin 16}
    {f : Core → Nat → Except Nat Nat} {v : Nat → Nat} (issues : Issues s u g i s1) (ordinary : i.transfer = false)
    (enabled : (s1.coreOf u).noElem g e = false)
    (value : ∀ k < elemCount e, (s1.coreOf u).elemOn g k = true → f (s1.coreOf u) k = .ok (v k)) :
    ∃ t, s.gather u g i e vd false f = .next t ∧ Retires s1 t u ((s1.coreOf u).setElems g e vd.val v) := by
  unfold State.gather
  refine tryOp_retires issues ordinary ?_ (Core.sameFlow_setElems ..)
  have fine : ∀ r ∈ (List.range (elemCount e)).map
      fun k => Except.ok (ε := Nat) (if (s1.coreOf u).elemOn g k then v k else 0),
      ∃ x, r = .ok x := by
    intro r mem
    obtain ⟨k, -, rfl⟩ := List.mem_map.1 mem
    exact ⟨_, rfl⟩
  simp only [enabled, map_range_guarded Except.ok value, Bool.false_eq_true, ↓reduceIte]
  rw [List.findSome?_eq_none_iff.2 fun r mem => by obtain ⟨x, rfl⟩ := fine r mem; rfl]
  refine congrArg Except.ok (Core.setElems_congr fun k bound on => ?_)
  rw [nth_map_range _ _ bound, if_pos on]

/-- The stream bits of an element lie in the courses up to the last one (R77). -/
theorem streamSpan_end {w : Nat} (positive : 1 ≤ w) (k : Nat) :
    (streamSpan k w).1 + (streamSpan k w).2 = (k + w - 1) / 12 + 1 := by
  unfold streamSpan
  have ordered : k / 12 ≤ (k + w - 1) / 12 := Nat.div_le_div_right (by omega)
  omega

/-- Settles O11, the gathers from `gather_retires`; no enabled element of vpack leaves the work area. -/
theorem vectorGatherResults : Obligations.VectorGatherResults := by
  unfold Obligations.VectorGatherResults
  refine ⟨?_, ?_, ?_, ?_⟩
  · intro u g inp e vd ra vb s s1 r issues enabled read
    show ∃ t, execVgath u g inp e vd ra vb false s = .next t ∧ _
    refine gather_retires issues rfl enabled fun k bound on => ?_
    dsimp only
    rw [read k bound on]
  · intro u g inp e vd ra vb s s1 n r issues enabled count read
    show ∃ t, execVdict u g inp e vd ra vb false s = .next t ∧ _
    refine gather_retires issues rfl enabled fun k bound on => ?_
    obtain ⟨inside, entry⟩ := read k bound on
    dsimp only
    rw [count]
    dsimp only
    rw [if_neg (Nat.not_le.2 inside), entry]
  · intro u g inp w signed e vd ra rb s s1 r ok issues enabled read
    show ∃ t, execVunpk u g inp w signed e vd ra rb false s = .next t ∧ _
    unfold execVunpk
    rw [ok]
    refine gather_retires issues rfl enabled fun k bound on => ?_
    dsimp only [streamSpan]
    rw [read k bound on]
  · intro u g w e va ra rb s s1 ok issues inside
    show ∃ t, execVpack u g w e va ra rb s = .next t ∧ _
    unfold execVpack
    rw [ok]
    refine tryOp_retires issues rfl ?_ (Core.sameFlow_foldl (fun _ _ => Core.sameFlow_workWrite ..) _ _)
    have positive : 1 ≤ w := (of_decide_eq_true ok).1
    have fits : (((List.range (elemCount e)).filter ((s1.coreOf u).elemOn g)).any fun i => decide ((s1.coreOf u).workSize <
        ((s1.coreOf u).sr ra.val).toNat + (streamSpan (((s1.coreOf u).sr rb.val).toNat + i * w) w).1 +
          (streamSpan (((s1.coreOf u).sr rb.val).toNat + i * w) w).2)) = false := by
      refine List.any_eq_false.2 fun i mem => ?_
      obtain ⟨bound, on⟩ := List.mem_filter.1 mem
      have last := inside i (List.mem_range.1 bound) on
      have span := streamSpan_end positive (((s1.coreOf u).sr rb.val).toNat + i * w)
      rw [decide_eq_true_iff]
      omega
    simp only [fits, Bool.false_eq_true, ↓reduceIte]
    split
    next empty => rw [List.isEmpty_iff.1 empty]; rfl
    next => rfl

end Sys2Proof.Machine
end

section
/-! Loads and stores of the areas and of memory (R221-R225, R229), and plain control instructions (R202, R225, R229). -/

namespace Sys2Proof.Machine

/-! ### Addresses, lanes and values (R221, R222) -/

theorem inRange_of {lo hi n : Nat} (low : lo ≤ n) (high : n ≤ hi) : inRange lo hi n = true := decide_eq_true ⟨low, high⟩

theorem Core.addr_eq (c : Core) (ra : Fin 32) (off : BitVec 13) : c.addr ra off = Claims.addressOf c ra off := rfl

theorem alignedS_of {a n : Nat} (h : a % 128 + n ≤ 128) : alignedS a n = true := decide_eq_true h

theorem alignedV_of {a : Nat} (h : a % 64 = 0) : alignedV a = true := decide_eq_true h

theorem natCrs_length (k n : Nat) : (natCrs k n).length = k := by
  induction k generalizing n with
  | zero => rfl
  | succ k ih => rw [natCrs, List.length_append, ih, List.length_singleton]

/-- The low courses of a number are the courses of the number. -/
theorem natCrs_drop (j k n : Nat) : (natCrs (j + k) n).drop j = natCrs k n := by
  induction k generalizing n with
  | zero => exact List.drop_eq_nil_of_le (Nat.le_of_eq (natCrs_length j n))
  | succ k ih =>
    rw [← Nat.add_assoc, natCrs, natCrs, List.drop_append_of_le_length (by rw [natCrs_length]; omega), ih]

theorem Core.storeCourses_eq {n : Nat} (wide : n ≤ 5) (c : Core) (rd : Fin 32) :
    c.storeCourses rd n = natCrs n (c.sr rd.val).toNat := by
  have split := natCrs_drop (5 - n) n (c.sr rd.val).toNat
  rwa [Nat.sub_add_cancel wide] at split

theorem Core.nth_lanesOn (c : Core) (g : Fin 8) (e : Fin 4) {k : Nat} (lane : k < 64) :
    nth (c.lanesOn g e) k false = c.elemOn g (k / elemSize e) :=
  nth_map_range _ _ lane

theorem laneBeyond_lanesOn {c : Core} {g : Fin 8} {e : Fin 4} {a size : Nat}
    (inside : ∀ k < 64, c.elemOn g (k / elemSize e) = true → a + k < size) : laneBeyond (c.lanesOn g e) a size = false := by
  refine List.any_eq_false.2 fun k mem => ?_
  have lane := List.mem_range.1 mem
  rw [c.nth_lanesOn g e lane, Bool.and_eq_true, decide_eq_true_iff]
  rintro ⟨on, beyond⟩
  exact absurd (inside k lane on) (Nat.not_lt.2 beyond)

/-- What a vector form does lane by lane, with its mask written out (R205, R221). -/
theorem map_lanesOn {α : Type} (c : Core) (g : Fin 8) (e : Fin 4) (f h : Nat → α) :
    ((List.range 64).map fun k => if nth (c.lanesOn g e) k false then f k else h k) =
      (List.range 64).map fun k => if c.elemOn g (k / elemSize e) then f k else h k :=
  List.map_congr_left fun k mem => by rw [c.nth_lanesOn g e (List.mem_range.1 mem)]

/-! ### The areas (R221, R222) -/

section
variable {u : CoreId} {g : Fin 8} {s s1 : State} {n : Nat} {x inp : Bool} {rd ra : Fin 32} {off : BitVec 13}
  {z : Fin 4} {vd : Fin 16}

theorem areaLoad_retires (low : 1 ≤ n) (high : n ≤ 5)
    (issues : Issues s u g (infoS 3 (rS [ra] ++ if inp then [] else [rWork]) (rS [rd]) true) s1)
    (aligned : Claims.addressOf (s1.coreOf u) ra off % 128 + n ≤ 128)
    (inside : Claims.addressOf (s1.coreOf u) ra off + n ≤ if inp then (s1.coreOf u).inputSize else (s1.coreOf u).workSize) :
    ∃ t, s.areaLoad u g inp n x rd ra off false = .next t ∧ Retires s1 t u ((s1.coreOf u).setS rd.val
      (loadValue x n (if inp then (s1.coreOf u).inputRead (Claims.addressOf (s1.coreOf u) ra off) n
        else (s1.coreOf u).workRead (Claims.addressOf (s1.coreOf u) ra off) n))) := by
  unfold State.areaLoad
  rw [inRange_of low high]
  refine tryOp_retires issues rfl ?_ (Core.sameFlow_setS ..)
  simp only [Core.addr_eq, alignedS_of aligned,
    Nat.not_lt.2 inside, Bool.not_true, Bool.false_eq_true, ↓reduceIte]

theorem areaVload_retires
    (issues : Issues s u g (infoV 1 3 (rS [ra] ++ if inp then [] else [rWork]) (rV [vd]) true) s1)
    (enabled : (s1.coreOf u).noElem g z = false) (aligned : Claims.addressOf (s1.coreOf u) ra off % 64 = 0)
    (inside : ∀ k < 64, (s1.coreOf u).elemOn g (k / elemSize z) = true →
      Claims.addressOf (s1.coreOf u) ra off + k < if inp then (s1.coreOf u).inputSize else (s1.coreOf u).workSize) :
    ∃ t, s.areaVload u g inp z vd ra off false = .next t ∧ Retires s1 t u ((s1.coreOf u).setV vd.val
      (vecOf ((List.range 64).map fun k => if (s1.coreOf u).elemOn g (k / elemSize z) then
        nth (if inp then (s1.coreOf u).inputRead (Claims.addressOf (s1.coreOf u) ra off) 64
          else (s1.coreOf u).workRead (Claims.addressOf (s1.coreOf u) ra off) 64) k 0
      else nth (vecCourses ((s1.coreOf u).vr vd.val)) k 0))) := by
  refine tryOp_retires issues rfl ?_ (Core.sameFlow_setV ..)
  simp only [Core.addr_eq, alignedV_of aligned,
    laneBeyond_lanesOn inside, enabled, maskLanes, map_lanesOn, Bool.not_true, Bool.false_eq_true, ↓reduceIte]

end

/-- Settles O12: the lanes that are not enabled may lie beyond the area (assumption 24: DEDUCED). -/
theorem areaLoadsAndStores : Obligations.AreaLoadsAndStores := by
  unfold Obligations.AreaLoadsAndStores
  simp only [List.forall_mem_cons]
  refine ⟨⟨?_, ?_, List.forall_mem_nil _⟩, ?_, ⟨?_, ?_, List.forall_mem_nil _⟩, ?_⟩
  · intro u g n x rd ra off s s1 low high issues aligned inside
    show ∃ t, execLs u g n x rd ra off false s = .next t ∧ _
    exact areaLoad_retires low high issues aligned inside
  · intro u g n x rd ra off s s1 low high issues aligned inside
    show ∃ t, execLt u g n x rd ra off false s = .next t ∧ _
    exact areaLoad_retires low high issues aligned inside
  · intro u g n rd ra off s s1 low high issues aligned inside
    show ∃ t, execSs u g n rd ra off s = .next t ∧ _
    unfold execSs
    rw [inRange_of low high]
    refine tryOp_retires issues rfl ?_ (Core.sameFlow_workWrite ..)
    simp only [Core.addr_eq, alignedS_of aligned,
      Nat.not_lt.2 inside, Core.storeCourses_eq high, Bool.not_true, Bool.false_eq_true, ↓reduceIte]
  · intro u g z vd ra off s s1 issues enabled aligned inside
    show ∃ t, execVls u g z vd ra off false s = .next t ∧ _
    exact areaVload_retires issues enabled aligned inside
  · intro u g z vd ra off s s1 issues enabled aligned inside
    show ∃ t, execVlt u g z vd ra off false s = .next t ∧ _
    exact areaVload_retires issues enabled aligned inside
  · intro u g z vd ra off s s1 issues enabled aligned inside
    show ∃ t, execVss u g z vd ra off s = .next t ∧ _
    refine tryOp_retires issues rfl ?_ (Core.sameFlow_workWrite ..)
    simp only [Core.addr_eq, alignedV_of aligned,
      laneBeyond_lanesOn inside, enabled, maskedCourses, map_lanesOn, Bool.not_true, Bool.false_eq_true, ↓reduceIte]

/-! ### Memory (R222, R223, R229) -/

theorem memRes_of_charged {s s2 : State} {u : CoreId} {c : Core} {a : Access} {obs : MemObs}
    (charged : s.chargeCore c 4 1 = some s2) : s.memRes u c a obs = .access s2 fun x => x.startAccess u a obs := by
  rw [State.memRes, charged]

/-- Settles O13: an access starts as its instruction retires (assumption 13: DEDUCED), and tlock is not borrowed
(assumption 30: DEDUCED). -/
theorem memoryInstructionsStartTheirAccess : Obligations.MemoryInstructionsStartTheirAccess := by
  unfold Obligations.MemoryInstructionsStartTheirAccess
  refine ⟨?_, ?_, ?_, ?_, ?_⟩
  · intro u g n x rd ra off obs s s1 s2 low high issues aligned charged
    show ∃ t, execLm u g n x rd ra off obs s = .next t ∧ _
    unfold execLm
    rw [inRange_of low high]
    refine issue_access issues rfl fun _ => ?_
    simp only [Core.addr_eq, alignedS_of aligned,
      Bool.not_true, Bool.false_eq_true, ↓reduceIte]
    exact memRes_of_charged charged
  · intro u g n rd ra off obs s s1 s2 low high issues aligned charged
    show ∃ t, execSm u g n rd ra off obs s = .next t ∧ _
    unfold execSm
    rw [inRange_of low high]
    refine issue_access issues rfl fun _ => ?_
    simp only [Core.addr_eq, alignedS_of aligned,
      Core.storeCourses_eq high, Bool.not_true, Bool.false_eq_true, ↓reduceIte]
    exact memRes_of_charged charged
  · intro u g z vd ra off obs s s1 s2 issues enabled aligned charged
    show ∃ t, execVlm u g z vd ra off obs s = .next t ∧ _
    refine issue_access issues rfl fun _ => ?_
    simp only [Core.addr_eq, alignedV_of aligned, enabled,
      Bool.not_true, Bool.false_eq_true, ↓reduceIte]
    exact memRes_of_charged charged
  · intro u g z vd ra off obs s s1 s2 issues enabled aligned charged
    show ∃ t, execVsm u g z vd ra off obs s = .next t ∧ _
    refine issue_access issues rfl fun _ => ?_
    simp only [Core.addr_eq, alignedV_of aligned, enabled,
      Bool.not_true, Bool.false_eq_true, ↓reduceIte]
    exact memRes_of_charged charged
  · intro u g rd ra s s1 issues
    show ∃ t, execTlock u g rd ra s = .next t ∧ _
    exact issue_access issues rfl fun _ => rfl

/-! ### Control registers, locks and fence (R202, R225, R229) -/

/-- An instruction that holds the next issue retires, unless its cycle lies beyond the bound of a PREDICT-0 firing (R242). -/
theorem issue_held {s s1 s2 : State} {u : CoreId} {g : Fin 8} {i : Info} {an : Bool} {body : State → Core → Nat → Res}
    {n : Nat} (h : Issues s u g i s1) (ordinary : i.transfer = false) (hb : ∀ k, body s1 (s1.coreOf u) k = .held s2 n)
    (within : ∀ f, (s2.coreOf u).firing = some f → f.predict = true ∨ n < f.cycleBound) :
    ∃ t, s.issue u g i an false body = .next t ∧ Retires s2 t u (s2.coreOf u) := by
  obtain ⟨k, p, -, e⟩ := issue_eq (an := an) (kb := false) (body := body) h
  rw [e, hb k]
  simp only [ordinary, Bool.false_and]
  cases running : (s2.coreOf u).firing with
  | none => exact ⟨_, rfl, retireCore_retires _ _ _ _ _ _ _ _ _ ordinary⟩
  | some f =>
    have bound : ¬((!f.predict) = true ∧ f.cycleBound ≤ n) := by
      rintro ⟨metered, late⟩
      rcases within f running with predicted | early
      · rw [predicted] at metered; exact Bool.noConfusion metered
      · omega
    simp only [if_neg bound]
    exact ⟨_, rfl, retireCore_retires _ _ _ _ _ _ _ _ _ ordinary⟩

/-- Settles O14: fence holds the next issue until every store is acknowledged (assumption 27: DEDUCED). -/
theorem plainControlResults : Obligations.PlainControlResults := by
  unfold Obligations.PlainControlResults
  refine ⟨?_, ?_, ?_, ?_, ?_⟩
  · intro u g s s1 issues
    show ∃ t, execNopInstruction u g s = .next t ∧ _
    exact pureOp_retires issues rfl rfl (Core.SameFlow.refl _)
  · intro u g rd num s s1 readable issues
    show ∃ t, execRdctl u g rd num s = .next t ∧ _
    unfold execRdctl
    rw [readable]
    exact issue_sets issues rfl (fun _ => rfl) (Core.sameFlow_setS ..)
  · intro u g ra num s s1 writable issues
    show ∃ t, execWrctl u g ra num s = .next t ∧ _
    unfold execWrctl
    rw [writable]
    exact pureOp_retires issues rfl rfl (Core.sameFlow_ctlWrite ..)
  · intro u g ra s s1 issues
    show ∃ t, execTunlock u g ra s = .next t ∧ _
    exact issue_sets issues rfl (fun _ => rfl) ⟨rfl, rfl, rfl⟩
  · intro u g s s1 issues
    refine ⟨fun acknowledged within => ?_, fun outstanding => ?_⟩
    · show ∃ t, execFence u g s = .next t ∧ _
      exact issue_held issues rfl (fun _ => if_neg (not_not_intro acknowledged)) within
    · refine .of_exec (t := s1) ?_ rfl
      show execFence u g s = _
      unfold execFence
      exact issue_leave issues fun _ => if_pos outstanding

end Sys2Proof.Machine
end

section
/-! Control transfers (R230-R232): the target, the delay slot, annulment and the link. -/

namespace Sys2Proof.Machine

theorem Core.sameFlow_learnBr (c : Core) (taken : Bool) : c.SameFlow (c.learnBr taken) := by
  unfold learnBr
  split <;> exact .refl c

theorem Core.sameFlow_learnTarget (c : Core) (n : Nat) : c.SameFlow (c.learnTarget n) := by
  unfold learnTarget
  split <;> exact .refl c

theorem Core.sameFlow_pushRet (c : Core) : c.SameFlow c.pushRet := by
  unfold pushRet
  split <;> exact .refl c

theorem Core.sameFlow_popRet (c : Core) (n : Nat) : c.SameFlow (c.popRet n) := by
  unfold popRet
  split
  · exact sameFlow_learnTarget ..
  · split <;> exact .refl c

/-- call and callr keep the index after the delay slot in s31 (R230). -/
theorem Core.link_eq {c d : Core} (h : c.SameFlow d) : d.link = d.setS 31 (BitVec.ofNat 60 (c.pc + 2)) := by
  obtain ⟨pc, -, -⟩ := h
  rw [← pc]
  rfl

/-- A branch that is not taken goes on; its slot is still a slot, which the annulled form annuls (R232). -/
theorem issue_untaken {s s1 : State} {u : CoreId} {g : Fin 8} {i : Info} {an : Bool} {body : State → Core → Nat → Res}
    {d : Core} (h : Issues s u g i s1) (transfer : i.transfer = true)
    (hb : ∀ k, body s1 (s1.coreOf u) k = .done (s1.setCore u d))
    (flow : (s1.coreOf u).SameFlow d) : ∃ t, s.issue u g i an false body = .next t ∧ Transfers s1 t u d none an := by
  obtain ⟨k, p, -, e⟩ := issue_eq (an := an) (kb := false) (body := body) h
  obtain ⟨-, -, outside⟩ := h
  obtain ⟨pc, slot, budget⟩ := flow
  rw [e, hb k]
  simp only [transfer, outside transfer, Option.isNone_none, Bool.true_and, Bool.and_true]
  have r := retireCore_transfers (s1.setCore u d) u g i k p 0 2 none an false transfer
    (by rw [State.coreOf_setCore_self, slot, outside transfer])
  rw [State.coreOf_setCore_self] at r
  exact ⟨_, rfl, r.of_setCore ⟨pc, budget⟩⟩

/-- It transfers and changes no register. -/
theorem issue_jump_only {s s1 : State} {u : CoreId} {g : Fin 8} {i : Info} {an : Bool} {body : State → Core → Nat → Res}
    {n gap : Nat} (h : Issues s u g i s1) (transfer : i.transfer = true) (hb : ∀ k, body s1 (s1.coreOf u) k = .jump s1 n gap) :
    ∃ t, s.issue u g i an false body = .next t ∧ Transfers s1 t u (s1.coreOf u) (some n) false := by
  obtain ⟨k, p, -, e⟩ := issue_eq (an := an) (kb := false) (body := body) h
  obtain ⟨-, -, outside⟩ := h
  rw [e, hb k]
  exact ⟨_, rfl, retireCore_transfers _ _ _ _ _ _ _ _ _ _ _ transfer (outside transfer)⟩

section
variable {u : CoreId} {g : Fin 8} {s s1 : State} {ra : Fin 32} {writes : List RegName}

theorem jumpTo_transfers {legal : Bool} {f : Core → Nat → Core} {d : Core} (ok : legal = true)
    (issues : Issues s u g { infoS 1 (rS [ra]) writes true with alone := true, transfer := true } s1)
    (inside : ∀ r, (s1.coreOf u).firing = some r → ((s1.coreOf u).sr ra.val).toNat < r.codeLen)
    (value : f (s1.coreOf u) ((s1.coreOf u).sr ra.val).toNat = d) (flow : (s1.coreOf u).SameFlow d) :
    ∃ t, s.jumpTo u g writes legal ra f = .next t ∧ Transfers s1 t u d (some ((s1.coreOf u).sr ra.val).toNat) false := by
  unfold State.jumpTo
  rw [ok]
  refine issue_jump (gap := 4) issues rfl (fun _ => ?_) flow
  have within : (s1.coreOf u).beyond ((s1.coreOf u).sr ra.val).toNat = false := by
    unfold Core.beyond
    split
    next r running => exact decide_eq_false (Nat.not_le.2 (inside r running))
    next => rfl
  simp only [within, value, Bool.false_eq_true, ↓reduceIte]

end

/-- Settles O15: the slot of a transfer that is not taken is still a slot (assumption 27: DEDUCED). -/
theorem transfersTakeTheirDelaySlot : Obligations.TransfersTakeTheirDelaySlot := by
  unfold Obligations.TransfersTakeTheirDelaySlot
  refine ⟨?_, ?_, ?_, ?_⟩
  · intro u g cc annul ra rb off s s1 defined issues
    refine ⟨fun holds => ?_, fun fails => ?_⟩
    · show ∃ t, execBr u g cc annul ra rb off s = .next t ∧ _
      unfold execBr
      rw [decide_eq_true defined]
      refine issue_jump (gap := 3) issues rfl (fun _ => ?_) (Core.sameFlow_learnBr ..)
      have taken : ccHolds cc ((s1.coreOf u).sr ra.val) ((s1.coreOf u).sr rb.val) = true := (ccHolds_iff _ _ defined).2 holds
      simp only [taken, ↓reduceIte]
      rfl
    · show ∃ t, execBr u g cc annul ra rb off s = .next t ∧ _
      unfold execBr
      rw [decide_eq_true defined]
      refine issue_untaken issues rfl (fun _ => ?_) (Core.sameFlow_learnBr ..)
      have untaken : ccHolds cc ((s1.coreOf u).sr ra.val) ((s1.coreOf u).sr rb.val) = false :=
        Bool.eq_false_iff.2 fun h => fails ((ccHolds_iff _ _ defined).1 h)
      simp only [untaken, Bool.false_eq_true, ↓reduceIte]
  · intro u g off s s1 issues
    show ∃ t, execJ u g off s = .next t ∧ _
    exact issue_jump_only issues rfl fun _ => rfl
  · intro u g off s s1 issues
    show ∃ t, execCall u g off s = .next t ∧ _
    exact issue_jump issues rfl (fun _ => rfl) ((Core.sameFlow_setS ..).trans (Core.sameFlow_pushRet _))
  · intro u g ra s s1 inside
    refine ⟨fun issues => ⟨?_, fun link => ?_⟩, fun issues => ?_⟩
    · show ∃ t, execJr u g ra s = .next t ∧ _
      exact jumpTo_transfers rfl issues inside rfl (Core.sameFlow_learnTarget ..)
    · show ∃ t, execRet u g ra s = .next t ∧ _
      exact jumpTo_transfers (beq_iff_eq.2 link) issues inside rfl (Core.sameFlow_popRet ..)
    · show ∃ t, execCallr u g ra s = .next t ∧ _
      refine jumpTo_transfers rfl issues inside ?_
        (((Core.sameFlow_learnTarget ..).trans (Core.sameFlow_setS ..)).trans (Core.sameFlow_pushRet _))
      rw [Core.link_eq (Core.sameFlow_learnTarget ..)]

end Sys2Proof.Machine
end

section
/-! Keystone instructions of a kernel (R226): a search is issued, an update joins the queue of its table. -/

namespace Sys2Proof.Machine

theorem OnlyCore.ks {s t : State} {u : CoreId} (h : OnlyCore s t u) : t.ks = s.ks := by
  rw [h.1]

section
variable {u : CoreId} {g : Fin 8} {s s1 s2 : State} {f : Firing} {d : KsDecl}

/-- A search that passes its checks and its cap is issued as its instruction retires (R226). -/
theorem ksFind_issues {rd ra : Fin 32} {loc : BitVec 8} (low : 1 ≤ rd.val) (high : rd.val ≤ 30)
    (issues : Issues s u g (infoS 160 (rS [ra] ++ [rWork]) [.s rd.val, .s (rd.val + 1)] true) s1)
    (declared : s1.declOf (s1.coreOf u) loc.toNat = some (f, d))
    (inside : ((s1.coreOf u).sr ra.val).toNat + d.key ≤ (s1.coreOf u).workSize) (charged : s1.chargeFiring f 3 1 = some s2) :
    ∃ t, execKsFind u g rd ra loc s = .next t ∧
      let x := s2.ksIssue
        { id := 0, slice := f.slice, table := d.table, key := (s1.coreOf u).workRead ((s1.coreOf u).sr ra.val).toNat d.key,
          bay := (coreBay u).getD 0, core := some (u, rd.val), w := none, since := 0, bank := none }
      Retires x t u (x.coreOf u) := by
  unfold execKsFind
  rw [inRange_of low high]
  refine issue_done issues rfl fun _ => ?_
  have within : (s1.coreOf u).inWork ((s1.coreOf u).sr ra.val).toNat d.key = true := decide_eq_true inside
  simp only [declared, within, charged, Bool.not_true, Bool.false_eq_true, ↓reduceIte]

/-- An update that passes its checks and its cap, with an image or without one, joins a queue with room (R226, R267). -/
theorem ksUpdate_queues {c : Core} {loc kind pos : Nat} {image : Option Nat} {tb : KsTab}
    (declared : s1.declOf c loc = some (f, d)) (write : d.write = true) (table : s1.ksTab f.slice d.table = some tb)
    (room : tb.queued < 16) (unheld : c.heldSince = none) (charged : s1.chargeFiring f 3 1 = some s2)
    (inside : ∀ a ∈ image, c.inWork a (ksImageLen tb.mode tb.key) = true)
    (sound : ∀ a ∈ image, ksImageOk tb.mode tb.key (c.workRead a (ksImageLen tb.mode tb.key)) = true) :
    s1.ksUpdate u c loc kind pos image = .done (s2.ksQueue f.slice d.table kind pos
      (image.toList.map fun a => c.workRead a (ksImageLen tb.mode tb.key)) false f.ctx (some u)) := by
  unfold State.ksUpdate
  cases image with
  | none => simp [declared, table, write, charged, unheld, Nat.not_le.2 room]
  | some a => simp [declared, table, write, charged, unheld, Nat.not_le.2 room, inside a rfl, sound a rfl]

end

/-- Settles O16, from `ksFind_issues` and `ksUpdate_queues`. -/
theorem keystoneInstructions : Obligations.KeystoneInstructions := by
  unfold Obligations.KeystoneInstructions
  refine ⟨?_, ?_⟩
  · intro u g rd ra loc s s1 s2 f d low high issues declared inside charged
    obtain ⟨t, answered, retires⟩ := ksFind_issues low high issues declared inside charged
    have ks := retires.onlyCore.ks
    refine .of_exec (t := t) answered ⟨by rw [ks]; rfl, ?_⟩
    rw [ks]
    exact retires
  · intro u g ra rb loc s s1 s2 f d tb declared write table room unheld charged
    refine ⟨fun issues inside sound => ?_, fun issues => ?_⟩
    · show ∃ t, execKsIns u g ra rb loc s = .next t ∧ _
      exact issue_done issues rfl fun _ => ksUpdate_queues (image := some ((s1.coreOf u).sr ra.val).toNat)
        declared write table room unheld charged
        (fun a mem => by cases mem; exact decide_eq_true inside) (fun a mem => by cases mem; exact sound)
    · show ∃ t, execKsDel u g rb loc s = .next t ∧ _
      exact issue_done issues rfl fun _ => ksUpdate_queues (image := none) declared write table room unheld charged
        (fun a mem => by cases mem) (fun a mem => by cases mem)

end Sys2Proof.Machine
end

section
/-! The end of a firing (R211): a PREDICT-1 firing whose store is acknowledged later than the cycle in which end issues. Every
elapsed cycle is metered there (R248), so end retires in its issue cycle and charges the cycles up to it; the statement has it
charge those of the metered schedule. -/

namespace Sys2Proof.Machine

/-- A B firing of a run with PREDICT 1, in the tick in which it started. -/
def predictedFiring : Firing where
  start := 0
  w := .run 0
  op := 0
  slice := 1
  gen := 0
  ctx := 0
  cls := 2
  nout := 0
  codeLen := 1
  cycleBound := 1000
  boundDetail := 0
  scratch := 0
  predict := true
  outLayouts := []
  inputs := []
  workArea := []
  input := []
  emitted := []
  digests := []

/-- A stone that runs it, after a store whose acknowledgement is charged to cycle 120 (R242). -/
def predictedCore : Core :=
  { coreReset (.stone 0 0) with
    firing := some predictedFiring, budget := 1, sched := { (coreReset (.stone 0 0)).sched with ackAt := 120 } }

/-- The device with that stone; bay 0 is the B floor, which counts the cycles of B work (R169). -/
def predictedState : State := { State.reset with cores := [(.stone 0 0, predictedCore)] }

/-- end retires in cycle 0, in which it issues. -/
theorem predictedState_endFiring :
    exec (.endFiring (.stone 0 0) 0) predictedState =
      .next (predictedState.completeFiring (.stone 0 0) predictedFiring predictedCore 0) := rfl

theorem predictedState_gate : predictedState.gate (.stone 0 0) 0 { infoS 1 [] [] true with alone := true } =
    .go predictedState 0 false true := rfl

theorem endCycle_predictedCore : endCycle predictedCore 0 = 120 := rfl

/-- The B floor counts the cycles up to the one in which end retires. -/
theorem predictedState_bUse (n : Nat) :
    (predictedState.completeFiring (.stone 0 0) predictedFiring predictedCore n).mason.bUse = n + 1 :=
  (rfl : _ = 0 + (n + 1)).trans (Nat.zero_add _)

/-- Refutes O17: of a PREDICT-1 firing end charges 1 cycle, where the statement has it charge 121. -/
theorem not_firingEngineInstructions : ¬ Obligations.FiringEngineInstructions := by
  unfold Obligations.FiringEngineInstructions
  rintro ⟨-, -, -, ends, -⟩
  obtain ⟨t, answered, claimed⟩ := ends (.stone 0 0) 0 predictedState predictedState 0 false predictedFiring
    predictedState_gate rfl rfl rfl rfl (fun x mem => by cases mem) (.inl rfl)
  rw [predictedState_endFiring] at answered
  injection answered with same
  have cycles : 0 + 1 = endCycle predictedCore 0 + 1 := by
    rw [← predictedState_bUse, ← predictedState_bUse, same]
    exact congrArg (fun s : State => s.mason.bUse) claimed
  rw [endCycle_predictedCore] at cycles
  exact absurd cycles (by decide)

end Sys2Proof.Machine
end

section
/-! What keeps an instruction from executing (R204, R205, R232). -/

namespace Sys2Proof.Machine

section
variable {s s1 : State} {u : CoreId} {g : Fin 8} {i : Info} {an kb : Bool} {body : State → Core → Nat → Res} {o : Out}

/-- An instruction that the gate stops does what the gate answers. -/
theorem issue_stop (stops : s.gate u g i = .stop o) : s.issue u g i an kb body = o := by
  rw [State.issue, stops]

/-- An ordinary instruction that is annulled, or whose guard is off, retires and does nothing else (R205, R232). -/
theorem issue_off {k : Nat} {p on : Bool} (passes : s.gate u g i = .go s1 k p on) (ordinary : i.transfer = false)
    (unconditional : i.br = false) (off : (s1.coreOf u).annul = true ∨ on = false) :
    ∃ t, s.issue u g i an kb body = .next t ∧ Retires s1 t u (s1.coreOf u) := by
  rw [State.issue, passes]
  dsimp only
  by_cases annulled : (s1.coreOf u).annul = true
  · rw [if_pos annulled]
    exact ⟨_, rfl, retireCore_retires _ _ _ _ _ _ _ _ _ rfl⟩
  · rw [if_neg annulled, off.resolve_left annulled, ordinary, unconditional]
    exact ⟨_, rfl, retireCore_retires _ _ _ _ _ _ _ _ _ ordinary⟩

/-- An undefined encoding on a stone that holds a firing (R204). -/
theorem gate_stone_undefined {b k : Nat} (fires : (s.coreOf (.stone b k)).firing.isSome = true) (undefined : i.legal = false) :
    s.gate (.stone b k) g i = .stop (.fault .undefinedEncoding) := by
  obtain ⟨f, running⟩ := Option.isSome_iff_exists.1 fires
  rw [State.gate, State.gateStone, running, undefined]
  rfl

/-- A core that waits for no access has nothing to settle. -/
theorem settle_of_noAccess (idle : (s.coreOf u).access = none) : s.settle u = s := by
  rw [State.settle, State.resumeAccess, idle]

/-- An undefined encoding on a Quoin core that waits for nothing traps (R204, R237). -/
theorem gate_quoin_undefined {p : Nat} (pair : p < 2) (unfenced : s.quoin.fenced = [])
    (idle : (s.coreOf (.quoin p)).access = none) (live : (s.coreOf (.quoin p)).annul = false)
    (ready : s.awaits (.quoin p) (i.reads ++ i.writes) = false)
    (undefined : i.legal = false) : s.gate (.quoin p) g i = .stop (.next (s.coreFault (.quoin p) 0x03D0 0 none)) := by
  simp [State.gate, State.gateQuoin, settle_of_noAccess idle, unfenced, idle, live, ready, undefined, Nat.not_le.2 pair]

end

/-- Settles O20, from `issue_off`. -/
theorem guardedOffAndAnnulledDoNothing : Obligations.GuardedOffAndAnnulledDoNothing := by
  unfold Obligations.GuardedOffAndAnnulledDoNothing
  intro u g rd ra rb s s1 k p on passes off
  show ∃ t, execAdd u g rd ra rb s = .next t ∧ _
  unfold execAdd State.alu State.pureOp
  exact issue_off passes rfl rfl off

/-- Settles O21: an undefined encoding on a stone is the model's fault `undefinedEncoding` (assumption 10: DEDUCED). -/
theorem undefinedEncodingsStopOrTrap : Obligations.UndefinedEncodingsStopOrTrap := by
  unfold Obligations.UndefinedEncodingsStopOrTrap
  refine ⟨fun b k g s fires => ⟨?_, ?_, ?_⟩, fun p g rd ra n s pair unfenced idle live ready outside => ?_⟩
  · show execSret (.stone b k) g s = _
    exact issue_stop (gate_stone_undefined fires rfl)
  · show execBorrow (.stone b k) g s = _
    exact issue_stop (gate_stone_undefined fires rfl)
  · show execTinvAll (.stone b k) g s = _
    exact issue_stop (gate_stone_undefined fires rfl)
  · refine .of_exec ?_ rfl
    show execSext (.quoin p) g n rd ra s = _
    unfold execSext State.alu1 State.pureOp
    exact issue_stop (gate_quoin_undefined pair unfenced idle live ready (decide_eq_false outside))

end Sys2Proof.Machine
end

section
/-! Caches and the medium (R242, R295-R297, R301, R302): fills, write-backs, acknowledgements, patrol reads and rebuilds. -/

namespace Sys2Proof.Machine

/-! ### Fills (R295) -/

theorem not_prefetch_and_unreadable {s : State} {f : Fill} {line : Nat} (served : f.prefetch = true → s.readable line = true) :
    ¬ (f.prefetch = true ∧ s.readable line = false) := fun ⟨prefetch, unreadable⟩ =>
  Bool.false_ne_true (unreadable.symm.trans (served prefetch))

section
variable {s : State} {bay line k : Nat} {f : Fill}
  (found : s.memx.fills.find? (fun f => f.bay == bay && f.line == line) = some f)
  (noVictim : (bay, line) ∉ s.memx.victims) (up : s.memUp line = true) (served : f.prefetch = true → s.readable line = true)
include found noVictim up served

theorem execCacheFillSector_waits_next {k' : Nat} {ks : List Nat} (sectors : f.sectors = k :: k' :: ks) :
    exec (.cacheFillSector bay line .clean) s = .next { s with memx := { s.memx with
      fills := mapIf (fun x => x.bay == bay && x.line == line) (fun x => { x with sectors := k' :: ks }) s.memx.fills } } := by
  show execCacheFillSector bay line .clean s = _
  simp [execCacheFillSector, found, noVictim, up, sectors, not_prefetch_and_unreadable served]

theorem execCacheFillSector_completes (sectors : f.sectors = [k]) :
    exec (.cacheFillSector bay line .clean) s = .next (s.fillDone f) := by
  show execCacheFillSector bay line .clean s = _
  simp [execCacheFillSector, found, noVictim, up, sectors, not_prefetch_and_unreadable served]

end

/-! ### Write-backs (R296) -/

theorem evictHead_of_evict_cons {s : State} {u : CoreId} {l : Line} {ls : List Line} (bay : Nat)
    (buffer : (s.coreOf u).evict = l :: ls) : s.evictHead u bay =
      (s.setCore u { s.coreOf u with evict := ls }).l2WriteBack bay (s.ownerSlice l.owner) l := by
  simp only [State.evictHead, buffer]

theorem execEvictionWriteback_writes {s : State} {bay slot : Nat} {l : Line} {ls : List Line}
    (buffer : (s.coreOf (.stone bay slot)).evict = l :: ls) :
    exec (.evictionWriteback bay slot false) s = .next (s.evictHead (.stone bay slot) bay) := by
  show execEvictionWriteback bay slot false s = _
  simp only [execEvictionWriteback, buffer, Bool.false_eq_true, if_false]

/-! ### Acknowledged stores (R242) -/

theorem execMemoryStoreAck_counts {s : State} {u : CoreId} (outstanding : (s.coreOf u).storesOut ≠ 0) :
    exec (.memoryStoreAck u) s = .next (s.setCore u { s.coreOf u with storesOut := (s.coreOf u).storesOut - 1 }) :=
  congrArg Host.Outcome.next (if_neg outstanding)

/-! ### The medium (R300, R301) -/

theorem setPoison_of_poisoned {s : State} {ca : Nat} (before : s.poisoned ca = true) : s.setPoison ca = s := by
  rw [State.setPoison, if_pos before]

theorem setPoison_poisoned (s : State) (ca : Nat) : (s.setPoison ca).poisoned ca = true := by
  cases before : s.poisoned ca with
  | true => rwa [setPoison_of_poisoned before]
  | false =>
    have listed : (s.setPoison ca).memx.poison.contains (lineOf (caLocal ca)) = true := by simp [before]
    rw [State.poisoned, listed, Bool.true_or, Bool.true_or]

theorem mediumLost_poisoned (s : State) (la : Nat) : (s.mediumLost la).poisoned la = true := setPoison_poisoned s la

theorem mediumLost_counts (s : State) (la : Nat) :
    (s.mediumLost la).objNum 0x6001 6 [] 0 0 = min u64Max (s.objNum 0x6001 6 [] 0 0 + 1) :=
  objNum_bumpBy_self (s.setPoison la) ..

theorem mediumLost_frame {s t : State} {la : Nat} (lost : s.mediumLost la = t) :
    t = { s with memx := { s.memx with poison := t.memx.poison }, objs := t.objs, err := t.err, can := t.can } := by
  subst lost
  rfl

theorem mediumCorrected_counts (s : State) :
    s.mediumCorrected.objNum 0x6001 5 [] 0 0 = min u64Max (s.objNum 0x6001 5 [] 0 0 + 1) :=
  objNum_bumpBy_self s ..

/-- A patrol of a line in service does what its observation says (R301). -/
theorem execPatrolRead_of_served {s : State} {line : Nat} (readable : s.readable (lineOf line) = true)
    (up : s.memUp (lineOf line) = true) :
    exec (.patrolRead line .clean) s = .next s ∧ exec (.patrolRead line .corrected) s = .next s.mediumCorrected ∧
      exec (.patrolRead line .uncorrectable) s = .next (s.mediumLost (lineOf line)) := by
  have served : ¬ ((!(s.readable (lineOf line))) = true ∨ (!(s.memUp (lineOf line))) = true) := by simp [readable, up]
  exact ⟨congrArg Host.Outcome.next (if_neg served), congrArg Host.Outcome.next (if_neg served),
    congrArg Host.Outcome.next (if_neg served)⟩

/-! ### Bound pairs (R302) -/

/-- A pair that has lost a frame takes the new one beside the one that survives, if that has no other copy. -/
theorem execBoundPairRebuild_rebinds {s : State} {frame second newFrame : Nat}
    (found : s.memx.bound.find? (fun p => p.1 == frame &&
      (s.memx.pch.contains (pchOf p.1) || s.memx.pch.contains (pchOf p.2))) = some (frame, second))
    (needed : pchOf frame ∈ s.memx.pch → pchOf second ∉ s.memx.pch ∧
      ((s.partners frame).filter fun f => !(s.memx.pch.contains (pchOf f))).length < 2)
    (sound : pchOf newFrame ∉ s.memx.pch) (inHbm : newFrame * 4096 < hbmSize)
    (apart : pchOf newFrame % 6 ≠ pchOf (if pchOf frame ∈ s.memx.pch then second else frame) % 6)
    (unbound : ∀ q ∈ s.memx.bound, q.1 ≠ newFrame ∧ q.2 ≠ newFrame) :
    exec (.boundPairRebuild frame newFrame) s = .next { s with
      mem := Memory.putCourses (newFrame * 4096) (s.memLoad (frame * 4096) 4096) s.mem
      memx := { s.memx with
        bound := (s.memx.bound.filter fun q => q != (frame, second)) ++
          if pchOf frame ∈ s.memx.pch then [(frame, second), (frame, newFrame)] else [(frame, newFrame)] } } := by
  show execBoundPairRebuild frame newFrame s = _
  have free : (s.memx.bound.any fun q => q.1 == newFrame || q.2 == newFrame) = false := by simpa using unbound
  simp only [List.contains_eq_mem] at found needed
  simp only [execBoundPairRebuild, List.contains_eq_mem, found]
  by_cases dead : pchOf frame ∈ s.memx.pch
  · obtain ⟨lives, alone⟩ := needed dead
    rw [if_pos dead] at apart
    simp [dead, lives, sound, apart, free, Nat.not_le.2 alone, Nat.not_le.2 inHbm]
  · rw [if_neg dead] at apart
    simp [dead, sound, apart, free, Nat.not_le.2 inHbm]

/-- Settles O41: each row under its conditions, the rebuilds by the frame that survives; while the first frame's own
pseudo-channel is lost, its courses are read from its partner (assumption 52: DEDUCED). -/
theorem cacheAndMediumEvents : Obligations.CacheAndMediumEvents := by
  unfold Obligations.CacheAndMediumEvents
  refine ⟨?_, ?_, ?_, ?_, ?_, ?_, ?_, ?_⟩
  · intro bay line k k' ks f s found noVictim up served sectors
    exact .of_exec (execCacheFillSector_waits_next found noVictim up served sectors) rfl
  · intro bay line k f s found noVictim up served sectors
    exact .of_exec (execCacheFillSector_completes found noVictim up served sectors) rfl
  · intro bay slot l ls s buffer
    exact .of_exec (execEvictionWriteback_writes buffer) (evictHead_of_evict_cons bay buffer)
  · intro bay line s
    exact ⟨_, rfl, rfl⟩
  · intro u s outstanding
    exact .of_exec (execMemoryStoreAck_counts outstanding) ⟨State.coreOf_setCore_self .., OnlyCore.setCore ..⟩
  · intro line s readable up
    obtain ⟨clean, corrected, lost⟩ := execPatrolRead_of_served readable up
    exact ⟨.of_exec clean rfl, .of_exec corrected ⟨mediumCorrected_counts s, rfl⟩,
      .of_exec lost ⟨mediumLost_poisoned .., mediumLost_counts .., mediumLost_frame rfl⟩⟩
  · intro frame second newFrame s found lives sound inHbm apart unbound
    refine .of_exec (execBoundPairRebuild_rebinds found (fun dead => absurd dead lives) sound inHbm
      (by rwa [if_neg lives]) unbound) ?_
    rw [if_neg lives]
  · intro frame second newFrame s found dead lives sound inHbm alone apart unbound
    refine .of_exec (execBoundPairRebuild_rebinds found (fun _ => ⟨lives, alone⟩) sound inHbm
      (by rwa [if_pos dead]) unbound) ?_
    rw [if_pos dead]

end Sys2Proof.Machine
end

section
/-! SUPPORT. Courses and bytes (R56, R57): what is packed is unpacked again, and a number is read back from its courses. -/

namespace Sys2Proof.Machine

theorem unpackBytes_pairBytes (a b : Course) : unpackBytes (pairBytes a b) = [a, b] := by
  have high : a.toNat / 16 % 256 * 16 + (a.toNat % 16 * 16 + b.toNat / 256) % 256 / 16 = a.toNat := by omega
  have low : (a.toNat % 16 * 16 + b.toNat / 256) % 256 % 16 * 256 + b.toNat % 256 = b.toNat := by omega
  simp only [pairBytes, unpackBytes, bytesPair, BitVec.toNat_ofNat, Nat.reducePow, high, low, BitVec.ofNat_toNat,
    BitVec.setWidth_eq, BitVec.toNat_setWidth, List.append_nil]

/-- An odd number of courses is completed with a zero course. -/
theorem unpackBytes_packBytes (cs : List Course) :
    unpackBytes (packBytes cs) = cs ++ List.replicate (cs.length % 2) 0 := by
  induction cs using packBytes.induct with
  | case1 => rfl
  | case2 a => exact unpackBytes_pairBytes a 0
  | case3 a b t ih =>
    have pair : unpackBytes (packBytes (a :: b :: t)) = unpackBytes (pairBytes a b) ++ unpackBytes (packBytes t) := by
      simp only [packBytes, pairBytes, List.cons_append, List.nil_append, unpackBytes, List.append_nil]
    rw [pair, unpackBytes_pairBytes, ih]
    simp only [List.length_cons, List.cons_append, List.nil_append, Nat.add_assoc, Nat.reduceAdd, Nat.add_mod_right]

theorem take_unpackBytes_packBytes (cs : List Course) : (unpackBytes (packBytes cs)).take cs.length = cs := by
  rw [unpackBytes_packBytes, List.take_left]

theorem ceilDiv_two (n : Nat) : ceilDiv n 2 = (n + 1) / 2 := if_neg (by decide)

theorem length_packBytes (cs : List Course) : (packBytes cs).length = ceilDiv cs.length 2 * 3 := by
  induction cs using packBytes.induct with
  | case1 => rfl
  | case2 a =>
    simp only [packBytes, pairBytes, List.length_cons, List.length_nil, ceilDiv_two, Nat.reduceAdd, Nat.reduceDiv,
      Nat.reduceMul]
  | case3 a b t ih =>
    simp only [packBytes, pairBytes, List.length_append, List.length_cons, List.length_nil, ih, ceilDiv_two]
    omega

theorem fitList_of_length {α : Type} {n : Nat} {l : List α} (fits : l.length = n) (d : α) : fitList n d l = l := by
  subst fits
  rw [fitList, List.take_length, Nat.sub_self]
  exact List.append_nil l

theorem crsNat_natCrs {k n : Nat} (fits : n < 4096 ^ k) : crsNat (natCrs k n) = n := by
  induction k generalizing n with
  | zero => exact (Nat.lt_one_iff.1 fits).symm
  | succ k ih =>
    have rest : crsNat (natCrs k (n / 4096)) = n / 4096 := ih (Nat.div_lt_of_lt_mul (by rwa [Nat.pow_succ'] at fits))
    have last : crsNat (natCrs (k + 1) n) = crsNat (natCrs k (n / 4096)) * 4096 + n % 4096 := by
      simp only [natCrs, crsNat, List.foldl_append, List.foldl_cons, List.foldl_nil, BitVec.toNat_ofNat, Nat.reducePow]
    omega

end Sys2Proof.Machine
end

section
/-! Commands on Keystone tables (R259, R264, R265, R268, R269). -/

namespace Sys2Proof.Machine

section
variable {h : CmdHdr} {s s1 : State} {b : Binding} {table : Nat} {k : KsTab}

/-! ### KS_CREATE (R259) -/

/-- The PARAM courses of KS_CREATE. -/
def ksCreateParam (id mode key cap copies : Nat) : List Course :=
  natCrs 2 id ++ natCrs 1 (mode * 1024 + key) ++ natCrs 2 cap ++ natCrs 1 copies ++ natCrs 2 0

theorem length_ksCreateParam (id mode key cap copies : Nat) : (ksCreateParam id mode key cap copies).length = 8 := by
  simp only [ksCreateParam, List.length_append, natCrs_length]

theorem length_packBytes_ksCreateParam (id mode key cap copies : Nat) :
    (packBytes (ksCreateParam id mode key cap copies)).length = 12 := by
  rw [length_packBytes, length_ksCreateParam, ceilDiv_two]

theorem unpackBytes_ksCreateParam (id mode key cap copies : Nat) :
    fitList 8 0 (unpackBytes ((packBytes (ksCreateParam id mode key cap copies)).take 12)) =
      ksCreateParam id mode key cap copies := by
  have eight := length_ksCreateParam id mode key cap copies
  have whole : unpackBytes (packBytes (ksCreateParam id mode key cap copies)) = ksCreateParam id mode key cap copies := by
    rw [unpackBytes_packBytes, eight]
    exact List.append_nil _
  rw [List.take_of_length_le (Nat.le_of_eq (length_packBytes_ksCreateParam ..)), whole]
  exact fitList_of_length eight 0

/-- A table of fields in their ranges, within the quota of its slice and with room in its banks, is created empty. -/
theorem execKsCreate_creates {id mode key cap copies : Nat} {held : List KsCopy} {param : List Byte} (served : s.paused = false)
    (starts : Starts s h 0x0030 tenantRole s1 b) (idPos : 0 < id) (idFits : id < 2 ^ 24) (modeOk : mode ≤ 2)
    (keyPos : 0 < key) (keyFits : key ≤ (if mode = 2 then 4 else 8)) (capPos : 0 < cap) (capFits : cap ≤ 32768)
    (one : 1 ≤ copies) (two : copies ≤ 2) (fresh : s1.ksTab b.slice id = none)
    (quota : s1.ksSliceUsed b.slice + cap * copies ≤ s1.objNum (0x4000 + b.slice) 5 [] 0 0)
    (place : s1.ksPlace cap copies = some held) (fields : param = packBytes (ksCreateParam id mode key cap copies)) :
    exec (.ksCreate h param) s = .next (State.fanOut s1 (.ksCreate h param) h 0x0030 b (({ s1 with ks := { s1.ks with
      tables := s1.ks.tables ++ [
        { slice := b.slice, id := id, mode := mode, key := key, capacity := cap, copies := copies,
          committed := [], image := [], journal := [], held := held, queue := [], started := false,
          committedHead := false }] } } : State).finish b.slice h 0 0 [])) := by
  have keyMax : key ≤ 8 := by split at keyFits <;> omega
  have word : (BitVec.ofNat 12 (mode * 1024 + key)).toNat = mode * 1024 + key := by
    rw [BitVec.toNat_ofNat]; omega
  have idRead : crsNat ((ksCreateParam id mode key cap copies).take 2) = id := crsNat_natCrs (k := 2) (by omega)
  have wordRead : (nth (ksCreateParam id mode key cap copies) 2 0).toNat = mode * 1024 + key := word
  have capRead : crsNat (slice (ksCreateParam id mode key cap copies) 3 2) = cap := crsNat_natCrs (k := 2) (by omega)
  have copiesRead : (nth (ksCreateParam id mode key cap copies) 5 0).toNat = copies :=
    (BitVec.toNat_ofNat ..).trans (by omega)
  have zeros : crsNat (slice (ksCreateParam id mode key cap copies) 6 2) = 0 := rfl
  have modeRead : (mode * 1024 + key) / 1024 = mode := by omega
  have keyRead : (mode * 1024 + key) % 16 = key := by omega
  have reserved : fieldOf (mode * 1024 + key) 9 4 = 0 := by simp only [fieldOf]; omega
  have length : param.length = 12 := fields ▸ length_packBytes_ksCreateParam ..
  show execKsCreate h param s = _
  unfold execKsCreate
  rw [length, Nat.sub_self, List.range_zero, List.find?_nil]
  dsimp only
  rw [managed_of_starts _ served starts rfl, fields, unpackBytes_ksCreateParam]
  simp only [idRead, wordRead, capRead, copiesRead, zeros, modeRead, keyRead, reserved]
  rw [if_neg (by omega), fresh, if_neg (by simp), if_neg (by omega), place]
  rfl

/-! ### KS_DROP (R269) -/

theorem foldl_eq_self_of_mem {α β : Type} {f : β → α → β} {l : List α} (same : ∀ b, ∀ x ∈ l, f b x = b) (b : β) :
    l.foldl f b = b := by
  induction l with
  | nil => rfl
  | cons x l ih =>
    rw [List.foldl_cons, same b x List.mem_cons_self]
    exact ih fun b y mem => same b y (List.mem_cons_of_mem x mem)

theorem unwait_wait {w : Waiting} (new : ∀ x ∈ s.host.waiting, x ≠ w) : (s.wait w).unwait w = s := by
  have rest : (s.host.waiting ++ [w]).filter (fun x => x != w) = s.host.waiting := by simpa using new
  simp only [State.unwait, State.wait, rest]

/-- With no drop waiting, only the new one is looked at. -/
theorem ksDrops_wait_ksDrop {sl : Nat} (tab : s.ksTab sl table = some k) (empty : k.queue = [])
    (unbound : s.ksBound sl table = false) (alone : ∀ w ∈ s.host.waiting, ∀ h' sl' id, w ≠ .ksDrop h' sl' id) :
    (s.wait (.ksDrop h sl table)).ksDrops = ({ s with ks := { s.ks with
      tables := s.ks.tables.filter fun x => !(x.slice == sl && x.id == table) } } : State).finish sl h 0 0 [] := by
  have back : (s.wait (.ksDrop h sl table)).unwait (.ksDrop h sl table) = s :=
    unwait_wait fun w mem => alone w mem h sl table
  have idle : ((s.wait (.ksDrop h sl table)).ksTab sl table) = some k := tab
  have free : (s.wait (.ksDrop h sl table)).ksBound sl table = false := unbound
  unfold State.ksDrops
  rw [State.wait_host, List.foldl_append, List.foldl_cons, List.foldl_nil, foldl_eq_self_of_mem (l := s.host.waiting)]
  · dsimp only
    rw [idle, free, Option.map_some, empty, if_neg (by simp), if_neg Bool.false_ne_true]
    show State.finish { (s.wait (.ksDrop h sl table)).unwait (.ksDrop h sl table) with ks := _ } sl h 0 0 [] = _
    rw [back]
    rfl
  · intro t w mem
    split
    · exact absurd rfl (alone _ mem _ _ _)
    · rfl

/-- A table with an empty queue that no context binds is dropped at once. -/
theorem execKsDrop_drops (served : s.paused = false) (starts : Starts s h 0x0031 tenantRole s1 b)
    (tab : s1.ksTab b.slice table = some k) (empty : k.queue = []) (unbound : s1.ksBound b.slice table = false)
    (alone : ∀ w ∈ s1.host.waiting, ∀ h' sl id, w ≠ .ksDrop h' sl id) :
    exec (.ksDrop h table) s = .next (State.fanOut s1 (.ksDrop h table) h 0x0031 b (({ s1 with ks := { s1.ks with
      tables := s1.ks.tables.filter fun x => !(x.slice == b.slice && x.id == table) } } : State).finish b.slice h 0 0 [])) := by
  show execKsDrop h table s = _
  unfold execKsDrop
  rw [managed_of_starts _ served starts rfl, tab]
  dsimp only
  rw [unbound, if_neg Bool.false_ne_true, ksDrops_wait_ksDrop tab empty unbound alone]

/-! ### KS_INSERT, KS_DELETE and KS_LOAD (R264, R265, R268) -/

/-- An update of the host enters a queue with room at its end, and its command waits for its commit; behind a full queue the
command waits for room (R267). -/
theorem ksEnter_of_ksTab {sl kind pos : Nat} {images : List (List Course)} (tab : s.ksTab sl table = some k) :
    s.ksEnter h sl table kind pos images =
      if (k.queue.filter fun x => x.kind != 2).length < 16 then
        let s2 := s.updKs sl table fun x => { x with queue := x.queue ++ [⟨kind, pos, images, s.ks.nextId, true, 0, none⟩] }
        { s2 with
          ks := { s2.ks with nextId := s.ks.nextId + 1 }
          host := { s.host with waiting := s.host.waiting ++ [.ksUpdate h sl table s.ks.nextId] } }
      else { s with host := { s.host with waiting := s.host.waiting ++ [.ksEnter h sl table kind pos images] } } := by
  rw [State.ksEnter, tab]
  rfl

theorem execKsInsert_enters {position : Nat} {im : List Course} (served : s.paused = false)
    (starts : Starts s h 0x0032 tenantRole s1 b) (tab : s1.ksTab b.slice table = some k)
    (fits : im.length = ksImageLen k.mode k.key) (sound : ksImageOk k.mode k.key im = true) :
    let i : Instr := .ksInsert h table position (packBytes im)
    exec i s = .next (State.fanOut s1 i h 0x0032 b (s1.ksEnter h b.slice table 0 position [im])) := by
  show execKsInsert h table position (packBytes im) s = _
  unfold execKsInsert
  rw [managed_of_starts _ served starts rfl, tab]
  dsimp only
  rw [← fits, take_unpackBytes_packBytes, if_neg (by simp [length_packBytes, sound])]

theorem execKsDelete_enters {position : Nat} (served : s.paused = false) (starts : Starts s h 0x0033 tenantRole s1 b)
    (tab : s1.ksTab b.slice table = some k) :
    let i : Instr := .ksDelete h table position
    exec i s = .next (State.fanOut s1 i h 0x0033 b (s1.ksEnter h b.slice table 1 position [])) := by
  show execKsDelete h table position s = _
  unfold execKsDelete
  rw [managed_of_starts _ served starts rfl, tab]

/-- A list within the capacity of the table, of sound images, with room in every bank and within the quota, is queued. -/
theorem execKsLoad_queues {count : Nat} {entries : List Byte} {ims : List (List Course)} (served : s.paused = false)
    (starts : Starts s h 0x0034 tenantRole s1 b) (tab : s1.ksTab b.slice table = some k) (fits : count ≤ k.capacity)
    (images : ims = (List.range count).map fun i =>
      slice (unpackBytes entries) (i * ksImageLen k.mode k.key) (ksImageLen k.mode k.key))
    (whole : entries.length = ceilDiv (count * ksImageLen k.mode k.key) 2 * 3)
    (sound : ims.all (ksImageOk k.mode k.key) = true) (room : ∀ c ∈ k.held, s1.ksRoom c.bank count = true)
    (quota : s1.ksSliceUsed b.slice + count * k.held.length ≤ s1.objNum (0x4000 + b.slice) 5 [] 0 0) :
    let i : Instr := .ksLoad h table count entries
    exec i s = .next (State.fanOut s1 i h 0x0034 b
      ((s1.wait (.ksLoad h b.slice s1.ks.nextId)).ksQueue b.slice table 2 0 ims true 0 none)) := by
  have roomy : (k.held.any fun c => !(s1.ksRoom c.bank count)) = false :=
    List.any_eq_false.2 fun c mem => by simp [room c mem]
  show execKsLoad h table count entries s = _
  unfold execKsLoad
  rw [managed_of_starts _ served starts rfl, tab]
  dsimp only
  rw [← images, if_neg (Nat.not_lt.2 fits), if_neg (by simp [whole, sound]), roomy,
    if_neg (by simpa using quota)]

/-! ### KS_READ (R269) -/

theorem execKsRead_reads {first last : Nat} (starts : Starts s h 0x0035 tenantRole s1 b)
    (tab : s1.ksTab b.slice table = some k) (ordered : first ≤ last) :
    exec (.ksRead h table first last) s = .next (s1.finish b.slice h 0 0
      (packBytes (((k.committed.drop first).take (last + 1 - first)).flatMap id))) := by
  show execKsRead h table first last s = _
  unfold execKsRead
  rw [command_of_starts _ starts, tab]
  dsimp only
  rw [if_neg (Nat.not_lt.2 ordered)]
  rfl

end

/-- Settles O34: each command under its conditions, from the lemma of its row; in a group it goes on to the other members
(assumption 99: DESIGN CHOICE), and all but KS_READ are served outside a pause (assumption 12: DESIGN CHOICE). -/
theorem keystoneCommandsComplete : Obligations.KeystoneCommandsComplete := by
  unfold Obligations.KeystoneCommandsComplete
  refine ⟨?_, ?_, ?_, ?_, ?_, ?_⟩
  · intro h id mode key cap copies held param s s1 b served starts idPos idFits modeOk keyPos keyFits capPos capFits one two
      fresh quota place fields
    exact execKsCreate_creates served starts idPos idFits modeOk keyPos keyFits capPos capFits one two fresh quota place fields
  · intro h table k s s1 b served starts tab empty unbound alone
    exact execKsDrop_drops served starts tab empty unbound alone
  · intro h table position im k s s1 b served starts tab fits sound
    rw [← ksEnter_of_ksTab tab]
    exact execKsInsert_enters served starts tab fits sound
  · intro h table position k s s1 b served starts tab
    rw [← ksEnter_of_ksTab tab]
    exact execKsDelete_enters served starts tab
  · intro h table count entries k s s1 b served starts tab fits n ims whole sound room quota
    exact execKsLoad_queues served starts tab fits rfl whole sound room quota
  · intro h table first last k s s1 b starts tab ordered
    exact execKsRead_reads starts tab ordered

end Sys2Proof.Machine
end

section
/-! What the Keystone store does of itself (R262-R268, R270, R274-R276). -/

namespace Sys2Proof.Machine

/-! ### Frames and searches (R262, R270) -/

theorem ksBank_updBank_self (s : State) (bank : Nat) (f : KsBank → KsBank) : (s.updBank bank f).ksBank bank = f (s.ksBank bank) :=
  tgetD_tset_self ..

theorem ksBank_updBank_ne {bank other : Nat} (ne : other ≠ bank) (s : State) (f : KsBank → KsBank) :
    (s.updBank bank f).ksBank other = s.ksBank other := tgetD_tset_ne ne ..

theorem execKsFrameStart_begins {bay : Nat} {s : State} (live : s.bayLive bay = true)
    (ended : (s.ksBank bay).frameStart + 8 ≤ s.now) :
    exec (.ksFrameStart bay) s = .next (s.updBank bay fun k => { k with
      frameStart := s.now, slots := ksSlots (s.stepOf bay), used := 0, reserved := s.ksReserved bay, sharedUsed := [],
      rebuildUsed := 0 }) :=
  congrArg Host.Outcome.next (if_neg (by simp [live, ended]))

/-- Slots taken move no table. -/
theorem ksTab_ksSlot (s : State) (bank : Nat) (r : KsReq) (sl id : Nat) : (s.ksSlot bank r).ksTab sl id = s.ksTab sl id := rfl

section
variable {s : State} {sl id bank : Nat} {k : KsTab} {c : KsCopy} {u : KsUpd} {us : List KsUpd}

/-- A search whose copy has a slot and shows no parity error is delivered as that copy answers; an invalid entry sends it to
a copy that is valid there, or has it issued again (R275). -/
theorem execKsSearchResult_answers {x : KsSearch} (search : s.ks.searches.find? (fun x => x.id == id) = some x)
    (tab : s.ksTab x.slice x.table = some k) (copy : s.ksCopyOf k x = some c) (passed : k.holds x = false)
    (free : s.ksFree c.bank (s.searchReq x) = true) (runs : s.bayRuns c.bank = true) :
    let s1 := s.ksSlot c.bank (s.searchReq x)
    exec (.ksSearchResult id []) s = .next (match k.answerAt c.bank x.key with
      | some (.hit p im) => (s1.bump 0x6100 2 [c.bank] x.slice).ksDeliver x true p (ksResult im)
      | some (.blocked p) => match s1.ksChoose x.bay (k.held.filter fun d => d.bank != c.bank && !(d.bad.contains p)) with
        | some d => s1.ksSend x (some d.bank)
        | none => (s1.bump 0x6100 6 [c.bank] x.slice).ksSend x none
      | _ => (s1.bump 0x6100 2 [c.bank] x.slice).ksDeliver x false 0 []) := by
  show execKsSearchResult id [] s = _
  unfold execKsSearchResult
  simp only [search, tab, copy]
  rw [if_neg (by simp [passed, free, runs]), List.foldl_nil, ksTab_ksSlot, tab]
  rfl

/-! ### Updates (R263-R268) -/

/-- Before the commit at the head of its queue nothing of a table is settled. -/
theorem ksSettle_of_uncommitted (tab : s.ksTab sl id = some k) (head : k.committedHead = false) : s.ksSettle sl id = s := by
  unfold State.ksSettle
  rw [tab]
  dsimp only
  split
  · rw [if_neg (by simp [head])]
  · rfl

/-- What the commit of an insert or a delete makes of its table: an insert leaves the queue, a delete once it has moved
(R263-R265). -/
def State.ksCommitted (s : State) (sl id : Nat) (u : KsUpd) : State :=
  if u.kind = 0 then (s.updKs sl id fun x => { x with committed := u.apply x.committed }).ksPop sl id
  else (s.updKs sl id fun x => { x with committed := u.apply x.committed, committedHead := true }).ksSettle sl id

theorem ksCommitted_of_insert {im : List Course} (insert : u.kind = 0) (image : u.images = [im]) :
    s.ksCommitted sl id u = (s.updKs sl id fun x => { x with
      committed := x.committed.take u.pos ++ [im] ++ x.committed.drop u.pos }).ksPop sl id := by
  simp only [State.ksCommitted, KsUpd.apply, insert, image, ↓reduceIte, List.head?_cons, Option.getD_some]

theorem ksCommitted_of_delete (delete : u.kind = 1) : s.ksCommitted sl id u =
    (s.updKs sl id fun x => { x with committed := x.committed.eraseIdx u.pos, committedHead := true }).ksSettle sl id := by
  simp only [State.ksCommitted, KsUpd.apply, delete, Nat.one_ne_zero, ↓reduceIte]

section
variable (tab : s.ksTab sl id = some k) (queue : k.queue = u :: us)
include tab queue

/-- An update at the head starts if it passes its check; one of the host that does not fails and leaves the queue. -/
theorem execKsUpdateHead_checks (fresh : k.started = false) (head : k.committedHead = false) (update : u.kind ≠ 2)
    (copies : k.held ≠ []) (passed : s.ksBehind sl id u = false) :
    (k.headCheck u = 0 → exec (.ksUpdateHead sl id) s =
      .next (s.updKs sl id fun x => { x with started := true, journal := x.journal ++ [u] })) ∧
    (k.headCheck u ≠ 0 → u.host = true → exec (.ksUpdateHead sl id) s =
      .next ((s.ksComplete u.id (k.headCheck u)).ksPop sl id)) := by
  have checks : execKsUpdateHead sl id s = .next (
      if k.headCheck u = 0 then s.updKs sl id fun x => { x with started := true, journal := x.journal ++ [u] }
      else if u.host then (s.ksComplete u.id (k.headCheck u)).ksPop sl id
      else
        let bay := ((k.held.head?).map (·.bank)).getD 0
        ((s.bump 0x6100 9 [bay] sl).recordBoth (bayPlace bay) sl u.ctx (k.headCheck u) 0 none).ksPop sl id) := by
    unfold execKsUpdateHead
    simp only [ksSettle_of_uncommitted tab head, tab, queue]
    rw [if_neg (by simp [fresh, update, copies, passed])]
  refine ⟨fun sound => ?_, fun unsound host => ?_⟩
  · exact checks.trans (by rw [if_pos sound])
  · exact checks.trans (by rw [if_neg unsound, if_pos host])

/-- A copy with moves due and no invalid entry makes one in a shared slot (R264, R265). -/
theorem execKsMove_moves (copy : k.held.find? (fun c => c.bank == bank) = some c) (started : k.started = true)
    (moving : u.kind = 0 ∨ (u.kind = 1 ∧ k.committedHead = true)) (due : c.moved < k.movesDue u) (valid : c.bad = [])
    (free : s.ksFree bank (.shared sl) = true) :
    exec (.ksMove sl id bank false) s =
      .next ((((s.ksSlot bank (.shared sl)).updKs sl id fun x => x.updCopy bank fun c => { c with moved := c.moved + 1 }).bump
        0x6100 4 [bank] sl).ksSettle sl id) := by
  have commits : ¬ (u.kind = 1 ∧ (!k.committedHead) = true) := by
    rcases moving with insert | ⟨-, committed⟩
    · simp [insert]
    · simp [committed]
  show execKsMove sl id bank false s = _
  unfold execKsMove
  simp only [tab, queue, copy]
  rw [if_neg (by simp only [commits, started, valid, free, Nat.not_le.2 due]; decide), if_neg Bool.false_ne_true]

/-- A started update commits in one slot of every copy: an insert once it has moved in each, a delete before its moves
(R263). -/
theorem execKsCommit_commits (started : k.started = true) (head : k.committedHead = false) (copies : k.held ≠ [])
    (ready : ∀ c ∈ k.held, s.ksFree c.bank (s.updReq sl u) = true ∧ c.bad = [])
    (moved : u.kind = 0 → ∀ c ∈ k.held, k.movesDue u ≤ c.moved) :
    let s1 := (k.held.foldl (fun (x : State) c => x.ksSlot c.bank (s.updReq sl u)) s).bump 0x6100 3
      ((k.held.head?.map fun c => [c.bank]).getD []) sl
    exec (.ksCommit sl id) s =
      .next (if u.host then (s1.ksCommitted sl id u).ksComplete u.id 0 else s1.ksCommitted sl id u) := by
  have free : (k.held.all fun c => s.ksFree c.bank (s.updReq sl u) && c.bad.isEmpty) = true :=
    List.all_eq_true.2 fun c mem => by simp [ready c mem]
  show execKsCommit sl id s = _
  unfold execKsCommit
  simp only [tab, queue]
  rw [free, if_neg (by simpa [started, head, copies] using moved)]
  rfl

/-- A load at the head switches every copy to its list in one shared slot (R268). -/
theorem execKsLoadSwitch_switches (load : u.kind = 2) (copies : k.held ≠ [])
    (ready : ∀ c ∈ k.held, s.ksFree c.bank (.shared sl) = true) :
    let s1 := (k.held.foldl (fun (x : State) c => x.ksSlot c.bank (.shared sl)) s).bump 0x6100 3
      ((k.held.head?.map fun c => [c.bank]).getD []) sl
    exec (.ksLoadSwitch sl id) s = .next (((s1.updKs sl id fun x => { x with
      committed := u.images, journal := x.journal ++ [u]
      held := x.held.map fun c => { c with bad := [] } }).ksPop sl id).ksComplete u.id 0) := by
  have free : (k.held.all fun c => s.ksFree c.bank (.shared sl)) = true := List.all_eq_true.2 ready
  show execKsLoadSwitch sl id s = _
  unfold execKsLoadSwitch
  simp only [tab, queue]
  rw [if_neg (by simp [load, free, copies])]
  simp only [KsUpd.apply, load]

end

/-! ### Rewrites, rebuilds and the journal (R274-R276) -/

theorem execKsJournalFold_folds (served : s.paused = false) : exec (.ksJournalFold sl id) s = .next (s.updKs sl id fun x =>
    { x with image := x.shadow, journal := x.journal.drop (x.journal.length - x.unsettled) }) :=
  congrArg Host.Outcome.next (if_neg (by simp [served]))

/-- An invalid entry is rewritten in a rebuild slot; its row stays in use before its third error within a second. -/
theorem execKsParityRewrite_rewrites {pos : Nat} (tab : s.ksTab sl id = some k)
    (copy : k.held.find? (fun c => c.bank == bank) = some c) (invalid : pos ∈ c.bad) (free : s.ksFree bank .rebuild = true)
    (few : ((s.ksBank bank).errors.filter fun e =>
      e.1 == sl && e.2.1 == id && e.2.2.1 == pos && decide (s.now < e.2.2.2 + 25000000)).length < 3) :
    exec (.ksParityRewrite sl id bank pos) s = .next (((s.updKs sl id fun x => x.updCopy bank fun c => { c with
      bad := c.bad.filter fun p => p != pos }).bump 0x6100 5 [bank] sl).ksSlot bank .rebuild) := by
  show execKsParityRewrite sl id bank pos s = _
  unfold execKsParityRewrite
  simp only [tab, copy]
  rw [if_neg (by simp [invalid, free]), if_pos few]

theorem execKsCopyRebuild_rebuilds (tab : s.ksTab sl id = some k) (wanted : s.ksWanted k bank = true)
    (new : ∀ c ∈ k.held, c.bank ≠ bank) (room : s.ksRoom bank k.capacity = true) :
    exec (.ksCopyRebuild sl id bank) s = .next (s.updKs sl id fun x => { x with held := x.held ++ [x.newCopy bank] }) := by
  show execKsCopyRebuild sl id bank s = _
  unfold execKsCopyRebuild
  rw [tab]
  dsimp only
  rw [if_pos ⟨wanted, by simpa using new, room⟩]

end

/-- Settles O35: each row under its conditions, from the lemma of its row; a commit is `State.ksCommitted`. -/
theorem keystoneEventsMoveTables : Obligations.KeystoneEventsMoveTables := by
  unfold Obligations.KeystoneEventsMoveTables
  refine ⟨?_, ?_, ?_, ?_, ?_, ?_, ?_, ?_, ?_⟩
  · intro bay s live ended
    refine .of_exec (execKsFrameStart_begins live ended) ?_
    rw [ksBank_updBank_self]
    exact ⟨rfl, rfl, rfl, rfl, rfl, fun other ne => ksBank_updBank_ne ne .., rfl⟩
  · intro id x k c s search tab copy passed free runs
    exact execKsSearchResult_answers search tab copy passed free runs
  · intro sl id k u us s tab queue fresh head update copies passed
    exact execKsUpdateHead_checks tab queue fresh head update copies passed
  · intro sl id bank k c u us s tab queue copy started moving due valid free
    exact execKsMove_moves tab queue copy started moving due valid free
  · intro sl id k u us s tab queue started head copies ready
    refine ⟨fun im insert image moved => ?_, fun delete => ?_⟩
    · rw [← ksCommitted_of_insert insert image]
      exact execKsCommit_commits tab queue started head copies ready fun _ => moved
    · rw [← ksCommitted_of_delete delete]
      exact execKsCommit_commits tab queue started head copies ready (by simp [delete])
  · intro sl id k u us s tab queue load copies ready
    exact execKsLoadSwitch_switches tab queue load copies ready
  · intro sl id s served
    exact execKsJournalFold_folds served
  · intro sl id bank pos k c s tab copy invalid free few
    exact execKsParityRewrite_rewrites tab copy invalid free few
  · intro sl id bank k s tab wanted new room
    exact execKsCopyRebuild_rebuilds tab wanted new room

end Sys2Proof.Machine
end

section
/-! Range operations, walks and invalidates (R306, R307, R318, R327): what a visit, a zero write and an end do, one read of a
walk, and an invalidate in one bay. -/

namespace Sys2Proof.Machine

/-! ### Range engines (R306, R307) -/

theorem rangeOf_updRange_self (s : State) (bay : Nat) (f : RangeEng → RangeEng) : (s.updRange bay f).rangeOf bay = f (s.rangeOf bay) :=
  tgetD_tset_self ..

theorem rangeOf_updRange_ne {bay other : Nat} (ne : other ≠ bay) (s : State) (f : RangeEng → RangeEng) :
    (s.updRange bay f).rangeOf other = s.rangeOf other := tgetD_tset_ne ne ..

section
variable {s : State} {bay : Nat} {o : RangeOp} {os : List RangeOp} (queue : (s.rangeOf bay).queue = o :: os)
include queue

/-- A visit works on the lines it covers whose fill is not outstanding; the fills it meets carry the operation on. -/
theorem execRangeSetVisit_visits (due : o.at_ < o.visits) :
    let s1 := s.rangeApply bay o fun l => o.visited o.at_ l.addr &&
      !(s.memx.fills.any fun f => f.bay == bay && f.line == l.addr)
    exec (.rangeSetVisit bay) s = .next (({ s1 with memx := { s1.memx with
      fills := mapIf (fun f => f.bay == bay && o.visited o.at_ f.line)
        (fun f => { f with covered := some o.id }) s1.memx.fills } } : State).updRange bay fun r => { r with
      queue := mapIf (fun x => x.id == o.id) (fun x => { x with at_ := x.at_ + 1 }) r.queue }) := by
  show execRangeSetVisit bay s = _
  unfold execRangeSetVisit
  rw [queue]
  exact congrArg Host.Outcome.next (if_neg (Nat.not_le.2 due))

theorem execRangeZeroWrite_zeroes (zero : o.op = 0x13) (fresh : o.id ∉ s.memx.zeroDone) (visited : s.rangeVisited o.id = true) :
    exec (.rangeZeroWrite bay) s = .next { s.zeroRange o with
      memx := { (s.zeroRange o).memx with zeroDone := o.id :: (s.zeroRange o).memx.zeroDone } } := by
  show execRangeZeroWrite bay s = _
  unfold execRangeZeroWrite
  rw [queue]
  exact congrArg Host.Outcome.next (if_neg (by simp [zero, fresh, visited]))

/-- With its visits made and no fill, victim or zero write of it outstanding, the head of the queue ends. -/
theorem execRangeOpDone_ends (complete : o.visits ≤ o.at_)
    (filled : ∀ f ∈ s.memx.fills, f.bay = bay → f.covered ≠ some o.id)
    (written : ∀ v ∈ s.memx.victims, v.1 = bay → o.start + o.count ≤ v.2 ∨ v.2 + 128 ≤ o.start)
    (zeroed : o.op = 0x13 → o.id ∈ s.memx.zeroDone) :
    exec (.rangeOpDone bay) s = .next (s.updRange bay fun r => { r with queue := os, lastOp := o.op - 0x10 + 1 }) := by
  have noFill : (s.memx.fills.any fun f => f.bay == bay && f.covered == some o.id) = false := by simpa using filled
  have noVictim : (s.memx.victims.any fun v =>
      v.1 == bay && decide (v.2 < o.start + o.count ∧ o.start < v.2 + 128)) = false := by
    refine List.any_eq_false.2 fun v mem => ?_
    have := written v mem
    simp only [Bool.and_eq_true, beq_iff_eq, decide_eq_true_eq]
    omega
  show execRangeOpDone bay s = _
  unfold execRangeOpDone
  rw [queue]
  dsimp only
  rw [noFill, noVictim, if_neg (by simpa [complete] using zeroed)]

end

/-! ### Walks (R318) -/

section
variable {s : State} {u : CoreId} {a : Access} {obs : ReadObs} (waiting : (s.coreOf u).access = some a)
include waiting

theorem execWalkReadDone_of_tlbFind_some {e : TlbEntry}
    (found : (s.coreOf u).tlbFind (s.spaceOf (s.coreOf u) a.borrowed) a.va a.isStore = some e) :
    exec (.walkReadDone u obs) s = .next (s.completeAccess u a e .clean) := by
  show execWalkReadDone u obs s = _
  simp only [execWalkReadDone, State.resumeAccess, waiting, found]

theorem execWalkReadDone_of_tlbFind_none
    (missing : (s.coreOf u).tlbFind (s.spaceOf (s.coreOf u) a.borrowed) a.va a.isStore = none) :
    exec (.walkReadDone u obs) s = .next (walkResult u a (s.walkStep (walkerOf u) (s.spaceOf (s.coreOf u) a.borrowed)
      (askerOf u a.borrowed) a.isStore a.va a.table a.level obs)) := by
  show execWalkReadDone u obs s = _
  simp only [execWalkReadDone, State.resumeAccess, waiting, missing]

end

/-! ### Invalidates (R327) -/

/-- The oldest invalidate that has not reached a bay takes effect there, and leaves the queue when that bay was its last. -/
theorem execInvalidateEffect_reaches {s : State} {bay : Nat} {i : Inval} {before after : List Inval}
    (queue : s.memx.invals = before ++ i :: after) (older : ∀ x ∈ before, bay ∉ x.bays) (first : i ∉ before) (due : bay ∈ i.bays) :
    let s1 := s.invalidate bay i
    exec (.invalidateEffect bay) s = .next { s1 with memx := { s1.memx with
      invals := before ++ (if i.bays.erase bay = [] then [] else [{ i with bays := i.bays.erase bay }]) ++ after } } := by
  have found : s.memx.invals.find? (fun x => x.bays.contains bay) = some i :=
    List.find?_eq_some_iff_append.2 ⟨by simpa using due, before, after, queue, by simpa using older⟩
  have others : ∀ x ∈ before, (x != i) = true := fun x mem => bne_iff_ne.2 fun same => first (same ▸ mem)
  have taken : s.memx.invals.takeWhile (fun x => x != i) = before := by
    simp [queue, List.takeWhile_append_of_pos others]
  have dropped : s.memx.invals.dropWhile (fun x => x != i) = i :: after := by
    simp [queue, List.dropWhile_append_of_pos others]
  show execInvalidateEffect bay s = _
  unfold execInvalidateEffect
  simp only [found, taken, dropped, List.isEmpty_iff, List.drop_one, List.tail_cons]

/-- Settles O42: each row under its conditions, from the lemma of its row. -/
theorem rangeWalkAndInvalidateEvents : Obligations.RangeWalkAndInvalidateEvents := by
  unfold Obligations.RangeWalkAndInvalidateEvents
  refine ⟨?_, ?_, ?_, ?_, ?_⟩
  · intro bay o os s queue due
    exact .of_exec (execRangeSetVisit_visits queue due) rfl
  · intro bay o os s queue zero fresh visited
    exact .of_exec (execRangeZeroWrite_zeroes queue zero fresh visited) rfl
  · intro bay o os s queue complete filled written zeroed
    refine .of_exec (execRangeOpDone_ends queue complete filled written zeroed) ?_
    rw [rangeOf_updRange_self]
    exact ⟨rfl, rfl, fun other ne => rangeOf_updRange_ne ne .., rfl⟩
  · intro u a obs s waiting
    exact ⟨fun e found => .of_exec (execWalkReadDone_of_tlbFind_some waiting found) rfl,
      fun missing => .of_exec (execWalkReadDone_of_tlbFind_none waiting missing) rfl⟩
  · intro bay i before after s queue older first due
    exact .of_exec (execInvalidateEffect_reaches queue older first due) rfl

end Sys2Proof.Machine
end

section
/-! Invalidates, tsync and range operations on a Quoin core (R305, R306, R326, R327). -/

namespace Sys2Proof.Machine

section
variable {p : Nat} {g : Fin 8} {s s1 : State} {rd ra rb : Fin 32}

/-! ### Invalidates (R326, R327) -/

/-- What the instructions queue is what R327 says of an invalidate. -/
theorem queueInval_eq_invalidating (s : State) (kind tag va : Nat) :
    s.queueInval kind tag va = Claims.invalidating s ⟨kind, tag, va, List.range 17⟩ := rfl

/-- Neither the queue of invalidates nor the messages to a group lie in a core. -/
theorem coreOf_invalidating (s : State) (i : Inval) (u : CoreId) : (Claims.invalidating s i).coreOf u = s.coreOf u := rfl

/-- An instruction that only queues an invalidate retires on the state in which it is queued. -/
theorem issue_queueInval {u : CoreId} {i : Info} {an : Bool} {body : State → Core → Nat → Res} {kind tag va : Nat}
    (issues : Issues s u g i s1) (ordinary : i.transfer = false)
    (queues : ∀ k, body s1 (s1.coreOf u) k = .done (s1.queueInval kind tag va)) :
    ∃ t, s.issue u g i an false body = .next t ∧
      Retires (Claims.invalidating s1 ⟨kind, tag, va, List.range 17⟩) t u (s1.coreOf u) := by
  obtain ⟨t, answered, retires⟩ := issue_done (an := an) issues ordinary queues
  rw [queueInval_eq_invalidating, coreOf_invalidating] at retires
  exact ⟨t, answered, retires⟩

theorem tinvA_queues (issues : Issues s (.quoin p) g (infoS 1 (rS [ra, rb]) [] true) s1) :
    Answers (.tinvA (.quoin p) g ra rb) s fun t =>
      Retires (Claims.invalidating s1 ⟨0, ((s1.coreOf (.quoin p)).sr rb.val).toNat % 2 ^ 23,
        ((s1.coreOf (.quoin p)).sr ra.val).toNat, List.range 17⟩) t (.quoin p) (s1.coreOf (.quoin p)) := by
  show ∃ t, execTinvA (.quoin p) g ra rb s = .next t ∧ _
  unfold execTinvA
  exact issue_queueInval issues rfl fun _ => rfl

theorem tinvT_queues (issues : Issues s (.quoin p) g (infoS 1 (rS [rb]) [] true) s1) :
    Answers (.tinvT (.quoin p) g rb) s fun t =>
      Retires (Claims.invalidating s1 ⟨1, ((s1.coreOf (.quoin p)).sr rb.val).toNat % 2 ^ 23, 0, List.range 17⟩) t (.quoin p)
        (s1.coreOf (.quoin p)) := by
  show ∃ t, execTinvT (.quoin p) g rb s = .next t ∧ _
  unfold execTinvT
  exact issue_queueInval issues rfl fun _ => rfl

theorem tinvAll_queues (issues : Issues s (.quoin p) g (infoS 1 [] [] true) s1) :
    Answers (.tinvAll (.quoin p) g) s fun t =>
      Retires (Claims.invalidating s1 ⟨2, 0, 0, List.range 17⟩) t (.quoin p) (s1.coreOf (.quoin p)) := by
  show ∃ t, execTinvAll (.quoin p) g s = .next t ∧ _
  unfold execTinvAll
  exact issue_queueInval issues rfl fun _ => rfl

/-! ### tsync (R234, R327) -/

section
variable {n : Nat} (issues : Issues s (.quoin p) g (infoS 1 (rS [ra]) [] true) s1)
  (operand : ((s1.coreOf (.quoin p)).sr ra.val).toNat = n) (defined : fieldOf n 5 4 ≠ 3)
include issues operand defined

theorem tsync_retires (complete : s1.syncDone (fieldOf n 5 4) (fieldOf n 3 0) = true) :
    Answers (.tsync (.quoin p) g ra) s fun t => Retires s1 t (.quoin p) (s1.coreOf (.quoin p)) := by
  show ∃ t, execTsync (.quoin p) g ra s = .next t ∧ _
  unfold execTsync
  refine issue_done issues rfl fun _ => ?_
  simp only [operand, defined, complete, ↓reduceIte]

theorem tsync_waits (outstanding : s1.syncDone (fieldOf n 5 4) (fieldOf n 3 0) = false) :
    Answers (.tsync (.quoin p) g ra) s fun t => t = s1 := by
  refine .of_exec (t := s1) ?_ rfl
  show execTsync (.quoin p) g ra s = _
  unfold execTsync
  refine issue_leave issues fun _ => ?_
  simp only [operand, defined, outstanding, Bool.false_eq_true, ↓reduceIte]

end

/-! ### Range operations (R305, R306) -/

/-- The range operations differ in the code of the operation they queue, and in nothing else (R305). -/
theorem exec_rangeOp {e : (CoreId → Fin 8 → Fin 32 → Fin 32 → Fin 32 → Instr) × Nat}
    (listed : e ∈ [(.crangeClean, 0x10), (.crangeInv, 0x11), (.crangeCinv, 0x12), (.crangeZero, 0x13)]) (u : CoreId)
    (g : Fin 8) (rd ra rb : Fin 32) (s : State) : exec (e.1 u g rd ra rb) s = s.crange u g e.2 rd ra rb := by
  simp only [List.mem_cons, List.not_mem_nil, or_false] at listed
  obtain rfl | rfl | rfl | rfl := listed <;> rfl

/-- A range operation retires once it is queued, when no bay in scope has four operations waiting. -/
theorem crange_queues {op sel : Nat} {bays : List Nat} (issues : Issues s (.quoin p) g (infoS 1 (rS [rd, ra, rb]) [] true) s1)
    (selector : ((s1.coreOf (.quoin p)).sr rd.val).toNat = sel)
    (scope : (if sel.testBit 4 then allBays.filter s1.bayAwake else [fieldOf sel 3 0]) = bays)
    (room : ∀ b ∈ bays, (s1.rangeOf b).queue.length < 4) :
    let x := s1.rangeQueue bays op (((s1.coreOf (.quoin p)).sr ra.val).toNat % 2 ^ 48) ((s1.coreOf (.quoin p)).sr rb.val).toNat
    ∃ t, s.crange (.quoin p) g op rd ra rb = .next t ∧ Retires x t (.quoin p) (x.coreOf (.quoin p)) := by
  have noneFull : (bays.any fun b => decide (4 ≤ (s1.rangeOf b).queue.length)) = false :=
    List.any_eq_false.2 fun b mem => by simpa using room b mem
  unfold State.crange
  refine issue_done issues rfl fun _ => ?_
  simp only [selector, scope, noneFull, Bool.false_eq_true, and_false, ↓reduceIte]

end

/-- Settles O18: invalidates and range operations by their queue, whose room a range operation needs (assumption 14:
DEDUCED), and tsync by whether it is complete over its scope. -/
theorem supervisorQueues : Obligations.SupervisorQueues := by
  unfold Obligations.SupervisorQueues
  refine ⟨fun p g s s1 => ⟨fun ra rb => tinvA_queues, fun rb => tinvT_queues, tinvAll_queues, fun ra issues defined =>
    ⟨tsync_retires issues rfl defined, tsync_waits issues rfl defined⟩⟩, ?_⟩
  intro e listed p g rd ra rb s s1 u issues c sel bays room
  rw [Answers, exec_rangeOp listed]
  exact crange_queues issues rfl rfl room

end Sys2Proof.Machine
end

section
/-! What no step takes back (R534, R535): the anti-rollback counter, its fuses and the revocations; and what a step does with
the queue. -/

namespace Sys2Proof.Machine

/-- The commands that may move the anti-rollback counter or a revocation: the writes of objects and what completes one, the
steps of power-up, and the tick, which runs the commands that waited. -/
def movesTrust : Instr → Bool
  | .deviceTimeTick .. | .pinRequest .. | .memberLeave .. | .objWrite .. | .fwStageData .. | .svnCommit ..
  | .vendorKeyRevoke .. | .sliceKek .. | .canfdKeyOperator .. | .canfdKeyCustodian .. | .custodianBind ..
  | .debugUnlock .. | .epochSecond .. | .allotmentWrite .. | .overflowClear .. | .store .. | .restore .. | .write ..
  | .segWrite .. | .segData .. | .ringAck .. | .ringOverflowClear .. | .firstClear .. | .powerUpStepDone .. => true
  | _ => false

/-- Every other command leaves the queue, the counter and the revocations as they are. -/
theorem exec_fixed {c : Instr} {s t : State} (other : movesTrust c = false) (h : exec c s = .next t) : t.fixed = s.fixed := by
  cases c with
  | refclkLost => apply execRefclkLost_fixed; exact h
  | refclkRestored => apply execRefclkRestored_fixed; exact h
  | ppsInEdge => apply execPpsInEdge_fixed; exact h
  | ppsEdgeMissed => apply execPpsEdgeMissed_fixed; exact h
  | timeMarkWrite => apply execTimeMarkWrite_fixed; exact h
  | syncReqSend => apply execSyncReqSend_fixed; exact h
  | syncReqReceive => apply execSyncReqReceive_fixed; exact h
  | syncRespReceive => apply execSyncRespReceive_fixed; exact h
  | itemSubmit => apply execItemSubmit_fixed; exact h
  | itemIngressRelease => apply execItemIngressRelease_fixed; exact h
  | flowQueueLeave => apply execFlowQueueLeave_fixed; exact h
  | firingDispatch => apply execFiringDispatch_fixed; exact h
  | itemIn => apply execItemIn_fixed; exact h
  | scan => apply execScan_fixed; exact h
  | filter => apply execFilter_fixed; exact h
  | map => apply execMap_fixed; exact h
  | decode => apply execDecode_fixed; exact h
  | encode => apply execEncode_fixed; exact h
  | keyLookup => apply execKeyLookup_fixed; exact h
  | keyJoin => apply execKeyJoin_fixed; exact h
  | hashBuild => apply execHashBuild_fixed; exact h
  | hashProbe => apply execHashProbe_fixed; exact h
  | mergeJoin => apply execMergeJoin_fixed; exact h
  | sort => apply execSort_fixed; exact h
  | topK => apply execTopK_fixed; exact h
  | groupAgg => apply execGroupAgg_fixed; exact h
  | windowAgg => apply execWindowAgg_fixed; exact h
  | stateGet => apply execStateGet_fixed; exact h
  | stateGetReadDone => apply execStateGetReadDone_fixed; exact h
  | statePut => apply execStatePut_fixed; exact h
  | union => apply execUnion_fixed; exact h
  | route => apply execRoute_fixed; exact h
  | digest => apply execDigest_fixed; exact h
  | verdictOut => apply execVerdictOut_fixed; exact h
  | resultOut => apply execResultOut_fixed; exact h
  | ledgerAppend => apply execLedgerAppend_fixed; exact h
  | tableAppend => apply execTableAppend_fixed; exact h
  | cycleBoundCutoff => apply execCycleBoundCutoff_fixed; exact h
  | arbiterResultArrival => apply execArbiterResultArrival_fixed; exact h
  | arbiterTick => apply execArbiterTick_fixed; exact h
  | firingEndConfirm => apply execFiringEndConfirm_fixed; exact h
  | statePutAck => apply execStatePutAck_fixed; exact h
  | replicaStateAck => apply execReplicaStateAck_fixed; exact h
  | answerMirrorAck => apply execAnswerMirrorAck_fixed; exact h
  | itemReplay => apply execItemReplay_fixed; exact h
  | inputHashReady => apply execInputHashReady_fixed; exact h
  | ledgerRecordEnter => apply execLedgerRecordEnter_fixed; exact h
  | answerEgress => apply execAnswerEgress_fixed; exact h
  | throttleStepChange => apply execThrottleStepChange_fixed; exact h
  | thermalFloorExit => apply execThermalFloorExit_fixed; exact h
  | thermalTrip => apply execThermalTrip_fixed; exact h
  | bayReoffer => apply execBayReoffer_fixed; exact h
  | bucketLoadMove => apply execBucketLoadMove_fixed; exact h
  | bucketMoveHandover => apply execBucketMoveHandover_fixed; exact h
  | bayLost => apply execBayLost_fixed; exact h
  | stoneFault => apply execStoneFault_fixed; exact h
  | stoneHangTimeout => apply execStoneHangTimeout_fixed; exact h
  | heatPeriodHalving => apply execHeatPeriodHalving_fixed; exact h
  | ashlarTierMove => apply execAshlarTierMove_fixed; exact h
  | migration => apply execMigration_fixed; exact h
  | ksSearchResult => apply execKsSearchResult_fixed; exact h
  | ksUpdateHead => apply execKsUpdateHead_fixed; exact h
  | ksMove => apply execKsMove_fixed; exact h
  | ksCommit => apply execKsCommit_fixed; exact h
  | ksFrameStart => apply execKsFrameStart_fixed; exact h
  | ksParityRewrite => apply execKsParityRewrite_fixed; exact h
  | ksCopyRebuild => apply execKsCopyRebuild_fixed; exact h
  | ksJournalFold => apply execKsJournalFold_fixed; exact h
  | ksLoadSwitch => apply execKsLoadSwitch_fixed; exact h
  | cacheFillSector => apply execCacheFillSector_fixed; exact h
  | evictionWriteback => apply execEvictionWriteback_fixed; exact h
  | l2VictimAck => apply execL2VictimAck_fixed; exact h
  | memoryStoreAck => apply execMemoryStoreAck_fixed; exact h
  | patrolRead => apply execPatrolRead_fixed; exact h
  | pchFailed => apply execPchFailed_fixed; exact h
  | boundPairRebuild => apply execBoundPairRebuild_fixed; exact h
  | dramChannelLost => apply execDramChannelLost_fixed; exact h
  | rangeSetVisit => apply execRangeSetVisit_fixed; exact h
  | rangeZeroWrite => apply execRangeZeroWrite_fixed; exact h
  | rangeOpDone => apply execRangeOpDone_fixed; exact h
  | walkReadDone => apply execWalkReadDone_fixed; exact h
  | invalidateEffect => apply execInvalidateEffect_fixed; exact h
  | hodCopy => apply execHodCopy_fixed; exact h
  | hodFill => apply execHodFill_fixed; exact h
  | hodCompare => apply execHodCompare_fixed; exact h
  | hodPack => apply execHodPack_fixed; exact h
  | hodUnpack => apply execHodUnpack_fixed; exact h
  | hodDisable => apply execHodDisable_fixed; exact h
  | hodLineDone => apply execHodLineDone_fixed; exact h
  | settVerifyHandoff => apply execSettVerifyHandoff_fixed; exact h
  | digestLaneStart => apply execDigestLaneStart_fixed; exact h
  | digestBlockDone => apply execDigestBlockDone_fixed; exact h
  | ledgerNandProgram => apply execLedgerNandProgram_fixed; exact h
  | segmentCloseSecond => apply execSegmentCloseSecond_fixed; exact h
  | sealMake => apply execSealMake_fixed; exact h
  | sealWrite => apply execSealWrite_fixed; exact h
  | nandPageRefresh => apply execNandPageRefresh_fixed; exact h
  | tsBlockProgrammed => apply execTsBlockProgrammed_fixed; exact h
  | eraseUnitDone => apply execEraseUnitDone_fixed; exact h
  | sliceResetDrained => apply execSliceResetDrained_fixed; exact h
  | flitSend => apply execFlitSend_fixed; exact h
  | flitReceivePayload => apply execFlitReceivePayload_fixed; exact h
  | idleFlitReceive => apply execIdleFlitReceive_fixed; exact h
  | retryReqReceive => apply execRetryReqReceive_fixed; exact h
  | retryReqResend => apply execRetryReqResend_fixed; exact h
  | initReceive => apply execInitReceive_fixed; exact h
  | idleKeepaliveSend => apply execIdleKeepaliveSend_fixed; exact h
  | keepaliveMiss => apply execKeepaliveMiss_fixed; exact h
  | laneFault => apply execLaneFault_fixed; exact h
  | signalDetect => apply execSignalDetect_fixed; exact h
  | portTrained => apply execPortTrained_fixed; exact h
  | portStateTimeout => apply execPortStateTimeout_fixed; exact h
  | portTrainingRetry => apply execPortTrainingRetry_fixed; exact h
  | hello => apply execHello_fixed; exact h
  | attestReportReceive => apply execAttestReportReceive_fixed; exact h
  | memberLossReport => apply execMemberLossReport_fixed; exact h
  | probeTimeout => apply execProbeTimeout_fixed; exact h
  | routeEpochUpdate => apply execRouteEpochUpdate_fixed; exact h
  | minorityDetected => apply execMinorityDetected_fixed; exact h
  | memberJoin => apply execMemberJoin_fixed; exact h
  | leaveDrainComplete => apply execLeaveDrainComplete_fixed; exact h
  | nop => apply execNop_fixed; exact h
  | queueCreate => apply execQueueCreate_fixed; exact h
  | queueDelete => apply execQueueDelete_fixed; exact h
  | queueReset => apply execQueueReset_fixed; exact h
  | objRead => apply execObjRead_fixed; exact h
  | pipelineLoad => apply execPipelineLoad_fixed; exact h
  | pipelineUnload => apply execPipelineUnload_fixed; exact h
  | contextRun => apply execContextRun_fixed; exact h
  | tableCreate => apply execTableCreate_fixed; exact h
  | tableDrop => apply execTableDrop_fixed; exact h
  | ksCreate => apply execKsCreate_fixed; exact h
  | ksDrop => apply execKsDrop_fixed; exact h
  | ksInsert => apply execKsInsert_fixed; exact h
  | ksDelete => apply execKsDelete_fixed; exact h
  | ksLoad => apply execKsLoad_fixed; exact h
  | ksRead => apply execKsRead_fixed; exact h
  | dgKeyLoad => apply execDgKeyLoad_fixed; exact h
  | dgKeyClear => apply execDgKeyClear_fixed; exact h
  | ledgerRead => apply execLedgerRead_fixed; exact h
  | ledgerProof => apply execLedgerProof_fixed; exact h
  | ledgerSealNow => apply execLedgerSealNow_fixed; exact h
  | tsWrite => apply execTsWrite_fixed; exact h
  | tsRead => apply execTsRead_fixed; exact h
  | tsTrim => apply execTsTrim_fixed; exact h
  | storeStatus => apply execStoreStatus_fixed; exact h
  | sanitise => apply execSanitise_fixed; exact h
  | format => apply execFormat_fixed; exact h
  | sliceCreate => apply execSliceCreate_fixed; exact h
  | sliceReset => apply execSliceReset_fixed; exact h
  | sliceRemove => apply execSliceRemove_fixed; exact h
  | sliceBind => apply execSliceBind_fixed; exact h
  | sliceUnbind => apply execSliceUnbind_fixed; exact h
  | stateClear => apply execStateClear_fixed; exact h
  | attest => apply execAttest_fixed; exact h
  | fwStage => apply execFwStage_fixed; exact h
  | fwActivate => apply execFwActivate_fixed; exact h
  | identityCertIssue => apply execIdentityCertIssue_fixed; exact h
  | fwStateCopyDone => apply execFwStateCopyDone_fixed; exact h
  | fwTrialExpiry => apply execFwTrialExpiry_fixed; exact h
  | trialPairFailure => apply execTrialPairFailure_fixed; exact h
  | hssTreeGenerate => apply execHssTreeGenerate_fixed; exact h
  | attestTokenGain => apply execAttestTokenGain_fixed; exact h
  | debugScrubDone => apply execDebugScrubDone_fixed; exact h
  | storeMramDone => apply execStoreMramDone_fixed; exact h
  | read => apply execRead_fixed; exact h
  | segRead => apply execSegRead_fixed; exact h
  | segAck => apply execSegAck_fixed; exact h
  | abort => apply execAbort_fixed; exact h
  | path => apply execPath_fixed; exact h
  | sessionOpen => apply execSessionOpen_fixed; exact h
  | sessionProve => apply execSessionProve_fixed; exact h
  | sessionClose frame => exact execSessionClose_fixed frame s h
  | segmentTimeout => apply execSegmentTimeout_fixed; exact h
  | sessionProofTimeout => apply execSessionProofTimeout_fixed; exact h
  | sessionIdleTimeout => apply execSessionIdleTimeout_fixed; exact h
  | sessionLockoutEnd => apply execSessionLockoutEnd_fixed; exact h
  | heartbeat => apply execHeartbeat_fixed; exact h
  | coalesceEntryClose => apply execCoalesceEntryClose_fixed; exact h
  | transferReplay => apply execTransferReplay_fixed; exact h
  | digestLaneFault => apply execDigestLaneFault_fixed; exact h
  | quoinMismatch => apply execQuoinMismatch_fixed; exact h
  | onfiChannelLost => apply execOnfiChannelLost_fixed; exact h
  | bayIdleTimeout => apply execBayIdleTimeout_fixed; exact h
  | bayWakeRequest => apply execBayWakeRequest_fixed; exact h
  | bayWakeDone => apply execBayWakeDone_fixed; exact h
  | hubIdleTimeout => apply execHubIdleTimeout_fixed; exact h
  | hubWake => apply execHubWake_fixed; exact h
  | hbmSelfRefreshEntry => apply execHbmSelfRefreshEntry_fixed; exact h
  | hbmSelfRefreshExit => apply execHbmSelfRefreshExit_fixed; exact h
  | vholdMeasure => apply execVholdMeasure_fixed; exact h
  | sagDetect => apply execSagDetect_fixed; exact h
  | saveSetWritten => apply execSaveSetWritten_fixed; exact h
  | heldTickWrite => apply execHeldTickWrite_fixed; exact h
  | vholdExhausted => apply execVholdExhausted_fixed; exact h
  | supplyReturnInHold => apply execSupplyReturnInHold_fixed; exact h
  | vauxValid => apply execVauxValid_fixed; exact h
  | pgoodRise => apply execPgoodRise_fixed; exact h
  | pgoodTimeout => apply execPgoodTimeout_fixed; exact h
  | pgoodFall => apply execPgoodFall_fixed; exact h
  | resetN => apply execResetN_fixed; exact h
  | registerWrite => apply execRegisterWrite_fixed; exact h
  | add => apply execAdd_fixed; exact h
  | sub => apply execSub_fixed; exact h
  | adds => apply execAdds_fixed; exact h
  | subs => apply execSubs_fixed; exact h
  | mul => apply execMul_fixed; exact h
  | mulh => apply execMulh_fixed; exact h
  | mulhu => apply execMulhu_fixed; exact h
  | and => apply execAnd_fixed; exact h
  | or => apply execOr_fixed; exact h
  | xor => apply execXor_fixed; exact h
  | andn => apply execAndn_fixed; exact h
  | shl => apply execShl_fixed; exact h
  | shr => apply execShr_fixed; exact h
  | sar => apply execSar_fixed; exact h
  | min => apply execMin_fixed; exact h
  | max => apply execMax_fixed; exact h
  | minu => apply execMinu_fixed; exact h
  | maxu => apply execMaxu_fixed; exact h
  | popc => apply execPopc_fixed; exact h
  | clz => apply execClz_fixed; exact h
  | sext => apply execSext_fixed; exact h
  | zext => apply execZext_fixed; exact h
  | addi => apply execAddi_fixed; exact h
  | andi => apply execAndi_fixed; exact h
  | ori => apply execOri_fixed; exact h
  | xori => apply execXori_fixed; exact h
  | shli => apply execShli_fixed; exact h
  | shri => apply execShri_fixed; exact h
  | sari => apply execSari_fixed; exact h
  | li => apply execLi_fixed; exact h
  | lih => apply execLih_fixed; exact h
  | cmp => apply execCmp_fixed; exact h
  | cmpi => apply execCmpi_fixed; exact h
  | pand => apply execPand_fixed; exact h
  | por => apply execPor_fixed; exact h
  | pxor => apply execPxor_fixed; exact h
  | pandn => apply execPandn_fixed; exact h
  | pnot => apply execPnot_fixed; exact h
  | pmov => apply execPmov_fixed; exact h
  | pget => apply execPget_fixed; exact h
  | ppop => apply execPpop_fixed; exact h
  | pfirst => apply execPfirst_fixed; exact h
  | dadd => apply execDadd_fixed; exact h
  | dsub => apply execDsub_fixed; exact h
  | daddC => apply execDaddC_fixed; exact h
  | dmul => apply execDmul_fixed; exact h
  | dmulW => apply execDmulW_fixed; exact h
  | dabs => apply execDabs_fixed; exact h
  | dneg => apply execDneg_fixed; exact h
  | dcmpEq => apply execDcmpEq_fixed; exact h
  | dcmpNe => apply execDcmpNe_fixed; exact h
  | dcmpLt => apply execDcmpLt_fixed; exact h
  | dcmpGe => apply execDcmpGe_fixed; exact h
  | dext => apply execDext_fixed; exact h
  | dpack => apply execDpack_fixed; exact h
  | dcvtD => apply execDcvtD_fixed; exact h
  | dcvtI => apply execDcvtI_fixed; exact h
  | dcvtU => apply execDcvtU_fixed; exact h
  | dfit => apply execDfit_fixed; exact h
  | dsl => apply execDsl_fixed; exact h
  | vadd => apply execVadd_fixed; exact h
  | vsub => apply execVsub_fixed; exact h
  | vmin => apply execVmin_fixed; exact h
  | vmax => apply execVmax_fixed; exact h
  | vminu => apply execVminu_fixed; exact h
  | vmaxu => apply execVmaxu_fixed; exact h
  | vand => apply execVand_fixed; exact h
  | vor => apply execVor_fixed; exact h
  | vxor => apply execVxor_fixed; exact h
  | vsel => apply execVsel_fixed; exact h
  | vshl => apply execVshl_fixed; exact h
  | vshr => apply execVshr_fixed; exact h
  | vsar => apply execVsar_fixed; exact h
  | vbc => apply execVbc_fixed; exact h
  | vext => apply execVext_fixed; exact h
  | vredadd => apply execVredadd_fixed; exact h
  | vhash => apply execVhash_fixed; exact h
  | vcmp => apply execVcmp_fixed; exact h
  | vgath => apply execVgath_fixed; exact h
  | vdict => apply execVdict_fixed; exact h
  | vunpk => apply execVunpk_fixed; exact h
  | vpack => apply execVpack_fixed; exact h
  | ls => apply execLs_fixed; exact h
  | ss => apply execSs_fixed; exact h
  | lt => apply execLt_fixed; exact h
  | lm => apply execLm_fixed; exact h
  | sm => apply execSm_fixed; exact h
  | vls => apply execVls_fixed; exact h
  | vss => apply execVss_fixed; exact h
  | vlt => apply execVlt_fixed; exact h
  | vlm => apply execVlm_fixed; exact h
  | vsm => apply execVsm_fixed; exact h
  | ksFind => apply execKsFind_fixed; exact h
  | ksIns => apply execKsIns_fixed; exact h
  | ksDel => apply execKsDel_fixed; exact h
  | emit => apply execEmit_fixed; exact h
  | dgSub => apply execDgSub_fixed; exact h
  | dgWait => apply execDgWait_fixed; exact h
  | tlock => apply execTlock_fixed; exact h
  | tunlock => apply execTunlock_fixed; exact h
  | br => apply execBr_fixed; exact h
  | j => apply execJ_fixed; exact h
  | call => apply execCall_fixed; exact h
  | jr => apply execJr_fixed; exact h
  | callr => apply execCallr_fixed; exact h
  | ret => apply execRet_fixed; exact h
  | nopInstruction => apply execNopInstruction_fixed; exact h
  | endFiring => apply execEndFiring_fixed; exact h
  | fence => apply execFence_fixed; exact h
  | rdctl => apply execRdctl_fixed; exact h
  | wrctl => apply execWrctl_fixed; exact h
  | tinvA => apply execTinvA_fixed; exact h
  | tinvT => apply execTinvT_fixed; exact h
  | tinvAll => apply execTinvAll_fixed; exact h
  | tsync => apply execTsync_fixed; exact h
  | crangeClean => apply execCrangeClean_fixed; exact h
  | crangeInv => apply execCrangeInv_fixed; exact h
  | crangeCinv => apply execCrangeCinv_fixed; exact h
  | crangeZero => apply execCrangeZero_fixed; exact h
  | lease => apply execLease_fixed; exact h
  | scrub => apply execScrub_fixed; exact h
  | borrow => apply execBorrow_fixed; exact h
  | sret => apply execSret_fixed; exact h
  | canfdBusError => apply execCanfdBusError_fixed; exact h
  | canfdBusOffRecovery => apply execCanfdBusOffRecovery_fixed; exact h
  | railSequenceRetry => apply execRailSequenceRetry_fixed; exact h
  | standbyPairReady => apply execStandbyPairReady_fixed; exact h
  | _ => cases other

/-- No command lowers the counter or takes a revocation back, and none touches the queue (R534, R535). -/
theorem exec_kept {c : Instr} {s t : State} (h : exec c s = .next t) : s.Kept t := by
  cases c with
  | deviceTimeTick => apply execDeviceTimeTick_kept; exact h
  | pinRequest => apply execPinRequest_kept; exact h
  | memberLeave => apply execMemberLeave_kept; exact h
  | objWrite => apply execObjWrite_kept; exact h
  | fwStageData => apply execFwStageData_kept; exact h
  | svnCommit => apply execSvnCommit_kept; exact h
  | vendorKeyRevoke => apply execVendorKeyRevoke_kept; exact h
  | sliceKek => apply execSliceKek_kept; exact h
  | canfdKeyOperator => apply execCanfdKeyOperator_kept; exact h
  | canfdKeyCustodian => apply execCanfdKeyCustodian_kept; exact h
  | custodianBind => apply execCustodianBind_kept; exact h
  | debugUnlock => apply execDebugUnlock_kept; exact h
  | epochSecond => apply execEpochSecond_kept; exact h
  | allotmentWrite => apply execAllotmentWrite_kept; exact h
  | overflowClear => apply execOverflowClear_kept; exact h
  | store => apply execStore_kept; exact h
  | restore => apply execRestore_kept; exact h
  | write => apply execWrite_kept; exact h
  | segWrite => apply execSegWrite_kept; exact h
  | segData => apply execSegData_kept; exact h
  | ringAck => apply execRingAck_kept; exact h
  | ringOverflowClear => apply execRingOverflowClear_kept; exact h
  | firstClear => apply execFirstClear_kept; exact h
  | powerUpStepDone => apply execPowerUpStepDone_kept; exact h
  | _ => exact kept_of_fixed (exec_fixed rfl h)

theorem step_of_pending {s : State} {c : Instr} {rest : List Instr} (h : s.pending = c :: rest) :
    step s = exec c { s with pending := rest } := by
  rw [step, h]

theorem step_of_idle {s : State} (h : s.pending = []) : step s = .next s := by
  rw [step, h]

/-- Settles O57: the two branches of `step`. -/
theorem stepRunsTheFrontCommand : Obligations.StepRunsTheFrontCommand := by
  unfold Obligations.StepRunsTheFrontCommand
  exact ⟨fun _ _ _ => step_of_pending rfl, fun _ => step_of_idle⟩

/-- Settles O58: an idle step changes nothing, and a command keeps what `exec_kept` says of the state with the queue's
rest. -/
theorem noStepTakesTrustBack : Obligations.NoStepTakesTrustBack := by
  unfold Obligations.NoStepTakesTrustBack
  intro s t h
  cases front : s.pending with
  | nil =>
    obtain rfl := Host.Outcome.next.inj ((step_of_idle front).symm.trans h)
    exact ⟨front, Nat.le_refl _, Nat.le_refl _, fun _ revoked => revoked⟩
  | cons c rest => exact exec_kept ((step_of_pending front).symm.trans h)

end Sys2Proof.Machine
end

section
/-! Vendor key set 1 (R535): no command revokes it. Only a write of VENDOR_KEY_REVOKE moves the revocations, and it adds
set 0; what writes an object, and what runs a command that waited, is followed here down to that write. -/

namespace Sys2Proof.Machine

/-- Vendor key set 1 is revoked. -/
def State.set1 (s : State) : Bool := s.trust.revoked.testBit 1

theorem set1_of_fixed {s t : State} (h : t.fixed = s.fixed) : t.set1 = s.set1 := by
  simp only [State.fixed, Prod.mk.injEq] at h
  obtain ⟨-, -, -, revoked⟩ := h
  simp only [State.set1, revoked]

theorem foldl_set1 {β : Type} {f : State → β → State} (hf : ∀ s x, (f s x).set1 = s.set1) (l : List β) (s : State) :
    (l.foldl f s).set1 = s.set1 :=
  List.foldlRecOn l f (motive := fun t => t.set1 = s.set1) rfl fun _ h x _ => (hf _ x).trans h

/-! ### Writes of objects -/

theorem revokeKey_set1 {s t : State} {v : Nat} (e : s.revokeKey v = .ok t) : t.set1 = s.set1 := by
  unfold State.revokeKey at e
  split at e
  · cases e
  · split at e
    · cases e
    · rw [← Except.ok.inj e]
      have apart : Nat.testBit 1 1 = false := rfl
      simp [State.set1, withBit, Nat.testBit_or, apart]

theorem commitSvn_set1 {s t : State} {v : Nat} (e : s.commitSvn v = .ok t) : t.set1 = s.set1 := by
  unfold State.commitSvn at e
  split at e
  · cases e
  · split at e
    · cases e
    · rw [← Except.ok.inj e]; rfl

/-- A write that is applied moves the revocations by its own row of R535 or leaves them. -/
theorem applyWrite_set1 {s t : State} {c ar view sl d a v} (e : s.applyWrite c ar view sl d a v = .ok t) : t.set1 = s.set1 := by
  unfold State.applyWrite at e
  dsimp only at e
  split at e
  · exact set1_of_fixed (writeStore_fixed e)
  · exact set1_of_fixed (writeStore_fixed e)
  · exact set1_of_fixed (map_ok_fixed (by simp) e)
  · exact set1_of_fixed (map_ok_fixed (by simp) e)
  · exact set1_of_fixed (writeBind_fixed e)
  · split at e
    · rw [← Except.ok.inj e]; exact set1_of_fixed (by simp)
    · cases e
  · exact set1_of_fixed (writeEpoch_fixed e)
  · exact set1_of_fixed (writePin_fixed e)
  · rw [← Except.ok.inj e]; rfl
  · rw [← Except.ok.inj e]; rfl
  · exact revokeKey_set1 e
  · exact commitSvn_set1 e
  · exact set1_of_fixed (stageData_fixed e)
  · split at e
    · rw [← Except.ok.inj e]; exact set1_of_fixed (by simp)
    · cases e
  · split at e
    · exact set1_of_fixed (writeSlice_fixed e)
    · split at e
      · rw [← Except.ok.inj e]; refine set1_of_fixed ?_; split <;> simp
      · split at e
        · rw [← Except.ok.inj e]; exact set1_of_fixed (by simp)
        · rw [← Except.ok.inj e]; rfl

theorem writeObj_set1 {s t : State} {c view sl a v} (e : s.writeObj c view sl a v = .ok t) : t.set1 = s.set1 := by
  unfold State.writeObj at e
  split at e
  · cases e
  · split at e
    · cases e
    · dsimp only at e
      split_ifs at e
      · rw [← Except.ok.inj e]
      · exact applyWrite_set1 e

/-! ### Writes by capsule and over CAN FD -/

theorem command_set1 (s : State) (i : Instr) (h : CmdHdr) (op : Nat) (roles : List Nat) (body : State → Binding → State)
    (hb : ∀ (x : State) b, (body x b).set1 = x.set1) : (s.command i h op roles body).set1 = s.set1 := by
  have admitted := set1_of_fixed (State.admitCmd_fixed s h op roles)
  unfold State.command
  split <;> rename_i e <;> rw [e] at admitted
  · exact admitted
  · exact (set1_of_fixed (State.keepRow_fixed ..)).trans admitted
  · exact (hb _ _).trans admitted

theorem managed_set1 (s : State) (i : Instr) (h : CmdHdr) (op : Nat) (roles : List Nat) (body : State → Binding → State)
    (hb : ∀ (x : State) b, (body x b).set1 = x.set1) : (s.managed i h op roles body).set1 = s.set1 := by
  unfold State.managed
  split
  · exact set1_of_fixed (by simp)
  · refine command_set1 _ _ _ _ _ _ fun t b => ?_
    split
    · exact set1_of_fixed (by simp)
    · exact (set1_of_fixed (by simp)).trans (hb t b)

theorem bandWrite_set1 (s : State) (i : Instr) (h : CmdHdr) (a : ObjAddr) (v : List Byte) :
    (s.bandWrite i h a v).set1 = s.set1 := by
  unfold State.bandWrite
  split
  · rename_i refused; exact set1_of_fixed (objRefused_fixed refused)
  · refine managed_set1 _ _ _ _ _ _ fun t b => ?_
    split
    · rename_i written
      refine Eq.trans (set1_of_fixed ?_) ((writeObj_set1 written).trans rfl)
      split <;> simp
    · refine set1_of_fixed ?_
      dsimp only; split <;> simp

theorem canWrite_set1 (s : State) (a : ObjAddr) (v : List Byte) : (s.canWrite a v).set1 = s.set1 := by
  unfold State.canWrite
  dsimp only
  split
  · exact set1_of_fixed (by simp)
  · split
    · rename_i written
      refine Eq.trans (set1_of_fixed ?_) ((writeObj_set1 written).trans rfl)
      split <;> simp
    · refine set1_of_fixed ?_
      split <;> simp

theorem writeFrom_set1 (s : State) (i : Instr) (src : ObjSrc) (a : ObjAddr) (v : List Byte) :
    (s.writeFrom i src a v).set1 = s.set1 := by
  unfold State.writeFrom
  split
  · exact bandWrite_set1 ..
  · dsimp only
    split
    · exact set1_of_fixed (by simp)
    · split
      · rfl
      · exact (canWrite_set1 ..).trans (set1_of_fixed (by simp))

/-- A row that writes an object, whatever condition it first asks. -/
theorem set1_of_writeFrom {s t : State} {i : Instr} {src : ObjSrc} {a : ObjAddr} {v : List Byte} {c : Prop} [Decidable c]
    (h : (.next (if c then s.writeFrom i src a v else s) : Out) = .next t) : t.set1 = s.set1 := by
  obtain rfl := Host.Outcome.next.inj h
  split
  · exact writeFrom_set1 ..
  · rfl

theorem serve_set1 {s t : State} {f : State → State} (hf : ∀ x : State, (f x).set1 = x.set1) (h : s.serve f = .next t) :
    t.set1 = s.set1 := by
  obtain rfl := Host.Outcome.next.inj h
  split
  · exact (hf _).trans (set1_of_fixed (by simp))
  · rfl

theorem serveObj_set1 {s t : State} {i fr w} {f : ObjAddr → State → State} (hf : ∀ a (x : State), (f a x).set1 = x.set1)
    (h : s.serveObj i fr w f = .next t) : t.set1 = s.set1 := by
  unfold State.serveObj at h
  dsimp only at h
  split at h
  · obtain rfl := Host.Outcome.next.inj h
    exact set1_of_fixed (by simp)
  · split at h
    · rw [← Host.Outcome.next.inj h]
    · exact serve_set1 (hf _) h

theorem segApply_set1 (s : State) (x : Transfer) : (s.segApply x).set1 = s.set1 := by
  unfold State.segApply
  dsimp only
  split
  · rfl
  · exact canWrite_set1 ..

theorem execWrite_set1 {frame : List Byte} {s t : State} (h : execWrite frame s = .next t) : t.set1 = s.set1 := by
  refine serveObj_set1 (fun a x => ?_) h
  dsimp only
  split
  · exact set1_of_fixed (by simp)
  · split
    · exact set1_of_fixed (by simp)
    · split
      · exact set1_of_fixed (by simp)
      · split
        · exact set1_of_fixed (by simp)
        · exact canWrite_set1 ..

theorem execSegWrite_set1 {frame : List Byte} {s t : State} (h : execSegWrite frame s = .next t) : t.set1 = s.set1 := by
  refine serveObj_set1 (fun a x => ?_) h
  dsimp only
  split
  · exact set1_of_fixed (by simp)
  · exact (segApply_set1 ..).trans (set1_of_fixed (by simp))

theorem execSegData_set1 {frame : List Byte} {s t : State} (h : execSegData frame s = .next t) : t.set1 = s.set1 := by
  unfold execSegData at h
  split at h
  · split at h
    · exact serve_set1 (fun _ => rfl) h
    · split at h
      · rw [← Host.Outcome.next.inj h]; rfl
      · split at h
        · rw [← Host.Outcome.next.inj h]
        · dsimp only at h
          split at h
          · rw [← Host.Outcome.next.inj h]; exact set1_of_fixed (by simp)
          · rw [← Host.Outcome.next.inj h]
            refine (segApply_set1 ..).trans (set1_of_fixed ?_)
            split <;> simp
  · exact serve_set1 (fun _ => rfl) h

/-! ### Power-up -/

theorem plinthUp_set1 (s : State) (obs : StepObs) : (s.plinthUp obs).set1 = s.set1 := by
  unfold State.plinthUp
  dsimp only
  split
  · split <;> rfl
  · rfl

theorem powerStep_set1 {s t : State} {obs : StepObs} (e : s.powerStep obs = some t) : t.set1 = s.set1 := by
  unfold State.powerStep at e
  split at e
  · obtain rfl := Option.some.inj e; exact plinthUp_set1 ..
  · exact set1_of_fixed (romBoot_fixed e)
  · split at e
    · obtain rfl := Option.some.inj e; exact set1_of_fixed (State.hubUp_fixed ..)
    · cases e
  · obtain rfl := Option.some.inj e; exact set1_of_fixed (State.hbmUp_fixed ..)
  · obtain rfl := Option.some.inj e; exact set1_of_fixed (State.dramUp_fixed ..)
  · obtain rfl := Option.some.inj e; exact set1_of_fixed (State.nandUp_fixed ..)
  · obtain rfl := Option.some.inj e; rfl
  · obtain rfl := Option.some.inj e; rfl
  · obtain rfl := Option.some.inj e; exact set1_of_fixed (State.restoreSave_fixed s)
  · cases e

theorem execPowerUpStepDone_set1 {obs : StepObs} {s t : State} (h : execPowerUpStepDone obs s = .next t) : t.set1 = s.set1 := by
  obtain rfl := Host.Outcome.next.inj h
  split
  · rfl
  · split
    · rfl
    · rename_i u stepped
      exact (rfl : _ = u.set1).trans (powerStep_set1 stepped)

/-! ### Every command -/

/-- The tick, which runs the commands that waited. -/
def isTick : Instr → Bool
  | .deviceTimeTick _ => true
  | _ => false

theorem exec_set1_of_not_tick {c : Instr} {s t : State} (other : isTick c = false) (h : exec c s = .next t) :
    t.set1 = s.set1 := by
  cases c with
  | deviceTimeTick => cases other
  | pinRequest | memberLeave | fwStageData | svnCommit | vendorKeyRevoke | canfdKeyOperator | canfdKeyCustodian
  | custodianBind | debugUnlock | epochSecond | store | restore =>
    obtain rfl := Host.Outcome.next.inj h
    exact writeFrom_set1 ..
  | sliceKek | overflowClear | ringAck | ringOverflowClear | firstClear => exact set1_of_writeFrom h
  | objWrite =>
    obtain rfl := Host.Outcome.next.inj h
    exact bandWrite_set1 ..
  | allotmentWrite =>
    obtain rfl := Host.Outcome.next.inj h
    split
    · split
      · exact writeFrom_set1 ..
      · rfl
    · rfl
  | write => exact execWrite_set1 h
  | segWrite => exact execSegWrite_set1 h
  | segData => exact execSegData_set1 h
  | powerUpStepDone => exact execPowerUpStepDone_set1 h
  | _ => exact set1_of_fixed (exec_fixed rfl h)

/-- A row that was held runs as its command does; no other row is ever held. -/
theorem runHeld_cases (s : State) (i : Instr) : s.runHeld i = s ∨ isTick i = false ∧ s.runHeld i = Out.nextOr (exec i s) s := by
  cases i with
  | queueCreate | queueDelete | queueReset | sliceCreate | sliceReset | sliceRemove | sliceBind | sliceUnbind | stateClear
  | pipelineLoad | pipelineUnload | tableCreate | tableDrop | ksCreate | ksDrop | ksInsert | ksDelete | ksLoad | dgKeyLoad
  | dgKeyClear | ledgerProof | ledgerSealNow | ledgerRead | tsWrite | tsRead | tsTrim | storeStatus | sanitise | format | attest
  | fwStage | fwActivate | objRead | objWrite | pinRequest | memberLeave | fwStageData | svnCommit | vendorKeyRevoke | sliceKek
  | canfdKeyOperator | canfdKeyCustodian | custodianBind | debugUnlock | epochSecond | allotmentWrite | overflowClear | store
  | restore | ringAck | ringOverflowClear | firstClear | read | write | segRead | segWrite | segData | nop | contextRun | ksRead
  | itemSubmit => exact .inr ⟨rfl, rfl⟩
  | _ => exact .inl rfl

theorem runHeld_set1 (s : State) (i : Instr) : (s.runHeld i).set1 = s.set1 := by
  obtain same | ⟨other, runs⟩ := runHeld_cases s i
  · rw [same]
  · rw [runs]
    cases out : exec i s with
    | next t => exact exec_set1_of_not_tick other out
    | fault _ => rfl
    | refused _ => rfl

theorem resumeRow_set1 (s : State) (i : Instr) : (s.resumeRow i).set1 = s.set1 := runHeld_set1 _ i

theorem startWaiting_set1 (s : State) : s.startWaiting.set1 = s.set1 := by
  unfold State.startWaiting
  split
  · rfl
  · refine foldl_set1 (fun t i => ?_) _ s
    split
    · exact resumeRow_set1 t i
    · rfl

theorem settlePause_set1 (s : State) : s.settlePause.set1 = s.set1 := by
  unfold State.settlePause
  split
  · rfl
  · split
    · rfl
    · exact foldl_set1 resumeRow_set1 ..

theorem runRemote_set1 (s : State) (e : Nat × Instr) : (s.runRemote e).set1 = s.set1 := by
  unfold State.runRemote
  split
  · rfl
  · split
    · rfl
    · exact runHeld_set1 ..

theorem runOwnTurn_set1 (s : State) (i : Instr) : (s.runOwnTurn i).set1 = s.set1 := by
  unfold State.runOwnTurn
  split
  · rfl
  · exact runHeld_set1 ..

theorem turnFan_set1 (s : State) (f : Fan) : (s.turnFan f).set1 = s.set1 := by
  unfold State.turnFan
  dsimp only
  split
  · split
    · split
      · exact runOwnTurn_set1 ..
      · rfl
    · split <;> rfl
  · rfl

theorem serveMembers_set1 (s : State) : s.serveMembers.set1 = s.set1 := by
  unfold State.serveMembers
  split
  · rfl
  · exact (foldl_set1 turnFan_set1 ..).trans (foldl_set1 runRemote_set1 ..)

theorem exec_set1 {c : Instr} {s t : State} (h : exec c s = .next t) : t.set1 = s.set1 := by
  cases tick : isTick c with
  | false => exact exec_set1_of_not_tick tick h
  | true =>
    cases c with
    | deviceTimeTick badCopies =>
      obtain rfl := Host.Outcome.next.inj h
      calc ((s.tick badCopies).settlePause.serveMembers).startWaiting.set1
          = (s.tick badCopies).settlePause.serveMembers.set1 := startWaiting_set1 _
        _ = (s.tick badCopies).settlePause.set1 := serveMembers_set1 _
        _ = (s.tick badCopies).set1 := settlePause_set1 _
        _ = s.set1 := set1_of_fixed (State.tick_fixed s badCopies)
    | _ => cases tick

end Sys2Proof.Machine
end

section
/-! VENDOR_KEY_REVOKE (R535): what its write comes to from a capsule and over CAN FD. -/

namespace Sys2Proof.Machine

/-- A device in no group has no other member to go on to. -/
theorem fanOut_of_alone {s : State} (alone : s.group.grouped = false) (i : Instr) (h : CmdHdr) (op : Nat) (b : Binding)
    (after : State) : State.fanOut s i h op b after = after := by
  have others : s.others = [] := by simp [State.others, alone]
  simp [State.fanOut, others]

/-- A write that is refused is answered with its status, unless it is of a debug token (R477, R546). -/
theorem bandWrite_refuses {i : Instr} {h : CmdHdr} {a : ObjAddr} {v : List Byte} {s s0 : State} {b : Binding} {status code : Nat}
    (reached : s.objRefused h 0x0011 a = none) (served : s.paused = false) (starts : Starts s h 0x0011 anyRole s0 b)
    (other : a.index ≠ 0x7020) (refused : s0.awake.writeObj false b.view b.slice a v = .error (status, code)) :
    s.bandWrite i h a v = State.fanOut s0 i h 0x0011 b (s0.finish b.slice h status (objDetail code 0 []) []) := by
  rw [State.bandWrite, reached]
  dsimp only
  rw [managed_of_starts _ served starts rfl, refused]
  simp only [other, false_and, ↓reduceIte]

/-- VENDOR_KEY_REVOKE. -/
def revokeAddr : ObjAddr := ⟨0x7000, 3, []⟩

/-- The written value passes the checks of R466 and R467, and what R535 says of it is left. -/
theorem writeObj_revoke {s : State} (alone : s.group.grouped = false) (canfd : Bool) (view : Option Nat) (sl : Nat) :
    s.writeObj canfd view sl revokeAddr (natBytes 1 0x5A) = s.revokeKey 0x5A := by
  have device : s.resolve canfd revokeAddr.path = some .device := by simp [State.resolve, revokeAddr, alone, localArch]
  have defined : s.objAt .device revokeAddr.index revokeAddr.sub = some ((obj (.u 1) .wo .fanout).by [2]) := rfl
  have valid : ObjDef.valueCode ((obj (.u 1) .wo .fanout).by [2]) revokeAddr.index revokeAddr.sub (natBytes 1 0x5A) = 0 := rfl
  have above : s.belowGroup .device revokeAddr.index revokeAddr.sub = false := by simp [State.belowGroup, alone]
  rw [State.writeObj, device]
  dsimp only
  rw [defined]
  dsimp only
  rw [valid, above]
  rfl

/-- While every running stage was verified under set 1 the write revokes set 0 (R535). -/
theorem revokeKey_revokes {s : State} (verified : s.trust.run.keySet0 = 1 ∧ s.trust.run.keySet = 1) :
    s.revokeKey 0x5A = .ok { s with trust := { s.trust with revoked := withBit s.trust.revoked 0 } } := by
  simp [State.revokeKey, verified]

theorem revokeKey_refuses {s : State} (mixed : s.trust.run.keySet0 ≠ 1 ∨ s.trust.run.keySet ≠ 1) :
    s.revokeKey 0x5A = .error (0x0A09, 0x05) := by
  simp [State.revokeKey, mixed]

section
variable {s : State}

theorem execVendorKeyRevoke_capsule {h : CmdHdr} {s1 : State} {b : Binding} (opens : Claims.Opens s h true revokeAddr s1 b)
    (alone : s1.group.grouped = false) : Answers (.vendorKeyRevoke (.capsule h) 0x5A) s fun t =>
      (s1.trust.run.keySet0 = 1 ∧ s1.trust.run.keySet = 1 →
        t = ({ s1 with trust := { s1.trust with revoked := withBit s1.trust.revoked 0 } } : State).postAs b.slice h h.gen 0 0 []) ∧
      (s1.trust.run.keySet0 ≠ 1 ∨ s1.trust.run.keySet ≠ 1 →
        ∃ s2, Starts s h 0x0011 anyRole s2 b ∧ Completes s2 t b.slice h 0x0A09 (objDetail 0x05 0 []) []) := by
  have writes := writeObj_revoke alone false b.view b.slice
  refine ⟨_, rfl, fun verified => ?_, fun mixed => ?_⟩
  · exact (bandWrite_answers opens (writes.trans (revokeKey_revokes verified))).trans (fanOut_of_alone alone ..)
  · obtain ⟨reached, waits, s0, starts, rfl⟩ : s.objRefused h 0x0011 revokeAddr = none ∧ s.canWaits revokeAddr true = false ∧
      ∃ s0, Starts s h 0x0011 anyRole s0 b ∧ s1 = s0.awake := opens
    have served : s.paused = false := (canWaits_write_of_paused revokeAddr).symm.trans waits
    have refused := writes.trans (revokeKey_refuses mixed)
    exact ⟨s0, starts, (bandWrite_refuses reached served starts (by decide) refused).trans (fanOut_of_alone alone ..)⟩

/-- What the field network is sent moves no trust. -/
theorem canReply_trust (cs : Nat) (a : ObjAddr) (b : List Byte) : (s.canReply cs a b).trust = s.trust := by
  rw [canReply_frame]

theorem execVendorKeyRevoke_canfd (hears : s.canHears = true) (served : s.paused = false) (awake : s.power.frozen = false)
    (top : s.can.path = []) (role : s.can.role = 2) (alone : s.group.grouped = false) :
    Answers (.vendorKeyRevoke .canfd 0x5A) s fun t =>
      (s.trust.run.keySet0 = 1 ∧ s.trust.run.keySet = 1 →
        t.trust = { s.trust with revoked := withBit s.trust.revoked 0 }) ∧
      (s.trust.run.keySet0 ≠ 1 ∨ s.trust.run.keySet ≠ 1 → t.trust = s.trust) := by
  let u := s.displace.touched
  have heard : u = { s with can := { s.can with transfer := none, out := u.can.out, lastRequest := s.now } } :=
    hears_frame ⟨hears, rfl⟩
  have same : u.trust = s.trust := by rw [heard]
  have here : s.canAddr revokeAddr = revokeAddr := by simp [State.canAddr, top, revokeAddr]
  have reaches : u.canReach revokeAddr true = 0 := by
    have custodian : u.can.role = 2 := by rw [heard]; exact role
    unfold State.canReach
    rw [custodian]
    rfl
  have single : u.awake.group.grouped = false := by rw [heard]; exact alone
  have writes := writeObj_revoke single true none 0
  have run : exec (.vendorKeyRevoke .canfd 0x5A) s = .next (u.canWrite revokeAddr (natBytes 1 0x5A)) := by
    show Host.Outcome.next (s.writeFrom _ .canfd revokeAddr (natBytes 1 0x5A)) = _
    simp [State.writeFrom, here, hears, canWaits_write_of_paused, served, State.canHeld, awake, u]
  refine .of_exec run ⟨fun verified => ?_, fun mixed => ?_⟩
  · rw [State.canWrite, reaches, writes.trans (revokeKey_revokes (same ▸ verified))]
    exact (canReply_trust ..).trans (congrArg (fun x : TrustSt => { x with revoked := withBit x.revoked 0 }) same)
  · rw [State.canWrite, reaches, writes.trans (revokeKey_refuses (same ▸ mixed))]
    exact (canReply_trust ..).trans same

end

/-- Only a Custodian reaches the object (R468, R535). -/
theorem revoke_needs_custodian {role : Nat} (other : role ≠ 2) (sl : Nat) (s : State) :
    s.objReach role sl revokeAddr true ≠ 0 ∧ roleReach role revokeAddr true ≠ 0 := by
  have defined : objDef revokeAddr.index revokeAddr.sub = some ((obj (.u 1) .wo .fanout).by [2]) := rfl
  have byRole : roleReach role revokeAddr true ≠ 0 := by
    simp [roleReach, defined, ObjDef.by, obj, other]
  refine ⟨?_, byRole⟩
  unfold State.objReach
  split
  · unfold State.tenantReach
    rw [defined]
    dsimp only
    split <;> simp [ObjDef.by, obj, revokeAddr]
  · exact byRole

/-- Settles O53: the write comes to `State.revokeKey`, which R535 describes, by either binding; `exec_set1` and `exec_kept` say
that set 1 is never revoked and that a revocation stays. -/
theorem vendorKeyRevocationIsPermanent : Obligations.VendorKeyRevocationIsPermanent := by
  unfold Obligations.VendorKeyRevocationIsPermanent
  refine ⟨fun h s s1 b opens alone => execVendorKeyRevoke_capsule opens alone, fun s hears served awake top role alone =>
    execVendorKeyRevoke_canfd hears served awake top role alone, fun role sl s other => revoke_needs_custodian other sl s,
    fun c s t h => ⟨fun clear => (exec_set1 h).trans clear, ?_⟩⟩
  obtain ⟨-, -, -, kept⟩ := exec_kept h
  exact kept 0

end Sys2Proof.Machine
end

section
/-! Commands on queues (R460, R461): a QUEUE_CREATE that is refused under a retired generation. As with the load of O47, its
completion is discarded (R402), nothing tells the group of the refusal, and the command goes on to the other members; O26
gives every refused QUEUE_CREATE that starts the state that its completion alone leaves. -/

namespace Sys2Proof.Machine

/-- The device of `loadStarted`, in a group with member 1 and at generation 1 of slice 1, with a QUEUE_CREATE of generation 0
accepted. -/
def createAccepted : State := { loadStarted with host := { loadStarted.host with accepted := [⟨2, 0, 1, 0, 5, 0x0002, 0, none⟩] } }

theorem createAccepted_starts : Starts createAccepted retiredLoad 0x0002 anyRole loadStarted ⟨2, 1, 0⟩ := rfl

/-- QID 0 is refused with no completion, and the command is sent on as one that has not failed. -/
theorem createAccepted_answers : exec (.queueCreate retiredLoad 0 0 0 0) createAccepted = .next
    (State.fanOut loadStarted (.queueCreate retiredLoad 0 0 0 0) retiredLoad 0x0002 ⟨2, 1, 0⟩ loadStarted) := by
  show execQueueCreate retiredLoad 0 0 0 0 createAccepted = _
  rw [execQueueCreate, managed_of_starts _ rfl createAccepted_starts rfl]
  dsimp only
  rw [if_pos (.inl rfl), State.fail, finish_of_retired (by decide)]

/-- Refutes O26, whose clause on QUEUE_CREATE gives a refused command the state that its completion leaves: one of the retired
generation 0, accepted before, is refused with no completion, and it goes on to member 1. -/
theorem not_queueCommandsComplete : ¬ Obligations.QueueCommandsComplete := by
  unfold Obligations.QueueCommandsComplete
  rintro ⟨-, -, create, -⟩
  obtain ⟨t, ht, refused, -⟩ := create retiredLoad 0 0 0 0 createAccepted loadStarted ⟨2, 1, 0⟩ rfl createAccepted_starts
  have alone : t = loadStarted := (refused (.inl rfl)).trans (finish_of_retired (by decide) ..)
  have sent := Host.Outcome.next.inj (createAccepted_answers.symm.trans ht)
  have waits := fanOut_fans_of_silent (s := loadStarted) (t := loadStarted) (i := .queueCreate retiredLoad 0 0 0 0)
    (h := retiredLoad) (op := 0x0002) (b := ⟨2, 1, 0⟩) rfl rfl (by decide) rfl
  rw [sent, alone] at waits
  exact absurd waits (by simp)

end Sys2Proof.Machine
end

section
/-! SUPPORT. What cleaning and discarding cached lines moves (R294, R305): lines, memory and counters, as for a scrub. -/

namespace Sys2Proof.Machine

/-- What every step of a fold leaves as it is, the fold leaves as it is. -/
theorem foldl_keeps {σ α β : Type} (π : σ → α) (f : σ → β → σ) (hf : ∀ s x, π (f s x) = π s) (l : List β) (s : σ) :
    π (l.foldl f s) = π s :=
  List.foldlRecOn (motive := fun t : σ => π t = π s) l f rfl fun _ h x _ => (hf _ x).trans h

theorem setL2_poolsMove (s : State) (b : Nat) (ls : List Line) : s.PoolsMove (s.setL2 b ls) := ⟨rfl, rfl⟩

theorem memPut_poolsMove (s : State) (ca : Nat) (cs : List Course) : s.PoolsMove (s.memPut ca cs) := ⟨rfl, rfl⟩

theorem cleanL2_poolsMove (s : State) (b : Nat) (p : Line → Bool) : s.PoolsMove (s.cleanL2 b p) :=
  (setL2_poolsMove ..).trans (foldl_poolsMove _ (fun _ _ => memPut_poolsMove ..) ..)

theorem cleanBay_poolsMove (s : State) (b : Nat) (p : Line → Bool) : s.PoolsMove (s.cleanBay b p) :=
  (foldl_poolsMove _ (fun _ _ => cleanL1_poolsMove ..) ..).trans (cleanL2_poolsMove ..)

theorem discardBay_poolsMove (s : State) (b : Nat) (p : Line → Bool) : s.PoolsMove (s.discardBay b p) := ⟨rfl, rfl⟩

theorem cleanRange_poolsMove (s : State) (start n : Nat) : s.PoolsMove (s.cleanRange start n) :=
  foldl_poolsMove _ (fun _ _ => cleanBay_poolsMove ..) ..

theorem invalidateRange_poolsMove (s : State) (start n : Nat) : s.PoolsMove (s.invalidateRange start n) :=
  foldl_poolsMove _ (fun _ _ => (cleanBay_poolsMove ..).trans (discardBay_poolsMove ..)) ..

end Sys2Proof.Machine
end

section
/-! Hod channels (R333, R337-R345, R353-R355): GO, disables, ordered stops, handoffs and the registers. -/

namespace Sys2Proof.Machine

section
variable {s : State} {bay ch : Nat}

theorem hodOf_setHod_self (s : State) (b c : Nat) (h : HodCh) : (s.setHod b c h).hodOf b c = h := tgetD_tset_self ..

theorem hodOf_setHod_ne {b c b' c' : Nat} (other : (b', c') ≠ (b, c)) (s : State) (h : HodCh) :
    (s.setHod b c h).hodOf b' c' = s.hodOf b' c' := tgetD_tset_ne other ..

theorem hodOf_congr {s t : State} (h : t.hod.ch = s.hod.ch) (b c : Nat) : t.hodOf b c = s.hodOf b c := by
  rw [State.hodOf, h, State.hodOf]

/-! ### GO (R337) -/

theorem hodGo_starts (idle : (s.hodOf bay ch).status ≠ 1) (mode : hodCheck (s.hodOf bay ch) = 0) (some : (s.hodOf bay ch).cnt ≠ 0) :
    s.hodGo bay ch = ((s.setHod bay ch { s.hodOf bay ch with
      status := 1, result := 0, total := (s.hodOf bay ch).cnt, srcTr := none, dstTr := none }).hodClean bay (s.hodOf bay ch)).hodEdges
        bay (s.hodOf bay ch) := by
  simp only [State.hodGo, idle, mode, some, ne_eq, not_true_eq_false, ↓reduceIte]

theorem hodStart_starts (inBay : bay < 16) (inChannels : ch < 32) {op : Nat} (names : (s.hodOf bay ch).op = op)
    (idle : (s.hodOf bay ch).status ≠ 1) (mode : hodCheck { s.hodOf bay ch with en := true } = 0)
    (some : (s.hodOf bay ch).cnt ≠ 0) :
    let h := { s.hodOf bay ch with en := true }
    s.hodStart bay ch op = (((s.setHod bay ch h).setHod bay ch { h with
      status := 1, result := 0, total := h.cnt, srcTr := none, dstTr := none }).hodClean bay h).hodEdges bay h := by
  intro h
  have enabled : (s.setHod bay ch h).hodOf bay ch = h := hodOf_setHod_self ..
  have go := hodGo_starts (s := s.setHod bay ch h) (bay := bay) (ch := ch) (by rwa [enabled]) (by rwa [enabled]) (by rwa [enabled])
  rw [enabled] at go
  rw [State.hodStart, if_pos ⟨inBay, inChannels, names⟩]
  exact go

/-- The command that starts a channel for an operation is a store of EN and GO. -/
theorem exec_hodOps {e : (Nat → Nat → Instr) × Nat} (listed : e ∈ Claims.hodOps) (bay ch : Nat) (s : State) :
    exec (e.1 bay ch) s = .next (s.hodStart bay ch e.2) := by
  simp only [Claims.hodOps, List.mem_cons, List.not_mem_nil, or_false] at listed
  obtain rfl | rfl | rfl | rfl | rfl := listed <;> rfl

/-! ### Records and disables (R343, R357) -/

theorem occurAt_frame (s : State) (ring : Nat) (x : Rec) :
    s.occurAt ring x = { s with err := (s.occurAt ring x).err, can := (s.occurAt ring x).can } := rfl

theorem hodRecord_frame (s : State) (b c : Nat) (h : HodCh) (code detail : Nat) (cont : Option Nat) :
    let t := s.hodRecord b c h code detail cont
    t = { s with err := t.err, can := t.can } := by
  intro t
  unfold t State.hodRecord
  dsimp only
  split <;> rfl

theorem hodRecord_hod (s : State) (b c : Nat) (h : HodCh) (code detail : Nat) (cont : Option Nat) :
    (s.hodRecord b c h code detail cont).hod = s.hod := by
  rw [hodRecord_frame]

theorem hodRecord_objs (s : State) (b c : Nat) (h : HodCh) (code detail : Nat) (cont : Option Nat) :
    (s.hodRecord b c h code detail cont).objs = s.objs := by
  rw [hodRecord_frame]

theorem objNum_congr {s t : State} (h : t.objs = s.objs) (index sub : Nat) (path : List Nat) (slice d : Nat) :
    t.objNum index sub path slice d = s.objNum index sub path slice d := by
  rw [State.objNum, h, State.objNum]

/-- A running channel whose EN is cleared: disabled with HOD_ERR 0x0705 and a record (assumption 22: DEDUCED). -/
theorem execHodDisable_disables (inBay : bay < 16) (inChannels : ch < 32) (running : (s.hodOf bay ch).status = 1) :
    exec (.hodDisable bay ch) s =
      .next ((s.hodDisable bay ch false 0x0705).hodRecord bay ch (s.hodOf bay ch) 0x0705 0 none) := by
  show execHodDisable bay ch s = _
  rw [execHodDisable, if_pos ⟨inBay, inChannels⟩]
  simp only [State.hodCtl, running, ↓reduceIte]
  rfl

theorem hodDisable_spec (s : State) (bay ch : Nat) (h : HodCh) :
    let t := (s.hodDisable bay ch false 0x0705).hodRecord bay ch h 0x0705 0 none
    (t.hodOf bay ch).status = 5 ∧ (t.hodOf bay ch).err = 0x0705 ∧ (t.hodOf bay ch).en = false ∧
      t.objNum 0x6300 4 [bay] (s.hodOf bay ch).slice 0 = min u64Max (s.objNum 0x6300 4 [bay] (s.hodOf bay ch).slice 0 + 1) ∧
      (∀ b c, (b, c) ≠ (bay, ch) → t.hodOf b c = s.hodOf b c) ∧
      t = { s with hod := { s.hod with ch := t.hod.ch }, free := t.free, objs := t.objs, err := t.err, can := t.can } := by
  intro t
  have channels (b c : Nat) : t.hodOf b c = (s.hodDisable bay ch false 0x0705).hodOf b c :=
    hodOf_congr (congrArg HodSt.ch (hodRecord_hod ..)) b c
  have disabled : (s.hodDisable bay ch false 0x0705).hodOf bay ch = _ := hodOf_setHod_self s bay ch _
  refine ⟨?_, ?_, ?_, ?_, fun b c other => ?_, ?_⟩
  · rw [channels, disabled]
  · rw [channels, disabled]
  · rw [channels, disabled]
  · exact (objNum_congr (hodRecord_objs ..) ..).trans (objNum_bumpBy_self ..)
  · exact (channels b c).trans (hodOf_setHod_ne other s _)
  · unfold t
    rw [hodRecord_frame]
    rfl

/-! ### Lines and ordered stops (R342, R345) -/

theorem hodInvalidate_poolsMove (s : State) (b : Nat) (h : HodCh) : s.PoolsMove (s.hodInvalidate b h) := by
  unfold State.hodInvalidate
  dsimp only
  split
  · exact .refl s
  · exact foldl_poolsMove _ (fun _ _ => invalidateRange_poolsMove ..) ..

theorem State.PoolsMove.hod_eq {s t : State} (h : s.PoolsMove t) : t.hod = s.hod := by
  rw [h.1]

/-- An ordered stop leaves the channel FAULTED with its code where it stood (R342). -/
theorem hodOf_hodStop (s : State) (bay ch code detail : Nat) (cont : Option Nat) :
    ∃ p, (s.hodStop bay ch code detail cont).hodOf bay ch = { s.hodOf bay ch with status := 4, err := code, pattern := p } := by
  let h := s.hodOf bay ch
  let h' := { h with
    status := 4, err := code, pattern := if h.op = 1 then rotatePattern h.fillLen (h.total - h.cnt) h.pattern else h.pattern }
  let s0 := if code / 256 = 2 then s.bump 0x6200 4 [] h.slice else s
  have channels : (s.hodStop bay ch code detail cont).hod = (s0.setHod bay ch h').hod :=
    (hodRecord_hod ..).trans (hodInvalidate_poolsMove (s0.setHod bay ch h') bay h').hod_eq
  exact ⟨h'.pattern, (hodOf_congr (congrArg HodSt.ch channels) bay ch).trans (hodOf_setHod_self ..)⟩

theorem execHodLineDone_clean (running : s.hodRunning bay ch = true) :
    exec (.hodLineDone bay ch none) s = .next (s.hodAdvance bay ch .clean) := by
  show execHodLineDone bay ch none s = _
  simp only [execHodLineDone, running, Bool.not_true, Bool.false_eq_true, ↓reduceIte]

theorem execHodLineDone_transferFailed (running : s.hodRunning bay ch = true) :
    exec (.hodLineDone bay ch (some 0x0686)) s = .next (s.hodStop bay ch 0x0686 0 none) := by
  show execHodLineDone bay ch (some 0x0686) s = _
  simp [execHodLineDone, running]

/-! ### Handoffs (R355) -/

theorem settFail_channels (s : State) (b : Nat) : (s.settFail b).hod.ch = s.hod.ch := by
  unfold State.settFail
  dsimp only
  split
  · rw [State.stick_hod, recovery_frame]
    rfl
  · rfl

theorem execSettVerifyHandoff_hands (pass : Bool) {other : Nat} (running : s.hodRunning bay ch = true)
    (packs : (s.hodOf bay ch).op = 3) (apart : other ≠ bay) (awake : s.bayAwake other = true) (sound : other ∉ s.hod.settFenced) :
    exec (.settVerifyHandoff bay ch other pass) s = .next (if pass then (s.settFail bay).hodPackBlock bay ch .clean
      else ((s.settFail bay).settFail other).hodStop bay ch 0x0716 0 none) := by
  show execSettVerifyHandoff bay ch other pass s = _
  simp [execSettVerifyHandoff, running, packs, apart, awake, sound]

/-! ### Registers (R333) -/

/-- Where a register of a channel lies. -/
theorem regAt_channel {la off : Nat} (inBay : bay < 16) (inChannels : ch < 32) (inside : off < 0x40)
    (place : la = 0x03C020000000 + bay * 0x10000 + ch * 0x40 + off) : regAt la = .hod bay ch off := by
  have above : ¬(0x03C010000000 ≤ la ∧ la < 0x03C010010000) := by omega
  have within : 0x03C020000000 ≤ la ∧ la < 0x03C020100000 := by omega
  obtain ⟨o, offset⟩ : ∃ o, la - 0x03C020000000 = o := ⟨_, rfl⟩
  have eq : o = bay * 0x10000 + ch * 0x40 + off := by omega
  have parts : o / 0x10000 = bay ∧ o % 0x10000 / 0x40 = ch ∧ o % 0x40 = off ∧ o % 0x10000 < 0x800 := by omega
  obtain ⟨ofBay, ofChannel, ofRegister, channels⟩ := parts
  simp only [regAt, above, within, offset, ofBay, ofChannel, ofRegister, channels, and_self, ↓reduceIte]

/-- The registers a store may write, each with its offset, its width and what it sets. -/
def hodRegisters : List (Nat × Nat × (HodCh → List Course → HodCh)) :=
  [(0x00, 5, fun h v => { h with src := crsNat v }), (0x05, 5, fun h v => { h with dst := crsNat v }),
    (0x0A, 3, fun h v => { h with cnt := crsNat v % 2 ^ 32 }), (0x0D, 2, fun h v => { h with mode := crsNat v }),
    (0x10, 2, fun h v => { h with space := crsNat v }), (0x18, 8, fun h v => { h with pattern := v })]

theorem hodRegWrite_writes {e : Nat × Nat × (HodCh → List Course → HodCh)} {value : List Course} (listed : e ∈ hodRegisters)
    (idle : (s.hodOf bay ch).status ≠ 1) (width : value.length = e.2.1) :
    e.1 < 0x40 ∧ s.hodRegWrite bay ch e.1 value = s.setHod bay ch (e.2.2 (s.hodOf bay ch) value) := by
  simp only [hodRegisters, List.mem_cons, List.not_mem_nil, or_false] at listed
  obtain rfl | rfl | rfl | rfl | rfl | rfl := listed <;> simp [State.hodRegWrite, idle, width]

theorem execRegisterWrite_writes {e : Nat × Nat × (HodCh → List Course → HodCh)} {value : List Course} {ca : Nat}
    (listed : e ∈ hodRegisters) (inBay : bay < 16) (inChannels : ch < 32) (idle : (s.hodOf bay ch).status ≠ 1)
    (here : s.isLocal ca = true) (place : caLocal ca = 0x03C020000000 + bay * 0x10000 + ch * 0x40 + e.1)
    (width : value.length = e.2.1) :
    exec (.registerWrite ca value) s = .next (s.setHod bay ch (e.2.2 (s.hodOf bay ch) value)) := by
  obtain ⟨inside, writes⟩ := hodRegWrite_writes listed idle width
  show execRegisterWrite ca value s = _
  rw [execRegisterWrite, if_pos here, State.regWrite, regAt_channel inBay inChannels inside place]
  exact congrArg _ writes

end

/-- Settles O43. That the channel is DISABLED with HOD_ERR 0x0705 and that the lines at the edges of a destination are cleaned
at GO rest on assumption 22 (DEDUCED). -/
theorem hodChannelsRunAndStop : Obligations.HodChannelsRunAndStop := by
  unfold Obligations.HodChannelsRunAndStop
  refine ⟨?_, ?_, ?_, ?_, ?_, ?_⟩
  · intro e listed bay ch s inBay inChannels names idle mode some
    exact .of_exec (exec_hodOps listed bay ch s) (hodStart_starts inBay inChannels names idle mode some)
  · intro bay ch s inBay inChannels running
    exact .of_exec (execHodDisable_disables inBay inChannels running) (hodDisable_spec s bay ch _)
  · intro bay ch s running
    exact .of_exec (execHodLineDone_clean running) rfl
  · intro bay ch s running
    obtain ⟨p, stopped⟩ := hodOf_hodStop s bay ch 0x0686 0 none
    refine .of_exec (execHodLineDone_transferFailed running) ?_
    simp only [stopped, and_self]
  · intro bay ch other s running packs apart awake sound
    refine ⟨.of_exec (execSettVerifyHandoff_hands true running packs apart awake sound) rfl, ?_⟩
    obtain ⟨p, stopped⟩ := hodOf_hodStop ((s.settFail bay).settFail other) bay ch 0x0716 0 none
    have same : ((s.settFail bay).settFail other).hodOf bay ch = s.hodOf bay ch :=
      hodOf_congr ((settFail_channels ..).trans (settFail_channels ..)) bay ch
    refine .of_exec (execSettVerifyHandoff_hands false running packs apart awake sound) ?_
    simp only [Bool.false_eq_true, ↓reduceIte, stopped, same, and_self]
  · intro e listed bay ch value ca s inBay inChannels idle here place width
    exact .of_exec (execRegisterWrite_writes listed inBay inChannels idle here place width)
      ⟨hodOf_setHod_self .., fun b c other => hodOf_setHod_ne other s _, rfl⟩

end Sys2Proof.Machine
end

section
/-! Digest keys and lanes (R359, R365-R368): what O36 comes to. All its clauses hold but the one on a delivery that does not
unwrap: as with the load of O47, under a retired generation in a group the refusal's completion is discarded (R402), and the
command goes on to the other members. Whether some delivery does not unwrap is a fact of AES key wrap, which the model only
names (`Config.kwpUnwrap` is opaque). So O36 holds exactly when every delivery unwraps, and the model proves neither. -/

namespace Sys2Proof.Machine

/-! ### Key slots (R359) -/

section
variable {h : CmdHdr} {slot alg : Nat} {wrapped kek : List Byte} {s s1 : State} {b : Binding}

/-- A delivery to a slot in range, of a keyed algorithm and with room, goes to the unwrapping under the slice's key. -/
theorem execDgKeyLoad_of_starts (served : s.paused = false) (starts : Starts s h 0x0040 tenantRole s1 b)
    (inRange : slot < s1.objNum (0x4000 + b.slice) 13 [] 0 0) (low : 5 ≤ alg) (high : alg ≤ 9)
    (room : s1.dg.slots.length < 4096) (holds : (s1.sliceOf b.slice).kek = some kek) :
    exec (.dgKeyLoad h slot alg wrapped) s = .next (State.fanOut s1 (.dgKeyLoad h slot alg wrapped) h 0x0040 b
      ((Config.kwpUnwrap kek wrapped).elim (s1.fail b.slice h 0x0802) fun key =>
        if !(keyLenOk alg key.length) then s1.fail b.slice h 0x0803
        else ({ s1 with dg := { s1.dg with
          slots := s1.dg.slots.filter (fun k => !(k.slice == b.slice && k.slot == slot)) ++ [⟨b.slice, slot, alg, key⟩] } }
          : State).done b.slice h)) := by
  show execDgKeyLoad h slot alg wrapped s = _
  rw [execDgKeyLoad, managed_of_starts _ served starts rfl]
  have passes : ¬(s1.objNum (0x4000 + b.slice) 13 [] 0 0 ≤ slot ∨ alg < 5 ∨ 9 < alg ∨
      !(s1.dg.slots.any (fun k => k.slice == b.slice && k.slot == slot) || decide (s1.dg.slots.length < 4096))) := by
    simp only [decide_eq_true room, Bool.or_true, Bool.not_true, Bool.false_eq_true, or_false]
    omega
  dsimp only
  rw [if_neg passes, holds, Option.bind_some]
  generalize Config.kwpUnwrap kek wrapped = opened
  cases opened with
  | none => rfl
  | some key => rfl

theorem execDgKeyLoad_loads (served : s.paused = false) (starts : Starts s h 0x0040 tenantRole s1 b)
    (inRange : slot < s1.objNum (0x4000 + b.slice) 13 [] 0 0) (low : 5 ≤ alg) (high : alg ≤ 9)
    (room : s1.dg.slots.length < 4096) (holds : (s1.sliceOf b.slice).kek = some kek) {key : List Byte}
    (unwraps : Config.kwpUnwrap kek wrapped = some key) (fits : keyLenOk alg key.length = true) :
    exec (.dgKeyLoad h slot alg wrapped) s = .next (State.fanOut s1 (.dgKeyLoad h slot alg wrapped) h 0x0040 b
      (({ s1 with dg := { s1.dg with
        slots := s1.dg.slots.filter (fun k => !(k.slice == b.slice && k.slot == slot)) ++ [⟨b.slice, slot, alg, key⟩] } }
        : State).finish b.slice h 0 0 [])) := by
  rw [execDgKeyLoad_of_starts served starts inRange low high room holds, unwraps]
  simp only [Option.elim_some, fits, Bool.not_true, Bool.false_eq_true, ↓reduceIte, State.done]

theorem execDgKeyClear_clears (served : s.paused = false) (starts : Starts s h 0x0041 tenantRole s1 b)
    (inRange : slot < s1.objNum (0x4000 + b.slice) 13 [] 0 0) :
    exec (.dgKeyClear h slot) s = .next (State.fanOut s1 (.dgKeyClear h slot) h 0x0041 b (({ s1 with dg := { s1.dg with
      slots := s1.dg.slots.filter fun k => !(k.slice == b.slice && k.slot == slot) } } : State).finish b.slice h 0 0 [])) := by
  show execDgKeyClear h slot s = _
  rw [execDgKeyClear, managed_of_starts _ served starts rfl]
  dsimp only
  rw [if_neg (Nat.not_le.mpr inRange), State.done]

end

/-! ### Lanes (R365-R368) -/

section
variable {s : State} {bay lane : Nat} {m : DgMsg}

theorem execDigestLaneStart_starts (runs : s.bayRuns bay = true) (inLanes : lane < 4) (sound : (bay, lane) ∉ s.mason.fencedLanes)
    (free : tget (bay, lane) s.dg.lanes = none) (first : s.nextMsg bay = some m) (restores : m.restores = true) :
    exec (.digestLaneStart bay lane) s = .next { s with dg := { s.dg with
      waiting := s.dg.waiting.filter fun x => x.2.id != m.id
      lanes := tset (bay, lane) { m with sinceStart := 0, hasRecord := m.cls != 0, saved := [] } s.dg.lanes } } := by
  show execDigestLaneStart bay lane s = _
  have takes : ¬(!(s.bayRuns bay) ∨ 4 ≤ lane ∨ s.mason.fencedLanes.contains (bay, lane) ∨
      (tget (bay, lane) s.dg.lanes).isSome) := by
    simp only [runs, free, List.contains_eq_mem, sound, Bool.not_true, Option.isSome_none, decide_false, Bool.false_eq_true,
      or_false, false_or]
    omega
  rw [execDigestLaneStart, if_neg takes, first]
  simp only [State.startLane, restores, Bool.not_true, Bool.false_eq_true, ↓reduceIte]

/-- A late delivery is counted in two other counters, and nothing else is changed. -/
theorem noteLate_frame (s : State) (u : CoreId) (since : Tick) (charge : Nat) :
    s.noteLate u since charge = { s with objs := (s.noteLate u since charge).objs } := by
  unfold State.noteLate
  split
  · dsimp only
    split <;> rfl
  · rfl

theorem objNum_noteLate {index : Nat} (other : index ≠ 0x3402) (s : State) (u : CoreId) (since : Tick) (charge sub : Nat)
    (path : List Nat) (slice d : Nat) :
    (s.noteLate u since charge).objNum index sub path slice d = s.objNum index sub path slice d := by
  unfold State.noteLate
  split
  · dsimp only
    split
    · rfl
    · simp only [State.objNum, State.bump, State.bumpBy_objs]
      rw [tget_tset_ne (by simp [other]), tget_tset_ne (by simp [other])]
  · rfl

/-- The last block of a message that no operator waits for: the lane is free, and the block is counted. -/
theorem execDigestBlockDone_ends (busy : tget (bay, lane) s.dg.lanes = some m) (last : m.blocks ≤ m.done + 1) (alone : m.w = none) :
    Answers (.digestBlockDone bay lane) s fun t =>
      t.dg = { s.dg with lanes := tdel (bay, lane) s.dg.lanes } ∧
        t.objNum 0x6340 1 [bay] m.slice 0 = min u64Max (s.objNum 0x6340 1 [bay] m.slice 0 + 1) ∧
        t = { s with dg := t.dg, objs := t.objs } := by
  refine ⟨_, rfl, ?_⟩
  simp only [busy, last, alone, ↓reduceIte]
  split
  · rename_i u x core
    rw [objNum_noteLate (by decide), noteLate_frame]
    exact ⟨rfl, objNum_bumpBy_self .., rfl⟩
  · exact ⟨rfl, objNum_bumpBy_self .., rfl⟩

/-- Another block of a class-G message: no request displaces it (R367). -/
theorem execDigestBlockDone_goes_on (busy : tget (bay, lane) s.dg.lanes = some m) (more : m.done + 1 < m.blocks)
    (urgent : m.cls = 0) : Answers (.digestBlockDone bay lane) s fun t =>
      t.dg = { s.dg with lanes := tset (bay, lane) { m with done := m.done + 1, sinceStart := m.sinceStart + 1 } s.dg.lanes } ∧
        t.objNum 0x6340 1 [bay] m.slice 0 = min u64Max (s.objNum 0x6340 1 [bay] m.slice 0 + 1) ∧
        t = { s with dg := t.dg, objs := t.objs } := by
  have stays : ∀ o : Option DgMsg, o.filter (fun _ => false) = none := fun o => by cases o <;> rfl
  refine ⟨_, rfl, ?_⟩
  simp only [busy, Nat.not_le.mpr more, urgent, bne_self_eq_false, Bool.false_and, stays, ↓reduceIte]
  exact ⟨rfl, objNum_bumpBy_self .., rfl⟩

end

/-! ### A delivery that does not unwrap, under a retired generation -/

/-- The device of `loadStarted`, in a group with member 1 and at generation 1 of slice 1, which has the key `kek` and one
slot. -/
def keyStarted (kek : List Byte) : State := { loadStarted with
  slices := [(1, { sliceZero with gen := 1, kek := some kek })]
  objs := [(⟨0x4001, 13, [], 0⟩, .num 1)] }

/-- The same device with a DG_KEY_LOAD of generation 0 accepted. -/
def keyAccepted (kek : List Byte) : State :=
  { keyStarted kek with host := { loadStarted.host with accepted := [⟨2, 0, 1, 0, 5, 0x0040, 0, none⟩] } }

theorem keyAccepted_starts (kek : List Byte) : Starts (keyAccepted kek) retiredLoad 0x0040 tenantRole (keyStarted kek) ⟨2, 1, 0⟩ :=
  rfl

theorem keyStarted_slot (kek : List Byte) : 0 < (keyStarted kek).objNum (0x4000 + 1) 13 [] 0 0 := Nat.zero_lt_one

theorem keyStarted_room (kek : List Byte) : (keyStarted kek).dg.slots.length < 4096 := Nat.zero_lt_succ 4095

theorem keyStarted_retired (kek : List Byte) : retiredLoad.gen ≠ (keyStarted kek).genOf 1 := Nat.zero_ne_one

/-- The delivery is refused with no completion, and the command is sent on as one that has not failed. -/
theorem keyAccepted_answers {kek wrapped : List Byte} (fails : Config.kwpUnwrap kek wrapped = none) :
    exec (.dgKeyLoad retiredLoad 0 5 wrapped) (keyAccepted kek) = .next
      (State.fanOut (keyStarted kek) (.dgKeyLoad retiredLoad 0 5 wrapped) retiredLoad 0x0040 ⟨2, 1, 0⟩ (keyStarted kek)) := by
  rw [execDgKeyLoad_of_starts rfl (keyAccepted_starts kek) (keyStarted_slot kek) (by decide) (by decide) (keyStarted_room kek)
    (kek := kek) rfl, fails, Option.elim_none, State.fail, finish_of_retired (keyStarted_retired kek)]

/-- What O36 gives such a delivery is not what the model answers. -/
theorem keyAccepted_not_refused_alone {kek wrapped : List Byte} (fails : Config.kwpUnwrap kek wrapped = none) :
    exec (.dgKeyLoad retiredLoad 0 5 wrapped) (keyAccepted kek) ≠ .next ((keyStarted kek).finish 1 retiredLoad 0x0802 0 []) := by
  rw [keyAccepted_answers fails, finish_of_retired (keyStarted_retired kek)]
  intro same
  have waits := fanOut_fans_of_silent (s := keyStarted kek) (t := keyStarted kek) (i := .dgKeyLoad retiredLoad 0 5 wrapped)
    (h := retiredLoad) (op := 0x0040) (b := ⟨2, 1, 0⟩) rfl rfl (Nat.zero_lt_succ 63) rfl
  rw [Host.Outcome.next.inj same] at waits
  exact absurd waits (by simp)

/-- O36 holds exactly when every delivery unwraps under every key, which nothing in the model decides. -/
theorem digestKeysAndLanes_iff :
    Obligations.DigestKeysAndLanes ↔ ∀ kek wrapped : List Byte, Config.kwpUnwrap kek wrapped ≠ none := by
  unfold Obligations.DigestKeysAndLanes
  constructor
  · rintro ⟨load, -⟩ kek wrapped fails
    exact keyAccepted_not_refused_alone fails ((load retiredLoad 0 5 wrapped kek (keyAccepted kek) (keyStarted kek) ⟨2, 1, 0⟩ rfl
      (keyAccepted_starts kek) (keyStarted_slot kek) (by decide) (by decide) (keyStarted_room kek) rfl).1 fails)
  · intro unwraps
    refine ⟨?_, ?_, ?_, ?_, ?_⟩
    · intro h slot alg wrapped kek s s1 b served starts inRange low high room holds
      exact ⟨fun fails => absurd fails (unwraps kek wrapped),
        fun key opened fits => execDgKeyLoad_loads served starts inRange low high room holds opened fits⟩
    · intro h slot s s1 b served starts inRange
      exact execDgKeyClear_clears served starts inRange
    · intro bay lane m s runs inLanes sound free first restores
      refine ⟨_, execDigestLaneStart_starts runs inLanes sound free first restores, tget_tset_self .., ?_, ?_, rfl⟩
      · intro x kept
        simpa using (List.mem_filter.mp kept).2
      · intro k other
        exact tget_tset_ne other ..
    · intro bay lane m s busy last alone
      exact execDigestBlockDone_ends busy last alone
    · intro bay lane m s busy more urgent
      exact execDigestBlockDone_goes_on busy more urgent

end Sys2Proof.Machine
end

section
/-! The ledger's events (R373, R377, R378, R408, R458): records, segments, seals and egress. -/

namespace Sys2Proof.Machine

/-! ### Lists -/

theorem insertBy_length {α : Type} (lt : α → α → Bool) (x : α) (l : List α) : (insertBy lt x l).length = l.length + 1 := by
  induction l with
  | nil => rfl
  | cons y t ih =>
    rw [insertBy]
    split
    · rfl
    · rw [List.length_cons, ih, List.length_cons]

theorem sortBy_length {α : Type} (lt : α → α → Bool) (l : List α) : (sortBy lt l).length = l.length := by
  have inserted (acc : List α) : (l.foldl (fun acc x => insertBy lt x acc) acc).length = acc.length + l.length := by
    induction l generalizing acc with
    | nil => rfl
    | cons x t ih => rw [List.foldl_cons, ih, insertBy_length, List.length_cons, Nat.add_right_comm, Nat.add_assoc]
  exact (inserted []).trans (Nat.zero_add _)

theorem mem_mapIf_of_neg {α : Type} {p : α → Bool} {f : α → α} {l : List α} {x : α} (h : x ∈ l) (hp : p x = false) :
    x ∈ mapIf p f l :=
  List.mem_map.mpr ⟨x, h, if_neg (Bool.eq_false_iff.mp hp)⟩

/-! ### What the parts of an event leave unchanged -/

theorem noteSpace_frame (s : State) : s.noteSpace = { s with objs := s.noteSpace.objs } := by
  unfold State.noteSpace
  split <;> rfl

theorem addRecord_frame (l : LedSt) (sl gen tick now : Nat) (r : List Byte) :
    l.addRecord sl gen tick now r =
      { l with opened := (l.addRecord sl gen tick now r).opened, closed := (l.addRecord sl gen tick now r).closed } := by
  unfold LedSt.addRecord
  dsimp only
  split <;> split <;> rfl

theorem useLeaf_frame (s : State) : s.useLeaf = { s with
    trust := { s.trust with
      hssReserved := s.useLeaf.trust.hssReserved, hssNext := s.trust.hssNext + 1, hssPending := s.useLeaf.trust.hssPending }
    objs := s.useLeaf.objs } := by
  unfold State.useLeaf
  dsimp only
  split <;> rfl

theorem bucketOf_bump (s : State) {index sub : Nat} (path : List Nat) (slice : Nat) (h : sub ≠ 17) (sl : Nat) :
    (s.bump index sub path slice).bucketOf sl = s.bucketOf sl := by
  have rate : (s.bump index sub path slice).ledgerRate sl = s.ledgerRate sl := congrFun (bump_counts s index sub path slice h).2 sl
  simp only [State.ledgerRate] at rate
  simp only [State.bucketOf, rate, State.bump_host]

theorem numberSegs_length (gs : List Segment) (m : List (Nat × Nat)) : (numberSegs gs m).1.length = gs.length := by
  induction gs generalizing m with
  | nil => rfl
  | cons g t ih => rw [numberSegs, List.length_cons, List.length_cons, ih]

/-! ### Records (R373, R408) -/

section
variable {s : State}

theorem execLedgerRecordEnter_enters {i : Item} {a : Answer}
    (first : (s.unrecorded.find? fun x => s.bucketAdmits x.1.slice (ledgerRecord x.1 x.2).length) = some (i, a))
    (hashed : i.hashReady = true) (fits : s.led.used + (ledgerRecord i a).length ≤ bufferSize) :
    let l := s.led.addRecord i.slice i.gen a.tick s.now (ledgerRecord i a)
    exec .ledgerRecordEnter s = .next { s with
      objs := (s.bump 0x6350 1 [] i.slice).objs
      items := mapIf (fun x => x.seq == i.seq) (fun x => { x with recorded := true, acked := decide (s.power.buttress = 1) }) s.items
      led := ({ l with buffer := l.buffer ++ [ledgerRecord i a] } : LedSt).notePause
      host := { s.host with
        bucket := tset i.slice (s.bucketOf i.slice - (ledgerRecord i a).length * 25000000) s.host.bucket } } := by
  intro l
  show execLedgerRecordEnter s = _
  have room : ¬(!i.hashReady ∨ bufferSize < s.led.used + (ledgerRecord i a).length) := by
    simpa [hashed] using fits
  rw [execLedgerRecordEnter, first, ← bucketOf_bump s (index := 0x6350) (sub := 1) [] i.slice (by decide) i.slice]
  simp only [room, ↓reduceIte]
  rfl

theorem execLedgerNandProgram_programs {r : List Byte} {rest : List (List Byte)} (oldest : s.led.buffer = r :: rest)
    (space : r.length ≤ s.led.free) (live : s.power.save = none) :
    exec .ledgerNandProgram s = .next ({ s with
      led := ({ s.led with
        buffer := rest, free := s.led.free - r.length, written := s.led.written + r.length } : LedSt).notePause
      items := mapIf (fun i => i.recorded && i.answer.any fun a => ledgerRecord i a == r) (fun i => { i with acked := true })
        s.items } : State).noteSpace := by
  show execLedgerNandProgram s = _
  rw [execLedgerNandProgram, oldest]
  simp only [live, Option.isSome_none, Bool.false_eq_true, or_false, Nat.not_lt.mpr space, ↓reduceIte]

theorem execSegmentCloseSecond_closes (second : s.now % 25000000 = 0) :
    exec .segmentCloseSecond s = .next { s with led := s.led.closeIf (fun _ => true) s.now } := by
  show execSegmentCloseSecond s = _
  rw [execSegmentCloseSecond, if_pos second]

theorem closeIf_all (l : LedSt) (now : Tick) : l.closeIf (fun _ => true) now =
    { l with opened := [], closed := l.closed ++ l.opened.map fun g => { g with closedAt := some now } } := by
  simp [LedSt.closeIf]

/-! ### Seals (R377, R378) -/

/-- Segments in the order in which a seal lists them (R377). -/
def sealOrder (x y : Segment) : Bool :=
  x.slice < y.slice || (x.slice == y.slice && x.closedAt.getD 0 < y.closedAt.getD 0)

/-- The segments of the seal for tick `T`, numbered, and the numbers that follow (R376). -/
def State.sealedBy (s : State) (T : Tick) : List Segment × List (Nat × Nat) :=
  numberSegs (sortBy sealOrder (s.dueSegs T)) s.led.segSeq

/-- The seal for tick `T` (R377). -/
def State.sealAt (s : State) (T : Tick) : Seal :=
  let body := s.sealBody T (s.sealedBy T).1
  { seq := s.led.nextSeal, tick := T, body := body, bytes := body ++ s.signatures s.trust.run.measurement body
    segs := (s.sealedBy T).1, written := false }

theorem sealedBy_length (s : State) (T : Tick) : (s.sealedBy T).1.length = (s.dueSegs T).length := by
  rw [State.sealedBy, numberSegs_length, sortBy_length]

theorem dueSegs_of_alone (alone : s.group.grouped = false) (T : Tick) :
    s.dueSegs T = s.led.closed.filter fun g => g.closedAt.any fun c => decide (c ≤ T) := by
  simp only [State.dueSegs, alone, Bool.false_eq_true, ↓reduceIte]

theorem execSealMake_seals (live : s.paused = false) (leads : s.leads = true)
    (told : s.closuresIn (s.now / 25000000 * 25000000) = true) (ready : s.power.ready = true) (signs : s.canSign = true)
    (between : s.now % 25000000 ≠ 0) (started : 25000000 ≤ s.now) (unsealed : s.led.sealTick < s.now / 25000000 * 25000000) :
    let T := s.now / 25000000 * 25000000
    exec .sealMake s = .next (({ s with led := { s.led with
      closed := s.led.closed.filter fun g => !(g.closedAt.any fun c => decide (c ≤ T))
      segSeq := (s.sealedBy T).2, seals := s.led.seals ++ [s.sealAt T], nextSeal := s.led.nextSeal + 1, head := (s.sealAt T).body
      sealTick := T, restart := false, leaderChange := false } } : State).tellAll (.sealed (s.sealAt T))).useLeaf := by
  intro T
  have late : ¬ s.now ≤ s.now / 25000000 * 25000000 := fun h =>
    between (Nat.mod_eq_zero_of_dvd (Dvd.intro_left _ (Nat.le_antisymm (Nat.div_mul_le_self ..) h)))
  have positive : s.now / 25000000 * 25000000 ≠ 0 :=
    Nat.mul_ne_zero (Nat.div_pos started (by decide)).ne' (by decide)
  show execSealMake s = _
  simp only [execSealMake, live, leads, told, ready, signs, Nat.not_le.mpr unsealed, late, positive, T, Bool.not_true,
    Bool.false_eq_true, or_self, ↓reduceIte]
  rfl

theorem execSealWrite_writes {x : Seal} (oldest : s.led.seals.find? (fun x => !x.written) = some x) (live : s.paused = false)
    (late : x.tick < s.now) (holds : s.power.save = none) :
    exec .sealWrite s = .next (s.host.waiting.foldl (State.sealedNow x.tick) { s with led := { s.led with
      seals := mapIf (fun y => y.seq == x.seq) (fun y => { y with written := true }) s.led.seals
      free := s.led.free - x.bytes.length
      sealSeq := some x.seq } }).noteSpace := by
  show execSealWrite s = _
  rw [execSealWrite, oldest]
  simp only [live, Nat.not_le.mpr late, holds, Option.isSome_none, Bool.false_eq_true, or_self, ↓reduceIte]

/-! ### Egress (R458) -/

/-- The state once the answer of an item has left on an AQ. -/
def State.answered (s : State) (aq : Nat) (i : Item) (a : Answer) : State :=
  { s with
    host := { s.host with answers := s.host.answers ++ [answerCapsule aq i a] }
    items := (mapIf (fun x => x.seq == i.seq) (fun x => { x with sent := true }) s.items).filter fun x =>
      !(x.seq == i.seq && x.stage == .done) }

theorem execAnswerEgress_leaves {sl aq : Nat} {i : Item} {a : Answer}
    (first : (sortBy (fun (x y : Item × Answer) => x.2.tick < y.2.tick || (x.2.tick == y.2.tick && x.1.seq < y.1.seq))
      (s.items.filterMap fun i =>
        if i.sent ∨ i.slice ≠ sl ∨ s.aqOf i ≠ aq then none else i.answer.map fun a => (i, a))).head? = some (i, a))
    (acked : i.acked = true) (mirrored : s.mirrorWaits i = false) (thawed : s.power.frozen = false) :
    let t := s.answered aq i a
    exec (.answerEgress sl aq) s = .next (if s.group.grouped then
      ({ t with group := { t.group with watermark := t.watermarkNow } } : State).tellAll (.watermark t.watermarkNow) else t) := by
  intro t
  show execAnswerEgress sl aq s = _
  unfold execAnswerEgress
  dsimp only
  rw [first]
  simp only [acked, mirrored, thawed, Bool.not_true, Bool.false_eq_true, or_self, ↓reduceIte]
  rfl

theorem sent_of_mem_answered (aq : Nat) {i : Item} (a : Answer) {x : Item} (member : x ∈ (s.answered aq i a).items)
    (same : x.seq = i.seq) : x.sent = true ∧ x.stage ≠ .done := by
  obtain ⟨mapped, kept⟩ := List.mem_filter.mp member
  obtain ⟨y, -, rfl⟩ := List.mem_map.mp mapped
  split at same
  case isTrue mine =>
    rw [if_pos mine] at kept ⊢
    exact ⟨rfl, by simpa [beq_iff_eq.mp mine] using kept⟩
  case isFalse other => exact absurd (beq_iff_eq.mpr same) other

theorem mem_answered_of_other (aq : Nat) {i : Item} (a : Answer) {x : Item} (member : x ∈ s.items) (other : x.seq ≠ i.seq) :
    x ∈ (s.answered aq i a).items :=
  List.mem_filter.mpr ⟨mem_mapIf_of_neg member (beq_eq_false_iff_ne.mpr other), by simp [other]⟩

end

/-- Settles O38, an event at a time. -/
theorem ledgerEventsRecordAndSeal : Obligations.LedgerEventsRecordAndSeal := by
  unfold Obligations.LedgerEventsRecordAndSeal
  refine ⟨?_, ?_, ?_, ?_, ?_, ?_⟩
  · intro i a s first hashed fits
    refine .of_exec (execLedgerRecordEnter_enters first hashed fits) ⟨?_, rfl, rfl, ?_⟩
    · rw [addRecord_frame]
      rfl
    · rw [addRecord_frame]
      rfl
  · intro r rest s oldest space live
    refine .of_exec (execLedgerNandProgram_programs oldest space live) ?_
    rw [noteSpace_frame]
    exact ⟨rfl, Nat.sub_add_cancel space, rfl, rfl, rfl⟩
  · intro s second
    refine .of_exec (execSegmentCloseSecond_closes second) ?_
    rw [closeIf_all]
    exact ⟨rfl, rfl⟩
  · intro s live leads told ready signs between started unsealed
    refine .of_exec (execSealMake_seals live leads told ready signs between started unsealed) ?_
    rw [useLeaf_frame]
    exact ⟨s.sealAt _, rfl, rfl, rfl, rfl, rfl, rfl, sealedBy_length s _,
      fun alone => (sealedBy_length s _).trans (congrArg List.length (dueSegs_of_alone alone _)), rfl, rfl, rfl, rfl, rfl, rfl, rfl⟩
  · intro x s oldest live late holds
    exact .of_exec (execSealWrite_writes oldest live late holds) rfl
  · intro sl aq i a s first acked mirrored thawed
    refine .of_exec (execAnswerEgress_leaves first acked mirrored thawed) ?_
    by_cases grouped : s.group.grouped = true
    · rw [if_pos grouped]
      exact ⟨rfl, fun x member same => sent_of_mem_answered aq a member same,
        fun x member other => mem_answered_of_other aq a member other,
        fun _ => rfl, fun alone => absurd grouped (Bool.eq_false_iff.mp alone), rfl⟩
    · rw [if_neg grouped]
      exact ⟨rfl, fun x member same => sent_of_mem_answered aq a member same,
        fun x member other => mem_answered_of_other aq a member other,
        fun h => absurd h grouped, fun _ => rfl, rfl⟩

end Sys2Proof.Machine
end

section
/-! Storage (R379-R391): reads of the ledger, proofs and seals, the commands of the table store, and the partitions. -/

namespace Sys2Proof.Machine

/-- A served command of an operation that is not sent to every member at once: it waits for its turn where the members
take turns, and otherwise it runs its body. -/
theorem managed_of_single {s s1 : State} {i : Instr} {h : CmdHdr} {op : Nat} {roles : List Nat} {b : Binding}
    (body : State → Binding → State) (served : s.paused = false) (starts : Starts s h op roles s1 b) (single : groupOp i op = false) :
    s.managed i h op roles body = if s1.oneByOne h op b then s1.takeTurn i h op b else body s1 b := by
  rw [State.managed, if_neg (by simp [served]), command_of_starts _ starts]
  simp only [State.fanOut, single, Bool.not_false, Bool.or_true, Bool.true_or, ↓reduceIte]

/-- A served command of an operation that only this member carries out runs its body. -/
theorem managed_of_ownOp {s s1 : State} {i : Instr} {h : CmdHdr} {op : Nat} {roles : List Nat} {b : Binding}
    (body : State → Binding → State) (served : s.paused = false) (starts : Starts s h op roles s1 b)
    (ho : [0x0004, 0x0061, 0x0062, 0x0072].contains op = false) (single : groupOp i op = false) :
    s.managed i h op roles body = body s1 b := by
  have together : s1.oneByOne h op b = false := by simp only [State.oneByOne, ho, Bool.false_and]
  rw [managed_of_single body served starts single, together]
  rfl

/-! ### The ledger: LEDGER_READ, LEDGER_PROOF, LEDGER_SEAL_NOW (R379, R380, R382) -/

section
variable {h : CmdHdr} {s s1 : State} {b : Binding} (served : s.paused = false)
include served

theorem execLedgerRead_runs {kind count first seqNo : Nat}
    (starts : Starts s h 0x0050 (if kind = 2 then anyRole else tenantRole) s1 b) (idle : s1.partitionBusy 0 = false) :
    exec (.ledgerRead h kind count first seqNo) s = .next (match s1.ledgerRange b.slice kind count first seqNo with
      | .ok r => s1.finish b.slice h 0 0 r
      | .error c => s1.fail b.slice h c) := by
  show execLedgerRead h kind count first seqNo s = _
  rw [execLedgerRead, managed_of_ownOp _ served starts rfl rfl]
  rw [idle]
  rfl

theorem execLedgerProof_runs {itemId tick : Nat} (starts : Starts s h 0x0051 tenantRole s1 b) (idle : s1.partitionBusy 0 = false) :
    exec (.ledgerProof h itemId tick) s = .next (match s1.proofOf b.slice itemId tick with
      | some r => s1.finish b.slice h 0 0 r
      | none => if s1.recordPending b.slice itemId tick then s1.wait (.proof h b.slice itemId tick) else s1.fail b.slice h 0x0810) := by
  show execLedgerProof h itemId tick s = _
  rw [execLedgerProof, managed_of_ownOp _ served starts rfl rfl]
  rw [idle]
  rfl

theorem execLedgerSealNow_runs (starts : Starts s h 0x0052 tenantRole s1 b) (idle : s1.partitionBusy 0 = false) :
    exec (.ledgerSealNow h) s = .next (if s1.led.opened.any (fun g => g.slice == b.slice) then
      (s1.closeSegs b.slice).wait (.sealNow h b.slice s1.now) else s1.done b.slice h) := by
  show execLedgerSealNow h s = _
  rw [execLedgerSealNow, managed_of_ownOp _ served starts rfl rfl]
  rw [idle]
  rfl

end

/-! ### The table store (R383, R384) -/

/-- No store command waits. -/
def State.storeQuiet (s : State) : Prop := ∀ w ∈ s.host.waiting, w.tsRange = none

section
variable {s : State}

theorem not_mem_waiting_of_storeQuiet (quiet : s.storeQuiet) {w : Waiting} (ranged : w.tsRange ≠ none) : w ∉ s.host.waiting :=
  fun member => ranged (quiet w member)

theorem tsComplete_of_noRange {w : Waiting} (noRange : w.tsRange = none) : s.tsComplete w = s := by
  unfold State.tsComplete
  split
  · rfl
  · split
    case h_4 => rfl
    all_goals cases noRange

/-- Where no store command waits, one that is submitted is the one to complete. -/
theorem tsSettle_wait (quiet : s.storeQuiet) (w : Waiting) : (s.wait w).tsSettle = (s.wait w).tsComplete w := by
  have others (l : List Waiting) (hl : ∀ x ∈ l, x.tsRange = none) : l.foldl State.tsComplete (s.wait w) = s.wait w := by
    induction l with
    | nil => rfl
    | cons x t ih =>
      rw [List.foldl_cons, tsComplete_of_noRange (hl x List.mem_cons_self)]
      exact ih fun y hy => hl y (List.mem_cons_of_mem x hy)
  show (s.host.waiting ++ [w]).foldl State.tsComplete (s.wait w) = _
  rw [List.foldl_append, others _ quiet]
  rfl

theorem tsOrdered_of_noRange {v : Waiting} (noRange : v.tsRange = none) (w : Waiting) : tsOrdered v w = false := by
  rw [tsOrdered, noRange]

/-- Nothing holds it back. -/
theorem tsHeld_wait (quiet : s.storeQuiet) (w : Waiting) : (s.wait w).tsHeld w = false := by
  refine List.any_eq_false.mpr fun x hx => ?_
  obtain ⟨member, before⟩ : x ∈ s.host.waiting ++ [w] ∧ (x != w) = true :=
    ⟨(List.takeWhile_prefix _).subset hx, List.mem_takeWhile_imp (p := fun x => x != w) hx⟩
  obtain earlier | last := List.mem_append.mp member
  · rw [tsOrdered_of_noRange (quiet x earlier)]
    exact Bool.false_ne_true
  · exact absurd (List.mem_singleton.mp last) (bne_iff_ne.mp before)

theorem wait_unwait {w : Waiting} (new : w ∉ s.host.waiting) : (s.wait w).unwait w = s := by
  have alone : (s.host.waiting ++ [w]).filter (fun x => x != w) = s.host.waiting := by
    have kept : s.host.waiting.filter (fun x => x != w) = s.host.waiting :=
      List.filter_eq_self.mpr fun x member => bne_iff_ne.mpr fun same => new (same ▸ member)
    rw [List.filter_append, kept]
    simp
  simp only [State.unwait, State.wait, alone]

/-- The guard of a completion, once the command waits and nothing holds it back. -/
theorem tsComplete_guard (quiet : s.storeQuiet) (w : Waiting) :
    ¬(!((s.wait w).host.waiting.contains w) ∨ (s.wait w).tsHeld w) := by
  rw [tsHeld_wait quiet w]
  simp [State.wait]

theorem tsSubmit_write (quiet : s.storeQuiet) {h : CmdHdr} {sl first count : Nat}
    (queued : s.st.writes.any (fun x => x.slice == sl && x.gen == h.gen && x.qid == h.qid && x.cid == h.cid) = true) :
    s.tsSubmit (.tsWrite h sl first count) = s.wait (.tsWrite h sl first count) := by
  rw [State.tsSubmit, tsSettle_wait quiet, State.tsComplete, if_neg (tsComplete_guard quiet _)]
  exact if_pos queued

theorem tsSubmit_read (quiet : s.storeQuiet) (h : CmdHdr) (sl first count : Nat) :
    s.tsSubmit (.tsRead h sl first count) =
      s.finish sl h 0 0 ((List.range count).flatMap fun k => s.tsBlock sl (first + k)) := by
  have new := not_mem_waiting_of_storeQuiet quiet (w := .tsRead h sl first count) (by simp [Waiting.tsRange])
  rw [State.tsSubmit, tsSettle_wait quiet, State.tsComplete, if_neg (tsComplete_guard quiet _)]
  rw [wait_unwait new]
  rfl

/-- The state once the blocks of a range are trimmed (R383). -/
def State.trimmed (s : State) (sl first count : Nat) : State :=
  let mine := fun (k : Nat × Nat) => k.1 == sl && decide (first ≤ k.2 ∧ k.2 < first + count)
  { s with st := { s.st with
    blocks := s.st.blocks.filter fun e => !(mine e.1)
    free := s.st.free + (s.st.blocks.filter fun e => mine e.1).length } }

theorem tsSubmit_trim (quiet : s.storeQuiet) (h : CmdHdr) (sl first count : Nat) :
    s.tsSubmit (.tsTrim h sl first count) = (s.trimmed sl first count).done sl h := by
  have new := not_mem_waiting_of_storeQuiet quiet (w := .tsTrim h sl first count) (by simp [Waiting.tsRange])
  rw [State.tsSubmit, tsSettle_wait quiet, State.tsComplete, if_neg (tsComplete_guard quiet _)]
  exact congrArg (State.done · sl h) (wait_unwait (s := s.trimmed sl first count) new)

/-- The blocks of a write, one to each block of its range (R383). -/
def tsWrites (h : CmdHdr) (sl first count : Nat) (data : List Byte) : List TsWr :=
  (List.range count).map fun k => ⟨sl, h.gen, first + k, h.qid, h.cid, slice data (k * 6144) 6144⟩

theorem tsWrites_any {count : Nat} (some : 1 ≤ count) (h : CmdHdr) (sl first : Nat) (data : List Byte) :
    (tsWrites h sl first count data).any (fun x => x.slice == sl && x.gen == h.gen && x.qid == h.qid && x.cid == h.cid) = true :=
  List.any_eq_true.mpr ⟨_, List.mem_map.mpr ⟨0, List.mem_range.mpr some, rfl⟩, by simp⟩

end

section
variable {h : CmdHdr} {first count : Nat} {s s1 : State} {b : Binding} (served : s.paused = false)
include served

theorem execTsWrite_queues {data : List Byte} (starts : Starts s h 0x0053 tenantRole s1 b) (idle : s1.partitionBusy 1 = false)
    (some : 1 ≤ count) (whole : data.length = count * 6144) (inside : first + count ≤ s1.tsQuota b.slice) (quiet : s1.storeQuiet)
    {n : Nat} (fresh : ((List.range count).filter fun k => !(s1.st.blocks.any fun e => e.1 == (b.slice, first + k)) &&
      !(s1.st.writes.any fun x => x.slice == b.slice && x.block == first + k)).length = n) (room : n ≤ s1.tsFree) :
    exec (.tsWrite h first count data) s = .next (State.wait { s1 with st := { s1.st with
      writes := s1.st.writes ++ tsWrites h b.slice first count data, free := s1.st.free - n } } (.tsWrite h b.slice first count)) := by
  show execTsWrite h first count data s = _
  rw [execTsWrite, managed_of_ownOp _ served starts rfl rfl]
  simp only [State.tsChecked, tsBlockBytes, idle, whole, fresh, Nat.not_lt.mpr inside, Nat.not_lt.mpr room, ne_eq,
    not_true_eq_false, Bool.false_eq_true, ↓reduceIte]
  let q : State := { s1 with st := { s1.st with
    writes := s1.st.writes ++ tsWrites h b.slice first count data, free := s1.st.free - n } }
  have queued := tsWrites_any some h b.slice first data
  exact congrArg _ (tsSubmit_write (s := q) quiet (by rw [List.any_append, queued, Bool.or_true]))

theorem execTsRead_reads (starts : Starts s h 0x0054 tenantRole s1 b) (idle : s1.partitionBusy 1 = false)
    (inside : first + count ≤ s1.tsQuota b.slice) (quiet : s1.storeQuiet) :
    exec (.tsRead h first count) s =
      .next (s1.finish b.slice h 0 0 ((List.range count).flatMap fun k => s1.tsBlock b.slice (first + k))) := by
  show execTsRead h first count s = _
  rw [execTsRead, managed_of_ownOp _ served starts rfl rfl, ← tsSubmit_read quiet]
  simp only [State.tsChecked, idle, Nat.not_lt.mpr inside, Bool.false_eq_true, ↓reduceIte]

theorem execTsTrim_trims (starts : Starts s h 0x0055 tenantRole s1 b) (idle : s1.partitionBusy 1 = false)
    (inside : first + count ≤ s1.tsQuota b.slice) (quiet : s1.storeQuiet) :
    exec (.tsTrim h first count) s = .next ((s1.trimmed b.slice first count).done b.slice h) := by
  show execTsTrim h first count s = _
  rw [execTsTrim, managed_of_ownOp _ served starts rfl rfl, ← tsSubmit_trim quiet]
  simp only [State.tsChecked, idle, Nat.not_lt.mpr inside, Bool.false_eq_true, ↓reduceIte]

end

theorem execTsBlockProgrammed_programs {sl block : Nat} {x : TsWr} {s : State} (resumed : s.led.paused = false)
    (idle : s.partitionBusy 1 = false) (holds : s.power.save = none)
    (oldest : s.st.writes.find? (fun x => x.slice == sl && x.block == block) = some x)
    (unheld : (s.writerOf x).any s.tsHeld = false) :
    exec (.tsBlockProgrammed sl block) s = .next (State.tsSettle { s with st := { s.st with
      blocks := tset (sl, block) x.data s.st.blocks, writes := s.st.writes.erase x, wear := s.st.wear + 1 } }) := by
  show execTsBlockProgrammed sl block s = _
  simp only [execTsBlockProgrammed, resumed, idle, holds, oldest, unheld, Option.isSome_none, Bool.false_eq_true, or_self,
    ↓reduceIte]

/-- Settles O39, the ledger's commands first. -/
theorem storageCommandsComplete : Obligations.StorageCommandsComplete := by
  unfold Obligations.StorageCommandsComplete
  refine ⟨⟨?_, ?_, ?_⟩, ?_, ?_, ?_, ?_⟩
  · intro h kind count first seqNo s s1 b served starts idle
    refine .of_exec (execLedgerRead_runs served starts idle) ?_
    cases s1.ledgerRange b.slice kind count first seqNo <;> rfl
  · intro h itemId tick s s1 b served starts idle
    refine .of_exec (execLedgerProof_runs served starts idle) ⟨?_, ?_, ?_⟩
    · rintro r found
      rw [found]
      rfl
    · rintro absent pending
      rw [absent, if_pos pending]
      rfl
    · rintro absent unknown
      rw [absent, if_neg (Bool.eq_false_iff.mp unknown)]
      rfl
  · intro h s s1 b served starts idle
    refine .of_exec (execLedgerSealNow_runs served starts idle) ⟨?_, ?_⟩
    · rintro ⟨g, member, same⟩
      have opened : s1.led.opened.any (fun g => g.slice == b.slice) = true :=
        List.any_eq_true.mpr ⟨g, member, beq_iff_eq.mpr same⟩
      rw [if_pos opened]
      rfl
    · intro none
      rw [if_neg (by simpa using none)]
      rfl
  · intro h first count data s s1 b served starts idle some whole inside quiet fresh room
    exact .of_exec (execTsWrite_queues served starts idle some whole inside quiet rfl room) rfl
  · intro h first count s s1 b served starts idle inside quiet
    exact .of_exec (execTsRead_reads served starts idle inside quiet) rfl
  · intro h first count s s1 b served starts idle inside quiet
    exact .of_exec (execTsTrim_trims served starts idle inside quiet) rfl
  · intro sl block x s resumed idle holds oldest unheld
    exact .of_exec (execTsBlockProgrammed_programs resumed idle holds oldest unheld)
      ⟨_, rfl, tgetD_tset_self .., fun sl' k other => tgetD_tset_ne other .., rfl⟩

/-! ### The partitions (R387-R391) -/

section
variable {h : CmdHdr} {partition : Nat} {s s1 : State} {b : Binding}

theorem any_partition_of_forall {es : List Erase} (idle : ∀ e ∈ es, e.partition ≠ partition) :
    (es.any fun e => e.partition == partition) = false := by
  simpa using idle

theorem execStoreStatus_answers (served : s.paused = false) (starts : Starts s h 0x0056 anyRole s1 b) :
    exec (.storeStatus h) s = .next (s1.finish b.slice h 0 0 (s1.partitionStatus 0 ++ s1.partitionStatus 1)) := by
  show execStoreStatus h s = _
  rw [execStoreStatus, managed_of_ownOp _ served starts rfl rfl]

theorem sanitise_parameters {scope mode : Nat} (named : partition ≤ 1) (scopes : scope ≤ 1) (modes : mode ≤ 2)
    (prefixOnly : scope = 1 → partition = 0 ∧ mode ≠ 1) :
    ¬(1 < partition ∨ 1 < scope ∨ 2 < mode ∨ (partition = 1 ∧ scope = 1)) ∧ ¬(mode = 1 ∧ scope = 1) := by
  omega

theorem execSanitise_starts {scope mode sealSeq : Nat} (served : s.paused = false) (starts : Starts s h 0x0057 anyRole s1 b)
    (custodian : b.role = 2) (named : partition ≤ 1) (scopes : scope ≤ 1) (modes : mode ≤ 2)
    (prefixOnly : scope = 1 → partition = 0 ∧ mode ≠ 1) (idle : ∀ e ∈ s1.st.erase, e.partition ≠ partition)
    (clear : partition = 0 → scope = 0 → s1.deadlineCtx = false) (anchor : scope = 1 → ∃ x ∈ s1.led.sealed, x.seq = sealSeq) :
    exec (.sanitise h partition scope mode sealSeq) s = .next (s1.startErase h ⟨partition, false, scope, mode, sealSeq, 0⟩) := by
  have anchored : ¬(scope = 1 ∧ !(s1.led.sealed.any fun x => x.seq == sealSeq)) := by
    rintro ⟨isPrefix, missing⟩
    obtain ⟨x, member, same⟩ := anchor isPrefix
    have found : (s1.led.sealed.any fun x => x.seq == sealSeq) = true := List.any_eq_true.mpr ⟨x, member, beq_iff_eq.mpr same⟩
    rw [found] at missing
    exact Bool.false_ne_true missing
  have loaded : ¬(partition = 0 ∧ scope = 0 ∧ s1.deadlineCtx) := fun ⟨ledger, whole, ctx⟩ =>
    Bool.false_ne_true ((clear ledger whole).symm.trans ctx)
  obtain ⟨parameters, crypto⟩ := sanitise_parameters named scopes modes prefixOnly
  show execSanitise h partition scope mode sealSeq s = _
  rw [execSanitise, managed_of_ownOp _ served starts rfl rfl]
  rw [if_neg (not_not_intro custodian), if_neg parameters, any_partition_of_forall idle, if_neg Bool.false_ne_true, if_neg crypto,
    if_neg loaded, if_neg anchored]

theorem execFormat_starts (served : s.paused = false) (starts : Starts s h 0x0058 anyRole s1 b) (custodian : b.role = 2)
    (named : partition ≤ 1) (idle : ∀ e ∈ s1.st.erase, e.partition ≠ partition)
    (released : partition = 0 → s1.led.allReleased = true) :
    exec (.format h partition) s = .next (s1.startErase h ⟨partition, true, 0, 0, 0, 0⟩) := by
  have clear : ¬(partition = 0 ∧ !s1.led.allReleased) := fun ⟨ledger, kept⟩ => by
    rw [released ledger] at kept
    exact Bool.false_ne_true kept
  show execFormat h partition s = _
  rw [execFormat, managed_of_ownOp _ served starts rfl rfl]
  rw [if_neg (not_not_intro custodian), if_neg (Nat.not_lt.mpr named), any_partition_of_forall idle, if_neg Bool.false_ne_true,
    if_neg clear]

/-- The state in which the progress of an erase has come to `p` thousandths (R388). -/
def State.eraseAt (s : State) (partition : Nat) (e : Erase) (p : Nat) : State :=
  { s with st := { s.st with
    erase := if p = 1000 then s.st.erase.filter fun x => x.partition != partition
      else mapIf (fun x => x.partition == partition) (fun x => { x with progress := p }) s.st.erase
    sanitise := if e.format then s.st.sanitise else p
    format := if e.format then p else s.st.format } }

theorem execEraseUnitDone_goesOn {n : Nat} {e : Erase} (runs : s.st.erase.find? (fun e => e.partition == partition) = some e)
    (before : e.progress < 1000) (below : n < 1000) :
    exec (.eraseUnitDone partition n) s = .next (s.eraseAt partition e (max e.progress n)) := by
  have progress : min 1000 (max e.progress n) = max e.progress n := by omega
  have unfinished : max e.progress n ≠ 1000 := by omega
  show execEraseUnitDone partition n s = _
  simp only [execEraseUnitDone, runs, progress, State.eraseAt, unfinished, ↓reduceIte]

theorem execEraseUnitDone_ends {n : Nat} {e : Erase} (runs : s.st.erase.find? (fun e => e.partition == partition) = some e)
    (full : 1000 ≤ n) :
    let t := (s.eraseAt partition e 1000).eraseEffect e
    exec (.eraseUnitDone partition n) s = .next (t.host.waiting.foldl (State.eraseDone partition) t) := by
  have progress : min 1000 (max e.progress n) = 1000 := by omega
  show execEraseUnitDone partition n s = _
  simp only [execEraseUnitDone, runs, progress, State.eraseAt, ↓reduceIte]

theorem eraseEffect_frame (s : State) (e : Erase) :
    s.eraseEffect e = { s with
      st := { s.st with
        blocks := (s.eraseEffect e).st.blocks, free := (s.eraseEffect e).st.free, media := (s.eraseEffect e).st.media }
      led := (s.eraseEffect e).led, tables := (s.eraseEffect e).tables } := by
  unfold State.eraseEffect
  split <;> rfl

theorem eraseEffect_store (e : Erase) (store : e.partition ≠ 0) :
    (s.eraseEffect e).st.blocks = [] ∧ (s.eraseEffect e).st.free = s.st.capacity := by
  rw [State.eraseEffect, if_neg store]
  exact ⟨rfl, rfl⟩

/-- An erase that ends goes from the list and its progress is 1,000 (R388); one of the table store leaves no block. -/
theorem eraseEnd_spec {e : Erase} (runs : s.st.erase.find? (fun e => e.partition == partition) = some e) :
    let t := (s.eraseAt partition e 1000).eraseEffect e
    (∀ x ∈ t.st.erase, x.partition ≠ partition) ∧ (if e.format then t.st.format else t.st.sanitise) = 1000 ∧
      (partition ≠ 0 → t.st.blocks = [] ∧ t.st.free = s.st.capacity) ∧
      t = { s with st := t.st, led := t.led, tables := t.tables } := by
  intro t
  have here : e.partition = partition := beq_iff_eq.mp (List.find?_some (p := fun e : Erase => e.partition == partition) runs)
  have frame := eraseEffect_frame (s.eraseAt partition e 1000) e
  have left : t.st.erase = s.st.erase.filter fun x => x.partition != partition := by
    rw [show t.st.erase = (s.eraseAt partition e 1000).st.erase from congrArg (·.st.erase) frame]
    rfl
  refine ⟨fun x hx => ?_, ?_, fun store => eraseEffect_store e (here ▸ store), ?_⟩
  · rw [left] at hx
    exact bne_iff_ne.mp (List.mem_filter.mp hx).2
  · rw [show t.st.format = (s.eraseAt partition e 1000).st.format from congrArg (·.st.format) frame,
      show t.st.sanitise = (s.eraseAt partition e 1000).st.sanitise from congrArg (·.st.sanitise) frame]
    cases formats : e.format <;> simp [State.eraseAt, formats]
  · unfold t
    rw [frame]
    rfl

end

theorem execNandPageRefresh_refreshes (page errors : Nat) (s : State) :
    exec (.nandPageRefresh page errors) s = .next { s with st := { s.st with
      refreshed := tset page s.now s.st.refreshed, wear := s.st.wear + (if Config.nandLimit ≤ errors then 1 else 0) } } := rfl

/-- Settles O40, a command or an event at a time. -/
theorem partitionsAreErasedAndRefreshed : Obligations.PartitionsAreErasedAndRefreshed := by
  unfold Obligations.PartitionsAreErasedAndRefreshed
  refine ⟨?_, ?_, ?_, ?_, ?_, ?_⟩
  · intro h s s1 b served starts
    exact .of_exec (execStoreStatus_answers served starts) rfl
  · intro h partition scope mode sealSeq s s1 b served starts custodian named scopes modes prefixOnly idle clear anchor
    exact .of_exec
      (execSanitise_starts served starts custodian named scopes modes prefixOnly idle clear anchor) rfl
  · intro h partition s s1 b served starts custodian named idle released
    exact .of_exec (execFormat_starts served starts custodian named idle released) rfl
  · intro partition n e s runs before below
    have unfinished : max e.progress n ≠ 1000 := by omega
    refine .of_exec (execEraseUnitDone_goesOn runs before below) ?_
    rw [State.eraseAt, if_neg unfinished]
  · intro partition n e s runs full
    exact .of_exec (execEraseUnitDone_ends runs full) ⟨_, rfl, eraseEnd_spec runs⟩
  · intro page errors s
    exact .of_exec (execNandPageRefresh_refreshes page errors s)
      ⟨tget_tset_self .., fun p other => tget_tset_ne other .., rfl, rfl⟩

end Sys2Proof.Machine
end

section
/-! Slices and tenants (R396, R399-R404, R410): creation, raises of a generation and their end, bindings, state spaces. -/

namespace Sys2Proof.Machine

/-! ### Slices by number -/

section
variable {s t : State} {n : Nat}

theorem sliceOf_congr (h : t.slices = s.slices) (m : Nat) : t.sliceOf m = s.sliceOf m := by
  rw [State.sliceOf, h, State.sliceOf]

theorem genOf_congr (h : t.slices = s.slices) (m : Nat) : t.genOf m = s.genOf m := congrArg SliceSt.gen (sliceOf_congr h m)

theorem sliceOf_updSlice_self (s : State) (n : Nat) (f : SliceSt → SliceSt) : (s.updSlice n f).sliceOf n = f (s.sliceOf n) :=
  tgetD_tset_self ..

theorem genOf_updSlice (f : SliceSt → SliceSt) (kept : (f (s.sliceOf n)).gen = s.genOf n) (m : Nat) :
    (s.updSlice n f).genOf m = s.genOf m := by
  by_cases same : m = n
  · rw [same, State.genOf, sliceOf_updSlice_self, kept]
  · exact congrArg SliceSt.gen (tgetD_tset_ne same ..)

theorem finish_frame (s : State) (sl : Nat) (h : CmdHdr) (status detail : Nat) (result : List Byte) :
    s.finish sl h status detail result = { s with host := (s.finish sl h status detail result).host } := by
  unfold State.finish
  split <;> rfl

end

/-! ### What meets the outcomes of R402 leaves every slice's row -/

theorem endFirings_slices (s : State) (w : WorkRef) : (s.endFirings w).slices = s.slices := (endFirings_onlyDrops s w).2.1

theorem retire_slices (s : State) (seq : Nat) : (s.retire seq).slices = s.slices := (retire_leaves s seq).2.1

theorem discardItem_slices (s : State) (seq : Nat) : (s.discardItem seq).slices = s.slices := by
  unfold State.discardItem
  split
  · rfl
  · exact endFirings_slices ..

theorem endAnswered_slices (s : State) (seq : Nat) : (s.endAnswered seq).slices = s.slices :=
  (retire_slices ..).trans (endFirings_slices ..)

theorem discardRun_slices (s : State) (num : Nat) : (s.discardRun num).slices = s.slices := by
  unfold State.discardRun
  split
  · rfl
  · exact endFirings_slices ..

theorem hodRetire_slices (s : State) (sl : Nat) : (s.hodRetire sl).slices = s.slices := by
  refine foldl_keeps State.slices _ (fun t e => ?_) _ s
  rw [hodRecord_frame]
  rfl

theorem retireSlice_slices (s : State) (sl : Nat) : (s.retireSlice sl).slices = s.slices := by
  unfold State.retireSlice
  dsimp only
  generalize hu : State.hodRetire _ sl = u
  have kept : u.slices = s.slices := by
    rw [← hu, hodRetire_slices, foldl_keeps State.slices _ discardRun_slices, foldl_keeps State.slices _ endAnswered_slices,
      foldl_keeps State.slices _ discardItem_slices]
  exact kept

theorem invalidate_slices (s : State) (b : Nat) (i : Inval) : (s.invalidate b i).slices = s.slices := rfl

theorem forgetTag_slices (s : State) (sl gen : Nat) : (s.forgetTag sl gen).slices = s.slices := by
  unfold State.forgetTag
  generalize List.range 17 = bays
  exact foldl_keeps State.slices _ (fun t b => invalidate_slices t b _) bays s

/-! ### Raises of a generation (R400, R401) -/

section
variable {s : State} {sl : Nat} {r : Raise}

theorem tryRaise_waits (resets : (s.sliceOf sl).resetting = some r) (tagged : s.untagged sl ((s.genOf sl + 1) % 4096) = false) :
    s.tryRaise sl = s := by
  rw [State.tryRaise, resets]
  simp only [tagged, Bool.not_false, or_true, ↓reduceIte]

theorem tryRaise_raises (resets : (s.sliceOf sl).resetting = some r) (lower : r.raised = false)
    (untagged : s.untagged sl ((s.genOf sl + 1) % 4096) = true) :
    (s.tryRaise sl).sliceOf sl =
      { s.sliceOf sl with gen := (s.genOf sl + 1) % 4096, resetting := some { r with raised := true } } := by
  rw [State.tryRaise, resets]
  simp only [lower, untagged, Bool.not_true, Bool.false_eq_true, or_self, ↓reduceIte]
  rw [sliceOf_updSlice_self, sliceOf_congr ((retireSlice_slices ..).trans (forgetTag_slices ..))]

/-- A raise that starts waits for what is tagged with the next generation, and otherwise raises the slice at once. -/
theorem startRaise_spec (s : State) (sl : Nat) (h : CmdHdr) (home : Nat) (remove : Bool) :
    let u := s.updSlice sl fun x => { x with state := if remove then 3 else 2, resetting := some ⟨h, home, remove, false⟩ }
    let v := (s.genOf sl + 1) % 4096
    let t := s.startRaise sl ⟨h, home, remove, false⟩
    (u.untagged sl v = false → t = u) ∧
      (u.untagged sl v = true → t.genOf sl = v ∧ (t.sliceOf sl).resetting = some ⟨h, home, remove, true⟩ ∧
        (t.sliceOf sl).state = (if remove then 3 else 2)) := by
  intro u v t
  have row : u.sliceOf sl = _ := sliceOf_updSlice_self ..
  have resets : (u.sliceOf sl).resetting = some ⟨h, home, remove, false⟩ := congrArg SliceSt.resetting row
  have gen : u.genOf sl = s.genOf sl := genOf_updSlice _ rfl sl
  refine ⟨fun tagged => tryRaise_waits resets (gen ▸ tagged), fun untagged => ?_⟩
  have raised : t.sliceOf sl = _ := tryRaise_raises resets rfl (gen ▸ untagged)
  rw [State.genOf, raised, row, gen]
  exact ⟨rfl, rfl, rfl⟩

end

theorem bindCheck_passes {s1 : State} {pid slice role : Nat} (free : s1.bindingOf pid = none)
    (room : s1.bindings.length < 16384) (positive : 0 < pid) (pidBound : pid < 2 ^ 20)
    (bound : slice < 1024) (running : (s1.sliceOf slice).state = 1)
    (fits : (role = 0 ∧ slice ≠ 0) ∨ ((role = 1 ∨ role = 2) ∧ slice = 0)) : s1.bindCheck pid slice role = 0 := by
  have sound : ¬(2 < role ∨ (role = 0 ∧ slice = 0) ∨ (role ≠ 0 ∧ slice ≠ 0) ∨ pid = 0 ∨ 2 ^ 20 ≤ pid ∨ 1024 ≤ slice
      ∨ (s1.sliceOf slice).state ≠ 1) := by omega
  simp only [State.bindCheck, free, Option.isSome_none, Bool.false_eq_true, Nat.not_le.mpr room, sound, ↓reduceIte]

section
variable {h : CmdHdr} {slice : Nat} {s s1 : State} {b : Binding} (served : s.paused = false)
include served

theorem execSliceReset_raises (starts : Starts s h 0x0061 operatorRole s1 b) : exec (.sliceReset h slice) s =
    .next (if s1.oneByOne h 0x0061 b then s1.takeTurn (.sliceReset h slice) h 0x0061 b
      else if 1024 ≤ slice then s1.fail b.slice h 0x0907
      else if (s1.sliceOf slice).state ≠ 1 then s1.fail b.slice h 0x0905
      else s1.startRaise slice ⟨h, b.slice, false, false⟩) := by
  show execSliceReset h slice s = _
  rw [execSliceReset, managed_of_single _ served starts rfl]

theorem execSliceRemove_raises (starts : Starts s h 0x0062 operatorRole s1 b) : exec (.sliceRemove h slice) s =
    .next (if s1.oneByOne h 0x0062 b then s1.takeTurn (.sliceRemove h slice) h 0x0062 b
      else if slice = 0 ∨ 1024 ≤ slice then s1.fail b.slice h 0x0907
      else if (s1.sliceOf slice).state ≠ 1 then s1.fail b.slice h 0x0905
      else s1.startRaise slice ⟨h, b.slice, true, false⟩) := by
  show execSliceRemove h slice s = _
  rw [execSliceRemove, managed_of_single _ served starts rfl]

theorem execQueueReset_raises {qid : Nat} {q : Queue} (starts : Starts s h 0x0004 anyRole s1 b)
    (alone : s1.oneByOne h 0x0004 b = false) (queue : s1.queueOf b.slice qid = some q) :
    exec (.queueReset h qid) s = .next (s1.startRaise b.slice ⟨h, b.slice, false, false⟩) := by
  show execQueueReset h qid s = _
  rw [execQueueReset, managed_of_single _ served starts rfl, alone]
  simp only [queue, Option.isNone_some, Bool.false_eq_true, ↓reduceIte]

/-! ### Creation, bindings and state spaces (R396, R399, R410) -/

theorem execSliceCreate_creates {levels : Nat} (starts : Starts s h 0x0060 operatorRole s1 b) (positive : 0 < slice)
    (bound : slice < 1024) (absent : (s1.sliceOf slice).state = 0) (least : 3 ≤ levels) (most : levels ≤ 5) :
    let gen := (s1.genOf slice + 1) % 4096
    exec (.sliceCreate h slice levels) s = .next (State.fanOut s1 (.sliceCreate h slice levels) h 0x0060 b
      (State.finish { s1.forgetTag slice gen with
        slices := tset slice ⟨1, gen, levels, slice * 4096, none, 0, none⟩ s1.slices } b.slice h 0 0 [])) := by
  intro gen
  have number : ¬(slice = 0 ∨ 1024 ≤ slice) := by omega
  have depth : ¬(levels < 3 ∨ 5 < levels) := by omega
  show execSliceCreate h slice levels s = _
  rw [execSliceCreate, managed_of_starts _ served starts rfl, if_neg number, if_neg (not_not_intro absent), if_neg depth]
  rfl

theorem execSliceBind_binds {pid role : Nat} (starts : Starts s h 0x0063 custodianRole s1 b)
    (passes : s1.bindCheck pid slice role = 0) :
    exec (.sliceBind h pid slice role) s = .next (State.fanOut s1 (.sliceBind h pid slice role) h 0x0063 b
      (State.finish { s1 with bindings := s1.bindings ++ [⟨pid, slice, role⟩] } b.slice h 0 0 [])) := by
  show execSliceBind h pid slice role s = _
  rw [execSliceBind, managed_of_starts _ served starts rfl]
  simp only [passes, ne_eq, not_true_eq_false, ↓reduceIte]
  rfl

theorem execSliceUnbind_unbinds {pid : Nat} {x : Binding} (starts : Starts s h 0x0064 custodianRole s1 b)
    (bound : s1.bindingOf pid = some x) (spare : x.role ≠ 2 ∨ (s1.bindings.filter fun y => y.role == 2).length ≠ 1) :
    exec (.sliceUnbind h pid) s = .next (State.fanOut s1 (.sliceUnbind h pid) h 0x0064 b
      (State.finish { s1 with bindings := s1.bindings.filter fun y => y.pid != pid } b.slice h 0 0 [])) := by
  have other : ¬(x.role = 2 ∧ (s1.bindings.filter fun y => y.role == 2).length = 1) := by omega
  show execSliceUnbind h pid s = _
  rw [execSliceUnbind, managed_of_starts _ served starts rfl, bound]
  simp only [other, ↓reduceIte]
  rfl

theorem execStateClear_clears {space : Nat} (starts : Starts s h 0x0065 tenantRole s1 b) (bound : space < 4096)
    (unnamed : (s1.ctxs.any fun c => c.slice == b.slice && c.image.namesSpace space) = false) :
    exec (.stateClear h space) s = .next (State.fanOut s1 (.stateClear h space) h 0x0065 b
      (State.finish { s1 with flowState := s1.flowState.filter fun f => !(f.slice == b.slice && f.space == space) }
        b.slice h 0 0 [])) := by
  show execStateClear h space s = _
  rw [execStateClear, managed_of_starts _ served starts rfl, if_neg (Nat.not_le.mpr bound), if_neg (Bool.eq_false_iff.mp unnamed)]
  rfl

end

/-! ### The end of a reset or removal (R403, R404) -/

section
variable {s : State} {slice : Nat} {r : Raise}

theorem execSliceResetDrained_resets (resets : (s.sliceOf slice).resetting = some r) (raised : r.raised = true)
    (reset : r.remove = false) (drained : s.drained slice = true) (posts : r.home = slice ∨ r.h.gen = s.genOf r.home) :
    exec (.sliceResetDrained slice) s =
      .next ((s.updSlice slice fun x => { x with state := 1, resetting := none }).postAs r.home r.h (s.genOf slice) 0 0 []) := by
  have gen (m : Nat) : (s.updSlice slice fun x => { x with state := 1, resetting := none }).genOf m = s.genOf m :=
    genOf_updSlice _ rfl m
  show execSliceResetDrained slice s = _
  simp only [execSliceResetDrained, resets, raised, reset, drained, gen, posts, Bool.not_true, Bool.false_eq_true, false_and, or_self,
    ↓reduceIte]

theorem execSliceResetDrained_removes (resets : (s.sliceOf slice).resetting = some r) (raised : r.raised = true)
    (remove : r.remove = true) (drained : s.drained slice = true) (removable : s.removable slice = true) :
    exec (.sliceResetDrained slice) s = .next ((s.removeSlice slice).done r.home r.h) := by
  show execSliceResetDrained slice s = _
  simp only [execSliceResetDrained, resets, raised, remove, drained, removable, Bool.not_true, Bool.false_eq_true, and_false, or_self,
    ↓reduceIte]

/-- What a removal clears of a slice, and the rows of the slices themselves. -/
structure Holdings where
  slices : List (Nat × SliceSt)
  bindings : List Binding
  tables : List Table
  flowState : List FlowState
  ksTables : List KsTab

def State.holdings (s : State) : Holdings := ⟨s.slices, s.bindings, s.tables, s.flowState, s.ks.tables⟩

theorem zeroFrames_holdings (s : State) (fs : List (Nat × Nat)) : (s.zeroFrames fs).holdings = s.holdings := by
  have moves : s.PoolsMove (fs.foldl (fun (t : State) f => t.invalidateRange (f.1 * 4096) (f.2 * 4096)) s) :=
    foldl_poolsMove _ (fun _ _ => invalidateRange_poolsMove ..) ..
  exact (congrArg State.holdings moves.1).trans rfl

theorem removeSlice_holdings (s : State) (sl : Nat) : ∃ tabs : List KsTab, (s.removeSlice sl).holdings =
    ⟨tset sl { sliceAbsent with gen := s.genOf sl } s.slices, s.bindings.filter fun b => b.slice != sl,
      s.tables.filter fun t => t.slice != sl, s.flowState.filter fun f => f.slice != sl, tabs.filter fun t => t.slice != sl⟩ := by
  refine ⟨(State.trimAdmission { s with ctxs := s.ctxs.filter fun c => c.slice != sl }).ks.tables, ?_⟩
  unfold State.removeSlice
  dsimp only
  generalize hu : (if (s.sliceOf sl).levels = 0 then _ else _ : State) = u
  have kept : u.holdings = ⟨s.slices, s.bindings.filter fun b => b.slice != sl, s.tables.filter fun t => t.slice != sl,
      s.flowState.filter fun f => f.slice != sl,
      (State.trimAdmission { s with ctxs := s.ctxs.filter fun c => c.slice != sl }).ks.tables.filter fun t => t.slice != sl⟩ := by
    rw [← hu]
    split
    · rfl
    · exact zeroFrames_holdings ..
  exact congrArg (fun g : Holdings => { g with slices := tset sl { sliceAbsent with gen := s.genOf sl } g.slices }) kept

theorem ne_of_mem_filter {α : Type} {l m : List α} {f : α → Nat} {n : Nat} (e : l = m.filter fun x => f x != n) :
    ∀ x ∈ l, f x ≠ n := by
  rw [e]
  exact fun x member => bne_iff_ne.mp (List.mem_filter.mp member).2

/-- A removed slice is absent, keeps its generation, and holds nothing of what R404 clears. -/
theorem removeSlice_spec (s : State) (sl home : Nat) (h : CmdHdr) :
    let t := (s.removeSlice sl).done home h
    (t.sliceOf sl).state = 0 ∧ t.genOf sl = s.genOf sl ∧ (∀ x ∈ t.bindings, x.slice ≠ sl) ∧ (∀ x ∈ t.tables, x.slice ≠ sl) ∧
      (∀ x ∈ t.flowState, x.slice ≠ sl) ∧ (∀ x ∈ t.ks.tables, x.slice ≠ sl) := by
  intro t
  obtain ⟨tabs, removed⟩ := removeSlice_holdings s sl
  have held : t.holdings = _ := (congrArg State.holdings (finish_frame ..)).trans removed
  have rows : t.sliceOf sl = { sliceAbsent with gen := s.genOf sl } := by
    rw [State.sliceOf, show t.slices = _ from congrArg Holdings.slices held, tgetD_tset_self]
  exact ⟨congrArg SliceSt.state rows, (congrArg SliceSt.gen rows).trans rfl, ne_of_mem_filter (congrArg Holdings.bindings held),
    ne_of_mem_filter (congrArg Holdings.tables held), ne_of_mem_filter (congrArg Holdings.flowState held),
    ne_of_mem_filter (congrArg Holdings.ksTables held)⟩

end

/-- Settles O48. How a group carries the commands out rests on assumption 99 (DESIGN CHOICE), the root page on assumption 19
(DESIGN CHOICE) and a reset of slice 0 on assumption 87 (DEDUCED). -/
theorem sliceCommandsComplete : Obligations.SliceCommandsComplete := by
  unfold Obligations.SliceCommandsComplete
  refine ⟨?_, ?_, ?_, ?_, ?_, ?_, ?_, ?_⟩
  · intro h slice levels s s1 b served starts positive bound absent least most
    exact .of_exec (execSliceCreate_creates served starts positive bound absent least most) rfl
  · intro e listed h slice s s1 b served starts
    simp only [List.mem_cons, List.not_mem_nil, or_false] at listed
    obtain rfl | rfl := listed
    · refine ⟨fun turn => .of_exec (execSliceReset_raises served starts) (if_pos turn), fun alone _ bound running => ?_⟩
      refine .of_exec (execSliceReset_raises served starts) ?_
      rw [alone, if_neg Bool.false_ne_true, if_neg (Nat.not_le.mpr bound), if_neg (not_not_intro running)]
      exact startRaise_spec s1 slice h b.slice false
    · refine ⟨fun turn => .of_exec (execSliceRemove_raises served starts) (if_pos turn), fun alone positive bound running => ?_⟩
      have number : ¬(slice = 0 ∨ 1024 ≤ slice) := not_or.mpr ⟨(positive rfl).ne', Nat.not_le.mpr bound⟩
      refine .of_exec (execSliceRemove_raises served starts) ?_
      rw [alone, if_neg Bool.false_ne_true, if_neg number, if_neg (not_not_intro running)]
      exact startRaise_spec s1 slice h b.slice true
  · intro h qid q s s1 b served starts alone queue
    exact .of_exec (execQueueReset_raises served starts alone queue) (startRaise_spec s1 b.slice h b.slice false)
  · intro slice r s resets raised reset drained posts
    exact .of_exec (execSliceResetDrained_resets resets raised reset drained posts) rfl
  · intro slice r s resets raised remove drained removable
    exact .of_exec (execSliceResetDrained_removes resets raised remove drained removable) (removeSlice_spec s slice r.home r.h)
  · intro h pid slice role s s1 b served starts free room positive pidBound bound running fits
    exact .of_exec (execSliceBind_binds served starts (bindCheck_passes free room positive pidBound bound running fits)) rfl
  · intro h pid x s s1 b served starts bound spare
    exact .of_exec (execSliceUnbind_unbinds served starts bound spare) rfl
  · intro h space s s1 b served starts bound unnamed
    exact .of_exec (execStateClear_clears served starts bound unnamed) rfl

end Sys2Proof.Machine
end

section
/-! The Gyine link (R421-R424, R515): flits that leave and flits that come. -/

namespace Sys2Proof.Machine

/-! ### Ports by number -/

section
variable {s t : State} {p : Nat}

theorem portOf_updPort_self (s : State) (p : Nat) (f : Port → Port) : (s.updPort p f).portOf p = f (s.portOf p) :=
  tgetD_tset_self ..

theorem portOf_updPort_ne {q : Nat} (other : q ≠ p) (s : State) (f : Port → Port) : (s.updPort p f).portOf q = s.portOf q :=
  tgetD_tset_ne other ..

theorem portOf_congr (h : t.ports = s.ports) (q : Nat) : t.portOf q = s.portOf q := by
  rw [State.portOf, h, State.portOf]

/-- What a change of a port does depends on what it makes of that port alone. -/
theorem updPort_congr {f g : Port → Port} (h : f (s.portOf p) = g (s.portOf p)) : s.updPort p f = s.updPort p g := by
  simp only [State.updPort, tupd]
  rw [show f (tgetD p portReset s.ports) = g (tgetD p portReset s.ports) from h]

theorem updPort_frame (s : State) (p : Nat) (f : Port → Port) : s.updPort p f = { s with ports := (s.updPort p f).ports } := rfl

end

/-! ### Flits that leave (R421, R422, R424) -/

/-- A flit without a payload leaves the numbers of its port as they are. -/
theorem portOf_sendPlain (s : State) (p type : Nat) :
    (s.sendPlain p type).portOf p =
      { s.portOf p with
        toReturn := ((s.sendPlain p type).portOf p).toReturn, lastTx := s.now
        out := (s.portOf p).out ++ [flitBytes (s.hdrOf (s.portOf p) type) []] } := by
  rw [show (s.sendPlain p type).portOf p = _ from portOf_updPort_self ..]
  rfl

section
variable {s : State} {port : Nat} (named : port < 8)
include named

theorem execFlitSend_sends (up : (s.portOf port).up = true) (wakes : s.power.hubAsleep = false) (thawed : s.power.frozen = false) :
    exec (.flitSend port) s = .next ((
      if (s.portOf port).state = 4 ∧ (s.portOf port).role = 1 ∧ tgetD 1 [] (s.portOf port).txq = [] then s.pullOutput port
      else if (s.portOf port).state = 4 ∧ (s.portOf port).role = 2 ∧ (∀ e ∈ (s.portOf port).txq, e.2 = []) then s.pullMember port
      else s).sendNext port) := by
  show execFlitSend port s = _
  simp only [execFlitSend, Nat.not_le.mpr named, up, wakes, thawed, Bool.not_true, Bool.false_eq_true, or_self, ↓reduceIte,
    List.isEmpty_iff, List.all_eq_true]

theorem execIdleKeepaliveSend_sends (up : (s.portOf port).up = true) (quiet : (s.portOf port).lastTx + 25 ≤ s.now) :
    exec (.idleKeepaliveSend port) s = .next (s.sendPlain port 1) := by
  show execIdleKeepaliveSend port s = _
  simp only [execIdleKeepaliveSend, Nat.not_le.mpr named, up, Nat.not_lt.mpr quiet, Bool.not_true, Bool.false_eq_true, or_self,
    ↓reduceIte]

theorem execRetryReqResend_sends {a : Tick} (up : (s.portOf port).up = true) (asked : (s.portOf port).retrySent = some a)
    (late : a + 25 ≤ s.now) :
    exec (.retryReqResend port) s = .next ((s.sendPlain port 2).updPort port fun y => { y with retrySent := some s.now }) := by
  show execRetryReqResend port s = _
  have due : ((s.portOf port).retrySent.any fun t => decide (t + 25 ≤ s.now)) = true := by
    rw [asked]
    exact decide_eq_true late
  rw [execRetryReqResend, if_pos ⟨named, up, due⟩]

end

/-! ### Flits that come (R422-R424, R515) -/

theorem acked_frame (x : Port) (n : Nat) : x.acked n = { x with replay := (x.acked n).replay, resend := (x.acked n).resend } := by
  unfold Port.acked
  split <;> rfl

section
variable {s : State} {port : Nat} {flit : List Byte} {h : FlitHdr}

theorem heardStop_of_hub (running : h.hub = true) (s : State) (p : Nat) : s.heardStop p h = s := by
  simp only [State.heardStop, FlitHdr.stopped, running, Bool.not_true, Bool.false_and, Bool.false_eq_true, ↓reduceIte]

section
variable (hears : s.hears port = true)
include hears

theorem execFlitReceivePayload_takes (thawed : s.power.frozen = false) (wakes : s.power.hubAsleep = false)
    (taken : (s.portOf port).heldFlits = []) (read : readFlit flit = some h) (payload : h.type = 0) (running : h.hub = true) :
    exec (.flitReceivePayload port flit) s = .next (s.takePayloadFlit port h flit) := by
  show execFlitReceivePayload port flit s = _
  simp only [execFlitReceivePayload, State.payloadIn, hears, thawed, wakes, taken, read, payload, heardStop_of_hub running,
    List.isEmpty_nil, Bool.not_true, Bool.false_eq_true, or_self, ↓reduceIte]

theorem execFlitReceivePayload_holds (thawed : s.power.frozen = false) (sleeps : s.power.hubAsleep = true) :
    exec (.flitReceivePayload port flit) s = .next (s.updPort port fun x => { x with heldFlits := x.heldFlits ++ [flit] }) := by
  show execFlitReceivePayload port flit s = _
  simp only [execFlitReceivePayload, hears, thawed, sleeps, Bool.not_true, Bool.false_eq_true, or_self, true_or, ↓reduceIte]

theorem execIdleFlitReceive_hears (read : readFlit flit = some h) (idle : h.type = 1) (running : h.hub = true) :
    exec (.idleFlitReceive port flit) s = .next (s.updPort port fun x => x.heard h) := by
  show execIdleFlitReceive port flit s = _
  simp only [execIdleFlitReceive, hears, read, idle, heardStop_of_hub running, Bool.not_true, Bool.false_eq_true, ↓reduceIte]

theorem execRetryReqReceive_resends (read : readFlit flit = some h) (asks : h.type = 2) (running : h.hub = true) :
    exec (.retryReqReceive port flit) s = .next ((s.updPort port fun x => x.heard h).retryAsked port h) := by
  show execRetryReqReceive port flit s = _
  simp only [execRetryReqReceive, hears, read, asks, heardStop_of_hub running, Bool.not_true, Bool.false_eq_true, ↓reduceIte]

end

theorem execInitReceive_ends (named : port < 8) (training : (s.portOf port).state = 1) (read : readFlit flit = some h)
    (init : h.type = 3) :
    exec (.initReceive port flit) s = .next ((s.updPort port fun x =>
      { (if x.retrain.isSome then x.acked h.ack else x) with initSeen := true, goodInInterval := true }).finishTraining port) := by
  show execInitReceive port flit s = _
  simp only [execInitReceive, Nat.not_le.mpr named, training, read, init, ne_eq, not_true_eq_false, or_self, ↓reduceIte]

theorem finishTraining_waits (untrained : (s.portOf port).trained = false) : s.finishTraining port = s := by
  simp only [State.finishTraining, untrained, Bool.not_false, true_or, or_true, ↓reduceIte]

theorem finishTraining_returns {st : Nat} (training : (s.portOf port).state = 1) (trained : (s.portOf port).trained = true)
    (seen : (s.portOf port).initSeen = true) (retrains : (s.portOf port).retrain = some st) :
    s.finishTraining port = s.updPort port fun y => { y with
      state := st, since := s.now, retrain := none, resend := y.replay.map (·.1) } := by
  simp only [State.finishTraining, training, trained, seen, retrains, ne_eq, not_true_eq_false, Bool.not_true, Bool.false_eq_true,
    or_self, ↓reduceIte]

/-- An INIT flit at a port that retrains brings it back to the state it came from (R423). -/
theorem execInitReceive_retrains {st : Nat} (named : port < 8) (training : (s.portOf port).state = 1)
    (trained : (s.portOf port).trained = true) (retrains : (s.portOf port).retrain = some st) (read : readFlit flit = some h)
    (init : h.type = 3) :
    exec (.initReceive port flit) s = .next ((s.updPort port fun x => { x.acked h.ack with
      initSeen := true, goodInInterval := true }).updPort port fun y => { y with
        state := st, since := s.now, retrain := none, resend := y.replay.map (·.1) }) := by
  have heard := updPort_congr (s := s) (p := port)
    (f := fun x => { (if x.retrain.isSome then x.acked h.ack else x) with initSeen := true, goodInInterval := true })
    (g := fun x => { x.acked h.ack with initSeen := true, goodInInterval := true })
    (by simp only [retrains, Option.isSome_some, ↓reduceIte])
  have after : (s.updPort port fun x => { x.acked h.ack with initSeen := true, goodInInterval := true }).portOf port = _ :=
    portOf_updPort_self ..
  rw [acked_frame] at after
  rw [execInitReceive_ends named training read init, heard, finishTraining_returns (st := st)]
  · rfl
  all_goals rw [after]
  · exact training
  · exact trained
  · exact retrains

end

/-- Settles O44, a clause at a time. -/
theorem flitsAreSentAndReceived : Obligations.FlitsAreSentAndReceived := by
  unfold Obligations.FlitsAreSentAndReceived
  refine ⟨?_, ?_, ?_, ?_, ?_, ?_, ?_, ?_, ?_⟩
  · intro port s named up wakes thawed
    exact .of_exec (execFlitSend_sends named up wakes thawed) rfl
  · intro port s named up quiet
    refine .of_exec (execIdleKeepaliveSend_sends named up quiet) ⟨s.hdrOf (s.portOf port) 1, rfl, rfl, rfl, ?_⟩
    rw [portOf_sendPlain]
    exact ⟨rfl, rfl, rfl, fun p other => portOf_updPort_ne other s _, rfl⟩
  · intro port a s named up asked late
    exact .of_exec (execRetryReqResend_sends named up asked late) rfl
  · intro port flit h s hears thawed wakes taken read payload running
    exact .of_exec (execFlitReceivePayload_takes hears thawed wakes taken read payload running) rfl
  · intro port flit s hears thawed sleeps
    exact .of_exec (execFlitReceivePayload_holds hears thawed sleeps) rfl
  · intro port flit h s hears read idle running
    exact .of_exec (execIdleFlitReceive_hears hears read idle running) rfl
  · intro port flit h s hears read asks running
    exact .of_exec (execRetryReqReceive_resends hears read asks running) rfl
  · intro port flit h s named training untrained first read init
    have heard := updPort_congr (s := s) (p := port)
      (f := fun x => { (if x.retrain.isSome then x.acked h.ack else x) with initSeen := true, goodInInterval := true })
      (g := fun x => { x with initSeen := true, goodInInterval := true }) (by simp [first])
    refine .of_exec (execInitReceive_ends named training read init) ?_
    rw [heard]
    exact finishTraining_waits ((congrArg Port.trained (portOf_updPort_self ..)).trans untrained)
  · intro port flit st h s named training trained retrains read init
    refine .of_exec (execInitReceive_retrains named training trained retrains read init) ⟨?_, fun p other => ?_, rfl⟩
    · rw [portOf_updPort_self, portOf_updPort_self]
    · rw [portOf_updPort_ne other, portOf_updPort_ne other]

end Sys2Proof.Machine
end

section
/-! Ports (R417, R423, R424, R426, R427): training, timeouts, lanes, keep-alives and HELLO. -/

namespace Sys2Proof.Machine

/-! ### Training and timeouts (R423, R426) -/

section
variable {s : State} {port : Nat}

theorem mayTrain_of_dark (named : port < 8) (dark : (s.portOf port).state = 0) (free : (s.portOf port).held = false)
    (enabled : s.objNum (0x1110 + port) 5 [] 0 1 = 1) : s.mayTrain port = true := by
  simp [State.mayTrain, named, dark, free, enabled]

theorem execSignalDetect_trains (may : s.mayTrain port = true) : exec (.signalDetect port) s = .next (s.startTraining port) := by
  show execSignalDetect port s = _
  rw [execSignalDetect, if_pos may]

theorem execPortTrainingRetry_trains (may : s.mayTrain port = true) (late : (s.portOf port).since + 25000000 ≤ s.now) :
    exec (.portTrainingRetry port) s = .next (s.startTraining port) := by
  show execPortTrainingRetry port s = _
  rw [execPortTrainingRetry, if_pos ⟨may, late⟩]

/-- The link of a port that trains is new: numbers from 0 and the credits of INIT (R420, R422). -/
theorem startTraining_spec (s : State) (port : Nat) :
    let t := s.startTraining port
    (t.portOf port).state = 1 ∧ (t.portOf port).since = s.now ∧ (t.portOf port).txSeq = 0 ∧ (t.portOf port).rxExp = 0 ∧
      (t.portOf port).credits = initCredits ∧ (∀ p, p ≠ port → t.portOf p = s.portOf p) ∧ t = { s with ports := t.ports } := by
  intro t
  have fresh : t.portOf port = _ := portOf_updPort_self ..
  rw [fresh]
  exact ⟨rfl, rfl, rfl, rfl, rfl, fun p other => portOf_updPort_ne other s _, rfl⟩

theorem execPortTrained_sendsInit (named : port < 8) (training : (s.portOf port).state = 1)
    (untrained : (s.portOf port).trained = false) (unseen : (s.portOf port).initSeen = false) :
    exec (.portTrained port) s =
      .next ((s.updPort port fun x => { x with trained := true, lanes := [0, 1, 2, 3], faulty := [] }).sendPlain port 3) := by
  show execPortTrained port s = _
  simp only [execPortTrained, Nat.not_le.mpr named, training, untrained, ne_eq, not_true_eq_false, Bool.false_eq_true, or_self,
    ↓reduceIte]
  refine congrArg _ (if_pos (.inr (.inr ?_)))
  rw [portOf_sendPlain, portOf_updPort_self, unseen]
  rfl

/-- A port that goes DARK keeps nothing of its link. -/
theorem darken_spec (s : State) (port : Nat) (held : Bool) :
    let t := s.darken port held
    (t.portOf port).state = 0 ∧ (t.portOf port).held = held ∧ (t.portOf port).since = s.now ∧
      (∀ p, p ≠ port → t.portOf p = s.portOf p) ∧ t = { s with ports := t.ports } := by
  intro t
  have dark : t.portOf port = _ := portOf_updPort_self ..
  rw [dark]
  exact ⟨rfl, rfl, rfl, fun p other => portOf_updPort_ne other s _, rfl⟩

/-- The states a port leaves at a timeout, with their ticks and whether the port is held (R426). -/
def stateTimeouts : List (Nat × Nat × Bool) := [(1, 12500000, false), (2, 250000, false), (3, 2500000, true)]

theorem execPortStateTimeout_darkens {e : Nat × Nat × Bool} (listed : e ∈ stateTimeouts) (named : port < 8)
    (state : (s.portOf port).state = e.1) (first : (s.portOf port).retrain = none) (unattested : (s.portOf port).attested = false)
    (late : (s.portOf port).since + e.2.1 ≤ s.now) : exec (.portStateTimeout port) s = .next (s.darken port e.2.2) := by
  show execPortStateTimeout port s = _
  simp only [stateTimeouts, List.mem_cons, List.not_mem_nil, or_false] at listed
  obtain rfl | rfl | rfl := listed <;>
    simp only [execPortStateTimeout, Nat.not_le.mpr named, state, first, unattested, late, Option.isSome_none, Bool.not_false,
      Bool.false_eq_true, and_false, and_true, OfNat.ofNat_ne_one, Nat.reduceEqDiff, ↓reduceIte]

theorem execPortStateTimeout_retrains {st : Nat} (named : port < 8) (training : (s.portOf port).state = 1)
    (retrains : (s.portOf port).retrain = some st) (late : (s.portOf port).since + 500 ≤ s.now) :
    exec (.portStateTimeout port) s = .next (s.portDown port) := by
  show execPortStateTimeout port s = _
  simp only [execPortStateTimeout, Nat.not_le.mpr named, training, retrains, late, Option.isSome_some, and_self, ↓reduceIte]

/-! ### Lanes (R417) -/

theorem not_mem_lanesFor {faulty : List Nat} {lane : Nat} (bad : lane ∈ faulty) : lane ∉ lanesFor faulty := by
  have unfit : (!(faulty.contains lane)) = false := by simp [bad]
  unfold lanesFor
  dsimp only
  split
  case isTrue good =>
    intro member
    simp only [List.mem_cons, List.not_mem_nil, or_false] at member
    obtain rfl | rfl := member
    · exact Bool.false_ne_true (unfit.symm.trans good.1)
    · exact Bool.false_ne_true (unfit.symm.trans good.2)
  case isFalse =>
    split
    case isTrue good =>
      intro member
      simp only [List.mem_cons, List.not_mem_nil, or_false] at member
      obtain rfl | rfl := member
      · exact Bool.false_ne_true (unfit.symm.trans good.1)
      · exact Bool.false_ne_true (unfit.symm.trans good.2)
    case isFalse =>
      intro member
      have found := List.find?_some (Option.mem_toList.mp member)
      exact Bool.false_ne_true (unfit.symm.trans found)

theorem execLaneFault_moves {lane : Nat} (named : port < 8) (up : (s.portOf port).up = true) (used : lane ∈ (s.portOf port).lanes)
    (left : lanesFor ((s.portOf port).faulty ++ [lane]) ≠ []) :
    exec (.laneFault port lane) s = .next (((s.updPort port fun y => { y with
      lanes := lanesFor ((s.portOf port).faulty ++ [lane]), faulty := (s.portOf port).faulty ++ [lane] }).bumpBy (0x1110 + port) 11 []
        0 u32Max 1).recovery 1 0 4 (port + 8 * lane) 0x0691 lane true) := by
  show execLaneFault port lane s = _
  simp [execLaneFault, named, up, used, left]

theorem recovery_ports (s : State) (row ring cls index code detail : Nat) (exposed : Bool) :
    (s.recovery row ring cls index code detail exposed).ports = s.ports := by
  rw [recovery_frame]

/-- The fault of a lane: the port moves off it and is exposed (R417, R497). -/
theorem laneFault_spec (s : State) (port lane : Nat) (faulty : List Nat) :
    let v := s.updPort port fun y => { y with lanes := lanesFor faulty, faulty := faulty }
    let t := (v.bumpBy (0x1110 + port) 11 [] 0 u32Max 1).recovery 1 0 4 (port + 8 * lane) 0x0691 lane true
    (t.portOf port).lanes = lanesFor faulty ∧ t.err.exposed.testBit 1 = true ∧ t.err.lastFault = s.now ∧
      (∀ p, p ≠ port → t.portOf p = s.portOf p) ∧ t = { s with ports := t.ports, objs := t.objs, err := t.err, can := t.can } := by
  intro v t
  have ports (p : Nat) : t.portOf p = v.portOf p := portOf_congr (recovery_ports ..) p
  refine ⟨?_, ?_, recovery_lastFault .., fun p other => (ports p).trans (portOf_updPort_ne other s _), ?_⟩
  · rw [ports, show v.portOf port = _ from portOf_updPort_self ..]
  · rw [recovery_exposed]
    exact testBit_withBit_self ..
  · unfold t
    rw [recovery_frame]
    rfl

/-! ### Keep-alives (R424) -/

theorem execKeepaliveMiss_counts (named : port < 8) (up : (s.portOf port).up = true)
    (late : (s.portOf port).intervalStart + 25 ≤ s.now) :
    exec (.keepaliveMiss port) s = .next (if (s.portOf port).goodInInterval then
        s.updPort port fun y => { y with misses := 0, goodInInterval := false, intervalStart := s.now }
      else if 7 ≤ (s.portOf port).misses then s.portDown port
      else s.updPort port fun y => { y with misses := y.misses + 1, intervalStart := s.now }) := by
  show execKeepaliveMiss port s = _
  simp only [execKeepaliveMiss, Nat.not_le.mpr named, up, Nat.not_lt.mpr late, Bool.not_true, Bool.false_eq_true, or_self, ↓reduceIte]

/-! ### HELLO (R427) -/

theorem execHello_refuses {msg : List Byte} (named : port < 8) (state : (s.portOf port).state = 2) (bad : helloOk msg = false) :
    exec (.hello port msg) s = .next (s.darken port false) := by
  show execHello port msg s = _
  simp only [execHello, Nat.not_le.mpr named, state, bad, ne_eq, not_true_eq_false, or_self, Bool.not_false, ↓reduceIte]

theorem execHello_reads {msg : List Byte} (named : port < 8) (state : (s.portOf port).state = 2) (good : helloOk msg = true)
    (device : beNat (slice msg 2 1) = 0) :
    exec (.hello port msg) s = .next ((s.updPort port fun x => { x with
      state := 3, since := s.now, role := 2, partner := slice msg 4 16, partnerNode := beNat (slice msg 40 1),
      partnerNonce := slice msg 48 48, partnerCaps := beNat (slice msg 36 4)
      partnerPath := ((unpackBytes (slice msg 20 12)).takeWhile fun c => c != 0xFFF).map (·.toNat) }).sendReport port) := by
  show execHello port msg s = _
  simp only [execHello, Nat.not_le.mpr named, state, good, device, ne_eq, not_true_eq_false, or_self, Bool.not_true, Bool.false_eq_true,
    OfNat.ofNat_ne_one, zero_ne_one, false_and, ↓reduceIte]

end

/-- Settles O45, a clause at a time. -/
theorem portsTrainAndFallBack : Obligations.PortsTrainAndFallBack := by
  unfold Obligations.PortsTrainAndFallBack
  refine ⟨?_, ?_, ?_, ?_, ?_, ?_, ?_, ?_⟩
  · intro e listed port s named dark free enabled late
    have may := mayTrain_of_dark named dark free enabled
    simp only [List.mem_cons, List.not_mem_nil, or_false] at listed
    obtain rfl | rfl := listed
    · exact .of_exec (execSignalDetect_trains may) (startTraining_spec s port)
    · exact .of_exec (execPortTrainingRetry_trains may (late rfl)) (startTraining_spec s port)
  · intro port s named training untrained unseen
    exact .of_exec (execPortTrained_sendsInit named training untrained unseen) rfl
  · intro e listed port s named state first unattested late
    exact .of_exec (execPortStateTimeout_darkens listed named state first unattested late) (darken_spec s port e.2.2)
  · intro port st s named training retrains late
    exact .of_exec (execPortStateTimeout_retrains named training retrains late) rfl
  · intro port lane s named up used left
    obtain ⟨lanes, exposed, at_, others, frame⟩ := laneFault_spec s port lane ((s.portOf port).faulty ++ [lane])
    refine .of_exec (execLaneFault_moves named up used left) ⟨lanes, ?_, exposed, at_, others, frame⟩
    rw [lanes]
    exact not_mem_lanesFor (List.mem_append_right _ List.mem_cons_self)
  · intro port s named up late
    refine .of_exec (execKeepaliveMiss_counts named up late) ⟨fun good => ?_, fun bad few => ?_, fun bad eighth => ?_⟩
    · rw [if_pos good]
    · rw [bad, if_neg Bool.false_ne_true, if_neg (Nat.not_le.mpr few)]
    · rw [bad, if_neg Bool.false_ne_true, if_pos eighth]
  · intro port msg s named state good device
    exact .of_exec (execHello_reads named state good device) rfl
  · intro port msg s named state bad
    obtain ⟨dark, free, -, others, frame⟩ := darken_spec s port false
    exact .of_exec (execHello_refuses named state bad) ⟨dark, free, others, frame⟩

end Sys2Proof.Machine
end

section
/-! SUPPORT. What the steps of a join, a leave and a loss leave of the group, its ports, its exposures and the time (R431-R436). -/

namespace Sys2Proof.Machine

structure Membership where
  group : GroupSt
  ports : List (Nat × Port)
  exposed : Nat
  time : TimeSt

def State.membership (s : State) : Membership := ⟨s.group, s.ports, s.err.exposed, s.time⟩

/-! ### Admission again (R189) -/

theorem wakeBay_membership (s : State) (b : Nat) : (s.wakeBay b).membership = s.membership := by
  unfold State.wakeBay
  dsimp only
  split <;> rfl

theorem bindCopies_membership (s : State) : s.bindCopies.membership = s.membership := by
  unfold State.bindCopies
  refine foldl_keeps State.membership _ ?_ _ s
  exact fun _ _ => rfl

theorem State.PoolsMove.membership_eq {s t : State} (h : s.PoolsMove t) : t.membership = s.membership :=
  (congrArg State.membership h.1).trans rfl

theorem applyTried_membership (s : State) (t : Tried) : (s.applyTried t).membership = s.membership := by
  have woken (u : State) (b : Nat) : (if 2 ≤ (u.bayPower b).state then u.wakeBay b else u).membership = u.membership := by
    split
    · exact wakeBay_membership ..
    · rfl
  unfold State.applyTried
  dsimp only
  rw [foldl_keeps State.membership _ woken, bindCopies_membership, (fillPools_poolsMove _).membership_eq]
  rfl

theorem verdictSpent_membership (s : State) : s.verdictSpent.membership = s.membership := by
  unfold State.verdictSpent
  split <;> rfl

theorem noteDemoted_membership (s : State) : s.noteDemoted.membership = s.membership := rfl

theorem rerun_membership (s : State) (why : Cause) : (s.rerun why).membership = s.membership := by
  unfold State.rerun
  dsimp only
  split
  · rfl
  · generalize (if why = .fault then _ else _ : AdmEnv) = lim
    generalize hu : (if why = .group then _ else _ : State) = u
    have spent : u.membership = s.membership := by
      rw [← hu]
      split
      · rw [foldl_keeps State.membership _ fun t _ => noteDemoted_membership t]
        exact verdictSpent_membership s
      · exact verdictSpent_membership s
    split
    · exact spent
    · exact (applyTried_membership ..).trans spent

/-! ### Totals divided again (R406) -/

theorem applyAllot_membership (s : State) (sl sub v : Nat) : (s.applyAllot sl sub v).membership = s.membership := by
  unfold State.applyAllot
  dsimp only
  split <;> split <;> rfl

theorem redivide_membership (s : State) : s.redivide.membership = s.membership :=
  foldl_keeps State.membership _ (fun t _ => applyAllot_membership t ..) _ s

/-! ### A takeover (R50-R52) -/

theorem takeOver_membership (s : State) (x : Mirror) : (s.takeOver x).membership = s.membership := by
  have adopted (a : AnswerOut) : (s.adoptRecord x a).membership = s.membership := by
    unfold State.adoptRecord
    split <;> rfl
  unfold State.takeOver
  split
  case h_1 a _ =>
    dsimp only
    split
    · exact adopted a
    · exact adopted a
  case h_2 => rfl

end Sys2Proof.Machine
end

section
/-! Time exchanges on a port (R437, R438). -/

namespace Sys2Proof.Machine

/-! ### Messages of one flit (R444) -/

theorem capsuleFlits_of_short {b : List Byte} (short : b.length ≤ 238) (vc dest : Nat) :
    capsuleFlits vc dest b = [⟨vc, true, true, dest, capsuleImage b⟩] := by
  have image : (capsuleImage b).length ≤ 240 := by
    rw [capsuleImage, List.length_append, List.length_replicate]
    omega
  rw [capsuleFlits, flitsOf, if_pos image]

theorem syncBytes_length (type seq t1 t2 t3 : Nat) : (syncBytes type seq t1 t2 t3).length = 32 := by
  simp only [syncBytes, List.length_append, natBytes_length]

/-- The state in which a new flit is on the wire. -/
def State.putFlitNew (s : State) (p : Nat) (f : TxFlit) : State :=
  s.putFlit p (s.payloadHdr (s.portOf p) (s.portOf p).txSeq (s.stampT3 f)) (s.stampT3 f).bytes

theorem sendNew_ports (s : State) (p : Nat) (f : TxFlit) :
    (s.sendNew p f).ports = ((s.putFlitNew p f).updPort p fun y => { y with
      replay := y.replay ++ [((s.portOf p).txSeq, s.stampT3 f)], txSeq := seqNext (s.portOf p).txSeq
      credits := tupd (s.stampT3 f).vc 0 (fun n => n - 1) y.credits }).ports := rfl

/-- A new flit takes the next number of its port, a credit and a place in the replay buffer (R420, R422). -/
theorem portOf_sendNew (s : State) (p : Nat) (f : TxFlit) :
    (s.sendNew p f).portOf p =
      { s.portOf p with
        toReturn := ((s.sendNew p f).portOf p).toReturn, lastTx := s.now, out := ((s.sendNew p f).portOf p).out
        replay := ((s.sendNew p f).portOf p).replay, txSeq := seqNext (s.portOf p).txSeq
        credits := ((s.sendNew p f).portOf p).credits } := by
  have put : (s.putFlitNew p f).portOf p = _ := portOf_updPort_self ..
  rw [portOf_congr (sendNew_ports s p f), portOf_updPort_self, put]
  rfl

theorem sendNew_frame (s : State) (p : Nat) (f : TxFlit) :
    s.sendNew p f = { s with ports := (s.sendNew p f).ports, objs := (s.sendNew p f).objs, free := (s.sendNew p f).free } := rfl

theorem portOf_sendNew_ne {p q : Nat} (other : q ≠ p) (s : State) (f : TxFlit) : (s.sendNew p f).portOf q = s.portOf q := by
  rw [portOf_congr (sendNew_ports s p f), portOf_updPort_ne other]
  exact portOf_updPort_ne other s _

/-! ### Exchanges -/

/-- A request leaves its number, its tick and T1 with its port (R437). -/
theorem syncSent_spec (s : State) (port n t1 : Nat) (f : TxFlit) :
    let u := s.updPort port fun y => { y with syncSeq := n, syncAt := some s.now, syncT1 := some t1 }
    let t := u.sendNew port f
    (t.portOf port).syncSeq = n ∧ (t.portOf port).syncAt = some s.now ∧ (t.portOf port).syncT1 = some t1 ∧
      (t.portOf port).txSeq = seqNext (s.portOf port).txSeq ∧ (∀ p, p ≠ port → t.portOf p = s.portOf p) ∧
      t = { s with ports := t.ports, objs := t.objs, free := t.free } := by
  intro u t
  have asked : u.portOf port = _ := portOf_updPort_self ..
  have sent : t.portOf port = _ := portOf_sendNew u port f
  rw [sent, asked]
  exact ⟨rfl, rfl, rfl, rfl, fun p other => (portOf_sendNew_ne other u f).trans (portOf_updPort_ne other s _),
    sendNew_frame u port f⟩

/-- The state in which the latency of a port is measured (R437). -/
def State.measured (s : State) (port latency : Nat) (time : TimeSt) : State :=
  { s.updPort port fun y => { y with latency := latency, syncT1 := none } with time := time }

theorem measured_spec (s : State) (port latency : Nat) (time : TimeSt) :
    let t := s.measured port latency time
    (t.portOf port).latency = latency ∧ (t.portOf port).syncT1 = none ∧ t.time = time ∧ (∀ p, p ≠ port → t.portOf p = s.portOf p) ∧
      t = { s with ports := t.ports, time := t.time } := by
  let u := s.updPort port fun y => { y with latency := latency, syncT1 := none }
  have ports (p : Nat) : (s.measured port latency time).portOf p = u.portOf p := rfl
  have here : u.portOf port = _ := portOf_updPort_self ..
  intro t
  rw [ports, here]
  exact ⟨rfl, rfl, rfl, fun p other => (ports p).trans (portOf_updPort_ne other s _), rfl⟩

section
variable {s : State} {port frac : Nat} (named : port < 8) (joined : (s.portOf port).state = 4)
include named joined

theorem execSyncReqSend_sends (wakes : s.power.hubAsleep = false) (thawed : s.power.frozen = false)
    (may : (s.portOf port).maySend 4 = true) (late : ∀ a, (s.portOf port).syncAt = some a → a + 2500 ≤ s.now) :
    exec (.syncReqSend port frac) s = .next ((s.updPort port fun y => { y with
      syncSeq := ((s.portOf port).syncSeq + 1) % 65536, syncAt := some s.now, syncT1 := some (s.now * 64 + frac % 64) }).sendNew port
        ⟨4, true, true, s.facing port,
          capsuleImage (syncBytes 1 (((s.portOf port).syncSeq + 1) % 65536) (s.stamp frac) 0 0)⟩) := by
  have due : ((s.portOf port).syncAt.any fun t => decide (s.now < t + 2500)) = false := by
    cases asked : (s.portOf port).syncAt with
    | none => rfl
    | some a => exact decide_eq_false (Nat.not_lt.mpr (late a asked))
  show execSyncReqSend port frac s = _
  simp only [execSyncReqSend, Nat.not_le.mpr named, joined, wakes, thawed, may, due, ne_eq, not_true_eq_false, Bool.not_true,
    Bool.false_eq_true, or_self, ↓reduceIte]
  rw [capsuleFlits_of_short (by rw [syncBytes_length]; decide)]
  rfl

theorem execSyncReqReceive_answers {msg : List Byte} (sound : syncOk 1 msg = true) (wakes : s.power.hubAsleep = false)
    (thawed : s.power.frozen = false) :
    exec (.syncReqReceive port frac msg) s = .next (s.queueCapsule port 4 (s.facing port)
      (syncBytes 2 (beNat (slice msg 2 2)) (beNat (slice msg 4 9)) (s.now * 64 + frac % 64) 0)) := by
  show execSyncReqReceive port frac msg s = _
  simp only [execSyncReqReceive, Nat.not_le.mpr named, joined, sound, wakes, thawed, ne_eq, not_true_eq_false, Bool.not_true,
    Bool.false_eq_true, or_self, ↓reduceIte]
  rfl

theorem execSyncRespReceive_measures {t1 : Nat} {msg : List Byte} (asked : (s.portOf port).syncT1 = some t1)
    (sound : syncOk 2 msg = true) (own : beNat (slice msg 2 2) = (s.portOf port).syncSeq) :
    let t2 : Int := (beNat (slice msg 13 9) : Int)
    let t3 : Int := (beNat (slice msg 22 9) : Int)
    let t4 : Int := ((s.now * 64 + frac % 64 : Nat) : Int)
    exec (.syncRespReceive port frac msg) s = .next (s.measured port ((((t4 - t1) - (t3 - t2)) / 2 + 63) / 64).toNat
      (if s.parentPort = some port then { s.time with slew := ((t2 - t1) - (t4 - t3)) / 2 / 64 } else s.time)) := by
  intro t2 t3 t4
  show execSyncRespReceive port frac msg s = _
  simp only [execSyncRespReceive, asked, Nat.not_le.mpr named, joined, sound, own, ne_eq, not_true_eq_false, Bool.not_true,
    Bool.false_eq_true, or_self, ↓reduceIte]
  split <;> rfl

end

end Sys2Proof.Machine
end

section
/-! Groups (R428-R436): reports of partners, losses, routes, the minority, joins and leaves. -/

namespace Sys2Proof.Machine

/-! ### Reports (R428) -/

/-- The state in which the report of a host has joined its port (R428). -/
def State.hostJoined (s : State) (port : Nat) : State :=
  (s.updPort port fun y => { y with attested := true, state := 4, since := s.now }).settlePorts

theorem hostJoined_spec (s : State) (port : Nat) :
    let t := s.hostJoined port
    (t.portOf port).state = 4 ∧ (t.portOf port).attested = true ∧ (t.portOf port).since = s.now ∧
      (∀ p, p ≠ port → t.portOf p = s.portOf p) ∧ t = { s with ports := t.ports, err := { s.err with exposed := t.err.exposed } } := by
  let u := s.updPort port fun y => { y with attested := true, state := 4, since := s.now }
  have ports (p : Nat) : (s.hostJoined port).portOf p = u.portOf p := rfl
  have here : u.portOf port = _ := portOf_updPort_self ..
  intro t
  rw [ports, here]
  exact ⟨rfl, rfl, rfl, fun p other => (ports p).trans (portOf_updPort_ne other s _), rfl⟩

section
variable {s : State} {port : Nat} {report : List Byte} (named : port < 8) (attests : (s.portOf port).state = 3)
include named attests

theorem execAttestReportReceive_joins (host : (s.portOf port).role = 1) (sound : reportOk (s.portOf port).nonce report = true) :
    exec (.attestReportReceive port report) s =
      .next (s.hostJoined port) := by
  show execAttestReportReceive port report s = _
  simp only [execAttestReportReceive, Nat.not_le.mpr named, attests, host, sound, ne_eq, not_true_eq_false, Bool.not_true,
    Bool.false_eq_true, or_self, false_and, true_or, OfNat.one_ne_ofNat, ↓reduceIte]
  rfl

theorem execAttestReportReceive_fails (bad : reportOk (s.portOf port).nonce report = false) :
    exec (.attestReportReceive port report) s = .next (s.attestFailed port) := by
  show execAttestReportReceive port report s = _
  simp only [execAttestReportReceive, Nat.not_le.mpr named, attests, bad, ne_eq, not_true_eq_false, Bool.not_false, or_self, ↓reduceIte]

end

/-- A failed verification is counted and holds the port in DARK (R426, R428). -/
theorem attestFailed_spec (s : State) (port : Nat) :
    let t := s.attestFailed port
    (t.portOf port).state = 0 ∧ (t.portOf port).held = true ∧ (∀ p, p ≠ port → t.portOf p = s.portOf p) ∧
      t.objNum (0x1110 + port) 12 [] 0 0 = min u32Max (s.objNum (0x1110 + port) 12 [] 0 0 + 1) ∧
      t = { s with ports := t.ports, objs := t.objs, err := t.err, can := t.can } := by
  intro t
  let u := (s.bumpBy (0x1110 + port) 12 [] 0 u32Max 1).record 0 4 (port + 56) 0x0693 (port * 2 ^ 24)
  obtain ⟨dark, held, -, others, -⟩ := darken_spec u port true
  exact ⟨dark, held, others, objNum_bumpBy_self .., rfl⟩

/-! ### Losses (R431, R432) -/

/-- The group without a member that is declared lost, under the leader that follows (R432). -/
def State.groupLess (s : State) (node : Nat) : GroupSt :=
  let lead := if s.group.leader = node then s.group.deputy else s.group.leader
  let left : GroupSt := { s.group with
    members := mapIf (fun m => m.node == node || m.state == 4) (fun m => { m with state := 0 }) s.group.members
    leaving := s.group.leaving.filter fun n => n != node
    routes := tdel node s.group.routes
    leader := lead
    epoch := if lead = s.group.node then min u32Max (s.group.epoch + 1) else s.group.epoch }
  { left.setDeputy.forget node with mirrors := s.group.mirrors.filter fun x => x.node != node, heldTx := [] }

section
variable {s : State} {node : Nat}

theorem declares_of_leads (grouped : s.group.grouped = true) (other : node ≠ s.group.node)
    (leads : s.group.leader = s.group.node ∨ (s.group.leader = node ∧ s.group.deputy = s.group.node)) : s.declares node = true := by
  simp [State.declares, grouped, other, leads]

/-- The group and the exposures. -/
def State.exposedGroup (s : State) : GroupSt × Nat := (s.group, s.err.exposed)

theorem exposedGroup_of_membership {t : State} (h : t.membership = s.membership) : t.exposedGroup = s.exposedGroup :=
  congrArg (fun m : Membership => (m.group, m.exposed)) h

theorem recovery_exposedGroup (s : State) (row ring cls index code detail : Nat) :
    (s.recovery row ring cls index code detail true).exposedGroup = (s.group, withBit s.err.exposed row) := by
  rw [State.exposedGroup, recovery_exposed, recovery_frame]

theorem declareLoss_exposedGroup {m : Member} (found : s.group.memberAt node = some m) :
    (s.declareLoss node).exposedGroup = (s.groupLess node, withBit s.err.exposed 12) := by
  unfold State.declareLoss
  rw [found]
  dsimp only
  refine (exposedGroup_of_membership (rerun_membership ..)).trans ?_
  refine (exposedGroup_of_membership (redivide_membership _)).trans ?_
  rw [foldl_keeps State.exposedGroup _ fun t f => by split <;> rfl]
  generalize hu : List.foldl State.takeOver _ _ = u
  have taken : u.exposedGroup = (s.groupLess node, withBit s.err.exposed 12) := by
    rw [← hu, exposedGroup_of_membership (foldl_keeps State.membership _ takeOver_membership _ _)]
    exact recovery_exposedGroup ..
  split
  · exact taken
  · exact taken

/-- A group without a member has neither its node nor a route to it. -/
theorem groupLess_spec (s : State) (node : Nat) :
    let g := s.groupLess node
    g.memberAt node = none ∧ tget node g.routes = none ∧ (∀ x ∈ g.mirrors, x.node ≠ node) ∧ g.heldTx = [] ∧
      g.leader = (if s.group.leader = node then s.group.deputy else s.group.leader) := by
  refine ⟨List.find?_eq_none.mpr fun x member => ?_, tget_tdel_self .., fun x member => ?_, rfl, rfl⟩
  · obtain ⟨y, -, rfl⟩ := List.mem_map.mp member
    by_cases here : (y.node == node) = true
    · simp [here, Member.present]
    · split <;> simp [here]
  · exact bne_iff_ne.mp (List.mem_filter.mp member).2

theorem exec_losses {e : Nat → Instr} (listed : e ∈ ([.memberLossReport, .probeTimeout] : List (Nat → Instr)))
    (declares : s.declares node = true) : exec (e node) s = .next (s.declareLoss node) := by
  simp only [List.mem_cons, List.not_mem_nil, or_false] at listed
  obtain rfl | rfl := listed
  · exact congrArg _ (if_pos declares)
  · exact congrArg _ (if_pos declares)

end

/-! ### Routes and the minority (R430, R433) -/

/-- The routes of an epoch that lead to a member-facing port. -/
def State.routesOf (s : State) (routes : List (Nat × Nat)) : List (Nat × Nat) :=
  routes.filter fun e => decide (e.2 < 8) && (s.portOf e.2).role == 2

theorem execRouteEpochUpdate_routes {s : State} {epoch : Nat} {routes : List (Nat × Nat)} (grouped : s.group.grouped = true)
    (newer : s.group.epoch < epoch ∨ (epoch = s.group.epoch ∧ s.group.leader = s.group.node))
    (reached : ∀ m ∈ s.group.members, m.state = 1 → m.node ≠ s.group.node →
      ∃ e ∈ routes, e.1 = m.node ∧ e.2 < 8 ∧ (s.portOf e.2).role = 2) :
    exec (.routeEpochUpdate epoch routes) s = .next { s with
      free := s.advanceFree.free
      group := { s.group with
        epoch := max (min u32Max epoch) (min u32Max epoch), routes := s.routesOf routes, lambda_ := s.freeBits 32 } } := by
  have none : (s.group.members.filter fun m => m.state == 1 && m.node != s.group.node &&
      !((routes.filter fun e => decide (e.2 < 8) && (s.portOf e.2).role == 2).any fun e => e.1 == m.node)) = [] := by
    refine List.filter_eq_nil_iff.mpr fun m member lost => ?_
    simp only [Bool.and_eq_true, beq_iff_eq, bne_iff_ne, Bool.not_eq_true', List.any_eq_false] at lost
    obtain ⟨⟨running, other⟩, unrouted⟩ := lost
    obtain ⟨e, listed, leads, inside, faces⟩ := reached m member running other
    exact unrouted e (List.mem_filter.mpr ⟨listed, by simp [inside, faces]⟩) leads
  have valid : ¬(!s.group.grouped ∨ epoch < s.group.epoch ∨ (epoch = s.group.epoch ∧ !(s.group.leader == s.group.node))) := by
    rintro (alone | older | ⟨same, follows⟩)
    · simp [grouped] at alone
    · omega
    · obtain later | ⟨-, leads⟩ := newer
      · exact later.ne' same
      · simp [leads] at follows
  show execRouteEpochUpdate epoch routes s = _
  unfold execRouteEpochUpdate
  dsimp only
  rw [if_neg valid, none]
  rfl

/-- A port of a device that leaves: a JOINED member-facing one is LEAVING (R426). -/
def State.portLeft (s : State) (x : Port) : Port := if x.role = 2 ∧ x.state = 4 then { x with state := 5, since := s.now } else x

theorem portOf_leavePorts (s : State) (p : Nat) : s.leavePorts.portOf p = s.portLeft (s.portOf p) := by
  have found : tget p s.leavePorts.ports = (tget p s.ports).map s.portLeft :=
    tget_map_of_key (fun e => (e.1, s.portLeft e.2)) (fun _ => rfl) p s.ports
  rw [State.portOf, tgetD, found, State.portOf, tgetD]
  cases tget p s.ports <;> rfl

theorem execMinorityDetected_leaves {s : State} (grouped : s.group.grouped = true) :
    exec .minorityDetected s = .next (State.leavePorts { s with group := { s.group with minority := true } }) := by
  show execMinorityDetected s = _
  rw [execMinorityDetected, if_pos grouped]

/-! ### Joins (R434) -/

theorem mem_setMember (g : GroupSt) (m : Member) : m ∈ (g.setMember m).members := by
  unfold GroupSt.setMember
  dsimp only
  split
  case isTrue has =>
    obtain ⟨x, member, same⟩ := List.any_eq_true.mp has
    exact List.mem_map.mpr ⟨x, member, if_pos same⟩
  case isFalse => exact List.mem_append_right _ List.mem_cons_self

/-- What the ports of a join leave: the time, and of the group all but its routes. -/
structure Joined where
  time : TimeSt
  grouped : Bool
  node : Nat
  members : List Member

def State.joined (s : State) : Joined := ⟨s.time, s.group.grouped, s.group.node, s.group.members⟩

theorem joinPorts_joined (s : State) (serial : List Byte) (node : Nat) : (s.joinPorts serial node).joined = s.joined := by
  unfold State.joinPorts
  dsimp only
  generalize hu : List.foldl _ s _ = u
  have ports : u.joined = s.joined := by
    rw [← hu]
    refine foldl_keeps State.joined _ ?_ _ s
    exact fun _ _ => rfl
  split
  · exact ports
  · exact ports

theorem joined_of_membership {s t : State} (h : t.membership = s.membership) : t.joined = s.joined :=
  congrArg (fun m : Membership => (⟨m.time, m.group.grouped, m.group.node, m.group.members⟩ : Joined)) h

/-- How another device joins: the group with it, its ports, its exposures, and the totals and contexts again. -/
theorem admitMember_eq (s : State) (node : Nat) (serial : List Byte) : ∃ (g g0 : GroupSt) (m : Member) (n : Nat),
    s.admitMember node serial = (State.joinPorts { s with group := g } serial n).settlePorts.redivide.rerun .group ∧
      g.grouped = true ∧ g.members = (g0.setMember m).members ∧ m.serial = serial ∧ m.state = 1 := by
  refine ⟨_, _, _, _, rfl, ?_, rfl, rfl, rfl⟩
  show (if !s.group.grouped then { s.group with grouped := true, members := [s.selfMember] } else s.group).grouped = true
  cases grouped : s.group.grouped
  · rfl
  · exact grouped

theorem admitMember_spec (s : State) (node : Nat) (serial : List Byte) :
    (s.admitMember node serial).group.grouped = true ∧
      ∃ m ∈ (s.admitMember node serial).group.members, m.serial = serial ∧ m.state = 1 := by
  obtain ⟨g, g0, m, n, joins, grouped, members, named, running⟩ := admitMember_eq s node serial
  have kept : (s.admitMember node serial).joined = State.joined { s with group := g } := by
    rw [joins, joined_of_membership (rerun_membership ..), joined_of_membership (redivide_membership _)]
    exact joinPorts_joined ..
  refine ⟨(congrArg Joined.grouped kept).trans grouped, m, ?_, named, running⟩
  rw [show (s.admitMember node serial).group.members = _ from (congrArg Joined.members kept).trans members]
  exact mem_setMember g0 m

/-- How this device joins a group (R29, R434). -/
theorem joinGroup_eq (s : State) (node count : Nat) : ∃ (g : GroupSt) (ms others : List Member),
    s.joinGroup node count = (others.foldl (fun (t : State) m => t.joinPorts m.serial m.node) { s with
      time := if s.now ≤ count then ({ s.time with count := count } : TimeSt).ppsOut else s.time
      group := (ms.foldl GroupSt.setMember g).setDeputy, free := s.free + 7 }).settlePorts.rerun .group ∧
      g.grouped = true ∧ g.node = node :=
  ⟨_, _, _, rfl, rfl, rfl⟩

theorem joinGroup_spec {s : State} {node count : Nat} (behind : s.now ≤ count) :
    let t := s.joinGroup node count
    t.group.grouped = true ∧ t.group.node = node ∧ t.time.count = count := by
  intro t
  obtain ⟨g, ms, others, joins, grouped, named⟩ := joinGroup_eq s node count
  have members : ((ms.foldl GroupSt.setMember g).grouped, (ms.foldl GroupSt.setMember g).node) = (g.grouped, g.node) :=
    foldl_keeps (fun g : GroupSt => (g.grouped, g.node)) GroupSt.setMember (fun _ _ => rfl) ms g
  obtain ⟨sameGrouped, sameNode⟩ := Prod.mk.inj members
  let joining := ms.foldl GroupSt.setMember g
  have kept : t.joined = ⟨if s.now ≤ count then ({ s.time with count := count } : TimeSt).ppsOut else s.time,
      joining.grouped, joining.node, joining.setDeputy.members⟩ := by
    unfold t
    rw [joins, joined_of_membership (rerun_membership ..)]
    exact foldl_keeps State.joined _ (fun u m => joinPorts_joined u m.serial m.node) others _
  refine ⟨(congrArg Joined.grouped kept).trans (sameGrouped.trans grouped),
    (congrArg Joined.node kept).trans (sameNode.trans named), (congrArg (·.time.count) kept).trans ?_⟩
  show (if s.now ≤ count then ({ s.time with count := count } : TimeSt).ppsOut else s.time).count = count
  rw [if_pos behind]
  rfl

section
variable {s : State} {node count : Nat} (named : node < 64)
include named

theorem execMemberJoin_admits {serial : List Byte} (other : serial ≠ fitList 16 0 Config.serial) (listed : s.listsMember serial = true)
    (majority : s.group.minority = false) (room : s.roomFor node serial = true) :
    exec (.memberJoin node serial count) s = .next (s.admitMember node serial) := by
  show execMemberJoin node serial count s = _
  simp only [execMemberJoin, Nat.not_le.mpr named, other, listed, majority, room, Bool.not_true, Bool.false_eq_true, or_self,
    ↓reduceIte]

theorem execMemberJoin_joins (single : s.group.grouped = false) (empty : s.entriesUsed = 0) (behind : s.now ≤ count) :
    exec (.memberJoin node (fitList 16 0 Config.serial) count) s = .next (s.joinGroup node count) := by
  have near : ¬ count + 1 < s.now := Nat.not_lt.mpr (Nat.le_succ_of_le behind)
  show execMemberJoin node (fitList 16 0 Config.serial) count s = _
  simp only [execMemberJoin, Nat.not_le.mpr named, single, empty, near, ne_eq, not_true_eq_false, Bool.false_eq_true, or_self,
    ↓reduceIte]

end

/-! ### Leaves (R435) -/

theorem foldl_darken_state {ps : List Nat} {p : Nat} {s : State} (h : p ∈ ps ∨ (s.portOf p).state = 0) :
    ((ps.foldl (fun (t : State) p => t.darken p false) s).portOf p).state = 0 := by
  induction ps generalizing s with
  | nil => simpa using h
  | cons q ps ih =>
    obtain ⟨dark, -, -, others, -⟩ := darken_spec s q false
    refine ih ?_
    by_cases same : p = q
    · exact .inr (same ▸ dark)
    · rw [others p same]
      exact h.imp_left fun member => (List.mem_cons.mp member).resolve_left same

theorem leaveDrainComplete_self {s : State} (grouped : s.group.grouped = true) (leaves : s.group.node ∈ s.group.leaving) :
    Answers (.leaveDrainComplete s.group.node) s fun t => t.group.grouped = false ∧ t.group.members = [] ∧ t.group.routes = [] ∧
      t.group.mirrors = [] ∧ (∀ p < 8, (s.portOf p).role = 2 → (s.portOf p).up = true → (t.portOf p).state = 0) := by
  let ps := (List.range 8).filter fun p => (s.portOf p).role == 2 && (s.portOf p).up
  let u := ps.foldl (fun (t : State) p => t.darken p false) s
  let g := { u.group with
    grouped := false, formed := false, node := 0, leader := 0, deputy := 0, routes := [], members := [], mirrors := [], leaving := [],
    heldTx := [], minority := false, outbox := [], inbox := [], fans := [], closures := [] }
  have left : exec (.leaveDrainComplete s.group.node) s = .next (State.rerun { u with group := g } .group) := by
    have listed : s.group.leaving.contains s.group.node = true := List.contains_iff_mem.mpr leaves
    show execLeaveDrainComplete s.group.node s = _
    simp only [execLeaveDrainComplete, grouped, listed, Bool.not_true, Bool.false_eq_true, or_self, ↓reduceIte]
    rfl
  have kept := rerun_membership { u with group := g } .group
  have group : (State.rerun { u with group := g } .group).group = g := congrArg Membership.group kept
  refine .of_exec left ?_
  rw [group]
  refine ⟨rfl, rfl, rfl, rfl, fun p inside faces up => ?_⟩
  rw [portOf_congr (t := State.rerun { u with group := g } .group) (s := u) (congrArg Membership.ports kept)]
  exact foldl_darken_state (.inl (List.mem_filter.mpr ⟨List.mem_range.mpr inside, by simp [faces, up]⟩))

/-- Settles O46, the exchanges of R437 first. That the slew is kept in whole ticks rests on assumption 69 (DEDUCED). -/
theorem groupsMeasureLinksAndFollowEvents : Obligations.GroupsMeasureLinksAndFollowEvents := by
  unfold Obligations.GroupsMeasureLinksAndFollowEvents
  refine ⟨⟨?_, ?_, ?_⟩, ?_, ?_, ?_, ?_, ?_, ?_, ?_, ?_⟩
  · intro port frac s named joined wakes thawed may late
    exact .of_exec (execSyncReqSend_sends named joined wakes thawed may late) (syncSent_spec s port _ _ _)
  · intro port frac msg s named joined sound wakes thawed
    exact .of_exec (execSyncReqReceive_answers named joined sound wakes thawed) rfl
  · intro port frac t1 msg s named joined asked sound own
    exact .of_exec (execSyncRespReceive_measures named joined asked sound own) (measured_spec s port ..)
  · intro port report s named attests host
    cases sound : reportOk (s.portOf port).nonce report with
    | false => exact .of_exec (execAttestReportReceive_fails named attests sound) fun h => absurd h Bool.false_ne_true
    | true => exact .of_exec (execAttestReportReceive_joins named attests host sound) fun _ => hostJoined_spec s port
  · intro port report s named attests bad
    exact .of_exec (execAttestReportReceive_fails named attests bad) (attestFailed_spec s port)
  · intro e listed node m s grouped other leads found
    obtain ⟨absent, unrouted, mirrors, held, leader⟩ := groupLess_spec s node
    obtain ⟨group, exposed⟩ := Prod.mk.inj (declareLoss_exposedGroup found)
    refine .of_exec (exec_losses listed (declares_of_leads grouped other leads)) ?_
    rw [group, exposed]
    exact ⟨absent, unrouted, testBit_withBit_self .., mirrors, held, leader⟩
  · intro epoch routes s grouped newer reached
    exact .of_exec (execRouteEpochUpdate_routes grouped newer reached) ⟨rfl, rfl⟩
  · intro s grouped
    refine .of_exec (execMinorityDetected_leaves grouped) ⟨rfl, fun p faces joined => ?_, fun p away => ?_, rfl⟩
    · exact (congrArg Port.state (portOf_leavePorts _ p)).trans (congrArg Port.state (if_pos ⟨faces, joined⟩))
    · exact (portOf_leavePorts _ p).trans (if_neg fun h => away h.1)
  · intro node count serial s named other listed majority room
    exact .of_exec (execMemberJoin_admits named other listed majority room) (admitMember_spec s node serial)
  · intro node count s named single empty behind
    exact .of_exec (execMemberJoin_joins named single empty behind) (joinGroup_spec behind)
  · intro s grouped leaves
    exact leaveDrainComplete_self grouped leaves

end Sys2Proof.Machine
end

section
/-! Sleep (R513-R516) and the Buttress save (R518-R523). -/

namespace Sys2Proof.Machine

/-! ### Bays (R513, R514) -/

section
variable {s : State} {bay : Nat}

theorem bayPower_setBayPower_self (s : State) (b : Nat) (p : BayPower) : (s.setBayPower b p).bayPower b = p := tgetD_tset_self ..

theorem bayPower_setBayPower_ne {b c : Nat} (other : c ≠ b) (s : State) (p : BayPower) :
    (s.setBayPower b p).bayPower c = s.bayPower c := tgetD_tset_ne other ..

theorem execBayIdleTimeout_descends (live : s.bayLive bay = true) (steady : (s.bayPower bay).wakeDue = none)
    (idle : s.bayBusy bay = false) (enabled : s.idleTime (s.bayPower bay).state ≠ 0)
    (late : (s.bayPower bay).idleSince + s.idleTime (s.bayPower bay).state ≤ s.now)
    (may : s.mayDescend bay (s.bayPower bay).state = true) :
    exec (.bayIdleTimeout bay) s = .next (State.setBayPower
      (if (s.bayPower bay).state = 2 then { (s.cleanBay bay fun _ => true).clearBay bay with ks := s.ks } else s) bay
        ⟨(s.bayPower bay).state + 1, s.now, none⟩) := by
  show execBayIdleTimeout bay s = _
  simp only [execBayIdleTimeout, live, steady, idle, enabled, Nat.not_lt.mpr late, may, Option.isSome_none, Bool.not_true,
    Bool.false_eq_true, or_self, ↓reduceIte]

theorem execBayWakeRequest_wakes (live : s.bayLive bay = true) (down : (s.bayPower bay).state ≠ 0)
    (steady : (s.bayPower bay).wakeDue = none) :
    exec (.bayWakeRequest bay) s = .next (s.setBayPower bay { s.bayPower bay with
      wakeDue := some (s.now + wakeTicks (s.bayPower bay).state) }) := by
  show execBayWakeRequest bay s = _
  simp only [execBayWakeRequest, State.wakeBay, live, down, steady, Option.isSome_none, Bool.not_true, Bool.false_eq_true, or_self,
    ↓reduceIte]

/-- The wake times of R513. -/
theorem wakeTicks_eq (state : Nat) : wakeTicks state = if state = 1 then 15 else if state = 2 then 225 else 8750 := by
  unfold wakeTicks
  split
  · rfl
  · rfl
  · rw [if_neg ‹_›, if_neg ‹_›]

theorem execBayWakeDone_runs {d : Tick} (due : (s.bayPower bay).wakeDue = some d) (late : d ≤ s.now) :
    let t := s.setBayPower bay ⟨0, s.now, none⟩
    let u := if 2 ≤ (s.bayPower bay).state then t.bump 0x5801 7 [] 0 else t
    exec (.bayWakeDone bay) s = .next (if (s.bayPower bay).state = 3 then u.bayTests bay else u) := by
  have ended : ((s.bayPower bay).wakeDue.any fun d => decide (d ≤ s.now)) = true := by
    rw [due]
    exact decide_eq_true late
  show execBayWakeDone bay s = _
  simp only [execBayWakeDone, ended, Bool.not_true, Bool.false_eq_true, ↓reduceIte]

theorem bayTests_frame (s : State) (bay : Nat) :
    let t := s.bayTests bay
    t = { s with free := t.free, mason := t.mason, hod := t.hod, err := t.err } := by
  intro t
  unfold t State.bayTests
  split <;> rfl

/-- A bay that has woken runs; its wake is counted from retention and from off, and from clock-gating nothing else changes. -/
theorem bayWakeDone_spec (s : State) (bay state : Nat) :
    let r := s.setBayPower bay ⟨0, s.now, none⟩
    let u := if 2 ≤ state then r.bump 0x5801 7 [] 0 else r
    let t := if state = 3 then u.bayTests bay else u
    t.bayPower bay = ⟨0, s.now, none⟩ ∧ (∀ b, b ≠ bay → t.bayPower b = s.bayPower b) ∧
      (2 ≤ state → t.objNum 0x5801 7 [] 0 0 = min u64Max (s.objNum 0x5801 7 [] 0 0 + 1)) ∧ (state < 2 → t = r) := by
  intro r u t
  have kept : t.power = r.power ∧ t.objs = u.objs := by
    have counted : u.power = r.power := by
      unfold u
      split <;> rfl
    unfold t
    split
    · rw [bayTests_frame]
      exact ⟨counted, rfl⟩
    · exact ⟨counted, rfl⟩
  obtain ⟨power, objs⟩ := kept
  have bays (b : Nat) : t.bayPower b = r.bayPower b := by
    rw [State.bayPower, power, State.bayPower]
  refine ⟨(bays bay).trans (bayPower_setBayPower_self ..), fun b other => (bays b).trans (bayPower_setBayPower_ne other ..),
    fun deep => ?_, fun shallow => ?_⟩
  · rw [objNum_congr objs, show u = r.bump 0x5801 7 [] 0 from if_pos deep]
    exact objNum_bumpBy_self ..
  · have gated : u = r := if_neg (Nat.not_le.mpr shallow)
    exact (if_neg (by omega)).trans gated

end

/-! ### The hub and the memories (R515, R516) -/

section
variable {s : State}

theorem execHubIdleTimeout_sleeps (awake : s.power.hubAsleep = false) (idle : s.hubBusy = false)
    (enabled : s.objNum 0x5801 5 [] 0 250000 ≠ 0) (late : s.power.hubIdle + s.objNum 0x5801 5 [] 0 250000 ≤ s.now) :
    exec .hubIdleTimeout s = .next { s with power := { s.power with hubAsleep := true } } := by
  show execHubIdleTimeout s = _
  simp only [execHubIdleTimeout, awake, idle, enabled, Nat.not_lt.mpr late, Bool.false_eq_true, or_self, ↓reduceIte]

theorem execHubWake_wakes (thawed : s.power.frozen = false) :
    exec .hubWake s = .next ((List.range 8).foldl State.heldIn s.awake) := by
  show execHubWake s = _
  simp only [execHubWake, thawed, Bool.false_eq_true, ↓reduceIte]

theorem execHbmSelfRefreshEntry_enters (asleep : s.baysAsleep = true) (idle : s.memBusy = false) (single : s.gAdmitted = false)
    (enabled : s.objNum 0x5801 6 [] 0 2500 ≠ 0) (late : s.power.memIdle + s.objNum 0x5801 6 [] 0 2500 ≤ s.now) (dram : Bool) :
    exec (.hbmSelfRefreshEntry dram) s = .next (
      if dram then (if s.memx.dramState = 1 then { s with power := { s.power with dramSr := true } } else s)
      else { s with power := { s.power with hbmSr := true } }) := by
  show execHbmSelfRefreshEntry dram s = _
  simp only [execHbmSelfRefreshEntry, asleep, idle, single, enabled, Nat.not_lt.mpr late, Bool.not_true, Bool.false_eq_true, or_self,
    ↓reduceIte]

/-! ### The save (R518-R523) -/

theorem execVholdMeasure_measures (up : 3 ≤ s.power.step) (mv : Nat) :
    exec (.vholdMeasure mv) s = .next { s with power := { s.power with
      vholdMv := mv, buttress := if s.power.save.isSome then s.power.buttress else armedBy mv s.power.capUf } } := by
  show execVholdMeasure mv s = _
  rw [execVholdMeasure, if_neg (Nat.not_lt.mpr up)]

theorem execSagDetect_freezes (ready : s.power.ready = true) (armed : s.power.buttress = 1) (first : s.power.save = none)
    (cause : SagCause) :
    exec (.sagDetect cause) s = .next { s with
      power := { s.power with
        saveStarted := true, buttress := 2, frozen := true
        save := some ⟨s.now, s.now, cause, s.power.vholdMv, false, false⟩ }
      stored := { s.stored with snapshot := none, status := if s.stored.status = 1 then 3 else s.stored.status }
      trust := { s.trust with stageState := if s.trust.stageState = 4 then 2 else s.trust.stageState } } := by
  show execSagDetect cause s = _
  simp only [execSagDetect, State.sag, ready, armed, first, Option.isSome_none, Bool.not_true, Bool.false_eq_true, ne_eq,
    not_true_eq_false, or_self, ↓reduceIte]

/-- What the records that enter the buffer at a save leave (R520, R521): the power, the time, and every count but theirs. -/
theorem enterAll_keeps (s : State) : s.enterAll.power = s.power ∧ s.enterAll.time = s.time ∧
    s.enterAll.objNum 0x5800 7 [] 0 0 = s.objNum 0x5800 7 [] 0 0 := by
  have kept : (s.enterAll.power, s.enterAll.time, tget ⟨0x5800, 7, [], 0⟩ s.enterAll.objs) =
      (s.power, s.time, tget ⟨0x5800, 7, [], 0⟩ s.objs) := by
    refine foldl_keeps (fun t : State => (t.power, t.time, tget (⟨0x5800, 7, [], 0⟩ : ObjKey) t.objs)) _ (fun t x => ?_) _ s
    have other : (⟨0x5800, 7, [], 0⟩ : ObjKey) ≠ ⟨0x6350, 1, [], x.1.slice⟩ := fun e => absurd (ObjKey.mk.inj e).1 (by decide)
    exact Prod.ext rfl (Prod.ext rfl (tget_tset_ne other ..))
  obtain ⟨power, time, count⟩ : s.enterAll.power = s.power ∧ s.enterAll.time = s.time ∧
      tget (⟨0x5800, 7, [], 0⟩ : ObjKey) s.enterAll.objs = tget ⟨0x5800, 7, [], 0⟩ s.objs := by simpa using kept
  exact ⟨power, time, by rw [State.objNum, count, State.objNum]⟩

/-- The state in which a save set is written and the hold begins (R520, R523). -/
def State.held (s : State) (sv : Save) : State :=
  let t := s.enterAll
  let u := (t.bumpBy 0x5800 7 [] 0 u32Max 1).hubOff
  { u with
    power := { u.power with
      save := some { sv with written := true }
      saveSet := some {
        save := { sv with written := true }, led := t.led, hssReserved := t.trust.hssReserved, hssTree := t.trust.hssTree
        erase := t.st.erase, rings := t.err.rings.filter fun e => decide (e.1 < 32) }
      railEn := 0, pgood := 0 }
    time := { u.time with heldTick := u.now } }

theorem execSaveSetWritten_holds {sv : Save} (saves : s.power.save = some sv) (unwritten : sv.written = false) :
    exec .saveSetWritten s = .next (s.held sv) := by
  show execSaveSetWritten s = _
  rw [execSaveSetWritten, saves]
  simp only [unwritten, Bool.false_eq_true, ↓reduceIte]
  rfl

theorem held_spec (s : State) (sv : Save) :
    let t := s.held sv
    t.power.save = some { sv with written := true } ∧ t.time.heldTick = s.now ∧ t.power.railEn = 0 ∧ t.power.pgood = 0 ∧
      t.mem = [] ∧ t.items = [] ∧ t.runs = [] ∧ t.ctxs = [] ∧
      (∃ x, t.power.saveSet = some x ∧ x.save = { sv with written := true } ∧ x.led = t.led) ∧
      t.objNum 0x5800 7 [] 0 0 = min u32Max (s.objNum 0x5800 7 [] 0 0 + 1) := by
  intro t
  obtain ⟨-, time, count⟩ := enterAll_keeps s
  refine ⟨rfl, congrArg TimeSt.count time, rfl, rfl, rfl, rfl, rfl, rfl, ⟨_, rfl, rfl, rfl⟩, ?_⟩
  rw [← count]
  exact objNum_bumpBy_self s.enterAll ..

theorem execHeldTickWrite_writes {sv : Save} (saves : s.power.save = some sv) (written : sv.written = true)
    (late : s.time.heldTick + 25000 ≤ s.now) :
    exec .heldTickWrite s = .next { s with time := { s.time with heldTick := s.now } } := by
  have holds : (s.power.save.any fun v => v.written) = true := by
    rw [saves]
    exact written
  show execHeldTickWrite s = _
  rw [execHeldTickWrite, if_pos ⟨holds, late⟩]

theorem execVholdExhausted_ends {sv : Save} (saves : s.power.save = some sv) :
    exec .vholdExhausted s = .next { s.hubOff with power := { s.hubOff.power with
      save := none, buttress := 0, ready := false, step := 0, railEn := 0, pgood := 0 } } := by
  show execVholdExhausted s = _
  simp only [execVholdExhausted, saves, Option.isNone_some, Bool.false_eq_true, ↓reduceIte]

theorem execSupplyReturnInHold_notes {sv : Save} (saves : s.power.save = some sv) :
    exec .supplyReturnInHold s = .next { s with power := { s.power with save := some { sv with supply := true } } } := by
  show execSupplyReturnInHold s = _
  rw [execSupplyReturnInHold, saves]
  rfl

end

/-- Settles O55. That the freeze of a save is at once, T_f being T0, rests on assumption 76 (DEDUCED). -/
theorem sleepAndSaveStates : Obligations.SleepAndSaveStates := by
  unfold Obligations.SleepAndSaveStates
  refine ⟨?_, ?_, ?_, ?_, ?_, ?_, ?_, ?_, ?_, ?_, ?_, ?_, ?_⟩
  · intro bay s live steady idle enabled late may
    refine .of_exec (execBayIdleTimeout_descends live steady idle enabled late may) ⟨bayPower_setBayPower_self .., fun upper => ?_⟩
    rw [if_neg upper]
  · intro bay s live down steady
    exact .of_exec (execBayWakeRequest_wakes live down steady) (by rw [wakeTicks_eq])
  · intro bay d s due late
    exact .of_exec (execBayWakeDone_runs due late) (bayWakeDone_spec s bay _)
  · intro s awake idle enabled late
    exact .of_exec (execHubIdleTimeout_sleeps awake idle enabled late) rfl
  · intro s thawed
    exact .of_exec (execHubWake_wakes thawed) rfl
  · intro s asleep idle single enabled late
    have entry := execHbmSelfRefreshEntry_enters asleep idle single enabled late
    exact ⟨.of_exec (entry false) rfl, fun dram => .of_exec (entry true) (if_pos dram)⟩
  · exact fun s => ⟨.of_exec rfl rfl, .of_exec rfl rfl⟩
  · intro mv s up
    exact .of_exec (execVholdMeasure_measures up mv) rfl
  · intro cause s ready armed first
    exact .of_exec (execSagDetect_freezes ready armed first cause) rfl
  · intro sv s saves unwritten
    exact .of_exec (execSaveSetWritten_holds saves unwritten) (held_spec s sv)
  · intro sv s saves written late
    exact .of_exec (execHeldTickWrite_writes saves written late) rfl
  · intro sv s saves
    exact .of_exec (execVholdExhausted_ends saves) ⟨rfl, rfl, rfl, rfl, rfl, rfl, rfl, rfl, rfl, rfl⟩
  · intro sv s saves
    exact .of_exec (execSupplyReturnInHold_notes saves) rfl

end Sys2Proof.Machine
end

section
/-! Trust (R537-R546): certificates, reports and their tokens, staging and activation, the trial, and the debug scrub. -/

namespace Sys2Proof.Machine

/-! ### Certificates (R537, R538) -/

theorem mem_drop_newest {α : Type} (l : List α) (x : α) : x ∈ (l ++ [x]).drop ((l ++ [x]).length - 256) := by
  have before : (l ++ [x]).length - 256 ≤ l.length := by
    rw [List.length_append, List.length_singleton]
    omega
  rw [List.drop_append_of_le_length before]
  exact List.mem_append_right _ List.mem_cons_self

section
variable {s : State}

theorem execIdentityCertIssue_issues (single : s.trust.stageState ≠ 4) (measured : s.trust.run.measurement ≠ [])
    (new : s.hasCert s.trust.run.measurement = false) (signs : s.canSign = true) :
    exec .identityCertIssue s = .next (s.issueCert s.trust.run.measurement) := by
  have some : s.trust.run.measurement.isEmpty = false := List.isEmpty_eq_false_iff.mpr measured
  show execIdentityCertIssue s = _
  simp only [execIdentityCertIssue, single, some, new, signs, Bool.not_true, Bool.false_eq_true, or_self, ↓reduceIte]

/-- An issued certificate is held, and takes an issue number and a leaf index (R537, R538). -/
theorem issueCert_spec (s : State) (meas : List Byte) :
    let t := s.issueCert meas
    t.hasCert meas = true ∧ t.trust.issueSeq = s.trust.issueSeq + 1 ∧ t.trust.hssNext = s.trust.hssNext + 1 ∧
      t = { s with
        trust := { s.trust with
          certs := t.trust.certs, issueSeq := t.trust.issueSeq, hssReserved := t.trust.hssReserved,
          hssNext := t.trust.hssNext, hssPending := t.trust.hssPending }
        objs := t.objs } := by
  intro t
  let newest := (meas, s.certBody meas ++ s.signatures [] (s.certBody meas))
  have certs : t.trust.certs = (s.trust.certs ++ [newest]).drop ((s.trust.certs ++ [newest]).length - 256) := by
    unfold t State.issueCert
    rw [useLeaf_frame]
  have held : t.hasCert meas = true := by
    rw [State.hasCert, certs]
    exact List.any_eq_true.mpr ⟨newest, mem_drop_newest s.trust.certs newest, beq_self_eq_true meas⟩
  refine ⟨held, ?_, ?_, ?_⟩ <;>
  · unfold t State.issueCert
    rw [useLeaf_frame]

theorem execHssTreeGenerate_generates (wanted : s.trust.hssPending = true) (left : (s.trust.hssTree + 1) * hssTreeSize < hssTotal) :
    exec .hssTreeGenerate s = .next { s with trust := { s.trust with hssTree := s.trust.hssTree + 1, hssPending := false } } := by
  show execHssTreeGenerate s = _
  simp only [execHssTreeGenerate, wanted, left, and_self, ↓reduceIte]

theorem execAttestTokenGain_gains (late : s.trust.lastToken + 50000000 ≤ s.now) :
    let s1 : State := { s with trust := { s.trust with
      tokens := min 64 (s.trust.tokens + 1), lastToken := s.trust.lastToken + 50000000 } }
    exec .attestTokenGain s = .next (s1.host.waiting.foldl State.attestNow s1) := by
  intro s1
  show execAttestTokenGain s = _
  rw [execAttestTokenGain, if_neg (Nat.not_lt.mpr late)]

end

/-! ### Commands (R539, R543, R544) -/

section
variable {h : CmdHdr} {s s1 : State} {b : Binding} (served : s.paused = false)
include served

theorem execAttest_waits {nonce : List Byte} (starts : Starts s h 0x0070 anyRole s1 b) (whole : nonce.length = 48)
    (closed : s1.trust.debug ≠ 2) (open_ : s1.trust.gated = false) (left : s1.hssLeft ≠ 0) :
    exec (.attest h nonce) s = .next ((s1.wait (.attest h nonce)).attestNow (.attest h nonce)) := by
  show execAttest h nonce s = _
  rw [execAttest, managed_of_ownOp _ served starts rfl rfl]
  simp only [whole, closed, open_, left, ne_eq, not_true_eq_false, Bool.false_eq_true, or_self, ↓reduceIte]

theorem execFwStage_stages {offset : Nat} {final : Bool} {data : List Byte} (starts : Starts s h 0x0071 custodianRole s1 b)
    (single : s1.trust.stageState ≠ 4) (stable : s1.trust.stageState ≠ 5)
    (follows : offset = 0 ∨ (s1.trust.stageState = 1 ∧ s1.trust.stageOwner = 1 ∧ s1.trust.stageAt = offset))
    (fits : offset + data.length ≤ bankSize) :
    let old := if offset = 0 then [] else s1.trust.bank s1.trust.inactive
    let t1 : TrustSt := { s1.trust.setInactive (old ++ data) with
      stageState := 1, stageOwner := 1, stageAt := offset + data.length,
      stagedMark := if offset = 0 then false else s1.trust.stagedMark }
    let x := if final then t1.finishStage else (t1, 0)
    exec (.fwStage h offset final data) s = .next (State.fanOut s1 (.fwStage h offset final data) h 0x0071 b
      (State.finish { s1 with trust := x.1 } b.slice h x.2 0 [])) := by
  intro old t1 x
  have order : ¬(!decide (offset = 0) ∧ (s1.trust.stageState ≠ 1 ∨ s1.trust.stageOwner ≠ 1 ∨ s1.trust.stageAt ≠ offset)) := by
    rintro ⟨later, apart⟩
    obtain atStart | ⟨state, owner, place⟩ := follows
    · simp [atStart] at later
    · simp [state, owner, place] at apart
  have staged : s1.trust.stage 1 offset final data = x := by
    simp only [TrustSt.stage, single, stable, order, Nat.not_lt.mpr fits, or_self, ↓reduceIte, decide_eq_true_eq]
    rfl
  show execFwStage h offset final data s = _
  rw [execFwStage, managed_of_starts _ served starts rfl, staged]
  rfl

theorem execFwActivate_runs (starts : Starts s h 0x0072 custodianRole s1 b) (alone : s1.oneByOne h 0x0072 b = false)
    (verified : s1.trust.stageState = 2) :
    exec (.fwActivate h) s = .next (
      if !(Config.handoverOk s1.trust.run.handover s1.trust.nextRun.handover) then s1.fail b.slice h 0x0A07
      else State.wait { s1 with trust := { s1.trust with stageState := 4, next := s1.trust.nextRun } } (.activate h)) := by
  show execFwActivate h s = _
  rw [execFwActivate, managed_of_single _ served starts rfl, alone]
  simp only [verified, ne_eq, not_true_eq_false, Bool.false_eq_true, ↓reduceIte]

end

section
variable {s : State} {w : Waiting} {h : CmdHdr} {nonce : List Byte} {b : Binding}

theorem attestNow_answers (bound : s.bindingOf h.pid = some b) (tokens : 16 < s.trust.tokens) (signs : s.canSign = true) :
    let u := (s.unwait (.attest h nonce)).makeReport nonce
    s.attestNow (.attest h nonce) = u.1.finish b.slice h 0 0 u.2 := by
  simp only [State.attestNow, bound, Nat.not_le.mpr tokens, signs, Bool.not_true, Bool.false_eq_true, or_self, ↓reduceIte]

theorem attestNow_waits (bound : s.bindingOf h.pid = some b) (tokens : s.trust.tokens ≤ 16) : s.attestNow (.attest h nonce) = s := by
  simp only [State.attestNow, bound, tokens, true_or, ↓reduceIte]

/-! ### The switch and the trial (R544, R545) -/

theorem activated_frame (s : State) (w : Waiting) : s.activated w = { s with host := (s.activated w).host } := by
  unfold State.activated
  split
  · rw [State.done, finish_frame]
    rfl
  · rfl

theorem foldl_activated_frame (ws : List Waiting) (s : State) :
    ws.foldl State.activated s = { s with host := (ws.foldl State.activated s).host } := by
  have kept (hs : HostSt) : { ws.foldl State.activated s with host := hs } = { s with host := hs } :=
    foldl_keeps (fun t : State => { t with host := hs }) State.activated
      (fun t w => by rw [activated_frame]) ws s
  exact kept _

/-- The state in which the standby pair has taken over on the staged image (R544). -/
def State.switched (s : State) : State :=
  let changed := Config.sha384 (stageText (s.trust.bank s.trust.inactive) 0) != nth s.trust.run.stageMeas 0 []
  { s with
    trust := { s.trust with run := s.trust.next, prev := s.trust.run, stageState := 5, switchAt := s.now, plinthPending := changed }
    quoin := { s.quoin with active := 1 - s.quoin.active } }

theorem execFwStateCopyDone_switches (activates : s.trust.stageState = 4) (standby : s.quoin.standby = true)
    (certified : s.hasCert s.trust.next.measurement = true ∨ s.canSign = false) :
    exec .fwStateCopyDone s = .next (s.switched.startPause.host.waiting.foldl State.activated s.switched.startPause) := by
  have able : (s.hasCert s.trust.next.measurement || !s.canSign) = true := by simpa using certified
  have ready : ¬(s.trust.stageState ≠ 4 ∨ !s.quoin.standby ∨ !(s.hasCert s.trust.next.measurement || !s.canSign)) := by
    simp [activates, standby, able]
  show execFwStateCopyDone s = _
  exact congrArg _ (if_neg ready)

theorem switched_spec (s : State) (ws : List Waiting) :
    let t := ws.foldl State.activated s.switched.startPause
    t.trust.run = s.trust.next ∧ t.trust.prev = s.trust.run ∧ t.trust.stageState = 5 ∧ t.trust.switchAt = s.now ∧
      t.trust.bootBank = s.trust.bootBank ∧ Claims.Pauses s t { s.quoin with active := 1 - s.quoin.active } ∧
      t = { s with trust := t.trust, quoin := t.quoin, host := t.host, free := t.free } := by
  intro t
  have frame : t = { s.switched.startPause with host := t.host } := foldl_activated_frame ..
  have trust : t.trust = s.switched.trust := (congrArg State.trust frame).trans rfl
  have quoin : t.quoin = s.switched.startPause.quoin := (congrArg State.quoin frame).trans rfl
  have pauses : Claims.Pauses s t { s.quoin with active := 1 - s.quoin.active } := by
    obtain ⟨until_, held, least, most⟩ := startPause_pauses s.switched
    exact ⟨until_, quoin.trans held, least, most⟩
  refine ⟨?_, ?_, ?_, ?_, ?_, pauses, ?_⟩
  iterate 5
    rw [trust]
    rfl
  rw [frame]
  rfl

theorem execFwTrialExpiry_expires (trial : s.trust.stageState = 5)
    (late : s.trust.switchAt + s.objNum 0x7010 3 [] 0 600 * 25000000 ≤ s.now) :
    exec .fwTrialExpiry s = .next { s with
      trust := { s.trust with bootBank := s.trust.inactive, stageState := 0, stagedMark := false }
      quoin := { s.quoin with standby := false } } := by
  show execFwTrialExpiry s = _
  simp only [execFwTrialExpiry, trial, Nat.not_lt.mpr late, ne_eq, not_true_eq_false, or_self, ↓reduceIte]

theorem execTrialPairFailure_fences (trial : s.trust.stageState = 5) :
    exec .trialPairFailure s = .next (s.fencePair s.quoin.active) := by
  show execTrialPairFailure s = _
  rw [execTrialPairFailure, if_pos trial]

/-- The trial ends with its pair: the pair on the old image runs, and the image stays verified (R545). -/
theorem fencePair_endsTrial (trial : s.trust.stageState = 5) (sound : s.quoin.active ∉ s.quoin.fenced) :
    (s.fencePair s.quoin.active).trust.run = s.trust.prev ∧ (s.fencePair s.quoin.active).trust.stageState = 2 := by
  have fenced : (s.pairFenced s.quoin.active).trust =
      { s.trust with run := s.trust.prev, stageState := 2, plinthPending := false } := by
    unfold State.pairFenced
    dsimp only
    rw [if_pos ⟨trial, rfl⟩, recovery_frame]
    rfl
  have kept : (s.fencePair s.quoin.active).trust = (s.pairFenced s.quoin.active).trust := by
    rw [fencePair_eq sound]
    split <;> rfl
  rw [kept, fenced]
  exact ⟨rfl, rfl⟩

/-! ### The debug scrub (R546) -/

theorem execDebugScrubDone_scrubs (opens : s.trust.debug = 1) : Answers .debugScrubDone s fun t =>
    t.mem = [] ∧ t.cores = [] ∧ t.ctxs = [] ∧ t.runs = [] ∧ t.tables = [] ∧ t.flowState = [] ∧ t.dg.slots = [] ∧
      (∀ e ∈ t.slices, e.2.kek = none) ∧ t.trust = { s.trust with debug := 2, gated := true } := by
  have scrubs : exec .debugScrubDone s = .next (if s.trust.debug ≠ 1 then s else _) := rfl
  rw [if_neg (not_not_intro opens)] at scrubs
  refine .of_exec scrubs ⟨rfl, rfl, rfl, rfl, rfl, rfl, rfl, fun e member => ?_, rfl⟩
  obtain ⟨x, -, rfl⟩ := List.mem_map.mp member
  rfl

end

/-- Settles O49. That a staging fans out to the members rests on assumption 99 (DESIGN CHOICE), and the inner state 5 at the
switch on assumption 36 (DEDUCED). -/
theorem trustCommandsAndEvents : Obligations.TrustCommandsAndEvents := by
  unfold Obligations.TrustCommandsAndEvents
  refine ⟨?_, ?_, ?_, ?_, ?_, ?_, ?_, ?_, ?_, ?_⟩
  · intro s single measured new signs
    exact .of_exec (execIdentityCertIssue_issues single measured new signs) (issueCert_spec s _)
  · intro h nonce s s1 b served starts whole closed open_ left bound new
    refine .of_exec (execAttest_waits served starts whole closed open_ left) ⟨fun tokens signs => ?_, fun tokens => ?_⟩
    · rw [attestNow_answers (s := s1.wait _) bound tokens signs, wait_unwait new]
      rfl
    · exact attestNow_waits (s := s1.wait _) bound tokens
  · intro s late
    exact .of_exec (execAttestTokenGain_gains late) rfl
  · intro s wanted left
    exact .of_exec (execHssTreeGenerate_generates wanted left) rfl
  · intro h offset final data s s1 b served starts single stable follows fits
    exact .of_exec (execFwStage_stages served starts single stable follows fits) rfl
  · intro h s s1 b served starts alone verified
    refine .of_exec (execFwActivate_runs served starts alone verified) ⟨fun fit => ?_, fun unfit => ?_⟩
    · rw [fit]
      rfl
    · rw [unfit]
      rfl
  · intro s activates standby certified
    exact .of_exec (execFwStateCopyDone_switches activates standby certified) (switched_spec s _)
  · intro s trial late
    exact .of_exec (execFwTrialExpiry_expires trial late) rfl
  · intro s trial sound standby
    obtain ⟨run, state⟩ := fencePair_endsTrial trial sound
    obtain ⟨pauses, -, exposed, bank, -⟩ := fencePair_withdraws sound
    exact .of_exec (execTrialPairFailure_fences trial) ⟨run, state, bank, pauses ⟨rfl, standby⟩, exposed⟩
  · intro s opens
    exact execDebugScrubDone_scrubs opens

end Sys2Proof.Machine
end
